-- ==== Sys2Proof/Word.lean ====
section
/-! DEFINITION. The words the manual computes with: bytes and 32- and 64-bit words (spec/00 R9, R10).
Counts, indices, identifiers and addresses held as keys are natural numbers. -/

namespace Sys2Proof

/-- One byte. -/
abbrev Byte := BitVec 8

/-- A 32-bit word; also the bits of a binary32 value. -/
abbrev W32 := BitVec 32

/-- A 64-bit word. -/
abbrev W64 := BitVec 64

/-- A sparse table: the entries that differ from an absent one, keys strictly rising. -/
abbrev Tab (α : Type) := List (Nat × α)

end Sys2Proof
end

