-- ==== Sys2Proof/Syntax.lean ====
section
/-! DEFINITION. The commands: one constructor of `Instr` for every row of spec/opcode_table.json, with the row's operands.
The table gives no row any bits; the operands are those the row's rule names. Quadrants and stacks are numbered 4d + q,
cores 64d + c, functions 256 × endpoint + function, operations by their admission number. -/

namespace Sys2Proof

/-- Where a Stesto frame comes from and its reply goes: an address and port of the field network (R428), or a mailbox slot
of a PF (R444). -/
inductive Src where
  | net (addr port : Nat)
  | mailbox (ep slot : Nat)
deriving DecidableEq, Repr

/-- The header of an authenticated WRITE frame whose object has a row of its own: session, frame sequence and transaction
(Table STESTO-1). -/
structure Req where
  sid : Nat
  fseq : Nat
  txid : Nat
deriving DecidableEq, Repr

/-- A transport message: the header of Table FAB-2 and its data bytes. -/
structure Msg where
  mtype : Nat
  wgroup : Nat := 0
  dstChip : Nat := 0
  srcChip : Nat := 0
  dstCtx : Nat := 0
  xseq : Nat := 0
  tag : Nat := 0
  parts : Nat := 0
  len : Nat := 0
  addr : Nat := 0
  aux : Nat := 0
  data : List Byte := []
deriving DecidableEq, Repr

/-- What the controller finds when it reads a line: clean, corrected by the code (R175), or uncorrectable (R176). -/
inductive LineErr where
  | clean
  | corrected
  | uncorrectable
deriving DecidableEq, Repr

/-- A part whose corrected errors may cross REGR_CE_LIMIT (Table REGR-2, CE_LIMIT). -/
inductive Part where
  | core (c : Nat)
  | bank (die bank : Nat)
  | row (line : Nat)
deriving DecidableEq, Repr

/-- What the device meters for one operation until it releases: time not executing nor parked awaiting data (R257),
placement to release (Table OPS-8), energy (R82, R83), and whether a quadrant that ran it was throttled (R81) is kept in
State. -/
structure Measured where
  waitNs : Nat
  durationNs : Nat
  energyUj : Nat
deriving DecidableEq, Repr

/-- A configuration request of the host to a function (R396, R397, R399): a read of 32 bits of the header, or of the serial number
of the Device Serial Number capability; the base address of a BAR, 0 or 2; the power state; the MSI-X enable and function mask; one
entry of the MSI-X table, masked or not; Max_Payload_Size in bytes; NumVFs with VF Enable set. -/
inductive CfgReq where
  | read (reg : Nat := 0)
  | serial
  | bar (n base : Nat)
  | power (d3 : Bool)
  | msix (enable mask : Bool)
  | vector (v addr data : Nat) (masked : Bool)
  | payload (bytes : Nat)
  | vfs (n : Nat)
deriving DecidableEq, Repr

/-- The handshakes of one core in an energy interval (R83): those each operation ran, and those of the idle core. -/
structure CoreUse where
  core : Nat
  ran : List (Nat × Nat)
  idle : Nat
deriving DecidableEq, Repr

/-- The energy of one core rail and what its cores did (R83). -/
structure QuadUse where
  uj : Nat
  cores : List CoreUse
deriving DecidableEq, Repr

/-- The energy of a shared part (a stack's DRAM, a Pool, a PCIe or fabric link), and who used it: partition, operation if one did,
bytes or accesses (R83). -/
structure SharedUse where
  uj : Nat
  users : List (Nat × Option Nat × Nat)
deriving DecidableEq, Repr

/-- The commands. An operand with a default tells what the plain event leaves open: a configuration request is a read, REF_LOST a
reference that still runs, a hold series one that ended before its limit. -/
inductive Instr where
  -- input voltage and start-up (R73, R74, R95 to R98)
  | powerGoodRise (clksel : Bool) (mgmtId : Nat)
  | coldReset
  | v48Under (mv : Nat)
  | v48Low (mv : Nat)
  | v48LowTimeout
  | v48High (mv : Nat)
  | v48HighTimeout
  | v48Over (mv : Nat)
  | shutdownRestart
  | crystalOscillation
  | referenceQualified
  | refFault
  | loopsLocked
  | computeRailsInRegulation
  | builtInSelfTest (failedCores failedBanks : List Nat)
  | dramTraining (failed : List (Nat × Nat))
  | pcieLinkTraining (ep width rateMt : Nat) (flit : Bool)
  | fabricTraining (port : Nat)
  | partitionRestore
  | configRequest (fn : Nat) (req : CfgReq := .read)
  | resetNAssert
  | resetNDeassert (clksel : Bool) (mgmtId : Nat)
  | warmReset (req : Req) (value : Nat)
  | partReset (req : Req) (p value : Nat)
  | partResetComplete (p : Nat)
  | functionLevelReset (fn : Nat)
  | perstAssert (ep : Nat)
  | vfEnableClear (ep : Nat)
  | coreReset (req : Req) (c value : Nat)
  | linkReset (req : Req) (port value : Nat)
  -- clocks and operating points (R57 to R67)
  | lossOfLockRoot
  | lossOfLockMemory (die : Nat)
  | refLost (stopped : Bool := false)
  | rootRelock
  | rootRelockFail
  | memRelock (die : Nat)
  | memRelockFail (die : Nat)
  | plevelReqWrite (req : Req) (q value : Nat)
  | sequencerStepUp (q : Nat)
  | railRampDone (q : Nat)
  | railSettleEnd (q : Nat)
  | sequencerStepDown (q : Nat)
  | stepDownWaitEnd (q : Nat)
  -- power, meters and heat (R75 to R92)
  | powerEnvWrite (req : Req) (value : Nat)
  | envPeriodEnd (mw : Nat)
  | envFastRaise (mw : Nat)
  | powerMeasurementUpdate (mv mw : Nat)
  | energyMeterUpdate (pkgUj : Nat) (quads : List QuadUse) (shared : List SharedUse)
  | baskSample (quads piles : List (List (Option Int)))
  | thermalStateExit (stack : Bool) (k : Nat)
  | stackThresholdWrite (req : Req) (hot : Bool) (value : Nat)
  | replicaMeasurement (rates : List Nat)
  -- host queues (R398 to R416)
  | iqDoorbell (fn i value : Nat) (hostBytes : List (Nat × Byte))
  | batchFetch (q : Nat)
  | iqEnable (fn i ctrl : Nat)
  | iqDisable (fn i ctrl : Nat)
  | resume (fn i ctrl : Nat)
  | cqDoorbell (fn j value : Nat)
  | cqEnable (fn j ctrl : Nat)
  | cqDisable (fn j ctrl : Nat)
  | coalTimeExpiry (q : Nat)
  | bar0RegisterWrite (fn off size value : Nat)
  -- the Weir (R223 to R255)
  | admitOp (q : Nat)
  | issue (op : Nat)
  | place (op : Nat)
  | dispatch (op : Nat)
  | wavefrontComplete (c : Nat)
  | stallTimerExpiry (c : Nat) (waves : Nat := 1)
  | arrayStallLimitWrite (req : Req) (value : Nat)
  | preempt (op : Nat)
  | parkRunnable (op : Nat)
  | resumeParked (c : Nat)
  | parkLimitExpiry (op : Nat)
  | release (op : Nat) (m : Measured)
  | cancelOp (req : Req) (value : Nat)
  | cancelFlow (req : Req) (value : Nat)
  | parkLimitWrite (req : Req) (value : Nat)
  | precLockWrite (req : Req) (p value : Nat)
  | readReturn (op addr : Nat)
  -- memory (R156 to R195)
  | dramLineRead (op : Nat) (line : Nat) (err : LineErr)
  | eddyWrite (op addr : Nat) (bytes : List Byte)
  | eddyAgeExpiry (k line : Nat)
  | eddyDrainDone (k line : Nat) (err : LineErr)
  | eddyAgeWrite (req : Req) (value : Nat)
  | scrubPass (k : Nat) (corrected : List Nat)
  | refresh (k : Nat)
  | fenceComplete (op : Nat)
  | flagHoldExpiry (ctx xseq : Nat)
  | flagHoldLimitWrite (req : Req) (value : Nat)
  | fence (op : Nat)
  -- operators
  | copy (op : Nat)
  | matmul (op : Nat)
  | matmulT (op : Nat)
  | attn (op : Nat)
  | attnScore (op : Nat)
  | attnSoftmax (op : Nat)
  | attnMerge (op : Nat)
  | attnNorm (op : Nat)
  | kvAppend (op : Nat)
  | recCell (op : Nat)
  | recScan (op : Nat)
  | scanCarry (op : Nat)
  | branchNew (op : Nat)
  | fork (op : Nat)
  | forkRetire (op : Nat)
  | prune (op : Nat)
  | select (op : Nat)
  | pageAlloc (op : Nat)
  | pageDrop (op : Nat)
  | conv (op : Nat)
  | s2d (op : Nat)
  | d2s (op : Nat)
  | pool (op : Nat)
  | boxDecode (op : Nat)
  | nms (op : Nat)
  | sort (op : Nat)
  | gather (op : Nat)
  | scatter (op : Nat)
  | put (op : Nat)
  | putFlag (op : Nat)
  | allReduce (op : Nat)
  | reduceScatter (op : Nat)
  | allGather (op : Nat)
  | barrier (op : Nat)
  | ringPass (op : Nat)
  -- fabric link layer (R357 to R364)
  | dataFlitReceive (port : Nat) (flit : List Byte)
  | holdFlit (port : Nat) (flit : List Byte := [])
  | replayLimit (port : Nat) (lane : Nat := 0)
  | laneRepairDone (port : Nat) (received : Option Nat := none)
  | portDown (port : Nat)
  | portRetrain (port : Nat)
  | holdFlitSend (port : Nat)
  | idleFlitSend (port : Nat)
  | holdSeriesEnd (capped : Bool := false)
  | holdMessageSend (port : Nat)
  -- transport messages received (Table FAB-3)
  | writeMsg (m : Msg)
  | flagMsg (m : Msg)
  | readReq (m : Msg)
  | readResp (m : Msg)
  | ack (m : Msg)
  | nack (m : Msg)
  | flagAck (m : Msg)
  | ready (m : Msg)
  | segment (m : Msg)
  | mismatch (m : Msg)
  | openMsg (m : Msg)
  | closeMsg (m : Msg)
  | holdMsg (m : Msg)
  | pace (m : Msg)
  | depart (m : Msg) (port : Nat) (vc : Nat := 0)
  | join (m : Msg) (port : Nat) (vc : Nat := 0)
  -- transport and collective timers and sends (R365, R371, R386, R388)
  | xportTimeoutExpiry (ctx xseq : Nat)
  | collTimeoutExpiry (op : Nat)
  | paceSend (group : Nat)
  | openResend (ctx : Nat)
  -- fabric and partition objects with rows of their own
  | ctxOpen (req : Req) (value : Nat)
  | ctxClose (req : Req) (value : Nat)
  | collGroupCfgWrite (req : Req) (group value : Nat)
  | chipIdWrite (req : Req) (value : Nat)
  | partCtrlCreate (req : Req) (p : Nat)
  | partCtrlDestroy (req : Req) (p : Nat)
  -- Stesto (R427 to R448)
  | discover (src : Src) (frame : List Byte)
  | sessionOpen (src : Src) (frame : List Byte)
  | sessionProve (src : Src) (frame : List Byte)
  | stestoClose (src : Src) (frame : List Byte)
  | closeReply (src : Src) (frame : List Byte)
  | stestoRead (src : Src) (frame : List Byte)
  | stestoWrite (src : Src) (frame : List Byte)
  | notifyAck (src : Src) (frame : List Byte)
  | notifyRetransmit (sid txid : Nat)
  | sessionIdleExpiry (sid : Nat)
  | lockoutExpiry (src : Src)
  | sessionKill (req : Req) (value : Nat)
  | keyMaterialWrite (req : Req) (slot : Nat) (key : List Byte)
  | neighbourSolicitation (src : Src) (target : List Byte)
  | icmpv6Echo (src : Src) (data : List Byte)
  | duplicateAddressDetection (conflict : Bool)
  | mbSubmit (ep value : Nat) (frame : List Byte)
  | mbRelease (ep value : Nat)
  | mbNotifyFree (ep value : Nat)
  | persistCommit
  -- faults and Regrowth (R449 to R466)
  | coreCheck (c : Nat)
  | ceLimit (part : Part)
  | coreRetire (req : Req) (c value : Nat)
  | plannedRetirementProceed (c : Nat)
  | spareMappingDone (c : Nat) (failedSpares : List Nat)
  | poolBankCopyDone (die bank : Nat)
  | dramRowRepairDone (line : Nat)
  | pseudoChannelMoveDone (k channel : Nat) (unreadable : List Nat) (retrained : Bool := false)
  | pcRetire (req : Req) (k value : Nat)
  | pcRelayDone (k : Nat)
  | spawnUe (p : Nat)
  | fatalStop (cause : Nat)
  | errLogClear (req : Req) (value : Nat)
  | fwBlock (req : Req) (block : List Byte)
  | fwCommit (req : Req) (value : Nat)
  | fwActivate (req : Req) (value : Nat)
  | firmwareReady
  | fwRevert
  | mgmtWatchdog
  | svcDepart (req : Req) (value : Nat)
  -- boundary scan (R481 to R484)
  | extest (bits : List Bool := [])
  | samplePreload (bits : List Bool)
  | idcode
  | clamp
  | highz
  | bypass (code : Nat)
  | testLogicReset (clksel : Bool) (mgmtId : Nat)
  -- rows the table lists last
  | v48Normal (mv : Nat)
  | loopLockFailure
  | railFailure
  | perstDeassert (ep : Nat)
  | pcieLinkLoss (ep : Nat)
  | idleFlit (port : Nat) (flit : List Byte)
  | poolUe (line : Nat)
deriving DecidableEq, Repr

end Sys2Proof
end

