-- ==== Sys2Proof/WellFormed.lean ====
section
/-! DEFINITION. Which commands are well formed: every operand within the numbering the manual gives the part it names
(spec/00 R7, R8; spec/01 Table PKG-2; spec/17; spec/18). A meaning leaves State unchanged for an operand outside it. -/

namespace Sys2Proof

/-- A quadrant 4d + q, or a stack 4d + k. -/
def quadOk (q : Nat) : Bool := decide (q < 8)

/-- A logical core 64d + c. -/
def coreOk (c : Nat) : Bool := decide (c < 128)

/-- A fabric port. -/
def portOk (n : Nat) : Bool := decide (n < 16)

/-- A PCIe endpoint. -/
def epOk (e : Nat) : Bool := decide (e < 2)

/-- A function 256 × endpoint + function: the PF is 0, the VFs are 1 to 127 (R396). -/
def fnOk (f : Nat) : Bool := decide (f < 512) && decide (f % 256 ≤ 127)

/-- A partition. -/
def partOk (p : Nat) : Bool := decide (p < 128)

/-- The header of an authenticated frame (Table STESTO-1). -/
def Req.wf (r : Req) : Bool := decide (0 < r.sid ∧ r.sid < 65536 ∧ r.fseq < 2 ^ 32 ∧ r.txid < 65536)

/-- The header of a transport message (Table FAB-2) and its data length. -/
def Msg.wf (m : Msg) : Bool :=
  decide (m.mtype < 256 ∧ m.wgroup < 256 ∧ m.dstChip < 1024 ∧ m.srcChip < 1024 ∧ m.dstCtx < 65536 ∧ m.xseq < 2 ^ 32 ∧
    m.tag < 2 ^ 32 ∧ m.parts < 65536 ∧ m.len < 65536 ∧ m.addr < 2 ^ 64 ∧ m.aux < 2 ^ 32)

/-- The mailbox slot or address a frame comes from. -/
def Src.wf : Src → Bool
  | .net _ port => decide (port < 65536)
  | .mailbox e slot => decide (e < 2 ∧ slot < 4)

/-- The rule on a command's operands. -/
def Instr.wf : Instr → Bool
  | .powerGoodRise _ id => decide (id < 32)
  | .resetNDeassert _ id => decide (id < 32)
  | .testLogicReset _ id => decide (id < 32)
  | .builtInSelfTest cores banks => cores.all (fun c => decide (c < 136)) && banks.all (fun b => decide (b < 100))
  | .dramTraining f => f.all (fun p => decide (p.1 < 8 ∧ p.2 < 34))
  | .pcieLinkTraining e _ _ _ => epOk e
  | .fabricTraining n => portOk n
  | .configRequest f _ => fnOk f
  | .warmReset r _ => r.wf
  | .partReset r p _ => r.wf && partOk p
  | .partResetComplete p => partOk p
  | .functionLevelReset f => fnOk f
  | .perstAssert e => epOk e
  | .perstDeassert e => epOk e
  | .vfEnableClear e => epOk e
  | .pcieLinkLoss e => epOk e
  | .coreReset r c _ => r.wf && coreOk c
  | .linkReset r n _ => r.wf && portOk n
  | .lossOfLockMemory d => decide (d < 2)
  | .memRelock d => decide (d < 2)
  | .memRelockFail d => decide (d < 2)
  | .plevelReqWrite r q _ => r.wf && quadOk q
  | .sequencerStepUp q => quadOk q
  | .railRampDone q => quadOk q
  | .railSettleEnd q => quadOk q
  | .sequencerStepDown q => quadOk q
  | .stepDownWaitEnd q => quadOk q
  | .powerEnvWrite r _ => r.wf
  | .thermalStateExit _ i => quadOk i
  | .energyMeterUpdate _ quads _ => quads.all (fun q => q.cores.all (fun x => coreOk x.core))
  | .stackThresholdWrite r _ _ => r.wf
  | .iqDoorbell f i _ _ => fnOk f && decide (i < 4096)
  | .iqEnable f i _ => fnOk f && decide (i < 4096)
  | .iqDisable f i _ => fnOk f && decide (i < 4096)
  | .resume f i _ => fnOk f && decide (i < 4096)
  | .cqDoorbell f j _ => fnOk f && decide (j < 4096)
  | .cqEnable f j _ => fnOk f && decide (j < 4096)
  | .cqDisable f j _ => fnOk f && decide (j < 4096)
  | .bar0RegisterWrite f _ size _ => fnOk f && [1, 2, 4, 8].contains size
  | .batchFetch q => decide (q < 4096)
  | .admitOp q => decide (q < 4096)
  | .coalTimeExpiry q => decide (q < 4096)
  | .wavefrontComplete c => coreOk c
  | .stallTimerExpiry c _ => coreOk c
  | .resumeParked c => coreOk c
  | .arrayStallLimitWrite r _ => r.wf
  | .cancelOp r _ => r.wf
  | .cancelFlow r _ => r.wf
  | .parkLimitWrite r _ => r.wf
  | .precLockWrite r p _ => r.wf && partOk p
  | .dramLineRead _ line _ => decide (line % 256 = 0)
  | .eddyAgeExpiry k _ => quadOk k
  | .eddyDrainDone k _ _ => quadOk k
  | .eddyAgeWrite r _ => r.wf
  | .scrubPass k _ => quadOk k
  | .refresh k => quadOk k
  | .flagHoldLimitWrite r _ => r.wf
  | .dataFlitReceive n f => portOk n && decide (f.length = 256)
  | .idleFlit n f => portOk n && decide (f.length = 256)
  | .holdFlit n f => portOk n && decide (f.length = 256)
  | .replayLimit n l => portOk n && decide (l < 5)
  | .laneRepairDone n => portOk n
  | .portDown n => portOk n
  | .portRetrain n => portOk n
  | .holdFlitSend n => portOk n
  | .idleFlitSend n => portOk n
  | .holdMessageSend n => portOk n
  | .writeMsg m => m.wf
  | .flagMsg m => m.wf
  | .readReq m => m.wf
  | .readResp m => m.wf
  | .ack m => m.wf
  | .nack m => m.wf
  | .flagAck m => m.wf
  | .ready m => m.wf
  | .segment m => m.wf
  | .mismatch m => m.wf
  | .openMsg m => m.wf
  | .closeMsg m => m.wf
  | .holdMsg m => m.wf
  | .pace m => m.wf
  | .depart m n v => m.wf && portOk n && decide (v < 2)
  | .join m n v => m.wf && portOk n && decide (v < 2)
  | .paceSend g => decide (g < 16)
  | .ctxOpen r _ => r.wf
  | .ctxClose r _ => r.wf
  | .collGroupCfgWrite r g _ => r.wf && decide (g < 16)
  | .chipIdWrite r _ => r.wf
  | .partCtrlCreate r p => r.wf && partOk p
  | .partCtrlDestroy r p => r.wf && partOk p
  | .discover src _ => src.wf
  | .sessionOpen src _ => src.wf
  | .sessionProve src _ => src.wf
  | .stestoClose src _ => src.wf
  | .closeReply src _ => src.wf
  | .stestoRead src _ => src.wf
  | .stestoWrite src _ => src.wf
  | .notifyAck src _ => src.wf
  | .lockoutExpiry src => src.wf
  | .neighbourSolicitation src _ => src.wf
  | .icmpv6Echo src _ => src.wf
  | .sessionKill r _ => r.wf
  | .keyMaterialWrite r slot key => r.wf && decide (slot < 16 ∧ key.length = 32)
  | .mbSubmit e _ f => epOk e && decide (f.length ≤ 512)
  | .mbRelease e _ => epOk e
  | .mbNotifyFree e _ => epOk e
  | .coreCheck c => coreOk c
  | .coreRetire r c _ => r.wf && coreOk c
  | .plannedRetirementProceed c => coreOk c
  | .spareMappingDone c f => coreOk c && f.all (fun x => decide (x < 136))
  | .poolBankCopyDone d b => decide (d < 2 ∧ b < 48)
  | .pseudoChannelMoveDone k c _ => quadOk k && decide (c < 34)
  | .pcRetire r k _ => r.wf && quadOk k
  | .pcRelayDone k => quadOk k
  | .spawnUe p => partOk p
  | .errLogClear r _ => r.wf
  | .fwBlock r _ => r.wf
  | .fwCommit r _ => r.wf
  | .fwActivate r _ => r.wf
  | .svcDepart r _ => r.wf
  | .bypass code => decide (code < 256)
  | _ => true

end Sys2Proof
end

