-- ==== Sys2Proof/Config.lean ====
section
/-! DEFINITION. What the manual leaves open, as constants without a body: nothing can be proved about the value of one.
Each is applied to the operands it may depend on, or to a counter of State for a fresh value. -/

namespace Sys2Proof.Config

open Sys2Proof

/-- The byte that memory holds at an address nothing has written since the reset numbered by the first argument
(Table BOOT-2: contents unspecified). Log 4. -/
opaque unwrittenByte : Nat → Nat → Byte

/-- A byte of a region the manual calls unspecified (Table OPS-9, R325), by a fresh number and the address. Log 5. -/
opaque freeByte : Nat → Nat → Byte

/-- A landed counter the manual calls undefined (R195), by a fresh number. Log 5. -/
opaque freeCounter : Nat → Nat

/-- The device nonce Nd of a challenge (R436), by the number of nonces drawn before. Log 5. -/
opaque nonce : Nat → List Byte

/-- The hash of DST_CTX and XSEQ that chooses a port of a group (R373). Log 13. -/
opaque portHash : Nat → Nat → Nat

/-- The receive-buffer credits a peer grants a port when it trains, by port and virtual channel: Table FAB-1 names the credits
returned and not how many there are. Log 57. -/
opaque linkCredits : Nat → Nat → Nat

/-- 32 bits of a function's configuration header that Table HOST-1 and Table HOST-2 say nothing of, by function and offset. Log 58. -/
opaque cfgHeader : Nat → Nat → Nat

/-- The bank of its pseudo-channel that holds a DRAM row, by the device address of the row: Table REGR-4 counts spare rows by bank and
no manual says which rows a bank holds. Log 69. -/
opaque rowBank : Nat → Nat

/-- A lane of a core's vector registers after an operation that has used them, by a fresh number and 64 × register + lane: no manual says
what they hold then. Log 62. -/
opaque vectorLane : Nat → Nat → W32

/-- The CRC-32 that READY carries over the member list, OPC, N, REDOP and FMT0 (R381). Log 13. -/
opaque readyCrc : List Nat → Nat → Nat → Nat → Nat → Nat

/-- Whether a firmware image passes the digest and signature checks of R462. Log 14. -/
opaque imageVerifies : Tab (List Byte) → Bool

/-- The rollback number an image carries (R462). Log 14. -/
opaque imageRollback : Tab (List Byte) → Nat

/-- The version string an image carries (Table REGR-6). Log 14. -/
opaque imageVersion : Tab (List Byte) → List Byte

/-- How far, in units in the last place, a tail's result lies from the rounded reference (R215), by the tail's code and
its input. Only its value within the bound of R215 is used. Log 15. -/
opaque tailSlack : Nat → W32 → Nat

/-- The same for a rotated element (R280), by position, pair, pair count, rotary base and which of the two elements. Log 15. -/
opaque rotSlack : Nat → Nat → Nat → W32 → Nat → W32 → W32 → Nat

/-- The quiet NaN written where the manual says no more than "a quiet NaN", by a site number and the inputs: its sign and
its payload below the quiet bit. Log 16. -/
opaque nanPayload : Nat → W32 → W32 → Nat

/-- The scale of an LG16 state row whose codes have all become NaR because the scale would leave its range (R300), by the
scale before and the step. Log 20. -/
opaque lostScale : Int → Int → Int

end Sys2Proof.Config
end

