-- ==== Sys2Proof/Machine/Bits.lean ====
section
/-! DEFINITION. Bit fields (spec/00 R9), little-endian byte order (R10), and the operations of sparse tables. -/

namespace Sys2Proof.Machine

open Sys2Proof

/-- Field [hi:lo] of a word (R9). -/
def field (w hi lo : Nat) : Nat := (w >>> lo) % 2 ^ (hi + 1 - lo)

/-- A word with field [hi:lo] replaced. -/
def setField (w hi lo v : Nat) : Nat :=
  w - (field w hi lo) * 2 ^ lo + (v % 2 ^ (hi + 1 - lo)) * 2 ^ lo

/-- A word with bit `i` set to `b`. -/
def setBit (w i : Nat) (b : Bool) : Nat := setField w i i (if b then 1 else 0)

/-- The number that bytes spell, the first the least significant (R10). -/
def leNat : List Byte → Nat
  | [] => 0
  | b :: r => b.toNat + 256 * leNat r

/-- The `n` bytes of a number, the least significant first (R10). -/
def leBytes : Nat → Nat → List Byte
  | 0, _ => []
  | n + 1, v => BitVec.ofNat 8 v :: leBytes n (v / 256)

/-- `n` bytes of a list from offset `off`, zero beyond its end. -/
def slice (b : List Byte) (off n : Nat) : List Byte :=
  (List.range n).map (fun i => b.getD (off + i) 0)

/-- The little-endian number of `n` bytes at offset `off`. -/
def numAt (b : List Byte) (off n : Nat) : Nat := leNat (slice b off n)

/-- Quotient rounded up. -/
def ceilDiv (a b : Nat) : Nat := (a + b - 1) / b

/-- `a` rounded up to a multiple of `b`. -/
def roundUp (a b : Nat) : Nat := ceilDiv a b * b

/-- Addition that saturates at `top`. -/
def satAdd (top a b : Nat) : Nat := if a + b ≤ top then a + b else top

/-- The largest 32-bit number, where the manual's counters saturate. -/
def max32 : Nat := 0xFFFFFFFF

/-- The value of a key, if the table lists it. -/
def tabGet? {α : Type} : Tab α → Nat → Option α
  | [], _ => none
  | (k, v) :: r, i => if k = i then some v else tabGet? r i

/-- The value of a key, or `d` where the table lists none. -/
def tabGet {α : Type} (d : α) (t : Tab α) (i : Nat) : α := (tabGet? t i).getD d

/-- The table with `v` at key `i`; the keys stay in rising order. -/
def tabPut {α : Type} : Tab α → Nat → α → Tab α
  | [], i, v => [(i, v)]
  | (k, u) :: r, i, v =>
    if i < k then (i, v) :: (k, u) :: r
    else if i = k then (i, v) :: r
    else (k, u) :: tabPut r i v

/-- The table without key `i`. -/
def tabDel {α : Type} : Tab α → Nat → Tab α
  | [], _ => []
  | (k, u) :: r, i => if k = i then r else (k, u) :: tabDel r i

/-- Consecutive keys from `i` given the values of a list. -/
def tabPutAll {α : Type} : Tab α → Nat → List α → Tab α
  | t, _, [] => t
  | t, i, v :: r => tabPutAll (tabPut t i v) (i + 1) r

/-- Keys strictly rising: the canonical form of a table. -/
def tabSorted {α : Type} : Tab α → Bool
  | [] => true
  | [_] => true
  | (i, _) :: (j, v) :: r => decide (i < j) && tabSorted ((j, v) :: r)

/-- The set bits of a number below `n`, ascending. -/
def bitList (w n : Nat) : List Nat := (List.range n).filter (fun i => w.testBit i)

/-- How many bits below `n` are set. -/
def popCount (w n : Nat) : Nat := (bitList w n).length

/-- Insertion of a word into an ascending list without repeats. -/
def insertAsc : List Nat → Nat → List Nat
  | [], x => [x]
  | y :: r, x => if x < y then x :: y :: r else if x = y then y :: r else y :: insertAsc r x

/-- Whether any two of a list are equal. -/
def hasRepeat : List Nat → Bool
  | [] => false
  | x :: r => r.contains x || hasRepeat r

/-- Whether a list is strictly ascending. -/
def ascending : List Nat → Bool
  | [] => true
  | [_] => true
  | x :: y :: r => decide (x < y) && ascending (y :: r)

end Sys2Proof.Machine
end

