-- ==== Sys2Proof/Machine/Float.lean ====
section
/-! DEFINITION. IEEE 754 values and the binary32 arithmetic of arrays, Rill and vector unit: round to nearest, ties to
even, with subnormals and overflow to infinity (R147, R150, R214, R302). -/

namespace Sys2Proof.Machine

open Sys2Proof

/-- A floating value: a quiet NaN with its open sign and payload bits, an infinity, or (−1)^neg × m × 2^e. -/
inductive FVal where
  | nan (payload : Nat)
  | inf (neg : Bool)
  | fin (neg : Bool) (m : Nat) (e : Int)
deriving DecidableEq, Repr

/-- A binary format: exponent bits and fraction bits. -/
structure FFmt where
  ebits : Nat
  mbits : Nat
deriving DecidableEq, Repr

/-- binary32, binary16 and bfloat16 (Table OPS-3). -/
def f32 : FFmt := ⟨8, 23⟩
def f16 : FFmt := ⟨5, 10⟩
def bf16 : FFmt := ⟨8, 7⟩

/-- The exponent of the least significant bit of a subnormal. -/
def FFmt.qmin (t : FFmt) : Int := 2 - (2 ^ (t.ebits - 1) : Nat) - (t.mbits : Nat)

/-- The positive zero. -/
def fzero : FVal := .fin false 0 0

/-- The number one. -/
def fone : FVal := .fin false 1 0

/-- The value that the bits of a format denote. -/
def fdecode (t : FFmt) (w : Nat) : FVal :=
  let neg := w.testBit (t.ebits + t.mbits)
  let e := field w (t.ebits + t.mbits - 1) t.mbits
  let m := field w (t.mbits - 1) 0
  if e = 2 ^ t.ebits - 1 then
    (if m = 0 then .inf neg
     else .nan (if t.mbits = 23 then w % 2 ^ 22 + (if neg then 2 ^ 22 else 0)
       else Config.nanPayload 12 (BitVec.ofNat 32 w) (BitVec.ofNat 32 t.mbits)))
  else if e = 0 then .fin neg m t.qmin
  else .fin neg (2 ^ t.mbits + m) (t.qmin + ((e - 1 : Nat) : Int))

/-- (−1)^neg × m × 2^e rounded to a format, to nearest with ties to even; overflow gives an infinity. -/
def fround (t : FFmt) (neg : Bool) (m : Nat) (e : Int) : FVal :=
  if m = 0 then .fin neg 0 0
  else
    let top : Int := e + (Nat.log2 m : Nat) - (t.mbits : Nat)
    let q : Int := max top t.qmin
    let r : Nat :=
      if q ≤ e then m <<< (e - q).toNat
      else
        let s := (q - e).toNat
        let k := m >>> s
        let rem := m % 2 ^ s
        if rem > 2 ^ (s - 1) ∨ (rem = 2 ^ (s - 1) ∧ k % 2 = 1) then k + 1 else k
    let maxq : Int := t.qmin + ((2 ^ t.ebits - 3 : Nat) : Int)
    if q > maxq ∨ (q = maxq ∧ r ≥ 2 ^ (t.mbits + 1)) then .inf neg
    else if r ≥ 2 ^ (t.mbits + 1) then .fin neg (r / 2) (q + 1) else .fin neg r q

/-- The bits of a value in a format, after rounding to it. A NaN is quiet; its sign and payload are the open ones. -/
def fencode (t : FFmt) (v : FVal) : Nat :=
  let top := t.ebits + t.mbits
  match v with
  | .nan p =>
    let p := if t.mbits = 23 then p else Config.nanPayload 13 (BitVec.ofNat 32 p) (BitVec.ofNat 32 t.mbits)
    ((p / 2 ^ 22) % 2) * 2 ^ top + (2 ^ t.ebits - 1) * 2 ^ t.mbits + 2 ^ (t.mbits - 1) + p % 2 ^ (t.mbits - 1)
  | .inf neg => (if neg then 2 ^ top else 0) + (2 ^ t.ebits - 1) * 2 ^ t.mbits
  | .fin neg m e =>
    let s := if neg then 2 ^ top else 0
    match fround t neg m e with
    | .inf _ => s + (2 ^ t.ebits - 1) * 2 ^ t.mbits
    | .nan _ => s
    | .fin _ r q =>
      if r = 0 then s
      else
        -- bring the significand to the position of the format
        let k := Nat.log2 r
        let e' : Int := max (q + (k : Nat) - (t.mbits : Nat)) t.qmin
        let r' := if q ≤ e' then r >>> (e' - q).toNat else r <<< (q - e').toNat
        if r' < 2 ^ t.mbits then s + r'
        else s + ((e' - t.qmin).toNat + 1) * 2 ^ t.mbits + (r' - 2 ^ t.mbits)

/-- A value rounded to binary32. -/
def toF32 : FVal → FVal
  | .fin neg m e => fround f32 neg m e
  | v => v

/-- A quiet NaN whose sign and payload the manual leaves open, drawn for a site and its operands (log 16). -/
def openNan (site : Nat) (a b : FVal) : FVal :=
  .nan (Config.nanPayload site (BitVec.ofNat 32 (fencode f32 a)) (BitVec.ofNat 32 (fencode f32 b)))

/-- The quiet NaN 0x7FC0_0000 of Table LOG-3. -/
def arrayNan : FVal := .nan 0

def fneg : FVal → FVal
  | .fin n m e => .fin (!n) m e
  | .inf n => .inf (!n)
  | .nan p => .nan p

def isNan : FVal → Bool
  | .nan _ => true
  | _ => false

def isFinite : FVal → Bool
  | .fin _ _ _ => true
  | _ => false

def isZero : FVal → Bool
  | .fin _ m _ => m = 0
  | _ => false

/-- The signed integer m × 2^(e − q) of a finite value, for q at most e. -/
def scaled (neg : Bool) (m : Nat) (e q : Int) : Int :=
  let k : Int := ((m <<< (e - q).toNat : Nat) : Int)
  if neg then -k else k

/-- Exact sum of two finite values, rounded to binary32 (R147). -/
def faddFin (n₁ : Bool) (m₁ : Nat) (e₁ : Int) (n₂ : Bool) (m₂ : Nat) (e₂ : Int) : FVal :=
  if m₁ = 0 ∧ m₂ = 0 then .fin (n₁ && n₂) 0 0
  else
    let q := min e₁ e₂
    let v := scaled n₁ m₁ e₁ q + scaled n₂ m₂ e₂ q
    fround f32 (decide (v < 0)) v.natAbs q

/-- binary32 addition. -/
def fadd (a b : FVal) : FVal :=
  match a, b with
  | .nan _, _ => openNan 0 a b
  | _, .nan _ => openNan 0 a b
  | .inf n, .inf k => if n = k then .inf n else openNan 0 a b
  | .inf n, .fin _ _ _ => .inf n
  | .fin _ _ _, .inf n => .inf n
  | .fin n m e, .fin n' m' e' => faddFin n m e n' m' e'

/-- binary32 subtraction. -/
def fsub (a b : FVal) : FVal := fadd a (fneg b)

/-- binary32 multiplication. -/
def fmul (a b : FVal) : FVal :=
  match a, b with
  | .nan _, _ => openNan 1 a b
  | _, .nan _ => openNan 1 a b
  | .inf n, .inf k => .inf (n != k)
  | .inf n, .fin k m _ => if m = 0 then openNan 1 a b else .inf (n != k)
  | .fin k m _, .inf n => if m = 0 then openNan 1 a b else .inf (n != k)
  | .fin n m e, .fin n' m' e' => fround f32 (n != n') (m * m') (e + e')

/-- The quotient of two positive significands as a significand with two guard bits and a sticky bit. -/
def quotSticky (m : Nat) (e : Int) (m' : Nat) (e' : Int) : Nat × Int :=
  let s := Nat.log2 m' + 32
  let n := m <<< s
  (2 * (n / m') + (if n % m' = 0 then 0 else 1), e - e' - (s : Nat) - 1)

/-- binary32 division. -/
def fdiv (a b : FVal) : FVal :=
  match a, b with
  | .nan _, _ => openNan 2 a b
  | _, .nan _ => openNan 2 a b
  | .inf _, .inf _ => openNan 2 a b
  | .inf n, .fin k _ _ => .inf (n != k)
  | .fin n _ _, .inf k => .fin (n != k) 0 0
  | .fin n m e, .fin n' m' e' =>
    if m' = 0 then (if m = 0 then openNan 2 a b else .inf (n != n'))
    else
      let q := quotSticky m e m' e'
      fround f32 (n != n') q.1 q.2

/-- Order of two values; false where either is NaN. −0.0 equals +0.0. -/
def flt (a b : FVal) : Bool :=
  match a, b with
  | .nan _, _ => false
  | _, .nan _ => false
  | .inf n, .inf k => n && !k
  | .inf n, .fin _ _ _ => n
  | .fin _ _ _, .inf k => !k
  | .fin n m e, .fin n' m' e' => let q := min e e'; decide (scaled n m e q < scaled n' m' e' q)

def feq (a b : FVal) : Bool := !(isNan a) && !(isNan b) && !(flt a b) && !(flt b a)
def fle (a b : FVal) : Bool := flt a b || feq a b
def fgt (a b : FVal) : Bool := flt b a

/-- Maximum and minimum for values that are not NaN; the first where they are equal. A NaN operand gives NaN. -/
def fmax (a b : FVal) : FVal := if isNan a || isNan b then openNan 3 a b else if flt a b then b else a
def fmin (a b : FVal) : FVal := if isNan a || isNan b then openNan 4 a b else if flt b a then b else a

/-- Ordering of values with −0.0 below +0.0, as the collectives' MAX and MIN take it (R383). -/
def fltSigned (a b : FVal) : Bool :=
  match a, b with
  | .fin n 0 _, .fin k 0 _ => n && !k
  | _, _ => flt a b

/-- The value of a bit pattern of binary32. -/
def f32Of (w : Nat) : FVal := fdecode f32 w

/-- The small integer as a value. -/
def fofInt (i : Int) : FVal := .fin (decide (i < 0)) i.natAbs 0

/-- The binary32 value at most `n` units in the last place from `v`, chosen by the open number `slack`. -/
def nudge (n slack : Nat) (v : FVal) : FVal :=
  match v with
  | .fin neg m e =>
    let b := fencode f32 (.fin false m e) + slack % (2 * n + 1) - n
    let b := min b (0xFF * 2 ^ 23 - 1)
    match fdecode f32 b with
    | .fin _ m' e' => .fin neg m' e'
    | w => w
  | w => w

end Sys2Proof.Machine
end

