-- ==== Sys2Proof/Machine/Logfmt.lean ====
section
/-! DEFINITION. The log formats LG8, LG12 and LG16, their products and the conversions to and from linear form
(spec/07 R139 to R150). -/

namespace Sys2Proof.Machine

open Sys2Proof

/-- A log format: fractional bits f, magnitude field bits, and the mantissa bits q after conversion (Tables LOG-1, LOG-2). -/
structure LFmt where
  f : Nat
  mag : Nat
  q : Nat
deriving DecidableEq, Repr

def lg8 : LFmt := ⟨3, 7, 12⟩
def lg12 : LFmt := ⟨6, 11, 16⟩
def lg16 : LFmt := ⟨9, 15, 20⟩

/-- A log value: ZERO, NaR, or (−1)^neg × 2^(m / 2^f). -/
inductive LVal where
  | zero
  | nar
  | val (neg : Bool) (m : Int)
deriving DecidableEq, Repr

/-- The largest magnitude field; the smallest is its negation (R139: the most negative field is reserved). -/
def LFmt.maxM (t : LFmt) : Int := ((2 ^ (t.mag - 1) : Nat) : Int) - 1

/-- The code of ZERO, and of NaR with the sign bit (Table LOG-1). -/
def LFmt.special (t : LFmt) : Nat := 2 ^ (t.mag - 1)

/-- The value a code denotes; bits above the sign are ignored (R139, R140). -/
def ldecode (t : LFmt) (w : Nat) : LVal :=
  let neg := w.testBit t.mag
  let m := w % 2 ^ t.mag
  if m = t.special then (if neg then .nar else .zero)
  else .val neg (if m < t.special then (m : Nat) else ((m : Nat) : Int) - ((2 ^ t.mag : Nat) : Int))

/-- The code of a value whose magnitude field lies in range. -/
def lencode (t : LFmt) : LVal → Nat
  | .zero => t.special
  | .nar => 2 ^ t.mag + t.special
  | .val neg m => (if neg then 2 ^ t.mag else 0) + (m % ((2 ^ t.mag : Nat) : Int)).toNat

/-- A magnitude brought into the range of a format (R142, Table LOG-4): above it the largest; below it by more than half a
step ZERO, by half a step or less the smallest. `below` says that a magnitude under the smallest lies within half a step. -/
def lclamp (t : LFmt) (neg : Bool) (m : Int) (below : Bool) : LVal :=
  if m > t.maxM then .val neg t.maxM
  else if m < -t.maxM then (if below then .val neg (-t.maxM) else .zero)
  else .val neg m

/-- The largest n with n^(2^f) at most 2^(a × 2^f + k), that is ⌊2^(a + k / 2^f)⌋, for k below 2^f: bits are tried from the
highest down. -/
def pow2Search (f target : Nat) : Nat → Nat → Nat
  | 0, n => n
  | i + 1, n =>
    let n' := n + 2 ^ i
    pow2Search f target i (if n' ^ 2 ^ f ≤ target then n' else n)

/-- 2^(a + k / 2^f) rounded to nearest, for k below 2^f. -/
def pow2Round (f a k : Nat) : Nat :=
  (pow2Search f (2 ^ ((a + 1) * 2 ^ f + k)) (a + 1) (2 ^ (a + 1)) + 1) / 2

/-- The 28-bit fraction of the converter's table entry for F = k / 2^f. -/
def tableFraction (t : LFmt) (k : Nat) : Nat := pow2Round t.f 28 k - 2 ^ 28

/-- The 64-bit draw of R146 for seed, tile index, array, activation row, K index and column: its top 28 − q bits. -/
def draw (q seed tile a m k j : Nat) : Nat :=
  let key := ((seed % 2 ^ 32) <<< 32) ^^^ ((tile % 2 ^ 30) <<< 2) ^^^ a
  let ctr := (m <<< 16) ||| (k <<< 8) ||| j
  let x := key ^^^ (ctr * 0x9e3779b97f4a7c15 % 2 ^ 64)
  let x := (x ^^^ (x >>> 30)) * 0xbf58476d1ce4e5b9 % 2 ^ 64
  let x := (x ^^^ (x >>> 27)) * 0x94d049bb133111eb % 2 ^ 64
  let x := x ^^^ (x >>> 31)
  x >>> (64 - (28 - q))

/-- The converted product of two codes (R141, R143, R144): nothing where a ZERO meets a number or a ZERO. -/
def product (t : LFmt) (a b : LVal) (d : Nat) : Option FVal :=
  match a, b with
  | .nar, _ => some arrayNan
  | _, .nar => some arrayNan
  | .zero, _ => none
  | _, .zero => none
  | .val n m, .val n' m' =>
    let l := m + m'
    let i := l / ((2 ^ t.f : Nat) : Int)
    let k := (l % ((2 ^ t.f : Nat) : Int)).toNat
    let frac := tableFraction t k
    let kept := frac >>> (28 - t.q)
    let r := frac % 2 ^ (28 - t.q)
    let mant := 2 ^ t.q + kept + (if d < r then 1 else 0)
    some (.fin (n != n') mant (i - (t.q : Nat)))

/-- One cell's step: the product is added to the partial sum, or the sum passes unchanged (R143, R147). -/
def cell (t : LFmt) (sum : FVal) (a b : LVal) (d : Nat) : FVal :=
  match product t a b d with
  | none => sum
  | some p => fadd sum p

/-- A linear value converted to a log format: the code whose logarithm is nearest to log₂|x| (R149, Table LOG-4). The
comparison is exact: |x|^(2^f) against powers of two; a tie cannot occur, and within half a step below the smallest the
nearest code is the smallest itself. -/
def linToLog (t : LFmt) (v : FVal) : LVal :=
  match v with
  | .nan _ => .nar
  | .inf _ => .nar
  | .fin neg m e =>
    if m = 0 then .zero
    else
      let n := m ^ 2 ^ t.f
      let l := Nat.log2 n
      let j : Int := ((if n * n > 2 ^ (2 * l + 1) then l + 1 else l : Nat) : Int) + e * ((2 ^ t.f : Nat) : Int)
      lclamp t neg j false

/-- A log value of one format converted to another: exact to a wider one, to the nearest with ties to the even field to a
narrower one (R149). -/
def logToLog (s t : LFmt) (v : LVal) : LVal :=
  match v with
  | .val neg m =>
    if s.f ≤ t.f then lclamp t neg (m * ((2 ^ (t.f - s.f) : Nat) : Int)) false
    else
      let d : Int := ((2 ^ (s.f - t.f) : Nat) : Int)
      let k := m / d
      let r := m % d
      let j := if 2 * r > d ∨ (2 * r = d ∧ k % 2 = 1) then k + 1 else k
      -- exactly half a step below the smallest is still "half a log step or less"
      lclamp t neg j (decide (2 * m + d ≥ -2 * t.maxM * d))
  | v => v

/-- A log value in binary32, by round to nearest, ties to even (R214, R298, R342). NaR becomes a quiet NaN. -/
def logToLin (t : LFmt) (v : LVal) : FVal :=
  match v with
  | .zero => fzero
  | .nar => openNan 5 fzero fzero
  | .val neg m =>
    let i := m / ((2 ^ t.f : Nat) : Int)
    let k := (m % ((2 ^ t.f : Nat) : Int)).toNat
    fround f32 neg (pow2Round t.f 23 k) (i - 23)

end Sys2Proof.Machine
end

