-- ==== Sys2Proof/Machine/Elementary.lean ====
section
/-! DEFINITION. The Rill's functions and the rotary codes: a reference computed in fixed point far beyond binary32, rounded
once, and then moved by an open number of units in the last place within the bound the manual promises (R215, R280; log 15). -/

namespace Sys2Proof.Machine

open Sys2Proof

/-- Fractional bits of the fixed-point reference. -/
def fx : Nat := 200

/-- One in fixed point. -/
def fxOne : Int := ((2 ^ fx : Nat) : Int)

/-- Product in fixed point, rounded down. -/
def fxMul (a b : Int) : Int := (a * b) / fxOne

/-- A finite value in fixed point, rounded down. -/
def fxOf (neg : Bool) (m : Nat) (e : Int) : Int :=
  let k : Int := if e + (fx : Nat) ≥ 0 then ((m <<< (e + (fx : Nat)).toNat : Nat) : Int)
    else ((m >>> (-(e + (fx : Nat))).toNat : Nat) : Int)
  if neg then -k else k

/-- Sum of z^(2i+1)/(2i+1) from the i-th term on, `n` terms, given the power: the series of artanh, and with alternating
signs that of arctan. -/
def oddSeries (z2 sign : Int) : Nat → Nat → Int → Int
  | 0, _, _ => 0
  | n + 1, i, p => p / ((2 * i + 1 : Nat) : Int) + oddSeries z2 sign n (i + 1) (sign * fxMul p z2)

/-- ln 2 = 2 artanh(1/3). -/
def fxLn2 : Int := 2 * oddSeries (fxOne / 9) 1 70 0 (fxOne / 3)

/-- π = 16 arctan(1/5) − 4 arctan(1/239). -/
def fxPi : Int :=
  16 * oddSeries (fxOne / 25) (-1) 50 0 (fxOne / 5) - 4 * oddSeries (fxOne / 57121) (-1) 20 0 (fxOne / 239)

/-- Sum of r^i/i! from the i-th term on, `n` terms, given the term. -/
def expSeries (r : Int) : Nat → Nat → Int → Int
  | 0, _, _ => 0
  | n + 1, i, term => term + expSeries r n (i + 1) (fxMul term r / ((i + 1 : Nat) : Int))

/-- e^x for x in fixed point: a fixed-point factor in [1, 2) and a power of two. -/
def fxExp (x : Int) : Int × Int :=
  let n := x / fxLn2
  (expSeries (x - n * fxLn2) 60 0 fxOne, n)

/-- The natural logarithm of a positive value m × 2^e. -/
def fxLn (m : Nat) (e : Int) : Int :=
  let k := Nat.log2 m
  let f := fxOf false m (-(k : Nat))
  let z := ((f - fxOne) * fxOne) / (f + fxOne)
  2 * oddSeries (fxMul z z) 1 70 0 z + (e + (k : Nat)) * fxLn2

/-- Alternating series of sine and cosine from the term `p` of degree i on, `n` terms. -/
def trigSeries (x2 : Int) : Nat → Nat → Int → Int
  | 0, _, _ => 0
  | n + 1, i, p => p - trigSeries x2 n (i + 2) (fxMul p x2 / (((i + 1) * (i + 2) : Nat) : Int))

/-- (cos θ, sin θ) in fixed point. -/
def fxCosSin (theta : Int) : Int × Int :=
  let t := theta % (2 * fxPi)
  let x2 := fxMul t t
  (trigSeries x2 50 0 fxOne, trigSeries x2 50 1 t)

/-- A signed fixed-point number times 2^n, rounded to binary32. -/
def fxRound (x n : Int) : FVal := fround f32 (decide (x < 0)) x.natAbs (n - (fx : Nat))

/-- Reference e^x. -/
def refExp (x : FVal) : FVal :=
  match x with
  | .nan _ => openNan 6 x x
  | .inf neg => if neg then fzero else .inf false
  | .fin neg m e =>
    if flt (fofInt 90) x then .inf false
    else if flt x (fofInt (-110)) then fzero
    else let r := fxExp (fxOf neg m e); fxRound r.1 r.2

/-- e^(−|x|) for |x| in fixed point, as a fixed-point number of at most one; beyond 150 it has no bit left that matters. -/
def fxExpNeg (ax : Int) : Int × Int :=
  let r := fxExp (-ax)
  (r.1, r.2)

/-- Reference 1 / (1 + e^−x), as numerator and denominator: e^−|x| = t × 2^n. -/
def sigmoidParts (neg : Bool) (m : Nat) (e : Int) : Int × Int × Int :=
  let ax := fxOf false m e
  let r := fxExpNeg ax
  let t := if r.2 ≥ 0 then r.1 else r.1 / ((2 ^ (-r.2).toNat : Nat) : Int)
  if neg then (r.1, fxOne + t, r.2) else (fxOne, fxOne + t, 0)

/-- The quotient of two positive fixed-point numbers times 2^n, times the significand m × 2^e, rounded to binary32. -/
def quotRound (neg : Bool) (a b n : Int) (m : Nat) (e : Int) : FVal :=
  let q := (((a.natAbs * m) <<< 64) / b.natAbs)
  fround f32 neg (2 * q + 1) (n + e - 65)

/-- Reference 1 / (1 + e^−x). -/
def refSigmoid (x : FVal) : FVal :=
  match x with
  | .nan _ => openNan 7 x x
  | .inf neg => if neg then fzero else fone
  | .fin neg m e =>
    if m = 0 then .fin false 1 (-1)
    else if flt x (fofInt (-110)) then fzero
    else if flt (fofInt 110) x then fone
    else let p := sigmoidParts neg m e; quotRound false p.1 p.2.1 p.2.2 1 0

/-- Reference x / (1 + e^−x). At −∞ it is the limit −0.0 (log 17). -/
def refSilu (x : FVal) : FVal :=
  match x with
  | .nan _ => openNan 8 x x
  | .inf neg => if neg then .fin true 0 0 else .inf false
  | .fin neg m e =>
    if m = 0 then .fin neg 0 0
    else if flt x (fofInt (-200)) then .fin true 0 0
    else if flt (fofInt 110) x then toF32 x
    else let p := sigmoidParts neg m e; quotRound neg p.1 p.2.1 p.2.2 m e

/-- Reference tanh x = (1 − t)/(1 + t) with t = e^(−2|x|); below 2^−40 it is x to far beyond binary32. -/
def refTanh (x : FVal) : FVal :=
  match x with
  | .nan _ => openNan 9 x x
  | .inf neg => .fin neg 1 0
  | .fin neg m e =>
    if m = 0 then .fin neg 0 0
    else if flt (.fin false m e) (.fin false 1 (-40)) then toF32 x
    else if flt (fofInt 60) (.fin false m e) then .fin neg 1 0
    else
      let r := fxExpNeg (2 * fxOf false m e)
      let t := if r.2 ≥ 0 then r.1 else r.1 / ((2 ^ (-r.2).toNat : Nat) : Int)
      quotRound neg (fxOne - t) (fxOne + t) 0 1 0

/-- The open number of units by which a tail's result lies from the reference. -/
def slackOf (tail : Nat) (x : FVal) : Nat := Config.tailSlack tail (BitVec.ofNat 32 (fencode f32 x))

/-- The Rill's exponential, reciprocal (2 ulp), sigmoid, tanh and x·sigmoid (3 ulp) (R215). -/
def rillExp (x : FVal) : FVal := nudge 2 (slackOf 4 x) (refExp x)
def rillRecip (x : FVal) : FVal := nudge 2 (slackOf 5 x) (fdiv fone x)
def rillSigmoid (x : FVal) : FVal := nudge 3 (slackOf 1 x) (refSigmoid x)
def rillTanh (x : FVal) : FVal := nudge 3 (slackOf 2 x) (refTanh x)
def rillSilu (x : FVal) : FVal := nudge 3 (slackOf 3 x) (refSilu x)

/-- The tails of Table OPS-7 on accumulator x with TAIL_SCALE and Rill operand u (R214). SCALED_ADD rounds the product and then the sum:
the table says 'in binary32' only, and R302 forbids a fused step for the gate tails alone (DESIGN CHOICE, log 70). -/
def rillTail (tail : Nat) (scale x u : FVal) : FVal :=
  match tail with
  | 1 => rillSigmoid x
  | 2 => rillTanh x
  | 3 => rillSilu x
  | 4 => rillExp x
  | 5 => rillRecip x
  | 6 => fadd (fmul scale x) u
  | 7 => fmul x u
  | _ => x

/-- θ = t × ROT_BASE^(−i/P) in fixed point (R279). -/
def rotTheta (t i pairs : Nat) (baseM : Nat) (baseE : Int) : Int :=
  let l := (fxLn baseM baseE * (i : Nat)) / (pairs : Nat)
  let r := fxExp (-l)
  let f := if r.2 ≥ 0 then r.1 * ((2 ^ r.2.toNat : Nat) : Int) else r.1 / ((2 ^ (-r.2).toNat : Nat) : Int)
  f * (t : Nat)

/-- a × c + b × s for finite values a and b and fixed-point c and s, rounded once to binary32. -/
def fxCombine (n₁ : Bool) (m₁ : Nat) (e₁ : Int) (n₂ : Bool) (m₂ : Nat) (e₂ : Int) (c s : Int) : FVal :=
  let q := min e₁ e₂
  fxRound (scaled n₁ m₁ e₁ q * c + scaled n₂ m₂ e₂ q * s) q

/-- One rotated pair at position t: x cos θ − y sin θ and x sin θ + y cos θ, each within 2 ulp (R279, R280). A pair that is
not finite follows binary32 arithmetic. -/
def rotatePair (t i pairs : Nat) (base x y : FVal) : FVal × FVal :=
  let w := fun v => BitVec.ofNat 32 (fencode f32 v)
  let slack := fun which => Config.rotSlack t i pairs (w base) which (w x) (w y)
  match base, x, y with
  | .fin _ bm be, .fin n₁ m₁ e₁, .fin n₂ m₂ e₂ =>
    let cs := fxCosSin (rotTheta t i pairs bm be)
    (nudge 2 (slack 0) (fxCombine n₁ m₁ e₁ n₂ m₂ e₂ cs.1 (-cs.2)),
     nudge 2 (slack 1) (fxCombine n₁ m₁ e₁ n₂ m₂ e₂ cs.2 cs.1))
  | .fin _ bm be, _, _ =>
    let cs := fxCosSin (rotTheta t i pairs bm be)
    let c := fxRound cs.1 0
    let s := fxRound cs.2 0
    (fsub (fmul x c) (fmul y s), fadd (fmul x s) (fmul y c))
  | _, _, _ => (openNan 10 x y, openNan 11 x y)

end Sys2Proof.Machine
end

