-- ==== Sys2Proof/Machine/Credits.lean ====
section
/-! DEFINITION. The credits of the device's boundaries (spec/02 R35 to R38, Table HSK-2). They are constants: nothing in State
changes them. -/

namespace Sys2Proof.Machine

open Sys2Proof

/-- The boundaries of Table HSK-2, in its order. -/
inductive Boundary where
  | descriptor
  | opSlot
  | activation
  | weightPlane
  | resultRow
  | rillRow
  | poolLine
  | memoryLine
  | readReturn
  | bridge
  | ioLink
  | fabricFlit
  | mailbox
deriving DecidableEq, Repr

/-- Units that the consumer of a boundary has space for: per intake queue, core, array, direction, link or port. -/
def hskCredits : Boundary → Nat
  | .descriptor => 8
  | .opSlot => 4
  | .activation => 2
  | .weightPlane => 2
  | .resultRow => 8
  | .rillRow => 8
  | .poolLine => 32
  | .memoryLine => 64
  | .readReturn => 1
  | .bridge => 4096
  | .ioLink => 1024
  | .fabricFlit => 512
  | .mailbox => 4

/-- Descriptor credits of a die in total (Table HSK-2). -/
def dieDescriptors : Nat := 512

/-- Of a core's memory credits, those kept for the URGENT operation that executes on it (R258). -/
def urgentLines : Nat := 16

/-- Whether a boundary crosses into a clocked domain, where its credits are the depth of a boundary FIFO (R42 to R44). -/
def crossesClock : Boundary → Bool
  | .descriptor => true
  | .memoryLine => true
  | .readReturn => true
  | .ioLink => true
  | .fabricFlit => true
  | .mailbox => true
  | _ => false

end Sys2Proof.Machine
end

