-- ==== Sys2Proof/Machine/Dictionary.lean ====
section
/-! DEFINITION. The object tables of the chapters (Tables PKG-7, HSK-4, CLK-6, BASK-6, BOOT-3, CORE-6, LOG-5, MEM-5, ORD-3,
OPS-12, WEIR-6, SPAWN-4, IMG-6, FAB-9, HOST-10, STESTO-9, REGR-6) as data: index, subindices, type, access, role of a
command object, persistence, default. Fused values and defaults the tables do not give are in log 2. -/

namespace Sys2Proof.Machine

open Sys2Proof

/-- Access of an object (Table STESTO-4). -/
inductive Access where
  | ro
  | rw
  | rwm
  | wo
  | cmd
deriving DecidableEq, Repr

/-- One row of an object table. -/
structure ObjRow where
  index : Nat
  lastIndex : Nat
  subLo : Nat
  subHi : Nat
  /-- TYPE code of Table STESTO-4. -/
  typ : Nat
  /-- Bytes of a value; 0 for a string. -/
  size : Nat
  access : Access
  /-- Role that may write a command object: 2 operator, 3 maintainer (R438). -/
  role : Nat
  persist : Bool
  /-- Indexed by partition (R440). -/
  perPart : Bool
  /-- Held as bytes of variable length in State.blobs. -/
  varLen : Bool
  dflt : Nat
deriving DecidableEq, Repr

abbrev oPKG_VARIANT : Nat := 0x1100
abbrev oSTACK_MAP : Nat := 0x1101
abbrev oIOD_MAP : Nat := 0x1102
abbrev oDRAM_BYTES : Nat := 0x1103
abbrev oCORE_PLACE_COUNT : Nat := 0x1110
abbrev oCORE_PLACE : Nat := 0x1110
abbrev oREPLICA_COUNT : Nat := 0x9010
abbrev oREPLICA_RATE : Nat := 0x9010
abbrev oREPLICA_MIN : Nat := 0x9011
abbrev oCLK_MODE : Nat := 0x2000
abbrev oCLK_STATUS : Nat := 0x2001
abbrev oLOSS_COUNT_N : Nat := 0x2003
abbrev oLOSS_COUNT : Nat := 0x2003
abbrev oPLEVEL_REQ : Nat := 0x2010
abbrev oPLEVEL_EFF : Nat := 0x2011
abbrev oPLEVEL_CAUSE : Nat := 0x2012
abbrev oMC_DIVISOR : Nat := 0x2013
abbrev oV48_MV : Nat := 0x2100
abbrev oPKG_POWER_MW : Nat := 0x2101
abbrev oPOWER_ENV : Nat := 0x2102
abbrev oENV_DEMAND : Nat := 0x2103
abbrev oPWR_STATUS : Nat := 0x2104
abbrev oSHUTDOWN_CAUSE : Nat := 0x2110
abbrev oSHUTDOWN_COUNT : Nat := 0x2111
abbrev oQUAD_TEMP : Nat := 0x2200
abbrev oSTACK_TEMP : Nat := 0x2201
abbrev oQUAD_THERM : Nat := 0x2202
abbrev oSTACK_WARM_C : Nat := 0x2203
abbrev oSTACK_HOT_C : Nat := 0x2204
abbrev oSTACK_TRIP_C : Nat := 0x2205
abbrev oBASK_FAULT : Nat := 0x2206
abbrev oPKG_ENERGY_UJ : Nat := 0x9100
abbrev oUNATTR_ENERGY_UJ : Nat := 0x9101
abbrev oPART_ENERGY_COUNT : Nat := 0x9102
abbrev oPART_ENERGY_UJ : Nat := 0x9102
abbrev oBOOT_STAGE : Nat := 0x7000
abbrev oBOOT_FAULT : Nat := 0x7001
abbrev oRESET_CAUSE : Nat := 0x7002
abbrev oWARM_RESET : Nat := 0x7003
abbrev oSTRAPS : Nat := 0x7004
abbrev oBOOT_TIME_MS : Nat := 0x7005
abbrev oRESTORE_STATUS : Nat := 0x7006
abbrev oPART_RESET : Nat := 0x7010
abbrev oCORE_RESET : Nat := 0x7011
abbrev oLINK_RESET : Nat := 0x7012
abbrev oPART_DISCARD : Nat := 0x7013
abbrev oARRAY_STALL_LIMIT_US : Nat := 0x4100
abbrev oCORE_ABANDON_COUNT : Nat := 0x9020
abbrev oCORE_ABANDONS : Nat := 0x9020
abbrev oPREC_DEFAULT : Nat := 0x4200
abbrev oPREC_LOCK : Nat := 0x4201
abbrev oEDDY_AGE_NS : Nat := 0x5000
abbrev oSTACK_PC_ACTIVE : Nat := 0x5001
abbrev oSTACK_SPARE_FREE : Nat := 0x5002
abbrev oREFRESH_MODE : Nat := 0x5003
abbrev oSTACK_BW_CAP_PCT : Nat := 0x5004
abbrev oECC_CE_COUNT : Nat := 0x5010
abbrev oECC_UE_COUNT : Nat := 0x5011
abbrev oSCRUB_PERIOD_H : Nat := 0x5012
abbrev oPOOL_SCRATCH_KIB : Nat := 0x5020
abbrev oDRAM_SCRATCH_MIB : Nat := 0x5021
abbrev oSPILL_TARGET : Nat := 0x5022
abbrev oSPILL_HOST_BASE : Nat := 0x5023
abbrev oSPILL_HOST_BYTES : Nat := 0x5024
abbrev oSPILL_PEER : Nat := 0x5025
abbrev oSPILL_PEER_BYTES : Nat := 0x5026
abbrev oSPILL_COUNT : Nat := 0x9030
abbrev oEDDY_RMW_COUNT : Nat := 0x9031
abbrev oFLAG_HOLD_LIMIT_US : Nat := 0x5030
abbrev oFLAG_EXPIRED : Nat := 0x9032
abbrev oBOUND_REG_COUNT : Nat := 0x3100
abbrev oBOUND_REG : Nat := 0x3100
abbrev oPARK_LIMIT_US : Nat := 0x4101
abbrev oTOKEN_BASE : Nat := 0x4300
abbrev oTOKEN_COUNT : Nat := 0x4301
abbrev oTOKEN_COUNTING : Nat := 0x4302
abbrev oFLOW_BASE : Nat := 0x4303
abbrev oFLOW_COUNT : Nat := 0x4304
abbrev oSLOT_QUOTA : Nat := 0x4305
abbrev oURGENT_QUOTA : Nat := 0x4306
abbrev oCANCEL_OP : Nat := 0x4400
abbrev oCANCEL_FLOW : Nat := 0x4401
abbrev oSPAWN_BASE : Nat := 0x4500
abbrev oSPAWN_COUNT : Nat := 0x4501
abbrev oSPOOL_BASE : Nat := 0x5040
abbrev oSPOOL_PAGES : Nat := 0x5041
abbrev oSPAWN_LIVE : Nat := 0x9040
abbrev oSPOOL_FREE : Nat := 0x9041
abbrev oSPOOL_COPIES : Nat := 0x9042
abbrev oGATHER_FAULTS : Nat := 0x9050
abbrev oCHIP_ID : Nat := 0x6000
abbrev oPORT_STATE : Nat := 0x6002
abbrev oPORT_GROUP : Nat := 0x6004
abbrev oDATELINE : Nat := 0x6005
abbrev oROUTE : Nat := 0x6010
abbrev oXPORT_TIMEOUT_US : Nat := 0x6020
abbrev oXPORT_RETRIES : Nat := 0x6021
abbrev oCTX_CREDITS : Nat := 0x6022
abbrev oCTX_OPEN : Nat := 0x6030
abbrev oCTX_CLOSE : Nat := 0x6031
abbrev oCTX_STATE : Nat := 0x6100
abbrev oCOLL_GROUP_CFG : Nat := 0x6200
abbrev oCOLL_GROUP_MEMBERS : Nat := 0x6201
abbrev oCOLL_GROUP_STATE : Nat := 0x6202
abbrev oCOLL_TIMEOUT_US : Nat := 0x6210
abbrev oPACE_GRANT_US : Nat := 0x6211
abbrev oPACE_CAP_US : Nat := 0x6212
abbrev oPORT_REPLAYS : Nat := 0x9060
abbrev oXPORT_REISSUES : Nat := 0x9061
abbrev oPART_FUNC : Nat := 0x3000
abbrev oPART_CORES : Nat := 0x3001
abbrev oPART_DRAM_EXT : Nat := 0x3002
abbrev oPART_POOL_EXT : Nat := 0x3003
abbrev oPART_DRAM_MIB : Nat := 0x3004
abbrev oIQ_RANGE : Nat := 0x3005
abbrev oCQ_RANGE : Nat := 0x3006
abbrev oIQ_URGENT_COUNT : Nat := 0x3007
abbrev oCREDIT_RATE : Nat := 0x3008
abbrev oCREDIT_BURST : Nat := 0x3009
abbrev oPART_CTRL : Nat := 0x300A
abbrev oPART_STATE : Nat := 0x300B
abbrev oREFUSED_FULL_COUNT : Nat := 0x9070
abbrev oREFUSED_CREDIT_COUNT : Nat := 0x9071
abbrev oVENDOR : Nat := 0x1000
abbrev oPRODUCT : Nat := 0x1001
abbrev oSERIAL : Nat := 0x1002
abbrev oDEVICE_SERIAL : Nat := 0x1003
abbrev oPCI_IDS : Nat := 0x1004
abbrev oSTEPPING : Nat := 0x1005
abbrev oFW_ACTIVE : Nat := 0x1006
abbrev oROM_VERSION : Nat := 0x1007
abbrev oASSET_TAG : Nat := 0x1008
abbrev oDICT_VERSION : Nat := 0x1009
abbrev oMGMT_MAC : Nat := 0x1200
abbrev oMGMT_LL_ADDR : Nat := 0x1201
abbrev oSTESTO_PORT : Nat := 0x1202
abbrev oPLCA_NODE_ID : Nat := 0x1203
abbrev oPLCA_NODE_COUNT : Nat := 0x1204
abbrev oPLCA_TO_TIMER : Nat := 0x1205
abbrev oPLCA_BURST : Nat := 0x1206
abbrev oMGMT_LINK : Nat := 0x1207
abbrev oSESSION_IDLE_S : Nat := 0x1210
abbrev oSESSION_OPEN_COUNT : Nat := 0x1211
abbrev oNOTIFY_RETRIES : Nat := 0x1212
abbrev oFRAME_DROPS : Nat := 0x1220
abbrev oREPLAY_DROPS : Nat := 0x1221
abbrev oNOTIFY_LOST : Nat := 0x1222
abbrev oPERSIST_COMMITS : Nat := 0x1223
abbrev oKEY_SLOT_COUNT : Nat := 0x8000
abbrev oKEY_ROLE : Nat := 0x8001
abbrev oKEY_SCOPE : Nat := 0x8002
abbrev oKEY_MATERIAL : Nat := 0x8003
abbrev oKEY_USES : Nat := 0x8004
abbrev oAUTH_FAILS : Nat := 0x8010
abbrev oLOCKOUT_S : Nat := 0x8011
abbrev oSESSION_KILL : Nat := 0x8012
abbrev oCORE_SPARE_FREE : Nat := 0x7100
abbrev oCORE_RETIRE : Nat := 0x7101
abbrev oREGR_CE_LIMIT : Nat := 0x7102
abbrev oPOOL_SPARE_FREE : Nat := 0x7103
abbrev oPOOL_DEGRADED : Nat := 0x7104
abbrev oROW_SPARE_FREE : Nat := 0x7105
abbrev oPC_RETIRE : Nat := 0x7106
abbrev oREPAIR_MAP_COUNT : Nat := 0x7107
abbrev oREGR_PAUSES : Nat := 0x7108
abbrev oFW_BANK_ACTIVE : Nat := 0x7110
abbrev oFW_BOOT_BANK : Nat := 0x7111
abbrev oFW_BANK_VERSION : Nat := 0x7112
abbrev oFW_BLOCK_SEL : Nat := 0x7113
abbrev oFW_BLOCK : Nat := 0x7114
abbrev oFW_COMMIT : Nat := 0x7115
abbrev oFW_ACTIVATE : Nat := 0x7116
abbrev oFW_STATE : Nat := 0x7117
abbrev oFW_ROLLBACK_MIN : Nat := 0x7118
abbrev oSVC_DEPART : Nat := 0x7120
abbrev oSVC_STATE : Nat := 0x7121
abbrev oSVC_EPOCH : Nat := 0x7122
abbrev oERR_LOG_COUNT : Nat := 0xA000
abbrev oERR_LOG : Nat := 0xA000
abbrev oERR_LOG_NEXT : Nat := 0xA001
abbrev oERR_LOG_LOST : Nat := 0xA002
abbrev oERR_LOG_CLEAR : Nat := 0xA003
abbrev oCONTAINED_COUNT : Nat := 0xA004
abbrev oFATAL_COUNT : Nat := 0xA005

/-- Object rows, part 0. -/
def objRows0 : List ObjRow := [
  ⟨oPKG_VARIANT, 0x1100, 0, 0, 7, 1, .ro, 0, false, false, false, 3⟩,
  ⟨oSTACK_MAP, 0x1101, 0, 0, 1, 1, .ro, 0, false, false, false, 0⟩,
  ⟨oIOD_MAP, 0x1102, 0, 0, 1, 1, .ro, 0, false, false, false, 0⟩,
  ⟨oDRAM_BYTES, 0x1103, 0, 0, 4, 8, .ro, 0, false, false, false, 0⟩,
  ⟨oCORE_PLACE_COUNT, 0x1110, 0, 0, 1, 1, .ro, 0, false, false, false, 128⟩,
  ⟨oCORE_PLACE, 0x1110, 1, 128, 1, 1, .ro, 0, false, false, false, 0⟩,
  ⟨oREPLICA_COUNT, 0x9010, 0, 0, 1, 1, .ro, 0, false, false, false, 8⟩,
  ⟨oREPLICA_RATE, 0x9010, 1, 8, 3, 4, .ro, 0, false, false, false, 0⟩,
  ⟨oREPLICA_MIN, 0x9011, 0, 0, 3, 4, .ro, 0, false, false, false, 0⟩,
  ⟨oCLK_MODE, 0x2000, 0, 0, 7, 1, .ro, 0, false, false, false, 0⟩,
  ⟨oCLK_STATUS, 0x2001, 0, 0, 2, 2, .ro, 0, false, false, false, 0⟩,
  ⟨oLOSS_COUNT_N, 0x2003, 0, 0, 1, 1, .ro, 0, false, false, false, 3⟩,
  ⟨oLOSS_COUNT, 0x2003, 1, 3, 3, 4, .ro, 0, false, false, false, 0⟩,
  ⟨oPLEVEL_REQ, 0x2010, 1, 8, 1, 1, .rw, 0, true, false, false, 3⟩,
  ⟨oPLEVEL_EFF, 0x2011, 1, 8, 1, 1, .ro, 0, false, false, false, 3⟩,
  ⟨oPLEVEL_CAUSE, 0x2012, 1, 8, 1, 1, .ro, 0, false, false, false, 1⟩,
  ⟨oMC_DIVISOR, 0x2013, 1, 8, 1, 1, .ro, 0, false, false, false, 3⟩,
  ⟨oV48_MV, 0x2100, 0, 0, 3, 4, .ro, 0, false, false, false, 0⟩,
  ⟨oPKG_POWER_MW, 0x2101, 0, 0, 3, 4, .ro, 0, false, false, false, 0⟩,
  ⟨oPOWER_ENV, 0x2102, 0, 0, 2, 2, .rwm, 0, true, false, false, 0⟩,
  ⟨oENV_DEMAND, 0x2103, 0, 0, 1, 1, .ro, 0, false, false, false, 0⟩,
  ⟨oPWR_STATUS, 0x2104, 0, 0, 1, 1, .ro, 0, false, false, false, 0⟩,
  ⟨oSHUTDOWN_CAUSE, 0x2110, 0, 0, 7, 1, .ro, 0, true, false, false, 0⟩]

/-- Object rows, part 1. -/
def objRows1 : List ObjRow := [
  ⟨oSHUTDOWN_COUNT, 0x2111, 0, 0, 3, 4, .ro, 0, true, false, false, 0⟩,
  ⟨oQUAD_TEMP, 0x2200, 1, 8, 5, 4, .ro, 0, false, false, false, 0⟩,
  ⟨oSTACK_TEMP, 0x2201, 1, 8, 5, 4, .ro, 0, false, false, false, 0⟩,
  ⟨oQUAD_THERM, 0x2202, 1, 8, 7, 1, .ro, 0, false, false, false, 0⟩,
  ⟨oSTACK_WARM_C, 0x2203, 0, 0, 1, 1, .rw, 0, true, false, false, 85⟩,
  ⟨oSTACK_HOT_C, 0x2204, 0, 0, 1, 1, .rw, 0, true, false, false, 95⟩,
  ⟨oSTACK_TRIP_C, 0x2205, 0, 0, 1, 1, .ro, 0, false, false, false, 105⟩,
  ⟨oBASK_FAULT, 0x2206, 0, 0, 2, 2, .ro, 0, false, false, false, 0⟩,
  ⟨oPKG_ENERGY_UJ, 0x9100, 0, 0, 4, 8, .ro, 0, false, false, false, 0⟩,
  ⟨oUNATTR_ENERGY_UJ, 0x9101, 0, 0, 4, 8, .ro, 0, false, false, false, 0⟩,
  ⟨oPART_ENERGY_COUNT, 0x9102, 0, 0, 1, 1, .ro, 0, false, false, false, 128⟩,
  ⟨oPART_ENERGY_UJ, 0x9102, 1, 128, 4, 8, .ro, 0, false, true, false, 0⟩,
  ⟨oBOOT_STAGE, 0x7000, 0, 0, 1, 1, .ro, 0, false, false, false, 0⟩,
  ⟨oBOOT_FAULT, 0x7001, 0, 0, 2, 2, .ro, 0, false, false, false, 0⟩,
  ⟨oRESET_CAUSE, 0x7002, 0, 0, 7, 1, .ro, 0, true, false, false, 0⟩,
  ⟨oWARM_RESET, 0x7003, 0, 0, 2, 2, .cmd, 3, false, false, false, 0⟩,
  ⟨oSTRAPS, 0x7004, 0, 0, 1, 1, .ro, 0, false, false, false, 0⟩,
  ⟨oBOOT_TIME_MS, 0x7005, 0, 0, 2, 2, .ro, 0, false, false, false, 0⟩,
  ⟨oRESTORE_STATUS, 0x7006, 0, 0, 9, 16, .ro, 0, false, false, false, 0⟩,
  ⟨oPART_RESET, 0x7010, 1, 128, 1, 1, .cmd, 2, false, true, false, 0⟩,
  ⟨oCORE_RESET, 0x7011, 1, 128, 1, 1, .cmd, 3, false, false, false, 0⟩,
  ⟨oLINK_RESET, 0x7012, 1, 16, 1, 1, .cmd, 3, false, false, false, 0⟩,
  ⟨oPART_DISCARD, 0x7013, 1, 128, 3, 4, .ro, 0, false, true, false, 0⟩]

/-- Object rows, part 2. -/
def objRows2 : List ObjRow := [
  ⟨oARRAY_STALL_LIMIT_US, 0x4100, 0, 0, 3, 4, .rwm, 0, true, false, false, 500⟩,
  ⟨oCORE_ABANDON_COUNT, 0x9020, 0, 0, 1, 1, .ro, 0, false, false, false, 128⟩,
  ⟨oCORE_ABANDONS, 0x9020, 1, 128, 3, 4, .ro, 0, false, false, false, 0⟩,
  ⟨oPREC_DEFAULT, 0x4200, 1, 128, 7, 1, .rw, 0, true, true, false, 2⟩,
  ⟨oPREC_LOCK, 0x4201, 1, 128, 7, 1, .rwm, 0, true, true, false, 0⟩,
  ⟨oEDDY_AGE_NS, 0x5000, 0, 0, 3, 4, .rwm, 0, true, false, false, 2000⟩,
  ⟨oSTACK_PC_ACTIVE, 0x5001, 1, 8, 1, 1, .ro, 0, false, false, false, 32⟩,
  ⟨oSTACK_SPARE_FREE, 0x5002, 1, 8, 1, 1, .ro, 0, false, false, false, 2⟩,
  ⟨oREFRESH_MODE, 0x5003, 1, 8, 7, 1, .ro, 0, false, false, false, 0⟩,
  ⟨oSTACK_BW_CAP_PCT, 0x5004, 1, 8, 1, 1, .ro, 0, false, false, false, 100⟩,
  ⟨oECC_CE_COUNT, 0x5010, 1, 8, 3, 4, .ro, 0, true, false, false, 0⟩,
  ⟨oECC_UE_COUNT, 0x5011, 1, 8, 3, 4, .ro, 0, true, false, false, 0⟩,
  ⟨oSCRUB_PERIOD_H, 0x5012, 0, 0, 2, 2, .rwm, 0, true, false, false, 24⟩,
  ⟨oPOOL_SCRATCH_KIB, 0x5020, 1, 128, 3, 4, .rwm, 0, true, true, false, 0⟩,
  ⟨oDRAM_SCRATCH_MIB, 0x5021, 1, 128, 3, 4, .rwm, 0, true, true, false, 0⟩,
  ⟨oSPILL_TARGET, 0x5022, 1, 128, 7, 1, .rwm, 0, true, true, false, 0⟩,
  ⟨oSPILL_HOST_BASE, 0x5023, 1, 128, 4, 8, .rwm, 0, true, true, false, 0⟩,
  ⟨oSPILL_HOST_BYTES, 0x5024, 1, 128, 4, 8, .rwm, 0, true, true, false, 0⟩,
  ⟨oSPILL_PEER, 0x5025, 1, 128, 3, 4, .rwm, 0, true, true, false, 0⟩,
  ⟨oSPILL_PEER_BYTES, 0x5026, 1, 128, 4, 8, .rwm, 0, true, true, false, 0⟩,
  ⟨oSPILL_COUNT, 0x9030, 1, 128, 3, 4, .ro, 0, false, true, false, 0⟩,
  ⟨oEDDY_RMW_COUNT, 0x9031, 1, 8, 4, 8, .ro, 0, false, false, false, 0⟩,
  ⟨oFLAG_HOLD_LIMIT_US, 0x5030, 0, 0, 3, 4, .rwm, 0, true, false, false, 10000⟩]

/-- Object rows, part 3. -/
def objRows3 : List ObjRow := [
  ⟨oFLAG_EXPIRED, 0x9032, 1, 128, 3, 4, .ro, 0, false, true, false, 0⟩,
  ⟨oBOUND_REG_COUNT, 0x317F, 0, 0, 1, 1, .ro, 0, false, true, false, 16⟩,
  ⟨oBOUND_REG, 0x317F, 1, 16, 4, 8, .rw, 0, false, true, false, 0⟩,
  ⟨oPARK_LIMIT_US, 0x4101, 0, 0, 3, 4, .rwm, 0, true, false, false, 5000⟩,
  ⟨oTOKEN_BASE, 0x4300, 1, 128, 2, 2, .rwm, 0, true, true, false, 0⟩,
  ⟨oTOKEN_COUNT, 0x4301, 1, 128, 2, 2, .rwm, 0, true, true, false, 512⟩,
  ⟨oTOKEN_COUNTING, 0x4302, 1, 128, 2, 2, .rwm, 0, true, true, false, 64⟩,
  ⟨oFLOW_BASE, 0x4303, 1, 128, 2, 2, .rwm, 0, true, true, false, 0⟩,
  ⟨oFLOW_COUNT, 0x4304, 1, 128, 2, 2, .rwm, 0, true, true, false, 8⟩,
  ⟨oSLOT_QUOTA, 0x4305, 1, 128, 2, 2, .rwm, 0, true, true, false, 3968⟩,
  ⟨oURGENT_QUOTA, 0x4306, 1, 128, 1, 1, .rwm, 0, true, true, false, 8⟩,
  ⟨oCANCEL_OP, 0x4400, 0, 0, 4, 8, .cmd, 2, false, false, false, 0⟩,
  ⟨oCANCEL_FLOW, 0x4401, 0, 0, 2, 2, .cmd, 2, false, false, false, 0⟩,
  ⟨oSPAWN_BASE, 0x4500, 1, 128, 2, 2, .rwm, 0, true, true, false, 0⟩,
  ⟨oSPAWN_COUNT, 0x4501, 1, 128, 2, 2, .rwm, 0, true, true, false, 128⟩,
  ⟨oSPOOL_BASE, 0x5040, 1, 128, 4, 8, .rwm, 0, true, true, false, 0⟩,
  ⟨oSPOOL_PAGES, 0x5041, 1, 128, 3, 4, .rwm, 0, true, true, false, 0⟩,
  ⟨oSPAWN_LIVE, 0x9040, 1, 128, 2, 2, .ro, 0, false, true, false, 0⟩,
  ⟨oSPOOL_FREE, 0x9041, 1, 128, 3, 4, .ro, 0, false, true, false, 0⟩,
  ⟨oSPOOL_COPIES, 0x9042, 1, 128, 4, 8, .ro, 0, false, true, false, 0⟩,
  ⟨oGATHER_FAULTS, 0x9050, 1, 128, 3, 4, .ro, 0, false, true, false, 0⟩,
  ⟨oCHIP_ID, 0x6000, 0, 0, 2, 2, .rwm, 0, true, false, false, 0⟩,
  ⟨oPORT_STATE, 0x6002, 1, 16, 1, 1, .ro, 0, false, false, false, 0⟩]

/-- Object rows, part 4. -/
def objRows4 : List ObjRow := [
  ⟨oPORT_GROUP, 0x6004, 1, 16, 2, 2, .rwm, 0, true, false, false, 0⟩,
  ⟨oDATELINE, 0x6005, 0, 0, 2, 2, .rwm, 0, true, false, false, 0⟩,
  ⟨oROUTE, 0x6017, 1, 128, 2, 2, .rwm, 0, true, false, false, 0⟩,
  ⟨oXPORT_TIMEOUT_US, 0x6020, 0, 0, 3, 4, .rwm, 0, true, false, false, 2000⟩,
  ⟨oXPORT_RETRIES, 0x6021, 0, 0, 1, 1, .rwm, 0, true, false, false, 3⟩,
  ⟨oCTX_CREDITS, 0x6022, 0, 0, 1, 1, .rwm, 0, true, false, false, 16⟩,
  ⟨oCTX_OPEN, 0x6030, 0, 0, 4, 8, .cmd, 2, false, false, false, 0⟩,
  ⟨oCTX_CLOSE, 0x6031, 0, 0, 2, 2, .cmd, 2, false, false, false, 0⟩,
  ⟨oCTX_STATE, 0x611F, 1, 128, 3, 4, .ro, 0, false, false, false, 0⟩,
  ⟨oCOLL_GROUP_CFG, 0x6200, 1, 16, 3, 4, .rwm, 0, true, false, false, 0⟩,
  ⟨oCOLL_GROUP_MEMBERS, 0x6201, 1, 16, 9, 0, .rwm, 0, true, false, true, 0⟩,
  ⟨oCOLL_GROUP_STATE, 0x6202, 1, 16, 7, 1, .ro, 0, false, false, false, 0⟩,
  ⟨oCOLL_TIMEOUT_US, 0x6210, 0, 0, 3, 4, .rwm, 0, true, false, false, 20000⟩,
  ⟨oPACE_GRANT_US, 0x6211, 0, 0, 3, 4, .rwm, 0, true, false, false, 5000⟩,
  ⟨oPACE_CAP_US, 0x6212, 0, 0, 3, 4, .rwm, 0, true, false, false, 50000⟩,
  ⟨oPORT_REPLAYS, 0x9060, 1, 16, 4, 8, .ro, 0, false, false, false, 0⟩,
  ⟨oXPORT_REISSUES, 0x9061, 1, 128, 3, 4, .ro, 0, false, true, false, 0⟩,
  ⟨oPART_FUNC, 0x3000, 1, 128, 2, 2, .rwm, 0, true, true, false, 0⟩,
  ⟨oPART_CORES, 0x3001, 1, 128, 9, 16, .rwm, 0, true, true, false, 0⟩,
  ⟨oPART_DRAM_EXT, 0x3002, 1, 128, 9, 96, .rwm, 0, true, true, false, 0⟩,
  ⟨oPART_POOL_EXT, 0x3003, 1, 128, 9, 24, .rwm, 0, true, true, false, 0⟩,
  ⟨oPART_DRAM_MIB, 0x3004, 1, 128, 3, 4, .ro, 0, false, true, false, 0⟩,
  ⟨oIQ_RANGE, 0x3005, 1, 128, 3, 4, .rwm, 0, true, true, false, 0⟩]

/-- Object rows, part 5. -/
def objRows5 : List ObjRow := [
  ⟨oCQ_RANGE, 0x3006, 1, 128, 3, 4, .rwm, 0, true, true, false, 0⟩,
  ⟨oIQ_URGENT_COUNT, 0x3007, 1, 128, 1, 1, .rwm, 0, true, true, false, 0⟩,
  ⟨oCREDIT_RATE, 0x3008, 1, 128, 3, 4, .rwm, 0, true, true, false, 0⟩,
  ⟨oCREDIT_BURST, 0x3009, 1, 128, 3, 4, .rwm, 0, true, true, false, 4096⟩,
  ⟨oPART_CTRL, 0x300A, 1, 128, 1, 1, .cmd, 3, false, true, false, 0⟩,
  ⟨oPART_STATE, 0x300B, 1, 128, 7, 1, .ro, 0, false, true, false, 0⟩,
  ⟨oREFUSED_FULL_COUNT, 0x9070, 1, 128, 3, 4, .ro, 0, false, true, false, 0⟩,
  ⟨oREFUSED_CREDIT_COUNT, 0x9071, 1, 128, 3, 4, .ro, 0, false, true, false, 0⟩,
  ⟨oVENDOR, 0x1000, 0, 0, 8, 0, .ro, 0, false, false, true, 0⟩,
  ⟨oPRODUCT, 0x1001, 0, 0, 8, 0, .ro, 0, false, false, true, 0⟩,
  ⟨oSERIAL, 0x1002, 0, 0, 8, 0, .ro, 0, false, false, true, 0⟩,
  ⟨oDEVICE_SERIAL, 0x1003, 0, 0, 4, 8, .ro, 0, false, false, false, 0⟩,
  ⟨oPCI_IDS, 0x1004, 0, 0, 4, 8, .ro, 0, false, false, false, 0x4E0D0000⟩,
  ⟨oSTEPPING, 0x1005, 0, 0, 2, 2, .ro, 0, false, false, false, 0⟩,
  ⟨oFW_ACTIVE, 0x1006, 0, 0, 8, 0, .ro, 0, false, false, true, 0⟩,
  ⟨oROM_VERSION, 0x1007, 0, 0, 8, 0, .ro, 0, false, false, true, 0⟩,
  ⟨oASSET_TAG, 0x1008, 0, 0, 8, 0, .rwm, 0, true, false, true, 0⟩,
  ⟨oDICT_VERSION, 0x1009, 0, 0, 2, 2, .ro, 0, false, false, false, 256⟩,
  ⟨oMGMT_MAC, 0x1200, 0, 0, 9, 6, .ro, 0, false, false, false, 0⟩,
  ⟨oMGMT_LL_ADDR, 0x1201, 0, 0, 9, 16, .ro, 0, false, false, false, 0⟩,
  ⟨oSTESTO_PORT, 0x1202, 0, 0, 2, 2, .ro, 0, false, false, false, 48213⟩,
  ⟨oPLCA_NODE_ID, 0x1203, 0, 0, 1, 1, .ro, 0, false, false, false, 0⟩,
  ⟨oPLCA_NODE_COUNT, 0x1204, 0, 0, 1, 1, .rwm, 0, true, false, false, 32⟩]

/-- Object rows, part 6. -/
def objRows6 : List ObjRow := [
  ⟨oPLCA_TO_TIMER, 0x1205, 0, 0, 1, 1, .rwm, 0, true, false, false, 32⟩,
  ⟨oPLCA_BURST, 0x1206, 0, 0, 2, 2, .rwm, 0, true, false, false, 32768⟩,
  ⟨oMGMT_LINK, 0x1207, 0, 0, 1, 1, .ro, 0, false, false, false, 0⟩,
  ⟨oSESSION_IDLE_S, 0x1210, 0, 0, 2, 2, .rwm, 0, true, false, false, 60⟩,
  ⟨oSESSION_OPEN_COUNT, 0x1211, 0, 0, 1, 1, .ro, 0, false, false, false, 0⟩,
  ⟨oNOTIFY_RETRIES, 0x1212, 0, 0, 1, 1, .rwm, 0, true, false, false, 5⟩,
  ⟨oFRAME_DROPS, 0x1220, 0, 0, 3, 4, .ro, 0, false, false, false, 0⟩,
  ⟨oREPLAY_DROPS, 0x1221, 0, 0, 3, 4, .ro, 0, false, false, false, 0⟩,
  ⟨oNOTIFY_LOST, 0x1222, 0, 0, 3, 4, .ro, 0, false, false, false, 0⟩,
  ⟨oPERSIST_COMMITS, 0x1223, 0, 0, 3, 4, .ro, 0, true, false, false, 0⟩,
  ⟨oKEY_SLOT_COUNT, 0x8000, 0, 0, 1, 1, .ro, 0, false, false, false, 8⟩,
  ⟨oKEY_ROLE, 0x8001, 1, 8, 1, 1, .rwm, 0, true, false, false, 0⟩,
  ⟨oKEY_SCOPE, 0x8002, 1, 8, 9, 16, .rwm, 0, true, false, false, 0⟩,
  ⟨oKEY_MATERIAL, 0x8003, 1, 8, 9, 32, .wo, 0, true, false, false, 0⟩,
  ⟨oKEY_USES, 0x8004, 1, 8, 3, 4, .ro, 0, false, false, false, 0⟩,
  ⟨oAUTH_FAILS, 0x8010, 0, 0, 3, 4, .ro, 0, true, false, false, 0⟩,
  ⟨oLOCKOUT_S, 0x8011, 0, 0, 2, 2, .rwm, 0, true, false, false, 60⟩,
  ⟨oSESSION_KILL, 0x8012, 0, 0, 2, 2, .cmd, 3, false, false, false, 0⟩,
  ⟨oCORE_SPARE_FREE, 0x7100, 1, 2, 1, 1, .ro, 0, false, false, false, 4⟩,
  ⟨oCORE_RETIRE, 0x7101, 1, 128, 1, 1, .cmd, 3, false, false, false, 0⟩,
  ⟨oREGR_CE_LIMIT, 0x7102, 0, 0, 3, 4, .rwm, 0, true, false, false, 1000⟩,
  ⟨oPOOL_SPARE_FREE, 0x7103, 1, 2, 1, 1, .ro, 0, false, false, false, 2⟩,
  ⟨oPOOL_DEGRADED, 0x7104, 1, 2, 6, 1, .ro, 0, false, false, false, 0⟩]

/-- Object rows, part 7. -/
def objRows7 : List ObjRow := [
  ⟨oROW_SPARE_FREE, 0x7105, 1, 8, 3, 4, .ro, 0, false, false, false, 0⟩,
  ⟨oPC_RETIRE, 0x7106, 1, 8, 1, 1, .cmd, 3, false, false, false, 0⟩,
  ⟨oREPAIR_MAP_COUNT, 0x7107, 0, 0, 2, 2, .ro, 0, false, false, false, 0⟩,
  ⟨oREGR_PAUSES, 0x7108, 0, 0, 3, 4, .ro, 0, false, false, false, 0⟩,
  ⟨oFW_BANK_ACTIVE, 0x7110, 0, 0, 1, 1, .ro, 0, false, false, false, 0⟩,
  ⟨oFW_BOOT_BANK, 0x7111, 0, 0, 1, 1, .ro, 0, true, false, false, 0⟩,
  ⟨oFW_BANK_VERSION, 0x7112, 1, 2, 8, 0, .ro, 0, false, false, true, 0⟩,
  ⟨oFW_BLOCK_SEL, 0x7113, 0, 0, 2, 2, .rwm, 0, false, false, false, 0⟩,
  ⟨oFW_BLOCK, 0x7114, 0, 0, 9, 32768, .wo, 0, false, false, true, 0⟩,
  ⟨oFW_COMMIT, 0x7115, 0, 0, 1, 1, .cmd, 3, false, false, false, 0⟩,
  ⟨oFW_ACTIVATE, 0x7116, 0, 0, 1, 1, .cmd, 3, false, false, false, 0⟩,
  ⟨oFW_STATE, 0x7117, 0, 0, 7, 1, .ro, 0, false, false, false, 0⟩,
  ⟨oFW_ROLLBACK_MIN, 0x7118, 0, 0, 2, 2, .ro, 0, false, false, false, 0⟩,
  ⟨oSVC_DEPART, 0x7120, 0, 0, 2, 2, .cmd, 3, false, false, false, 0⟩,
  ⟨oSVC_STATE, 0x7121, 0, 0, 7, 1, .ro, 0, false, false, false, 0⟩,
  ⟨oSVC_EPOCH, 0x7122, 0, 0, 3, 4, .rwm, 0, true, false, false, 0⟩,
  ⟨oERR_LOG_COUNT, 0xA000, 0, 0, 1, 1, .ro, 0, false, false, false, 64⟩,
  ⟨oERR_LOG, 0xA000, 1, 64, 9, 32, .ro, 0, true, false, true, 0⟩,
  ⟨oERR_LOG_NEXT, 0xA001, 0, 0, 1, 1, .ro, 0, true, false, false, 1⟩,
  ⟨oERR_LOG_LOST, 0xA002, 0, 0, 3, 4, .ro, 0, true, false, false, 0⟩,
  ⟨oERR_LOG_CLEAR, 0xA003, 0, 0, 1, 1, .cmd, 3, false, false, false, 0⟩,
  ⟨oCONTAINED_COUNT, 0xA004, 0, 0, 3, 4, .ro, 0, true, false, false, 0⟩,
  ⟨oFATAL_COUNT, 0xA005, 0, 0, 3, 4, .ro, 0, true, false, false, 0⟩]

/-- Every object row. -/
def objRows : List ObjRow :=
  objRows0 ++ objRows1 ++ objRows2 ++ objRows3 ++ objRows4 ++ objRows5 ++ objRows6 ++ objRows7

/-- The row of an object, if it exists (Table STESTO-3, NO_OBJECT). -/
def objRow? (index sub : Nat) : Option ObjRow :=
  objRows.find? (fun r => decide (r.index ≤ index ∧ index ≤ r.lastIndex ∧ r.subLo ≤ sub ∧ sub ≤ r.subHi))

/-- The key of an object in State. -/
def objKey (index sub : Nat) : Nat := 256 * index + sub

/-- Defaults that depend on the subindex (Tables WEIR-6, SPAWN-4, HOST-10, STESTO-9). -/
def objDefault (index sub : Nat) : Nat :=
  let p := sub - 1
  if index = oTOKEN_BASE then (if p = 0 then 1 else 512 * p)
  else if index = oTOKEN_COUNT then (if p = 0 then 511 else 512)
  else if index = oFLOW_BASE then 8 * p
  else if index = oSPAWN_BASE then 128 * p
  else if index = oIQ_RANGE then 32 * 65536 + 32 * p
  else if index = oCQ_RANGE then 32 * 65536 + 32 * p
  else if index = oKEY_ROLE then (if sub = 1 then 3 else 0)
  else match objRow? index sub with
    | some r => r.dflt
    | none => 0

/-- The partition an object is indexed by (R440). -/
def objPart (index sub : Nat) : Nat :=
  if 0x3100 ≤ index ∧ index ≤ 0x317F then index - 0x3100 else sub - 1

end Sys2Proof.Machine
end

