-- ==== Sys2Proof/Machine/Crypto.lean ====
section
/-! DEFINITION. SHA-256 and HMAC-SHA-256 as their published standards define them (PRESUMED, log 11), which the Stesto
frames and proofs use (spec/18 R429, R436), and the CRC-64 of a flit (spec/16 Table FAB-1, log 18). -/

namespace Sys2Proof.Machine

open Sys2Proof

/-- The eight 32-bit words of a 256-bit number, the highest first. -/
def eightWords (n : Nat) : List W32 := (List.range 8).map (fun i => BitVec.ofNat 32 (n >>> (32 * (7 - i))))

/-- The round constants, eight to a number. -/
def shaKeys : List Nat :=
  [0x428a2f9871374491b5c0fbcfe9b5dba53956c25b59f111f1923f82a4ab1c5ed5,
   0xd807aa9812835b01243185be550c7dc372be5d7480deb1fe9bdc06a7c19bf174,
   0xe49b69c1efbe47860fc19dc6240ca1cc2de92c6f4a7484aa5cb0a9dc76f988da,
   0x983e5152a831c66db00327c8bf597fc7c6e00bf3d5a7914706ca635114292967,
   0x27b70a852e1b21384d2c6dfc53380d13650a7354766a0abb81c2c92e92722c85,
   0xa2bfe8a1a81a664bc24b8b70c76c51a3d192e819d6990624f40e3585106aa070,
   0x19a4c1161e376c082748774c34b0bcb5391c0cb34ed8aa4a5b9cca4f682e6ff3,
   0x748f82ee78a5636f84c878148cc7020890befffaa4506cebbef9a3f7c67178f2]

/-- The initial hash value. -/
def shaStart : List W32 := eightWords 0x6a09e667bb67ae853c6ef372a54ff53a510e527f9b05688c1f83d9ab5be0cd19

/-- A word rotated by three distances, the results added without carry. -/
def turned (x : W32) (i j k : Nat) : W32 := x.rotateRight i ^^^ (x.rotateRight j ^^^ x.rotateRight k)

/-- A word rotated by two distances and shifted by a third, the results added without carry. -/
def shifted (x : W32) (i j k : Nat) : W32 := x.rotateRight i ^^^ (x.rotateRight j ^^^ x.ushiftRight k)

/-- The schedule's window of sixteen words moved on by one. -/
def shaSlide (w : List W32) : List W32 :=
  w.drop 1 ++ [w.headD 0 + shifted (w.getD 1 0) 7 18 3 + (w.getD 9 0 + shifted (w.getD 14 0) 17 19 10)]

/-- One round: the eight working words under a constant, with the first word of the window. -/
def shaTurn (v w : List W32) (key : W32) : List W32 :=
  let x := fun i => v.getD i 0
  let pick := (x 4).and (x 5) ||| (x 6).and (x 4).not
  let most := (x 0).and (x 1) ||| (x 2).and ((x 0).or (x 1))
  let t := key + w.headD 0 + (pick + (turned (x 4) 6 11 25 + x 7))
  (most + turned (x 0) 2 13 22 + t) :: v.take 3 ++ (t + x 3) :: (v.drop 4).take 3

/-- The rounds of a list of constants. -/
def shaTurns : List W32 → List W32 → List W32 → List W32
  | [], v, _ => v
  | key :: rest, v, w => shaTurns rest (shaTurn v w key) (shaSlide w)

/-- A byte string as big-endian words; `n` bounds their number. -/
def beWords : Nat → List Byte → List W32
  | 0, _ => []
  | n + 1, b => BitVec.ofNat 32 (leNat (b.take 4).reverse) :: beWords n (b.drop 4)

/-- Blocks of 64 bytes taken from the front. -/
def shaBlocks : Nat → List W32 → List Byte → List W32
  | 0, h, _ => h
  | n + 1, h, b => shaBlocks n (List.zipWith BitVec.add (shaTurns (shaKeys.flatMap eightWords) h (beWords 16 b)) h) (b.drop 64)

/-- SHA-256 of a byte string. -/
def sha256 (b : List Byte) : List Byte :=
  let z := (119 - b.length % 64) % 64
  let padded := b ++ [0x80] ++ List.replicate z 0 ++ (leBytes 8 (8 * b.length)).reverse
  let h := shaBlocks (padded.length / 64) shaStart padded
  h.flatMap (fun w => (leBytes 4 w.toNat).reverse)

/-- HMAC-SHA-256 under a key of at most 64 bytes. -/
def hmac (key msg : List Byte) : List Byte :=
  let k := key ++ List.replicate (64 - key.length) 0
  let inner := sha256 (k.map (· ^^^ 0x36) ++ msg)
  sha256 (k.map (· ^^^ 0x5c) ++ inner)

/-- One bit of CRC-64, high bit first. -/
def crcStep (c : W64) : W64 :=
  if c.getLsbD 63 then (c <<< (1 : Nat)) ^^^ 0x42F0E1EBA9EA3693#64 else c <<< (1 : Nat)

/-- CRC-64 over bytes from an initial value of zero, each byte's high bit first. -/
def crc64 : W64 → List Byte → W64
  | c, [] => c
  | c, b :: r =>
    let c := c ^^^ (b.zeroExtend 64 <<< (56 : Nat))
    crc64 (crcStep (crcStep (crcStep (crcStep (crcStep (crcStep (crcStep (crcStep c)))))))) r

end Sys2Proof.Machine
end

