-- ==== Sys2Proof/Machine/Frame.lean ====
section
/-! DEFINITION. Stesto frames (spec/18 R429 to R432, Tables STESTO-1 and STESTO-2) and flits (spec/16 Table FAB-1) as bytes. -/

namespace Sys2Proof.Machine

open Sys2Proof

/-- A Stesto frame taken apart. -/
structure Frame where
  ver : Nat
  ftype : Nat
  sid : Nat
  fseq : Nat
  txid : Nat
  len : Nat
  reserved : Nat
  payload : List Byte
  mac : List Byte
  /-- The bytes the MAC covers. -/
  covered : List Byte
deriving DecidableEq, Repr

/-- The fields of a datagram (Table STESTO-1). -/
def parseFrame (b : List Byte) : Frame :=
  let len := numAt b 10 2
  { ver := numAt b 0 1, ftype := numAt b 1 1, sid := numAt b 2 2, fseq := numAt b 4 4, txid := numAt b 8 2, len := len,
    reserved := numAt b 12 4, payload := slice b 16 len, mac := b.drop (16 + len), covered := b.take (16 + len) }

/-- A frame's bytes without the trailer. -/
def frameBytes (ftype sid fseq txid : Nat) (payload : List Byte) : List Byte :=
  leBytes 1 1 ++ leBytes 1 ftype ++ leBytes 2 sid ++ leBytes 4 fseq ++ leBytes 2 txid ++ leBytes 2 payload.length ++
    leBytes 4 0 ++ payload

/-- The trailer: the first 16 bytes of the HMAC under the session key. -/
def frameMac (key covered : List Byte) : List Byte := (hmac key covered).take 16

/-- A frame with its trailer. -/
def sealFrame (key : List Byte) (ftype sid fseq txid : Nat) (payload : List Byte) : List Byte :=
  let b := frameBytes ftype sid fseq txid payload
  b ++ frameMac key b

/-- Which FTYPEs are defined (Table STESTO-2). -/
def ftypeDefined (t : Nat) : Bool :=
  [0x01, 0x02, 0x03, 0x04, 0x05, 0x06, 0x07, 0x08, 0x10, 0x11, 0x12, 0x13, 0x20, 0x21, 0x30].contains t

/-- The trailer is present in every frame whose SID is not 0, except SESSION_PROVE (R429). -/
def hasTrailer (f : Frame) : Bool := f.sid != 0 && f.ftype != 0x05

/-- Payload byte 3 of READ and WRITE is reserved (Table STESTO-2). -/
def payloadClear (f : Frame) : Bool := (f.ftype != 0x10 && f.ftype != 0x12) || numAt f.payload 3 1 == 0

/-- The checks of R430 that need no session: version, defined type, reserved bytes, datagram length, LEN. -/
def frameWellFormed (b : List Byte) : Bool :=
  let f := parseFrame b
  decide (16 ≤ b.length) && f.ver == 1 && ftypeDefined f.ftype && f.reserved == 0 && payloadClear f && decide (f.len ≤ 480) &&
    b.length == 16 + f.len + (if hasTrailer f then 16 else 0)

/-- Payload of an ERROR frame (Table STESTO-2). -/
def errorPayload (index sub code detail : Nat) : List Byte :=
  leBytes 2 index ++ leBytes 1 sub ++ leBytes 1 code ++ leBytes 4 detail

/-- Payload of a WRITE_REPLY. -/
def writeReplyPayload (index sub result : Nat) : List Byte :=
  leBytes 2 index ++ leBytes 1 sub ++ leBytes 1 0 ++ leBytes 4 result

/-- Payload of a NOTIFY. -/
def notifyPayload (cls lost index sub value : Nat) : List Byte :=
  leBytes 1 cls ++ leBytes 1 lost ++ leBytes 2 index ++ leBytes 1 sub ++ leBytes 3 0 ++ leBytes 8 value

/-- A flit: type, virtual channel, SEQ, ACK, NAK, credits returned, payload, CRC (Table FAB-1). Fields of several bytes are
little-endian: R10 orders memory, descriptors, records and Stesto frames, and the table says nothing (DESIGN CHOICE, log 70). -/
def flitBytes (ftype vc seq ackSeq : Nat) (nak : Bool) (cred0 cred1 : Nat) (payload : List Byte) : List Byte :=
  let b := leBytes 1 (ftype * 16 + vc * 8) ++ leBytes 1 0 ++ leBytes 2 (seq % 4096) ++
    leBytes 2 (ackSeq % 4096 + (if nak then 4096 else 0)) ++ leBytes 1 cred0 ++ leBytes 1 cred1 ++ slice payload 0 240
  b ++ leBytes 8 (crc64 0 b).toNat

/-- Whether a flit's length and CRC are right. -/
def flitOk (b : List Byte) : Bool :=
  b.length == 256 && decide ((crc64 0 (b.take 248)).toNat = numAt b 248 8)

/-- The bytes of a transport message: header of Table FAB-2, its fields of several bytes little-endian (DESIGN CHOICE, log 70), then
data. -/
def msgBytes (m : Msg) : List Byte :=
  leBytes 1 m.mtype ++ leBytes 1 m.wgroup ++ leBytes 2 m.dstChip ++ leBytes 2 m.srcChip ++ leBytes 2 m.dstCtx ++
    leBytes 4 m.xseq ++ leBytes 4 m.tag ++ leBytes 2 m.parts ++ leBytes 2 m.len ++ leBytes 8 m.addr ++ leBytes 4 m.aux ++
    m.data

/-- Cut into pieces of `n` bytes; `fuel` bounds the number of pieces. -/
def chunksOf (n : Nat) : Nat → List Byte → List (List Byte)
  | 0, _ => []
  | fuel + 1, b => if b.isEmpty then [] else b.take n :: chunksOf n fuel (b.drop n)

/-- The payloads of the flits of a message: header and 208 data bytes first, then 240 bytes each. -/
def msgFlits (m : Msg) : List (List Byte) := chunksOf 240 64 (msgBytes m)

end Sys2Proof.Machine
end

