-- ==== Sys2Proof/Machine/State.lean ====
section
/-! DEFINITION. The state of the package, as plain data: every register, table, buffer, counter, mode and pin that the
manual names (INVENTORY.md, State), the queue of waiting commands, and the state after a cold reset. -/

namespace Sys2Proof.Machine

open Sys2Proof

/-- Why the machine stops with a fault. -/
inductive Fault where
  /-- Raised by no command: the manual's obligations on software (R3) are not checked by the device, and every breach it
  leaves undefined is modelled as a free value or as the event the breach produces. Safe. -/
  | brokenObligation (rule : Nat)
deriving DecidableEq, Repr

/-- Why a command has no meaning. -/
inductive Refusal where
  /-- Raised by an arm of `exec` for a command without a meaning, by its mnemonic. Safe. -/
  | notModelled (mnemonic : String)
deriving DecidableEq, Repr

/-- The input pins that keep a level between commands. -/
structure Pins where
  /-- V48_IN in mV (R73, R74). -/
  v48Mv : Nat := 0
  /-- RESET_N asserted (R111). -/
  resetLow : Bool := false
  /-- The lands of the straps as the last command that samples them told: MGMT_ID in bits 0 to 4, CLKSEL in bit 5 (R109). -/
  straps : Nat := 0
deriving DecidableEq, Repr

/-- Power entry, start-up and shutdown (spec/04, spec/05). -/
structure Power where
  /-- Power good (R73). -/
  good : Bool := false
  /-- Compute powered: the rails of Table BASK-1 from step 8 on (R72). -/
  compute : Bool := false
  /-- The 10 ms and 1 ms limits of Table BASK-2 run. -/
  lowTimer : Bool := false
  highTimer : Bool := false
  /-- The state after a protective shutdown (R94) or a fatal stop (R452). -/
  shutdown : Bool := false
  /-- A restart requested and held (R95), with the RESET_CAUSE that asked for it. -/
  held : Option Nat := none
  /-- The RESET_CAUSE that the start in progress records. -/
  bootCause : Nat := 0
  /-- The power-on sequence is halted (R97). -/
  halted : Bool := false
  /-- Full mode (R98, R104). -/
  fullMode : Bool := false
  /-- Dispatch stopped by a contained error of chip scope (R451). -/
  chipError : Bool := false
  /-- ALERT_N held by a fatal error (Table REGR-1). -/
  fatal : Bool := false
  /-- ALERT_N pulsed by a contained error (Table REGR-1). -/
  alertPulse : Bool := false
  /-- Consecutive 1 ms periods below 0.95 × POWER_ENV (R78). -/
  lowPeriods : Nat := 0
  /-- Envelope and Bask act (R100). -/
  control : Bool := false
deriving DecidableEq, Repr

/-- What a quadrant's sequencer is doing (R59 to R61, and the interrupted up step of spec/03, "When things coincide"). -/
inductive SeqPhase where
  | idle
  | rampUp
  | settle
  | rampBack
  | rampDown
  | wait
deriving DecidableEq, Repr

/-- One quadrant's sequencer: the level it stands at, its phase, the core rail in mV (R57). -/
structure QuadSeq where
  level : Nat := 7
  phase : SeqPhase := .idle
  railMv : Nat := 0
deriving DecidableEq, Repr

/-- Clocks and loops (spec/03). -/
structure Clock where
  /-- The root-fed domains are gated and a relock is attempted (R66). -/
  rootGated : Bool := false
  /-- The memory loops of CD0 and CD1 that are being relocked (R67). -/
  relock0 : Bool := false
  relock1 : Bool := false
  /-- The attempts of the root loop, of ML0 and of ML1 have failed (R66, R67). -/
  rootFailed : Bool := false
  failed0 : Bool := false
  failed1 : Bool := false
  /-- Such a failure is not yet raised: with REF_LOST set, the one error waits for the last attempt (R71). -/
  rootNoted : Bool := false
  noted0 : Bool := false
  noted1 : Bool := false
  /-- The 10BASE-T1S port is clocked from the crystal (R54). -/
  phyOn : Bool := false
  /-- The sequencers, by quadrant. -/
  seqs : Tab QuadSeq := []
deriving DecidableEq, Repr

/-- A thermal state (R88); TRIP is the protective shutdown itself. -/
inductive Therm where
  | normal
  | warm
  | hot
deriving DecidableEq, Repr

/-- Bask (spec/04): the own state of each quadrant and stack, and the demand per quadrant. -/
structure ThermState where
  quad : Tab Therm := []
  stack : Tab Therm := []
  /-- Sensors that have failed: one bit a sensor, quadrant i at 16 i, stack k at 128 + 2 k (R92). -/
  failed : Nat := 0
deriving DecidableEq, Repr

/-- One persisted copy (R106). -/
structure NvCopy where
  valid : Bool := true
  gen : Nat := 0
  nums : Tab Nat := []
  blobs : Tab (List Byte) := []
deriving DecidableEq, Repr

/-- An entry of the repair map (spec/19). Physical cores are numbered 68 d + 17 q + i, i = 16 the spare of the quadrant. -/
inductive Repair where
  | core (c phys : Nat)
  | coreRetired (c : Nat)
  | badSpare (phys : Nat)
  | bank (die bank spare : Nat)
  | bankRemoved (die bank : Nat)
  /-- A row with the physical channel whose spare row it took (R458). -/
  | row (line channel : Nat)
  | channel (k channel spare : Nat)
  | channelRetired (k channel : Nat)
deriving DecidableEq, Repr

/-- What survives the loss of every rail (R106, R461, spec/19). -/
structure Nv where
  copyA : NvCopy := {}
  copyB : NvCopy := {}
  /-- A change of a persisted object is not yet committed (R448). -/
  dirty : Bool := false
  repair : List Repair := []
  /-- The spare-lane maps: lane + 1 by the port for its transmit direction, by 16 + port for its receive direction (R461). -/
  lanes : Tab Nat := []
  /-- Resets of any level above partition since first power-on (Table REGR-3). -/
  bootNo : Nat := 0
deriving DecidableEq, Repr

/-- Parts of a long value staged by a session (R439). -/
structure Staged where
  index : Nat
  sub : Nat
  total : Nat
  bytes : List Byte
deriving DecidableEq, Repr

/-- An unacknowledged notification (R441). -/
structure Note where
  txid : Nat
  cls : Nat
  index : Nat
  sub : Nat
  value : Nat
  lost : Nat
  tries : Nat
  /-- It has been formed into a frame, which fixes LOST (R442). -/
  sent : Bool
deriving DecidableEq, Repr

/-- A Stesto session (R434 to R442). -/
structure Session where
  sid : Nat
  src : Src
  /-- When its challenge was sent (R436). -/
  openedUs : Nat := 0
  /-- The PROOF has verified (R436). -/
  accepted : Bool := false
  slot : Nat := 0
  role : Nat := 0
  mask : Nat := 0
  scope : Nat := 0
  nc : List Byte := []
  nd : List Byte := []
  key : List Byte := []
  rxHigh : Nat := 0
  txSeq : Nat := 0
  /-- The last 8 accepted requests by FSEQ, latest first, each with its reply; empty while it has none. -/
  kept : List (Nat × List Byte) := []
  /-- Accepted requests whose reply comes later (R433). -/
  waiting : List Nat := []
  staged : Option Staged := none
  notes : List Note := []
  nextTx : Nat := 1
  lost : Nat := 0
deriving DecidableEq, Repr

/-- A command whose reply follows its completion (R433). -/
inductive Delayed where
  | partReset (p : Nat)
  | destroy (p : Nat)
  | coreRetire (c : Nat)
  | pcRetire (k : Nat)
deriving DecidableEq, Repr

/-- What waits for a mailbox's notification slot: a notification of a session by its TXID, or a frame of its own. -/
inductive BoxItem where
  | note (sid txid : Nat)
  | frame (bytes : List Byte)
deriving DecidableEq, Repr

/-- The mailbox of one PF (R444). -/
structure Mailbox where
  /-- Slots the device owns, and DONE, one bit a slot. -/
  owned : Nat := 0
  done : Nat := 0
  frames : Tab (List Byte) := []
  notifyPending : Bool := false
  notifyFrame : List Byte := []
  /-- Notifications waiting for the notification slot. -/
  queue : List BoxItem := []
  irq : Nat := 0
deriving DecidableEq, Repr

/-- The management controller (spec/18, R463). -/
structure Mgmt where
  sessions : List Session := []
  /-- Sessions the device has closed by a CLOSE, with their keys, until the CLOSE_REPLY (Table STESTO-2). -/
  closing : List (Nat × List Byte) := []
  nextSid : Nat := 1
  /-- Commands whose reply follows their completion, with the request and where its reply goes. -/
  waiting : List (Delayed × Req × Src) := []
  /-- AUTH_FAILED answers: source and time in µs (R437). -/
  fails : List (Src × Nat) := []
  locked : List Src := []
  boxes : Tab Mailbox := []
  /-- Nonces drawn so far. -/
  nonces : Nat := 0
  /-- Restarting on a firmware bank (R463). -/
  silent : Bool := false
  /-- Link-local address free of duplicates (R427). -/
  addressOk : Bool := false
deriving DecidableEq, Repr

/-- The firmware flash (R462, R463). -/
structure Fw where
  active : Nat := 0
  valid0 : Bool := true
  valid1 : Bool := false
  blocks0 : Tab (List Byte) := []
  blocks1 : Tab (List Byte) := []
deriving DecidableEq, Repr

/-- A batch being fetched (R406): descriptors left, and the status that refuses it. -/
structure Batch where
  left : Nat
  refused : Option Nat
deriving DecidableEq, Repr

/-- An intake queue (Table HOST-4, R400 to R405). -/
structure Iq where
  base : Nat := 0
  headAddr : Nat := 0
  admitLimit : Nat := 0
  cq : Nat := 0
  haltOnRefuse : Bool := false
  enable : Bool := false
  haltCause : Nat := 0
  halted : Bool := false
  overrun : Bool := false
  enabled : Bool := false
  head : Nat := 0
  tail : Nat := 0
  opened : Nat := 0
  /-- Batches logged and not begun (R402). -/
  log : List Nat := []
  current : Option Batch := none
  /-- Fetched descriptors waiting for a slot, each with its credit (R226) and the package number of the completion queue that
  holds an entry for it (R414). -/
  fetched : List (Nat × List Byte) := []
  /-- Descriptors fetched since the last head write-back (R404). -/
  sinceHead : Nat := 0
deriving DecidableEq, Repr

/-- A completion queue (Table HOST-5, R413 to R416). -/
structure Cq where
  base : Nat := 0
  coalTime : Nat := 0
  coalCount : Nat := 0
  vector : Nat := 0
  irqEn : Bool := false
  enabled : Bool := false
  phase : Bool := false
  tail : Nat := 0
  head : Nat := 0
  /-- Records written and not consumed, and entries reserved for descriptors (R414). -/
  used : Nat := 0
  reserved : Nat := 0
  /-- Records since the last interrupt, and whether COAL_TIME_US runs (R415). -/
  unsignalled : Nat := 0
  timer : Bool := false
deriving DecidableEq, Repr

/-- What the device holds for a partition beside its objects. -/
structure PartRec where
  /-- Credit level in millionths of a descriptor (R408). -/
  level : Nat := 0
  /-- Partition reset running (R112), and the operations it discarded. -/
  resetting : Bool := false
  destroying : Bool := false
  discarded : Nat := 0
deriving DecidableEq, Repr

/-- An entry of a function's MSI-X table (Tables HOST-1 and HOST-2). -/
structure Vector where
  addr : Nat := 0
  data : Nat := 0
  masked : Bool := true
deriving DecidableEq, Repr

/-- What the host has configured of a function (Tables HOST-1 and HOST-2, R397, R399, R415): base addresses of BAR0–1 and BAR2–3, power
state, MSI-X with its table and pending bits, Max_Payload_Size in bytes, and for a PF the VFs enabled. -/
structure FnRec where
  bar0 : Nat := 0
  bar2 : Nat := 0
  d3 : Bool := false
  msixEnable : Bool := false
  msixMask : Bool := false
  vectors : Tab Vector := []
  pending : List Nat := []
  payload : Nat := 128
  vfs : Nat := 0
deriving DecidableEq, Repr

/-- A PCIe endpoint (R395, R112, R424). -/
structure Endpoint where
  linkUp : Bool := false
  width : Nat := 0
  rateMt : Nat := 0
  perst : Bool := false
deriving DecidableEq, Repr

/-- The fields of a descriptor (Table OPS-1). -/
structure Desc where
  opc : Nat
  cls : Nat
  prec : Nat
  bndsrc : Nat
  gfp : Bool
  spillOk : Bool
  flow : Nat
  tol : Nat
  seq : Nat
  opid : Nat
  waits : List Nat
  signal : Nat
  tail : Nat
  wgroup : Nat
  scope : Nat
  seed : Nat
  lcount : Nat
  count : Nat
  bnd : Nat
  opl : Nat
  remoteSignal : Nat
  fmt0 : Nat
  fmt1 : Nat
  fmt2 : Nat
  fmt3 : Nat
  tailScale : Nat
  cap : Nat
deriving DecidableEq, Repr

/-- The states of Table WEIR-1; `ended` is an operation that left for release early, with its status. -/
inductive OpPhase where
  | waiting
  | issued
  | placed
  | dispatched
  | parked
  | executed
  | ended
deriving DecidableEq, Repr

/-- One token waited on (R229, R230, R238): satisfied, and whether a same-flow producer's failure reached this operation over
an edge that TOL does not mark. -/
structure Wait where
  token : Nat
  counting : Bool
  satisfied : Bool
  tolerant : Bool
  failed : Bool
deriving DecidableEq, Repr

/-- A change a Spawn operation makes at its commit (R318). -/
inductive SpawnAct where
  /-- A child of a fork: where its number goes, its map set, its length, and the pages it adds to. -/
  | create (numAddr mapAddr e : Nat)
  | remove (branch : Nat)
  | addRef (page n : Nat)
  | dropRef (page n : Nat)
  /-- A new page for the map entry at an address. -/
  | newPage (entryAddr : Nat)
  | clearEntry (entryAddr : Nat)
  /-- A branch named, checked again at commit (R319). -/
  | need (branch : Nat)
deriving DecidableEq, Repr

/-- Step data of a collective received: step, message within the chunk, bytes (R387). -/
structure SegRx where
  step : Nat
  index : Nat
  bytes : List Byte
deriving DecidableEq, Repr

/-- A collective in progress (R381 to R389). -/
structure CollRun where
  group : Nat
  collId : Nat
  redop : Nat
  dir : Nat
  /-- READY sent to the sending neighbour and received from the receiving one. -/
  readySent : Bool
  readyGot : Bool
  /-- Steps whose data has been sent, and steps received and worked. -/
  sent : Nat
  done : Nat
  segs : List SegRx
  /-- Chunks held: chunk number and its binary32 or raw words. -/
  chunks : Tab (List Byte)
deriving DecidableEq, Repr

/-- The array program (Table CORE-5): the operation it runs, effective precision, transposed load, tail, SEED, output bounds. -/
structure Program where
  op : Nat
  precision : Nat
  transposed : Bool
  tail : Nat
  seed : Nat
  m : Nat
  n : Nat
deriving DecidableEq, Repr

/-- A weight tile in a plane of the arrays (R118, R122): its tile index and its log containers by 16 k + j. -/
structure Plane where
  tile : Nat
  cells : Tab Nat
deriving DecidableEq, Repr

/-- A 64-lane row that the arrays have handed to the Rill (R121): its output tile and row, its lanes by 16 a + j. -/
structure RillRow where
  tile : Nat
  row : Nat
  lanes : Tab W32
deriving DecidableEq, Repr

/-- What a core's arrays, Rill and move engine hold (Table CORE-1): the program, the accumulators by 256 a + 16 row + column
(R120), the active and shadow weights (R122), rows not yet handed to the store path, the move engine's tile, and the vector
registers: lane `l` of register `r` at 64 r + l. -/
structure Arrays where
  program : Option Program := none
  acc : Tab W32 := []
  active : Option Plane := none
  shadow : Option Plane := none
  rill : List RillRow := []
  position : Nat := 0
  vregs : Tab W32 := []
deriving DecidableEq, Repr

/-- A saved context (R127): accumulators, array program, move engine position, Rill state, next tile. -/
structure Saved where
  acc : Tab W32
  program : Option Program
  position : Nat
  rill : List RillRow
  tile : Nat
deriving DecidableEq, Repr

/-- A save slot in use (R127): the operation, the core-local address of the slot, the context. -/
structure SaveSlot where
  op : Nat
  addr : Nat
  saved : Saved
deriving DecidableEq, Repr

/-- An outstanding request of an operation (R128, R245): a host read by its address, or a remote read by context and XSEQ. -/
structure Request where
  addr : Nat
  len : Nat
  ctx : Nat
  xseq : Nat
  remote : Bool
deriving DecidableEq, Repr

/-- An admitted, unreleased operation. -/
structure Op where
  id : Nat
  part : Nat
  queue : Nat
  /-- The completion queue of the package that holds its reserved entry (R414). -/
  cq : Nat := 0
  desc : Desc
  phase : OpPhase := .waiting
  waits : List Wait := []
  m : Nat := 0
  n : Nat := 0
  k : Nat := 0
  /-- The pointer sets read at issue (R203, R208). -/
  entries : List (List Nat) := []
  /-- What it addresses, as fixed at issue: the pieces it reads and writes; its parameter blocks and page addresses, by
  entry. -/
  ins : List (Nat × Nat) := []
  /-- How many of the pieces it reads each entry has, in order. -/
  insBy : List Nat := []
  outs : List (Nat × Nat) := []
  blocks : List (List Byte) := []
  pages : List (List Nat) := []
  core : Option Nat := none
  /-- Effective precision: 0 not resolved, else as PREC (R154). -/
  precision : Nat := 0
  tile : Nat := 0
  tiles : Nat := 0
  /-- The operator's data effect has taken place (log 6), and whether a NaR or NaN has been written so far (R151). -/
  dataDone : Bool := false
  nar : Bool := false
  /-- Some of its output has been written (Table OPS-8, PARTIAL). -/
  wrote : Bool := false
  status : Nat := 0
  precOverridden : Bool := false
  throttled : Bool := false
  heatPaced : Bool := false
  spilled : Bool := false
  partialOut : Bool := false
  faultEntry : Nat := 0xFFFF
  faultIndex : Nat := 0xFF
  faultGroup : Nat := 0xFFFFFFFF
  faultCount : Nat := 0
  preempts : Nat := 0
  cancel : Bool := false
  requests : List Request := []
  /-- Host reads still to be asked: the link to the I/O die has had no credit for them (Table HSK-2). -/
  due : List Request := []
  /-- An URGENT operation that found neither idle arrays nor a save slot, and waits for the first of either (R249). -/
  coreWait : Bool := false
  /-- Bytes landed in its buffers: host and remote reads, and the DRAM lines returned to it (R165). -/
  landed : Tab Byte := []
  /-- Remote operand pieces that the peer answered as poisoned: their lanes fault (R349). -/
  lostPieces : List (Nat × Nat) := []
  /-- Lines of its operands in DRAM, Pool and core store asked for so far, in operand order (R165, R182). -/
  asked : Nat := 0
  /-- Granules of its core's general area that hold its inputs (R130). -/
  granules : List Nat := []
  runnable : Bool := false
  parkedNo : Nat := 0
  parkLimit : Nat := 0
  /-- Save slot of a parked operation; none once its context has moved to its context area (R248), where it then is. -/
  slot : Option Nat := none
  context : Option Saved := none
  /-- Working set in core store, Pool, DRAM and spill window, in bytes (R168, R169). -/
  wsCore : Nat := 0
  wsPool : Nat := 0
  wsDram : Nat := 0
  wsSpill : Nat := 0
  /-- Its DRAM scratch by stack (Table MEM-4). -/
  scratch : Tab Nat := []
  reservedBranches : Nat := 0
  reservedPages : Nat := 0
  commits : List SpawnAct := []
  coll : Option CollRun := none
  /-- Its remote writes, by context and XSEQ of the first part (R367). -/
  writes : List (Nat × Nat) := []
  /-- The FLAG write of a PUT_FLAG still to be sent, after its earlier entries (R376). -/
  flagDue : Bool := false
  /-- A PUT or PUT_FLAG whose next message waits for a credit of its context: it stands at a tile boundary (R369, R394). -/
  putting : Bool := false
  /-- PACE extensions received, in µs (R389). -/
  pacedUs : Nat := 0
  /-- A FENCE under way (R188). -/
  fencing : Bool := false
  energyUj : Nat := 0
deriving DecidableEq, Repr

/-- The Weir (spec/11). -/
structure Weir where
  ops : List Op := []
  nextOp : Nat := 0
  counts : Tab Nat := []
  /-- The flows in which a released producer of an event token carried a failure mark, by 65536 × partition + token (R237, R238). -/
  marks : Tab (List Nat) := []
  /-- The partition served last, by class (R242). -/
  rotation : Tab Nat := []
  parkedNo : Nat := 0
deriving DecidableEq, Repr

/-- A pending program load (R132). -/
inductive Load where
  | preempt (op : Nat)
  | coreReset
  | partReset
deriving DecidableEq, Repr

/-- A logical core (spec/06, spec/19). -/
structure Core where
  exec : Option Nat := none
  /-- A wavefront is in progress (R131). -/
  wave : Bool := false
  load : Option Load := none
  /-- Stall timer running, with its duration in µs (R133, R138). -/
  stall : Option Nat := none
  /-- Save slots in use (R127). -/
  slots : Tab SaveSlot := []
  arrays : Arrays := {}
  /-- Residency tags: granule to 4 KiB region number (R130). -/
  tags : Tab Nat := []
  /-- Planned retirement waits for its operations (R454); spare mapping runs (R455). -/
  retiring : Bool := false
  mapping : Bool := false
  /-- The subindex of ERR_LOG under which its retirement stands; 0 where none does (R456). -/
  logged : Nat := 0
deriving DecidableEq, Repr

/-- An Eddy entry (R162): line address, masked bytes by offset, writers, age limit at creation, due to drain. -/
structure EddyEntry where
  line : Nat
  bytes : Tab Byte
  writers : List Nat
  limit : Nat
  due : Bool
deriving DecidableEq, Repr

/-- A write waiting for an Eddy entry (R166), with the core that holds its credit and whether its operation is URGENT. -/
structure EddyWait where
  addr : Nat
  bytes : List Byte
  op : Nat
  core : Option Nat := none
  urgent : Bool := false
deriving DecidableEq, Repr

/-- A line read that a core has asked for, of a memory controller or of the Pool (Table HSK-2), or that waits behind one (R182):
whether its operation is URGENT (R258), and whether return space is reserved for it, so that the controller may read the line
(R45). -/
structure LineRead where
  core : Nat
  op : Nat
  line : Nat
  urgent : Bool
  reserved : Bool
deriving DecidableEq, Repr

/-- A region the device has made zero (Table BOOT-2) or left unspecified (Table OPS-9), by its first and one-past-last
address: `free` is the number of its fresh free value, none where it is zero. -/
structure Fill where
  lo : Nat
  hi : Nat
  free : Option Nat
deriving DecidableEq, Repr

/-- Memory (spec/08). `cells` lists the bytes written since the last reset and since the region around them was filled;
`fills` the regions filled, newest first; `host` the host's bytes, keyed by function × 2^60 + address. -/
structure Mem where
  cells : List Host.Cell := []
  fills : List Fill := []
  host : List Host.Cell := []
  poison : List Nat := []
  eddies : Tab (List EddyEntry) := []
  eddyWait : List EddyWait := []
  /-- Line reads outstanding, in the order in which they were asked. -/
  reads : List LineRead := []
  epoch : Nat := 0
  /-- Fresh free values drawn so far. -/
  free : Nat := 0
deriving DecidableEq, Repr

/-- A live branch (R312). -/
structure Branch where
  part : Nat
  mapAddr : Nat
  e : Nat
deriving DecidableEq, Repr

/-- The Spawn table and the page reference counts, by page address / 65536 (R312, R313). -/
structure Spawn where
  branches : Tab Branch := []
  refs : Tab Nat := []
deriving DecidableEq, Repr

/-- A flit in a port's boundary FIFO: virtual channel, payload, and the message whose last flit it is. -/
structure FifoFlit where
  vc : Nat
  payload : List Byte
  last : Option Msg
deriving DecidableEq, Repr

/-- A fabric port's link layer (R356 to R361). -/
structure Port where
  /-- The boundary FIFO of 512 flits (Table HSK-2). -/
  fifo : List FifoFlit := []
  /-- The peer's receive-buffer credits held for VC0 and VC1 (Table FAB-1). -/
  room0 : Nat := 0
  room1 : Nat := 0
  txSeq : Nat := 0
  rxSeq : Nat := 0
  /-- DATA flits sent and not acknowledged, oldest first (at most 1024). -/
  replay : List (Nat × List Byte) := []
  /-- Messages being put together from received flits, by virtual channel. -/
  rx0 : List Byte := []
  rx1 : List Byte := []
  /-- The lane, 0 to 3, that the spare has taken over in its transmit and in its receive direction, and the one being repaired
  (R360, R461). -/
  swapped : Option Nat := none
  swappedRx : Option Nat := none
  repairing : Option Nat := none
  nak : Bool := false
  cred0 : Nat := 0
  cred1 : Nat := 0
  /-- HOLD flits are being received on it (R364). -/
  holding : Bool := false
  /-- PORT_STATE before the link layer was gated. -/
  before : Nat := 0
deriving DecidableEq, Repr

/-- State of a transport context (Table FAB-9, CTX_STATE). -/
inductive CtxSt where
  | closed
  | pendingOpen
  | opened
  | failed
  | closedByPeer
deriving DecidableEq, Repr

/-- A transport context (R365 to R370). -/
structure Ctx where
  st : CtxSt := .closed
  peerChip : Nat := 0
  peerCtx : Nat := 0
  part : Nat := 0
  txSeq : Nat := 0
  /-- Every XSEQ below it has been received; `rxMap` are those received above. -/
  rxNext : Nat := 0
  rxMap : List Nat := []
  credits : Nat := 0
  landed : Tab Nat := []
  /-- FLAG writes of the context that expired (R195), by XSEQ. -/
  expired : List Nat := []
deriving DecidableEq, Repr

/-- A message sent and not acknowledged (R371). -/
structure TxMsg where
  ctx : Nat
  msg : Msg
  op : Nat
  part : Nat
  flow : Nat
  retries : Nat
  /-- Sent; false while it waits for a credit or an UP port. -/
  sent : Bool
deriving DecidableEq, Repr

/-- A remote write that will never land (R378): partition, flow, operation, context, status. -/
structure LostWrite where
  part : Nat
  flow : Nat
  op : Nat
  ctx : Nat
  status : Nat
deriving DecidableEq, Repr

/-- A message that waits for a port: the one port a flooded message leaves by, or any of its route (R373); of one in transit the port
and virtual channel by which it came, whose receive buffer it still fills (R44). -/
structure Waiting where
  port : Option Nat
  vc : Nat
  msg : Msg
  cameBy : Option (Nat × Nat) := none
deriving DecidableEq, Repr

/-- A FLAG write held (R191, R195). -/
structure HeldFlag where
  ctx : Nat
  msg : Msg
  limit : Nat
deriving DecidableEq, Repr

/-- Parts landed of a remote write: context, TAG, and the XSEQs of its parts (R368). -/
structure Arriving where
  ctx : Nat
  tag : Nat
  got : List Nat
deriving DecidableEq, Repr

/-- The fabric (spec/16). -/
structure Fabric where
  ports : Tab Port := []
  ctxs : Tab Ctx := []
  msgs : List TxMsg := []
  lost : List LostWrite := []
  held : List HeldFlag := []
  arriving : List Arriving := []
  /-- READY received before the collective it belongs to: group and message (R381). -/
  ready : List (Nat × Msg) := []
  /-- Messages that wait for an UP port or for room in its FIFO, oldest first (R43, R373). -/
  stuck : List Waiting := []
  /-- FLAG writes acknowledged and not yet reported visible (R192, R378). -/
  unseen : List TxMsg := []
  /-- A hold series by received HOLD runs; its 100 ms limit has passed (R363). -/
  holdRx : Bool := false
  holdCapped : Bool := false
  /-- Last epoch of DEPART or JOIN seen, by chip, and chips departed (R391). -/
  epochs : Tab Nat := []
  departed : List Nat := []
  /-- CHIP_ID in force (Table FAB-9). -/
  chipId : Nat := 0
  /-- The chip has joined since its last departure. -/
  joined : Bool := false
deriving DecidableEq, Repr

/-- A repair running (spec/19). -/
inductive RegrJob where
  | core (c : Nat)
  | bank (die bank spare : Nat)
  | row (line : Nat)
  | relay (k channel : Nat)
  /-- A channel moved onto a spare, with the run being copied (R459). -/
  | move (k channel run : Nat)
  /-- The repair of a lane, put off (R360, R463). -/
  | lane (port lane : Nat)
deriving DecidableEq, Repr

/-- A log entry still open for coalescing (R453). -/
structure OpenEntry where
  cause : Nat
  location : Nat
  sub : Nat
  atUs : Nat
deriving DecidableEq, Repr

/-- Regrowth and the error log's time base (spec/19). -/
structure Regr where
  jobs : List RegrJob := []
  /-- Repairs that wait until a firmware switch ends (R463). -/
  deferred : List RegrJob := []
  openEntries : List OpenEntry := []
  resetAt : Nat := 0
deriving DecidableEq, Repr

/-- The test access port (R481 to R484). -/
structure Jtag where
  /-- The instruction register; Test-Logic-Reset loads IDCODE. -/
  ir : Nat := 2
  /-- EXTEST, CLAMP or HIGHZ has taken control of the pins since the last Test-Logic-Reset. -/
  control : Bool := false
  /-- The highest BOOT_STAGE that the held power-on sequence may reach; none while it is not held. -/
  hold : Option Nat := none
  /-- The ten cells of the boundary-scan register as last loaded, which drive the pins under EXTEST and CLAMP (R483). -/
  scan : BitVec 10 := 0
deriving DecidableEq, Repr

/-- What the device emits. -/
inductive Emit where
  /-- A Stesto frame (R428). -/
  | frame (dst : Src) (bytes : List Byte)
  /-- A neighbour advertisement, an echo reply, a duplicate address probe (R427). -/
  | advert (dst : Src) (target : List Byte)
  | echo (dst : Src) (data : List Byte)
  | probe
  /-- A transport message leaving by a port on a virtual channel, or delivered internally (R373, R374). -/
  | msg (port vc : Nat) (m : Msg)
  | internal (m : Msg)
  /-- A flit striped over the four active lanes: the physical lanes, 4 the spare, each with its bytes (R356, R357). -/
  | flit (port : Nat) (lanes : List (Nat × List Byte))
  /-- A HOLD flit on one lane (R362). -/
  | laneFlit (port lane : Nat) (bytes : List Byte)
  /-- An MSI-X vector of a function (R415). -/
  | msix (fn vector : Nat)
  /-- AER uncorrectable internal error of an endpoint (Table REGR-1). -/
  | aer (ep : Nat)
  /-- The answer to a configuration request: normal, with what a read returns, or Request Retry Status (R99). -/
  | config (fn : Nat) (normal : Bool) (data : Nat := 0)
  /-- The data register selected and its bits (R481, R482). -/
  | tdo (bits : Nat)
  /-- From here on the PLCA coordinator sends beacons for so many nodes (R425). -/
  | beacons (nodes : Nat)
deriving DecidableEq, Repr

/-- A request of the host received while the PCIe core is gated (R69). -/
inductive HostReq where
  | config (fn : Nat) (req : CfgReq)
  | iqDoorbell (fn i value : Nat)
  | iqCtrl (fn i ctrl : Nat)
  | cqDoorbell (fn j value : Nat)
  | cqCtrl (fn j ctrl : Nat)
  | bar0 (fn off size value : Nat)
  | mbSubmit (ep value : Nat) (frame : List Byte)
  | mbRelease (ep value : Nat)
  | mbNotifyFree (ep value : Nat)
  | flr (fn : Nat)
  | vfClear (ep : Nat)
deriving DecidableEq, Repr

/-- The whole state. -/
structure State where
  pending : List Instr := []
  pins : Pins := {}
  power : Power := {}
  clock : Clock := {}
  therm : ThermState := {}
  /-- Numeric dictionary objects by 256 × index + subindex; an unlisted one holds its Default. -/
  dict : Tab Nat := []
  /-- Strings and variable-length values, by the same key. -/
  blobs : Tab (List Byte) := []
  /-- Persisted values accepted in limited mode, which take effect at the next start (R105). -/
  staged : Tab Nat := []
  stagedBlobs : Tab (List Byte) := []
  nv : Nv := {}
  mgmt : Mgmt := {}
  fw : Fw := {}
  iqs : Tab Iq := []
  cqs : Tab Cq := []
  parts : Tab PartRec := []
  eps : Tab Endpoint := []
  /-- Functions by 256 × endpoint + function. -/
  fns : Tab FnRec := []
  /-- Host requests held while the PCIe core is gated, and completion records that wait for it (R43, R69). -/
  hostHeld : List HostReq := []
  outRecords : List (Op × Measured) := []
  weir : Weir := {}
  cores : Tab Core := []
  mem : Mem := {}
  spawn : Spawn := {}
  fabric : Fabric := {}
  regr : Regr := {}
  jtag : Jtag := {}
  nowUs : Nat := 0
  out : List Emit := []
deriving DecidableEq, Repr

/-- The package at a cold reset, before step 1 of Table BOOT-1: V48_IN absent, nothing powered, every object at its Default,
both persisted copies valid with every object at its Default (log 2). -/
def State.reset : State := {}

end Sys2Proof.Machine
end

