-- ==== Sys2Proof/Machine/Ops.lean ====
section
/-! DEFINITION. The named operations over State that every family uses: dictionary objects, the layout of cores, stacks and
spares, thermal and power levels, replies and notifications, the error log, the alert line. -/

namespace Sys2Proof.Machine

open Sys2Proof

/-- The outcome of every command of this model. -/
abbrev Result := Host.Outcome State Fault Refusal

/-! ### Dictionary objects -/

/-- A numeric object: its value, or its Default where nothing has been stored (R446, R104). -/
def rd (s : State) (o sub : Nat) : Nat := (tabGet? s.dict (objKey o sub)).getD (objDefault o sub)

/-- A numeric object stored. -/
def wr (s : State) (o sub v : Nat) : State := { s with dict := tabPut s.dict (objKey o sub) v }

/-- A persisted numeric object stored; the change waits for a commit (R448). -/
def wrP (s : State) (o sub v : Nat) : State :=
  { s with dict := tabPut s.dict (objKey o sub) v, nv := { s.nv with dirty := true } }

/-- An object whose Default is not its reading until first stored. -/
def rdOr (s : State) (o sub d : Nat) : Nat := (tabGet? s.dict (objKey o sub)).getD d

/-- A string or variable-length value. -/
def rdBytes (s : State) (o sub : Nat) : List Byte := tabGet [] s.blobs (objKey o sub)

/-- The same stored. -/
def wrBytes (s : State) (o sub : Nat) (b : List Byte) : State := { s with blobs := tabPut s.blobs (objKey o sub) b }

/-- The same for a persisted value. -/
def wrBytesP (s : State) (o sub : Nat) (b : List Byte) : State :=
  { s with blobs := tabPut s.blobs (objKey o sub) b, nv := { s.nv with dirty := true } }

/-- A counter object raised by `n`, saturating at 0xFFFF_FFFF. -/
def count32 (s : State) (o sub n : Nat) : State := wr s o sub (satAdd max32 (rd s o sub) n)

/-- The same for a persisted counter. -/
def count32P (s : State) (o sub n : Nat) : State := wrP s o sub (satAdd max32 (rd s o sub) n)

/-- Several objects returned to their Default. -/
def clearObjs (s : State) (p : Nat → Bool) : State :=
  { s with dict := s.dict.filter (fun e => !(p (e.1 / 256))) }

/-! ### Emission -/

/-- One more thing emitted, newest first. -/
def emit (s : State) (e : Emit) : State := { s with out := e :: s.out }

/-! ### Assembly variant, dies, stacks (spec/01) -/

/-- PKG_VARIANT: 0 4S1X, 1 4S2X, 2 6S1X, 3 8S2X. -/
def variantOf (s : State) : Nat := rd s oPKG_VARIANT 0

/-- STACK_MAP of a variant: bit k for Sk of CD0, bit 4 + k for Sk of CD1 (R20, Table PKG-3). -/
def stackMapOf (variant : Nat) : Nat := if variant ≤ 1 then 0x55 else if variant = 2 then 0xD7 else 0xFF

/-- IOD_MAP of a variant: IOD1 in the 2X variants (R19, Table PKG-2). -/
def iodMapOf (variant : Nat) : Nat := if variant % 2 = 1 then 3 else 1

/-- Whether IOD1 is fitted: EP1 and fabric ports 8 to 15 exist (R17, R18). -/
def twoX (s : State) : Bool := (iodMapOf (variantOf s)).testBit 1

/-- Fabric ports of the package (Table PKG-2). -/
def portCount (s : State) : Nat := if twoX s then 16 else 8

/-- The envelope range of the variant in W (Table PKG-2). -/
def envRange (variant : Nat) : Nat × Nat :=
  match variant with
  | 0 => (250, 380)
  | 1 => (300, 450)
  | 2 => (300, 450)
  | _ => (380, 550)

/-- POWER_ENV, whose Default is the lower bound of the variant's range (Table BASK-6). -/
def powerEnv (s : State) : Nat := rdOr s oPOWER_ENV 0 (envRange (variantOf s)).1

/-- Whether a stack is fitted (Table PKG-3). -/
def stackFitted (s : State) (k : Nat) : Bool := (stackMapOf (variantOf s)).testBit k && decide (k < 8)

/-- Active pseudo-channels: 0 for an unfitted stack (Table MEM-5). -/
def pcActive (s : State) (k : Nat) : Nat := if stackFitted s k then rd s oSTACK_PC_ACTIVE (k + 1) else 0

/-- A usable stack: fitted and not set aside (R23). -/
def stackUsable (s : State) (k : Nat) : Bool := decide (0 < pcActive s k)

/-- Usable bytes of a stack: 768 MiB a pseudo-channel (R159). -/
def stackBytes (s : State) (k : Nat) : Nat := pcActive s k * 768 * 2 ^ 20

/-- DRAM_BYTES (Table PKG-7). -/
def dramBytes (s : State) : Nat := (List.range 8).foldl (fun a k => a + stackBytes s k) 0

/-! ### Cores, spares and home stacks (R22 to R28) -/

/-- The physical core that runs a logical core when nothing is repaired. -/
def physHome (c : Nat) : Nat := (c / 64) * 68 + ((c % 64) / 16) * 17 + c % 16

/-- The physical core a repair map gives a logical core: its latest entry. -/
def physIn : List Repair → Nat → Nat → Nat
  | [], _, cur => cur
  | .core c' ph :: r, c, cur => physIn r c (if c' = c then ph else cur)
  | _ :: r, c, cur => physIn r c cur

/-- The physical core that currently runs a logical core. -/
def physOf (s : State) (c : Nat) : Nat := physIn s.nv.repair c (physHome c)

/-- Retired without replacement (R456). -/
def coreRetired (s : State) (c : Nat) : Bool := s.nv.repair.any (fun r => r == .coreRetired c)

/-- Package quadrant 4d + q of a logical core (R28). -/
def quadOf (s : State) (c : Nat) : Nat := (physOf s c / 68) * 4 + (physOf s c % 68) / 17

/-- Stack positions tried in order for a core (R23): its quadrant's, the neighbours by its number, the opposite. -/
def stackOrder (c k : Nat) : List Nat :=
  if c % 16 < 8 then [k, (k + 3) % 4, (k + 1) % 4, (k + 2) % 4] else [k, (k + 1) % 4, (k + 3) % 4, (k + 2) % 4]

/-- The home stack 4d + k of a core, if the package has a usable stack (R23). -/
def homeStack (s : State) (c : Nat) : Option Nat :=
  let d := quadOf s c / 4
  let ks := stackOrder c (quadOf s c % 4)
  ((ks.map (fun k => 4 * d + k)) ++ (ks.map (fun k => 4 * (1 - d) + k))).find? (stackUsable s)

/-- CORE_PLACE of a core (Table PKG-8). -/
def corePlace (s : State) (c : Nat) : Nat :=
  if coreRetired s c then 128
  else
    let q := quadOf s c
    let spare := if physOf s c % 17 = 16 then 32 else 0
    let stackless := if stackUsable s q then 0 else 16
    match homeStack s c with
    | some k => (if k / 4 = q / 4 then 0 else 64) + spare + stackless + (k % 4) * 4 + q % 4
    | none => spare + 16 + q % 4

/-- Whether a repair entry uses up or rules out a spare. -/
def takesSpare (ph : Nat) : Repair → Bool
  | .core _ ph' => ph' == ph
  | .badSpare ph' => ph' == ph
  | _ => false

/-- The spare of a quadrant is free (R26, R27). -/
def spareFree (s : State) (q : Nat) : Bool :=
  !(s.nv.repair.any (takesSpare ((q / 4) * 68 + (q % 4) * 17 + 16)))

/-- The spare a failed core of quadrant `q` goes to: its own quadrant's, else the lowest other quadrant of the die (R27). -/
def spareChoice (s : State) (q : Nat) : Option Nat :=
  ((q :: ((List.range 4).map (fun i => 4 * (q / 4) + i)).filter (fun i => i != q)).find? (spareFree s)).map
    (fun i => (i / 4) * 68 + (i % 4) * 17 + 16)

/-- Mappings under way or waiting on a die. -/
def mappingsOn (s : State) (d : Nat) : Nat :=
  ((s.regr.jobs ++ s.regr.deferred).filter (fun j => match j with
    | .core c => c / 64 == d
    | _ => false)).length

/-- Moves onto spare channels of a stack under way or waiting (R459). -/
def movesOn (s : State) (k : Nat) : Nat :=
  ((s.regr.jobs ++ s.regr.deferred).filter (fun j => match j with
    | .move k' _ _ => k' == k
    | _ => false)).length

/-- Spares of a die that no core stands on: CORE_SPARE_FREE counts those that no mapping under way is about to take (R456). -/
def spareCount (s : State) (d : Nat) : Nat :=
  (((List.range 4).map (fun i => 4 * d + i)).filter (spareFree s)).length

/-- Whether a repair entry or a running repair uses a spare Pool bank, or it failed itself. -/
def takesBank (d b : Nat) : Repair → Bool
  | .bank d' _ b' => d' == d && b' == b
  | .bankRemoved d' b' => d' == d && b' == b
  | _ => false

/-- The spare Pool banks of a die, 48 and 49, that are free (R457). -/
def bankSpares (s : State) (d : Nat) : List Nat :=
  [48, 49].filter (fun b => !(s.nv.repair.any (takesBank d b)) && !((s.regr.jobs ++ s.regr.deferred).any (fun j => match j with
    | .bank d' _ b' => d' == d && b' == b
    | _ => false)))

/-- The physical bank that holds Pool bank `b` of a die. -/
def bankIn : List Repair → Nat → Nat → Nat → Nat
  | [], _, _, cur => cur
  | .bank d' b' sp :: r, d, b, cur => bankIn r d b (if d' = d ∧ b' = b then sp else cur)
  | _ :: r, d, b, cur => bankIn r d b cur

/-- A Pool bank removed without a spare (R102). -/
def bankRemoved (s : State) (d b : Nat) : Bool := s.nv.repair.any (fun r => r == .bankRemoved d b)

/-! ### Pseudo-channels (R103, R158, R159) -/

/-- Physical pseudo-channels of a stack that are out of use. -/
def deadChannels (s : State) (k : Nat) : List Nat :=
  (List.range 34).filter (fun c => s.nv.repair.any (fun r => match r with
    | .channel k' c' _ => k' == k && c' == c
    | .channelRetired k' c' => k' == k && c' == c
    | _ => false))

/-- The spare pseudo-channels, 32 and 33, neither used nor out of use. -/
def idleChannels (s : State) (k : Nat) : List Nat :=
  [32, 33].filter (fun c => !((deadChannels s k).contains c) && !(s.nv.repair.any (fun r => match r with
    | .channel k' _ c' => k' == k && c' == c
    | _ => false)))

/-- The physical channel that holds a place of the rotation: its own, or the spare its latest move went to (R158). -/
def channelIn : List Repair → Nat → Nat → Nat
  | [], _, cur => cur
  | .channel k' c sp :: r, k, cur => channelIn r k (if k' = k ∧ c = cur then sp else cur)
  | _ :: r, k, cur => channelIn r k cur

/-- The physical channels of a stack in the order of its rotation, those retired without replacement left out (R158, R159). -/
def rotation (s : State) (k : Nat) : List Nat :=
  ((List.range 32).map (channelIn s.nv.repair k)).filter (fun c => !(s.nv.repair.any (fun r => r == .channelRetired k c)))

/-- STACK_PC_ACTIVE and STACK_SPARE_FREE brought up to date with the repair map. -/
def storeChannels (s : State) (k : Nat) : State :=
  let s := wr s oSTACK_PC_ACTIVE (k + 1) (34 - (deadChannels s k).length - (idleChannels s k).length)
  wr s oSTACK_SPARE_FREE (k + 1) (idleChannels s k).length

/-- The physical channel that holds a row run of a stack, by its offset (R157). -/
def channelAt (s : State) (k off : Nat) : Nat :=
  let l := rotation s k
  l.getD ((off / 2048) % l.length) 34

/-- The device address of run `run` of a channel in its stack's rotation (R157). -/
def runAddr (s : State) (k channel run : Nat) : Nat :=
  let l := rotation s k
  k * 2 ^ 35 + (run * l.length + l.idxOf channel) * 2048

/-- The runs of a pseudo-channel: 768 MiB of 2 KiB (R157, R159). -/
def channelRuns : Nat := 393216

/-- An entry added to the repair map, which is persisted with it. -/
def addRepair (s : State) (r : Repair) : State := { s with nv := { s.nv with repair := s.nv.repair ++ [r] } }

/-! ### Records of tables with a default -/

def coreOf (s : State) (c : Nat) : Core := tabGet {} s.cores c
def setCore (s : State) (c : Nat) (v : Core) : State := { s with cores := tabPut s.cores c v }
def portOf (s : State) (n : Nat) : Port := tabGet {} s.fabric.ports n
def setPort (s : State) (n : Nat) (v : Port) : State :=
  { s with fabric := { s.fabric with ports := tabPut s.fabric.ports n v } }
def ctxOf (s : State) (x : Nat) : Ctx := tabGet {} s.fabric.ctxs x
def setCtx (s : State) (x : Nat) (v : Ctx) : State :=
  { s with fabric := { s.fabric with ctxs := tabPut s.fabric.ctxs x v } }
def iqOf (s : State) (q : Nat) : Iq := tabGet {} s.iqs q
def setIq (s : State) (q : Nat) (v : Iq) : State := { s with iqs := tabPut s.iqs q v }
def cqOf (s : State) (q : Nat) : Cq := tabGet {} s.cqs q
def setCq (s : State) (q : Nat) (v : Cq) : State := { s with cqs := tabPut s.cqs q v }
def partOf (s : State) (p : Nat) : PartRec := tabGet {} s.parts p
def setPart (s : State) (p : Nat) (v : PartRec) : State := { s with parts := tabPut s.parts p v }
def epOf (s : State) (e : Nat) : Endpoint := tabGet {} s.eps e
def setEp (s : State) (e : Nat) (v : Endpoint) : State := { s with eps := tabPut s.eps e v }
def seqOf (s : State) (q : Nat) : QuadSeq := tabGet {} s.clock.seqs q
def setSeq (s : State) (q : Nat) (v : QuadSeq) : State :=
  { s with clock := { s.clock with seqs := tabPut s.clock.seqs q v } }
def boxOf (s : State) (e : Nat) : Mailbox := tabGet {} s.mgmt.boxes e
def setBox (s : State) (e : Nat) (v : Mailbox) : State :=
  { s with mgmt := { s.mgmt with boxes := tabPut s.mgmt.boxes e v } }
def fnOf (s : State) (fn : Nat) : FnRec := tabGet {} s.fns fn
def setFn (s : State) (fn : Nat) (v : FnRec) : State := { s with fns := tabPut s.fns fn v }

/-- The spare lane of a port's transmit direction is in use (R360). -/
def Port.spare (p : Port) : Bool := p.swapped.isSome

/-! ### Thermal state and P-levels (R57, R58, R89) -/

def quadOwn (s : State) (q : Nat) : Therm := tabGet .normal s.therm.quad q
def stackOwn (s : State) (k : Nat) : Therm := tabGet .normal s.therm.stack k

/-- The code of QUAD_THERM. -/
def thermCode : Therm → Nat
  | .normal => 0
  | .warm => 1
  | .hot => 2

/-- The more severe of a quadrant's own state and that of the stack above it (R89). -/
def quadTherm (s : State) (q : Nat) : Therm :=
  match quadOwn s q, stackOwn s q with
  | .hot, _ => .hot
  | _, .hot => .hot
  | .warm, _ => .warm
  | _, .warm => .warm
  | _, _ => .normal

/-- Bask's demand: one or two levels below the other demands, never beyond P7 (Table BASK-4). -/
def baskDemand (s : State) (q : Nat) : Nat :=
  let other := max (rd s oPLEVEL_REQ (q + 1)) (rd s oENV_DEMAND 0)
  match quadTherm s q with
  | .normal => 0
  | .warm => min 7 (other + 1)
  | .hot => min 7 (other + 2)

/-- The effective P-level: the highest-numbered demand (R58); before step 8 its Default. -/
def effLevel (s : State) (q : Nat) : Nat :=
  if s.power.control then max (rd s oPLEVEL_REQ (q + 1)) (max (rd s oENV_DEMAND 0) (baskDemand s q)) else 3

/-- PLEVEL_CAUSE: one bit for each demand equal to the effective level (Table CLK-6). Bask makes no demand of a quadrant in NORMAL
(Table BASK-4), which counts as level 0 and sets no bit (DESIGN CHOICE, log 62). -/
def levelCause (s : State) (q : Nat) : Nat :=
  if s.power.control then
    (if rd s oPLEVEL_REQ (q + 1) = effLevel s q then 1 else 0) + (if rd s oENV_DEMAND 0 = effLevel s q then 2 else 0) +
      (if quadTherm s q ≠ .normal ∧ baskDemand s q = effLevel s q then 4 else 0)
  else 1

/-- Core rail voltage of a P-level in mV (Table CLK-3). -/
def railOf (level : Nat) : Nat := [850, 810, 765, 720, 680, 640, 595, 550].getD level 550

/-- The internal rails of Table BASK-1: one for management; one core rail a quadrant; one SRAM rail a die; VDD and VPP of a
stack; one rail an I/O die. -/
inductive Rail where
  | management
  | core (q : Nat)
  | sram (die : Nat)
  | vdd (stack : Nat)
  | vpp (stack : Nat)
  | io (iod : Nat)
deriving DecidableEq, Repr

/-- The rails the package has: two for each fitted stack, one for each fitted I/O die (R72). -/
def rails (s : State) : List Rail :=
  [.management, .sram 0, .sram 1, .io 0] ++ (if twoX s then [.io 1] else []) ++ (List.range 8).map .core ++
    ((List.range 8).filter (stackFitted s)).flatMap (fun k => [.vdd k, .vpp k])

/-- The management rail is up while V48_IN is at or above 30 V (Table BASK-1). -/
def mgmtRail (s : State) : Bool := s.power.good || decide (30000 ≤ s.pins.v48Mv)

/-- VIO18_OUT in mV, powered from the management rail (R470, Table ELEC-3). -/
def vio18Out (s : State) : Nat := if mgmtRail s then 1800 else 0

/-- A rail's voltage in mV: 0 while it is off. The management rail is up while V48_IN is at or above 30 V, the others while
compute is powered, a core rail at its sequencer's voltage (R72, Table BASK-1). -/
def railVoltage (s : State) (r : Rail) : Nat :=
  match r with
  | .management => if mgmtRail s then 800 else 0
  | .core q => if s.power.compute then (seqOf s q).railMv else 0
  | .sram _ => if s.power.compute then 750 else 0
  | .vdd _ => if s.power.compute then 1100 else 0
  | .vpp _ => if s.power.compute then 1800 else 0
  | .io _ => if s.power.compute then 900 else 0

/-- Controller divisor of a P-level (Table CLK-3). -/
def divisorOf (level : Nat) : Nat := if level ≤ 4 then 3 else if level ≤ 6 then 4 else 6

/-- MC_DIVISOR as stored for a quadrant: 0 without a stack (Table CLK-6). -/
def storeDivisor (s : State) (q level : Nat) : State :=
  wr s oMC_DIVISOR (q + 1) (if stackFitted s q then divisorOf level else 0)

/-- Bandwidth ceiling in % of a controller divisor (Table CLK-3). -/
def divisorCeiling (d : Nat) : Nat := if d = 3 then 100 else if d = 4 then 75 else if d = 6 then 50 else 0

/-- Bandwidth cap in % of a stack's thermal state (Table BASK-4). -/
def thermCap : Therm → Nat
  | .normal => 100
  | .warm => 75
  | .hot => 50

/-- STACK_BW_CAP_PCT: the lower of the two limits (R179); 0 for an unfitted stack. -/
def bwCap (s : State) (k : Nat) : Nat :=
  if stackFitted s k then min (divisorCeiling (rd s oMC_DIVISOR (k + 1))) (thermCap (stackOwn s k)) else 0

/-- Whether a stack is in self-refresh (Table CLK-5, R451). -/
def selfRefresh (s : State) (k : Nat) : Bool :=
  s.clock.rootGated || s.power.chipError || (if k < 4 then s.clock.relock0 else s.clock.relock1)

/-- REFRESH_MODE of a stack brought up to date (R178, Table CLK-5). -/
def storeRefresh (s : State) (k : Nat) : State :=
  wr s oREFRESH_MODE (k + 1)
    (if selfRefresh s k then 2 else if stackOwn s k = .normal then 0 else 1)

/-- The same for every fitted stack. -/
def storeRefreshAll (s : State) : State :=
  (List.range 8).foldl (fun t k => if stackFitted t k then storeRefresh t k else t) s

/-! ### Reset causes, limited mode and the management port -/

/-- A trained fabric port: PORT_STATE UP or repairing (Table FAB-9). -/
def portCode (s : State) (n : Nat) : Nat := rd s oPORT_STATE (n + 1) % 8

def portUp (s : State) (n : Nat) : Bool := portCode s n = 2 && decide (n < portCount s)

/-- A port that has trained and whose link layer runs (R391, R451). -/
def portTrained (s : State) (n : Nat) : Bool := (portCode s n = 2 || portCode s n = 3) && decide (n < portCount s)

/-- Stesto reachable over the field network: step 5 of Table BOOT-1 done, RESET_N high (R111), the firmware not restarting
(R463), the address free of duplicates (R427). -/
def stestoUp (s : State) : Bool :=
  s.power.good && !s.pins.resetLow && s.clock.phyOn && s.mgmt.addressOk && !s.mgmt.silent

/-- Limited mode (spec/05). -/
def limited (s : State) : Bool := !s.power.fullMode

/-! ### Replies and notifications (R428, R433, R441, R442, R444) -/

/-- MSI-X vectors of a function: 2048 of a PF, 64 of a VF (Table HOST-1). -/
def msixVectors (fn : Nat) : Nat := if fn % 256 = 0 then 2048 else 64

/-- A vector of a function masked, by its own bit or the function's (R415). -/
def vectorMasked (f : FnRec) (v : Nat) : Bool := f.msixMask || (tabGet {} f.vectors v).masked

/-- An MSI-X vector of a function: sent; left pending while it is masked or the PCIe core is gated (R69); nothing while MSI-X is
off or the function has no such vector (R415, log 58). -/
def sendMsix (s : State) (fn v : Nat) : State :=
  let f := fnOf s fn
  if !f.msixEnable || decide (msixVectors fn ≤ v) then s
  else if s.clock.rootGated || vectorMasked f v then setFn s fn { f with pending := insertAsc f.pending v }
  else emit s (.msix fn v)

/-- The pending vectors of a function that are no longer masked are sent (R415). -/
def flushMsix (s : State) (fn : Nat) : State :=
  let f := fnOf s fn
  if f.msixEnable && !s.clock.rootGated then
    (f.pending.filter (fun v => !(vectorMasked f v))).foldl (fun t v => emit t (.msix fn v))
      (setFn s fn { f with pending := f.pending.filter (vectorMasked f) })
  else s

/-- MSI-X by the mailbox of a PF (R444). -/
def boxIrq (s : State) (e : Nat) : State :=
  let irq := (boxOf s e).irq
  if irq.testBit 15 then sendMsix s (256 * e) (field irq 10 0) else s

/-- A reply: a datagram to its address, or the frame placed in its mailbox slot with DONE set (R428, R444). -/
def reply (s : State) (src : Src) (b : List Byte) : State :=
  match src with
  | .net _ _ => if stestoUp s then emit s (.frame src b) else s
  | .mailbox e slot =>
    let x := boxOf s e
    boxIrq (setBox s e { x with
      frames := tabPut x.frames slot b, owned := setBit x.owned slot false, done := setBit x.done slot true }) e

/-- A frame placed in a mailbox's notification slot (R444). -/
def placeNote (s : State) (e : Nat) (b : List Byte) : State :=
  boxIrq (setBox s e { boxOf s e with notifyPending := true, notifyFrame := b }) e

/-- Something put behind what waits for a mailbox's notification slot. -/
def waitNote (s : State) (e : Nat) (keep : BoxItem → Bool) (i : BoxItem) : State :=
  setBox s e { boxOf s e with queue := (boxOf s e).queue.filter keep ++ [i] }

/-- A frame of the device in a session, other than a reply, handed to its path: a datagram, or the mailbox's notification slot
(R431, R444). -/
def sendNote (s : State) (src : Src) (b : List Byte) : State :=
  match src with
  | .net _ _ => if stestoUp s then emit s (.frame src b) else s
  | .mailbox e _ => if (boxOf s e).notifyPending then waitNote s e (fun _ => true) (.frame b) else placeNote s e b

/-- The frame of a notification in a session. -/
def noteFrame (x : Session) (n : Note) : List Byte :=
  sealFrame x.key 0x20 x.sid x.txSeq n.txid (notifyPayload n.cls n.lost n.index n.sub n.value)

/-- A notification queued in one session: at 32 unacknowledged the oldest goes, and LOST of the next that is formed rises
(R442). Answers the session and how many were lost. -/
def queueNote (x : Session) (cls index sub value : Nat) : Session × Nat :=
  let full := decide (32 ≤ x.notes.length)
  let n : Note := { txid := x.nextTx, cls := cls, index := index, sub := sub, value := value % 2 ^ 64, lost := 0, tries := 0, sent := false }
  ({ x with notes := (if full then x.notes.drop 1 else x.notes) ++ [n], nextTx := (x.nextTx + 1) % 65536
            lost := if full then satAdd 255 x.lost 1 else x.lost }, if full then 1 else 0)

/-- A notification formed into a frame under the session's next FSEQ; the first time it takes LOST (R441, R442). -/
def formNote (x : Session) (n : Note) : Session × List Byte :=
  let m : Note := if n.sent then n else { n with lost := x.lost, sent := true }
  let y := { x with notes := x.notes.map (fun k => if k.txid = n.txid then m else k), txSeq := x.txSeq + 1
                    lost := if n.sent then x.lost else 0 }
  (y, noteFrame y m)

/-- Whether something that waits for a notification slot still has its notification, as far as session `x` tells. -/
def itemLive (x : Session) : BoxItem → Bool
  | .note sid txid => sid != x.sid || x.notes.any (fun n => n.txid == txid)
  | .frame _ => true

/-- A notification of a session handed to its path: formed and sent, or behind what waits for the mailbox's notification slot,
from which those discarded are gone (R441, R442, R444). -/
def offerNote (s : State) (x : Session) (n : Note) : Session × State :=
  match x.src with
  | .net _ _ => ((formNote x n).1, if stestoUp s then emit s (.frame x.src (formNote x n).2) else s)
  | .mailbox e _ =>
    if (boxOf s e).notifyPending then
      (x, waitNote s e (fun i => itemLive x i && i != .note x.sid n.txid) (.note x.sid n.txid))
    else ((formNote x n).1, placeNote s e (formNote x n).2)

/-- Whether a session takes notifications of a class (R441). -/
def wantsNote (cls : Nat) (x : Session) : Bool := x.accepted && x.mask.testBit cls

/-- Notifications to the sessions of a list; the rest of State follows along. -/
def notifyEach (cls index sub value : Nat) : List Session → State → List Session × State
  | [], s => ([], s)
  | x :: r, s =>
    if wantsNote cls x then
      let q := queueNote x cls index sub value
      let s := if q.2 = 0 then s else count32 s oNOTIFY_LOST 0 1
      let f := match q.1.notes.getLast? with
        | some n => offerNote s q.1 n
        | none => (q.1, s)
      let t := notifyEach cls index sub value r f.2
      (f.1 :: t.1, t.2)
    else
      let t := notifyEach cls index sub value r s
      (x :: t.1, t.2)

/-- A NOTIFY of class `cls` to every session that asks for it (R441). -/
def notify (s : State) (cls index sub value : Nat) : State :=
  let t := notifyEach cls index sub value s.mgmt.sessions s
  { t.2 with mgmt := { t.2.mgmt with sessions := t.1 } }

/-- An object of a notification class stored; a change is notified (R441). -/
def wrNote (s : State) (cls o sub v : Nat) : State :=
  if rd s o sub = v then s else notify (wr s o sub v) cls o sub v

/-- The same for a persisted object. -/
def wrNoteP (s : State) (cls o sub v : Nat) : State :=
  if rd s o sub = v then s else notify (wrP s o sub v) cls o sub v

/-- Bits of CLK_STATUS, PWR_STATUS and BOOT_FAULT set or cleared. -/
def clkBit (s : State) (i : Nat) (b : Bool) : State := wrNote s 3 oCLK_STATUS 0 (setBit (rd s oCLK_STATUS 0) i b)
def pwrBit (s : State) (i : Nat) (b : Bool) : State := wrNote s 2 oPWR_STATUS 0 (setBit (rd s oPWR_STATUS 0) i b)
def bootFault (s : State) (i : Nat) : State := wr s oBOOT_FAULT 0 (setBit (rd s oBOOT_FAULT 0) i true)
def clkIs (s : State) (i : Nat) : Bool := (rd s oCLK_STATUS 0).testBit i

/-- BOOT_STAGE stored, with its notification (R98, Table STESTO-5). -/
def stage (s : State) (v : Nat) : State := wrNote s 4 oBOOT_STAGE 0 v

/-- PORT_STATE stored: state code and spare-in-use bit, of either direction (Table FAB-9). -/
def setPortCode (s : State) (n code : Nat) : State :=
  let p := portOf s n
  wrNote s 5 oPORT_STATE (n + 1) (code + (if p.spare || p.swappedRx.isSome then 8 else 0))

/-! ### The error log (R449, R453) -/

/-- An entry of Table REGR-3. -/
def logEntry (s : State) (cls scope cause location addr count action : Nat) : List Byte :=
  leBytes 4 s.nv.bootNo ++ leBytes 8 (s.nowUs - s.regr.resetAt) ++ leBytes 1 cls ++ leBytes 1 scope ++ leBytes 2 cause ++
    leBytes 4 location ++ leBytes 8 addr ++ leBytes 2 count ++ leBytes 1 action ++ leBytes 1 0

/-- The open entry of a CAUSE and LOCATION written within the last 10 ms. -/
def openEntry (s : State) (cause location : Nat) : Option OpenEntry :=
  s.regr.openEntries.find? (fun e => e.cause == cause && e.location == location && decide (s.nowUs ≤ e.atUs + 10000))

/-- The number of a log entry's first 8 bytes, as a notification gives it. -/
def entryHead (b : List Byte) : Nat := numAt b 0 8

/-- An error log entry written, or coalesced into the open one (R453). -/
def logError (s : State) (cls scope cause location addr action : Nat) : State :=
  match openEntry s cause location with
  | some e =>
    let b := rdBytes s oERR_LOG e.sub
    let b' := b.take 28 ++ leBytes 2 (satAdd 0xFFFF (numAt b 28 2) 1) ++ b.drop 30
    let s := wrBytesP s oERR_LOG e.sub b'
    let es := s.regr.openEntries.map (fun x => if x = e then { x with atUs := s.nowUs } else x)
    let s := { s with regr := { s.regr with openEntries := es } }
    notify s 6 oERR_LOG e.sub (entryHead b')
  | none =>
    let sub := rd s oERR_LOG_NEXT 0
    let full := numAt (rdBytes s oERR_LOG sub) 0 32 != 0
    let s := if full then count32P s oERR_LOG_LOST 0 1 else s
    let b := logEntry s cls scope cause location addr 1 action
    let s := wrBytesP s oERR_LOG sub b
    let s := wrP s oERR_LOG_NEXT 0 (sub % 64 + 1)
    let es := ⟨cause, location, sub, s.nowUs⟩ :: s.regr.openEntries.filter (fun x => x.sub != sub)
    let s := { s with regr := { s.regr with openEntries := es } }
    notify s 6 oERR_LOG sub (entryHead b)

/-- A contained error: counted, logged, ALERT_N pulsed, class 6 notified (Table REGR-1). -/
def contained (s : State) (scope cause location addr action : Nat) : State :=
  let s := count32P s oCONTAINED_COUNT 0 1
  let s := { s with power := { s.power with alertPulse := true } }
  logError s 1 scope cause location addr action

/-- A repair begun, or put off while the firmware is switched (R463). -/
def startJob (s : State) (j : RegrJob) : State :=
  if s.mgmt.silent then { s with regr := { s.regr with deferred := s.regr.deferred ++ [j] } }
  else { s with regr := { s.regr with jobs := s.regr.jobs ++ [j] } }

/-- A repair that runs or waits. -/
def hasJob (s : State) (j : RegrJob) : Bool := s.regr.jobs.contains j || s.regr.deferred.contains j

/-! ### ALERT_N (Table ELEC-3: the wired OR of every alert cause) -/

/-- Some cause of ALERT_N that the manual names holds. -/
def alertCause (s : State) : Bool :=
  (rd s oPWR_STATUS 0 != 0) || s.power.halted || s.power.fatal || s.power.alertPulse || s.power.shutdown ||
    (List.range 8).any (fun q => decide (quadTherm s q = .hot)) || (rd s oMGMT_LINK 0).testBit 1 ||
    (s.power.good && rd s oCLK_MODE 0 = 0 && !(clkIs s 1)) || (s.power.good && !s.clock.phyOn)

/-- An instruction of the test port that takes control of the pins below BOOT_STAGE 13: EXTEST, CLAMP, HIGHZ (R484). -/
def pinCode (ir : Nat) : Bool := ir == 0 || ir == 3 || ir == 4

/-- The test port controls the pins (R484). -/
def pinsTaken (s : State) : Bool := mgmtRail s && pinCode s.jtag.ir && decide (rd s oBOOT_STAGE 0 < 13)

/-- Whether the device asserts ALERT_N: not while the pin is at high impedance, the management rail down or HIGHZ in control; as its
cell says under EXTEST and CLAMP, low asserting it; else by its causes (R470, R483, R484). -/
def alertN (s : State) : Bool :=
  mgmtRail s && (if pinsTaken s then (if s.jtag.ir = 4 then false else !(s.jtag.scan.getLsbD 9)) else alertCause s)

end Sys2Proof.Machine
end

