-- ==== Sys2Proof/Machine/Memory.lean ====
section
/-! DEFINITION. Memory: device addresses (Table MEM-2), what a partition may address (R420), reads through the Eddy overlay
(R165), writes through the Eddy (R162 to R164), poison (R176, R450), host memory, unspecified regions. -/

namespace Sys2Proof.Machine

open Sys2Proof

/-! ### Device addresses -/

/-- SPACE of a device address. -/
def space (a : Nat) : Nat := a / 2 ^ 60

/-- Stack and offset of a DRAM address. -/
def dramStack (a : Nat) : Nat := field a 37 35
def dramOff (a : Nat) : Nat := field a 34 0

/-- Die and offset of a Pool address. -/
def poolDie (a : Nat) : Nat := field a 27 27
def poolOff (a : Nat) : Nat := field a 26 0

/-- Core and local address of a core-store address. -/
def storeCore (a : Nat) : Nat := field a 54 48
def storeOff (a : Nat) : Nat := field a 22 0

/-- The device address of offset 0 of a core's store. -/
def coreBase (c : Nat) : Nat := 2 * 2 ^ 60 + c * 2 ^ 48

/-- Context of a remote address, and the address on the peer's own chip it stands for (R367). -/
def remoteCtx (a : Nat) : Nat := field a 59 48
def remoteLocal (a : Nat) : Nat := field a 47 44 * 2 ^ 60 + field a 37 0

/-- The line of an address. -/
def lineOf (a : Nat) : Nat := a - a % 256

/-- The lines that a region of `n` bytes touches. -/
def linesOf (a n : Nat) : List Nat :=
  if n = 0 then [] else (List.range ((a % 256 + n + 255) / 256)).map (fun i => lineOf a + 256 * i)

/-- Whether two regions share a byte. -/
def overlaps (a n b m : Nat) : Bool := decide (a < b + m ∧ b < a + n)

/-- Whether the layout of an address is one of Table MEM-2 or R367: no reserved SPACE, RSPACE or bit. -/
def addressLaidOut (a : Nat) : Bool :=
  match space a with
  | 0 => field a 59 38 == 0
  | 1 => field a 59 28 == 0 && decide (poolOff a < 0x6000000)
  | 2 => field a 59 55 == 0 && field a 47 23 == 0 && decide (storeOff a < 0x600000)
  | 3 => true
  | 4 => field a 43 38 == 0 && (field a 47 44 == 0 || (field a 47 44 == 1 && field a 37 28 == 0))
  | _ => false

/-! ### What a partition owns (R419, R420) -/

/-- The partition exists: PART_STATE active or resetting. -/
def partExists (s : State) (p : Nat) : Bool := rd s oPART_STATE (p + 1) != 0

/-- The function a partition is bound to, 256 × endpoint + function (PART_FUNC). -/
def partFn (s : State) (p : Nat) : Nat := rd s oPART_FUNC (p + 1) % 512

/-- The partition bound to a function. -/
def fnPart (s : State) (fn : Nat) : Option Nat :=
  (List.range 128).find? (fun p => partExists s p && partFn s p == fn)

/-- The cores of a partition, ascending. -/
def partCores (s : State) (p : Nat) : List Nat := bitList (rd s oPART_CORES (p + 1)) 128

/-- The partition that owns a core. -/
def corePart (s : State) (c : Nat) : Option Nat :=
  (List.range 128).find? (fun p => partExists s p && (rd s oPART_CORES (p + 1)).testBit c)

/-- PART_DRAM_MIB: 256 MiB an extent (Table HOST-10). -/
def partDramMib (s : State) (p : Nat) : Nat := 256 * popCount (rd s oPART_DRAM_EXT (p + 1)) 768

/-- Bytes 256 MiB. -/
def extentBytes : Nat := 2 ^ 28

/-- Whether an extent byte offset lies in the scratch: `above` owned extents lie above this one (R420). -/
def inScratch (scratchMib above off : Nat) : Bool :=
  decide (256 * above < scratchMib ∧ extentBytes ≤ off + (scratchMib - 256 * above) * 2 ^ 20)

/-- Whether a region of one extent, from byte `lo` to before `hi` of it, is outside the scratch: the scratch takes the top. -/
def extentUsable (s : State) (p x hi : Nat) : Bool :=
  let owned := rd s oPART_DRAM_EXT (p + 1)
  owned.testBit x &&
    !(inScratch (rd s oDRAM_SCRATCH_MIB (p + 1)) ((bitList owned 768).filter (fun y => decide (x < y))).length (hi - 1))

/-- A region of DRAM within the partition. -/
def dramWithin (s : State) (p a n : Nat) : Bool :=
  let k := dramStack a
  let off := dramOff a
  let last := off + n - 1
  decide (off + n ≤ stackBytes s k) &&
    (List.range (last / extentBytes + 1 - off / extentBytes)).all (fun i =>
      let x := off / extentBytes + i
      let hi := if x = last / extentBytes then last % extentBytes + 1 else extentBytes
      extentUsable s p (96 * k + x) hi)

/-- A region of the Pool within the partition, none of it in a removed bank (R102). -/
def poolWithin (s : State) (p a n : Nat) : Bool :=
  let d := poolDie a
  let off := poolOff a
  let last := off + n - 1
  decide (off + n ≤ 0x6000000) &&
    (List.range (last / 2 ^ 20 + 1 - off / 2 ^ 20)).all (fun i =>
      (rd s oPART_POOL_EXT (p + 1)).testBit (96 * d + (off / 2 ^ 20 + i)) &&
        !(bankRemoved s d ((off / 2 ^ 20 + i) / 2)))

/-- A region of core store within the partition and below the pre-emption reserve (R126). -/
def storeWithin (s : State) (p a n : Nat) : Bool :=
  (rd s oPART_CORES (p + 1)).testBit (storeCore a) && decide (storeOff a + n ≤ 0x5F0000)

/-- Whether a region of `n` bytes lies within a partition (R156, R420). -/
def within (s : State) (p a n : Nat) : Bool :=
  addressLaidOut a && (n == 0 ||
    match space a with
    | 0 => dramWithin s p a n
    | 1 => poolWithin s p a n
    | 2 => storeWithin s p a n
    | 3 => decide (a % 2 ^ 60 + n ≤ 2 ^ 60)
    | 4 => (ctxOf s (remoteCtx a)).part == p && (ctxOf s (remoteCtx a)).st != .closed
    | _ => false)

/-! ### Reading -/

/-- The byte a filled or never written address holds. -/
def blankByte (m : Mem) (a : Nat) : Byte :=
  match m.fills.find? (fun f => decide (f.lo ≤ a ∧ a < f.hi)) with
  | some f =>
    match f.free with
    | some n => Config.freeByte n a
    | none => 0
  | none => Config.unwrittenByte m.epoch a

/-- The byte stored at an address, behind the Eddy. -/
def storedByte (m : Mem) (a : Nat) : Byte := (tabGet? m.cells a).getD (blankByte m a)

/-- The Eddy entry of a line. -/
def eddyEntry? (s : State) (line : Nat) : Option EddyEntry :=
  (tabGet [] s.mem.eddies (dramStack line)).find? (fun e => e.line == line)

/-- The byte of an address in the writes that wait for an Eddy entry: the latest's. -/
def waitByte? (ws : List EddyWait) (a : Nat) : Option Byte :=
  match ws with
  | [] => none
  | w :: r =>
    match waitByte? r a with
    | some b => some b
    | none => if w.addr ≤ a ∧ a < w.addr + w.bytes.length then w.bytes[a - w.addr]? else none

/-- The byte of an address behind the writes that wait: DRAM contents overlaid with the Eddy entry's masked bytes (R165). -/
def eddyByte (s : State) (a : Nat) : Byte :=
  match eddyEntry? s (lineOf a) with
  | some e => (tabGet? e.bytes (a % 256)).getD (storedByte s.mem a)
  | none => storedByte s.mem a

/-- The byte a read of an address returns: of DRAM, a read request follows the writes that wait before it (R43, R180). -/
def readByte (s : State) (a : Nat) : Byte :=
  if space a = 0 then (waitByte? s.mem.eddyWait a).getD (eddyByte s a) else storedByte s.mem a

/-- `n` bytes read from an address. -/
def readBytes (s : State) (a n : Nat) : List Byte := (List.range n).map (fun i => readByte s (a + i))

/-- The little-endian number of `n` bytes read from an address. -/
def readNum (s : State) (a n : Nat) : Nat := leNat (readBytes s a n)

/-- A byte of host memory in a function's I/O address space. -/
def hostByte (s : State) (fn a : Nat) : Byte :=
  (tabGet? s.mem.host (fn * 2 ^ 60 + a % 2 ^ 60)).getD (Config.unwrittenByte 0 (2 ^ 72 + fn * 2 ^ 60 + a % 2 ^ 60))

/-- `n` bytes of host memory. -/
def hostBytesAt (s : State) (fn a n : Nat) : List Byte := (List.range n).map (fun i => hostByte s fn (a + i))

/-- Whether a line is poisoned. -/
def poisoned (s : State) (line : Nat) : Bool := s.mem.poison.contains line

/-- A write of all 256 bytes of a line waits for an Eddy entry. -/
def lineWaits (s : State) (line : Nat) : Bool := s.mem.eddyWait.any (fun w => w.addr == line && w.bytes.length == 256)

/-- Whether a read of a line finds it poisoned: behind a write of the whole line that waits it finds it clean (R43, R450). -/
def readsPoison (s : State) (line : Nat) : Bool := poisoned s line && !(lineWaits s line)

/-- Whether a read of a region meets a poisoned line. -/
def touchesPoison (s : State) (a n : Nat) : Bool := (linesOf a n).any (readsPoison s)

/-! ### Writing -/

/-- A line marked poisoned. -/
def poisonLine (s : State) (line : Nat) : State :=
  { s with mem := { s.mem with poison := insertAsc s.mem.poison line } }

/-- A line's poison cleared by a write of all its bytes (R450). -/
def cleanLine (s : State) (line : Nat) : State :=
  { s with mem := { s.mem with poison := s.mem.poison.filter (fun l => l != line) } }

/-- An address that reads zero while it is not listed: it lies in a region made zero. -/
def readsZero (m : Mem) (a : Nat) : Bool :=
  match m.fills.find? (fun f => decide (f.lo ≤ a ∧ a < f.hi)) with
  | some f => f.free.isNone
  | none => false

/-- A byte put behind the Eddy; one that equals what the unlisted address reads as is not listed. -/
def putCell (m : Mem) (a : Nat) (b : Byte) : Mem :=
  { m with cells := if readsZero m a && b == 0 then tabDel m.cells a else tabPut m.cells a b }

/-- Bytes put at consecutive addresses. -/
def putRun : Mem → Nat → List Byte → Mem
  | m, _, [] => m
  | m, a, b :: r => putRun (putCell m a b) (a + 1) r

/-- Bytes put behind the Eddy. -/
def putCells (s : State) (a : Nat) (b : List Byte) : State := { s with mem := putRun s.mem a b }

/-- A write within one line of Pool or core store, or a line write of DRAM: all 256 bytes clear the poison (R450). -/
def putLine (s : State) (a : Nat) (b : List Byte) : State :=
  let s := putCells s a b
  if a % 256 = 0 ∧ b.length = 256 then cleanLine s a else s

/-- The masked bytes of an entry put behind the Eddy. -/
def putMasked (m : Mem) (line : Nat) : Tab Byte → Mem
  | [] => m
  | (o, b) :: r => putMasked (putCell m (line + o) b) line r

/-- An entry with every mask bit set. -/
def entryFull (e : EddyEntry) : Bool := e.bytes.length == 256

/-- An entry drained: a full one as a line write, a partial one as a read-modify-write, which is counted (R164). The poison
of the line stays: only a single write of all its bytes clears it (R450). -/
def drainEntry (s : State) (k : Nat) (e : EddyEntry) : State :=
  let rest := (tabGet [] s.mem.eddies k).filter (fun x => x.line != e.line)
  let s := { s with mem := putMasked { s.mem with eddies := tabPut s.mem.eddies k rest } e.line e.bytes }
  if entryFull e then s
  else wr s oEDDY_RMW_COUNT (k + 1) ((rd s oEDDY_RMW_COUNT (k + 1) + 1) % 2 ^ 64)

/-- Bytes merged into an entry by a writer: later bytes overwrite earlier ones (R162). -/
def mergeEntry (e : EddyEntry) (op off : Nat) (b : List Byte) : EddyEntry :=
  { e with bytes := tabPutAll e.bytes off b, writers := insertAsc e.writers op }

/-- A fresh entry, its age limit that in force now (R162, R167). -/
def freshEntry (s : State) (line op off : Nat) (b : List Byte) : EddyEntry :=
  { line := line, bytes := tabPutAll [] off b, writers := [op], limit := rd s oEDDY_AGE_NS 0, due := false }

/-- The entries of a stack's Eddy stored. -/
def setEddy (s : State) (k : Nat) (es : List EddyEntry) : State :=
  { s with mem := { s.mem with eddies := tabPut s.mem.eddies k es } }

/-- The row of a line: the 2 KiB run that holds it (R157). -/
def rowOf (line : Nat) : Nat := line - line % 2048

/-- An entry drained with every other due entry of its row run, as one burst (R163). -/
def drainBurst (s : State) (k : Nat) (e : EddyEntry) : State :=
  (e :: (tabGet [] s.mem.eddies k).filter (fun x => x.due && rowOf x.line == rowOf e.line && x.line != e.line)).foldl
    (fun t x => drainEntry t k x) s

/-- A write within one line enters the Eddy: merged, drained at once when full, the oldest entry drained to make room
(R162 to R164). -/
def eddyEnter (s : State) (op a : Nat) (b : List Byte) : State :=
  let k := dramStack a
  let line := lineOf a
  let s := if b.length = 256 then cleanLine s line else s
  let es := tabGet [] s.mem.eddies k
  match es.find? (fun e => e.line == line) with
  | some e =>
    let e' := mergeEntry e op (a % 256) b
    let s := setEddy s k (es.map (fun x => if x.line = line then e' else x))
    if entryFull e' then drainBurst s k e' else s
  | none =>
    let s := if 64 ≤ es.length then
        match es.head? with
        | some oldest => drainBurst s k oldest
        | none => s
      else s
    let e := freshEntry s line op (a % 256) b
    let s := setEddy s k (tabGet [] s.mem.eddies k ++ [e])
    if entryFull e then drainBurst s k e else s

/-- The writes that wait, those of URGENT operations apart (R258): each one before which no other of its line stands back, so that
the writes to a line keep their order (R43). `held` are the lines of those that stand back. -/
def splitWaits (held : List Nat) : List EddyWait → List EddyWait × List EddyWait
  | [] => ([], [])
  | w :: r =>
    if w.urgent && !(held.contains (lineOf w.addr)) then
      let x := splitWaits held r
      (w :: x.1, x.2)
    else
      let x := splitWaits (lineOf w.addr :: held) r
      (x.1, w :: x.2)

/-- The writes that wait for entries of a stack enter, those of URGENT operations first, each class in its order (R43, R258). -/
def flushWaits (s : State) (k : Nat) : State :=
  let x := splitWaits [] (s.mem.eddyWait.filter (fun w => dramStack w.addr == k))
  (x.1 ++ x.2).foldl (fun t w => eddyEnter t w.op w.addr w.bytes)
    { s with mem := { s.mem with eddyWait := s.mem.eddyWait.filter (fun w => dramStack w.addr != k) } }

/-- Whether an admitted operation is URGENT. -/
def opUrgent (s : State) (op : Nat) : Bool := s.weir.ops.any (fun o => o.id == op && o.desc.cls == 0)

/-- A write within one line of DRAM as an operator's data effect makes it: behind every write that waits (log 6); of an URGENT
operation ahead of those of other lines (R258). -/
def eddyStore (s : State) (op a : Nat) (b : List Byte) : State :=
  if opUrgent s op && !(s.mem.eddyWait.any (fun w => lineOf w.addr == lineOf a)) then eddyEnter s op a b
  else eddyEnter (flushWaits s (dramStack a)) op a b

/-- The oldest entry of a stack's Eddy becomes due. -/
def dueOldest : List EddyEntry → List EddyEntry
  | [] => []
  | e :: r => { e with due := true } :: r

/-- A write put behind those that wait. -/
def waitWrite (s : State) (w : EddyWait) : State := { s with mem := { s.mem with eddyWait := s.mem.eddyWait ++ [w] } }

/-- One write within one line reaches the Eddy: behind one of its line that waits, merged, in a free entry, or waiting while
all 64 are occupied and the oldest drains (R162, R163, R166); while the controllers' clock is gated it stands in their boundary
FIFO (R43, Table HSK-3). -/
def eddyPut (s : State) (w : EddyWait) : State :=
  let k := dramStack w.addr
  let line := lineOf w.addr
  if s.clock.rootGated || s.mem.eddyWait.any (fun x => lineOf x.addr == line) then waitWrite s w
  else
    let t := if w.bytes.length = 256 then cleanLine s line else s
    let es := tabGet [] s.mem.eddies k
    match es.find? (fun e => e.line == line) with
    | some e =>
      let e := mergeEntry e w.op (w.addr % 256) w.bytes
      let e := { e with due := e.due || entryFull e }
      setEddy t k (es.map (fun x => if x.line = line then e else x))
    | none =>
      if 64 ≤ es.length then waitWrite (setEddy s k (dueOldest es)) w
      else
        let e := freshEntry s line w.op (w.addr % 256) w.bytes
        setEddy t k (es ++ [{ e with due := entryFull e }])

/-- The writes that waited tried again, those of URGENT operations first (R258). -/
def retryWaits (s : State) : State :=
  let x := splitWaits [] s.mem.eddyWait
  (x.1 ++ x.2).foldl eddyPut { s with mem := { s.mem with eddyWait := [] } }

/-- A write within one line, by SPACE. -/
def storeLine (s : State) (op a : Nat) (b : List Byte) : State :=
  if space a = 0 then eddyStore s op a b else putLine s a b

/-- Bytes cut at line boundaries; `fuel` bounds the number of pieces. -/
def linePieces : Nat → Nat → List Byte → List (Nat × List Byte)
  | 0, _, _ => []
  | fuel + 1, a, b =>
    if b.isEmpty then []
    else
      let n := 256 - a % 256
      (a, b.take n) :: linePieces fuel (a + n) (b.drop n)

/-- A posted write to host memory (R399). -/
structure Posted where
  addr : Nat
  bytes : List Byte
  relaxed : Bool
deriving DecidableEq, Repr

/-- Bytes of a posted write of a function: at most the Max_Payload_Size set by the host, and never more than 512. -/
def payloadOf (s : State) (fn : Nat) : Nat := min 512 (max 128 (fnOf s fn).payload)

/-- Bytes cut into posted writes of at most `n` bytes, none with Relaxed Ordering; `fuel` bounds their number (R399). -/
def postedWrites (n : Nat) : Nat → Nat → List Byte → List Posted
  | 0, _, _ => []
  | fuel + 1, a, b => if b.isEmpty then [] else ⟨a, b.take n, false⟩ :: postedWrites n fuel (a + n) (b.drop n)

/-- A posted write lands in a function's space. -/
def landPosted (fn : Nat) (s : State) (w : Posted) : State :=
  { s with mem := { s.mem with host := tabPutAll s.mem.host (fn * 2 ^ 60 + w.addr % 2 ^ 60) w.bytes } }

/-- Bytes of host memory written in a function's space. -/
def hostStore (s : State) (fn a : Nat) (b : List Byte) : State :=
  (postedWrites (payloadOf s fn) (b.length + 1) a b).foldl (landPosted fn) s

/-- A write of bytes at a device address on behalf of an operation of a partition; a remote address is written by messages
only. -/
def storeBytes (s : State) (p op a : Nat) (b : List Byte) : State :=
  match space a with
  | 3 => hostStore s (partFn s p) a b
  | 4 => s
  | _ => (linePieces (b.length / 256 + 2) a b).foldl (fun t x => storeLine t op x.1 x.2) s

/-- Several writes in order. -/
def storeAll (s : State) (p op : Nat) (ws : List (Nat × List Byte)) : State :=
  ws.foldl (fun t w => storeBytes t p op w.1 w.2) s

/-! ### Line requests of a core (R35, R45, R258, Table HSK-2) -/

/-- Memory credits of a core in use: DRAM reads outstanding and writes that wait. -/
def linesInUse (s : State) (c : Nat) (f : Bool → Bool) : Nat :=
  (s.mem.reads.filter (fun r => r.core == c && space r.line == 0 && f r.urgent)).length +
    (s.mem.eddyWait.filter (fun w => w.core == some c && f w.urgent)).length

/-- Memory credits that a core still holds for an operation: 64, of which 16 only for an URGENT one. -/
def lineCredits (s : State) (c : Nat) (urgent : Bool) : Nat :=
  let total := hskCredits .memoryLine - linesInUse s c (fun _ => true)
  if urgent then total else min total (hskCredits .memoryLine - urgentLines - linesInUse s c (fun u => !u))

/-- Pool credits that a core still holds: 32, each spent on a line request until the line has come (Table HSK-2). -/
def poolCredits (s : State) (c : Nat) : Nat :=
  hskCredits .poolLine - (s.mem.reads.filter (fun r => r.core == c && space r.line == 1)).length

/-- Whether a request of a core crosses the die-to-die bridge. -/
def crosses (c line : Nat) : Bool :=
  (space line == 0 && dramStack line / 4 != c / 64) || (space line == 1 && poolDie line != c / 64)

/-- Credits that a die still holds for the die-to-die bridge: 4096, each spent on a request of its cores until it is served. -/
def bridgeCredits (s : State) (die : Nat) : Nat :=
  hskCredits .bridge - ((s.mem.reads.filter (fun r => r.core / 64 == die && crosses r.core r.line)).length +
    (s.mem.eddyWait.filter (fun w => match w.core with
      | some c => c / 64 == die && crosses c w.addr
      | none => false)).length)

/-- Whether a core may send the request for a line: a credit of every boundary on its way (R35). -/
def mayAsk (s : State) (c line : Nat) (urgent : Bool) : Bool :=
  (if space line = 0 then decide (0 < lineCredits s c urgent) else if space line = 1 then decide (0 < poolCredits s c) else true) &&
    (!(crosses c line) || decide (0 < bridgeCredits s (c / 64)))

/-- Transfers of 256 bytes that the answer to a read of the host takes on the link to the I/O die. -/
def linkTransfers (len : Nat) : Nat := (len + 255) / 256

/-- Credits that a die still holds for the answers on its link to the I/O die: 1024, reserved for each host read of its operations
until its data has landed (R44, Table HSK-2). -/
def linkCredits (s : State) (die : Nat) : Nat :=
  hskCredits .ioLink - s.weir.ops.foldl (fun t o => match o.core with
    | some c => if c / 64 = die then t + (o.requests.filter (fun r => !r.remote)).foldl (fun u r => u + linkTransfers r.len) 0 else t
    | none => t) 0

/-- Line `i` of the pieces of a list that lie in DRAM, Pool or core store, counted through the pieces in order. -/
def lineAt : List (Nat × Nat) → Nat → Option Nat
  | [], _ => none
  | x :: r, i =>
    let n := if space x.1 ≤ 2 ∧ x.2 ≠ 0 then (x.1 % 256 + x.2 + 255) / 256 else 0
    if i < n then some (lineOf x.1 + 256 * i) else lineAt r (i - n)

/-! ### Filled regions -/

/-- A fresh number for free values. -/
def drawFree (s : State) : State := { s with mem := { s.mem with free := s.mem.free + 1 } }

/-- A region filled, its cells forgotten. -/
def fillRegion (s : State) (lo hi : Nat) (free : Option Nat) : State :=
  { s with mem := { s.mem with
    cells := s.mem.cells.filter (fun c => !(decide (lo ≤ c.1 ∧ c.1 < hi))), fills := ⟨lo, hi, free⟩ :: s.mem.fills } }

/-- Masked Eddy bytes of a region turned into free values. -/
def freeEntry (n lo hi : Nat) (e : EddyEntry) : EddyEntry :=
  { e with bytes := e.bytes.map (fun b =>
      if lo ≤ e.line + b.1 ∧ e.line + b.1 < hi then (b.1, Config.freeByte n (e.line + b.1)) else b) }

/-- The bytes of a waiting write in a region turned into free values. -/
def freeWait (n lo hi : Nat) (w : EddyWait) : EddyWait :=
  { w with bytes := w.bytes.zipIdx.map (fun b =>
      if lo ≤ w.addr + b.2 ∧ w.addr + b.2 < hi then Config.freeByte n (w.addr + b.2) else b.1) }

/-- Bytes of host memory turned into free values. -/
def freeHost (s : State) (fn a n num : Nat) : State :=
  hostStore s fn a ((List.range n).map (fun i => Config.freeByte num (a + i)))

/-- A region left with unspecified contents (Table OPS-9, R325): every byte of it a free value. -/
def freeRegion (s : State) (p a n : Nat) : State :=
  if n = 0 then s
  else
    let num := s.mem.free
    let s := drawFree s
    match space a with
    | 3 => freeHost s (partFn s p) a n num
    | 4 => s
    | _ =>
      let s := fillRegion s a (a + n) (some num)
      { s with mem := { s.mem with eddies := s.mem.eddies.map (fun x => (x.1, x.2.map (freeEntry num a (a + n))))
                                   eddyWait := s.mem.eddyWait.map (freeWait num a (a + n)) } }

/-- Several regions left unspecified. -/
def freeRegions (s : State) (p : Nat) (rs : List (Nat × Nat)) : State :=
  rs.foldl (fun t r => freeRegion t p r.1 r.2) s

/-- A core's store made zero, its residency tags gone; what is poisoned stays so (R450, R455). -/
def blankStore (s : State) (c : Nat) : State :=
  let s := fillRegion s (coreBase c) (coreBase c + 0x600000) none
  setCore s c { coreOf s c with tags := [] }

/-- A core's store cleared by a reset: each of its lines written whole (R114, R450). -/
def zeroStore (s : State) (c : Nat) : State :=
  let s := blankStore s c
  { s with mem := { s.mem with poison := s.mem.poison.filter (fun l => !(decide (coreBase c ≤ l ∧ l < coreBase c + 0x600000))) } }

/-- The contents of every on-package memory become unspecified, at a loss of the compute rails (Table BOOT-2, R94); poison
stays with its line (R450). -/
def loseMemory (s : State) : State :=
  { s with mem := { s.mem with cells := [], fills := [], eddies := [], eddyWait := [], reads := [], epoch := s.mem.epoch + 1 } }

/-- The canonical form of memory: addresses strictly rising in every listing, and no byte listed that equals what its address
would read as unlisted (a free value equals no byte that can be named, log 4). -/
def Mem.wf (m : Mem) : Bool :=
  tabSorted m.cells && tabSorted m.host && ascending m.poison && tabSorted m.eddies &&
    m.cells.all (fun c => !(readsZero m c.1 && c.2 == 0))

end Sys2Proof.Machine
end

