-- ==== Sys2Proof/Machine/Operands.lean ====
section
/-! DEFINITION. Descriptors (Table OPS-1), bounds (Table OPS-4), operand formats (Table OPS-3) with the conversions on load
and store (R149, R150), operand layout (R209), pointer lists (R208), and the pieces of memory an operand occupies. -/

namespace Sys2Proof.Machine

open Sys2Proof

/-! ### The descriptor -/

/-- The 64 bytes of a descriptor decoded (R197). -/
def decodeDesc (b : List Byte) : Desc :=
  let n := fun off len => numAt b off len
  let b1 := n 1 1
  let w2 := n 2 2
  { opc := n 0 1, cls := field b1 1 0, prec := field b1 3 2, bndsrc := field b1 5 4, gfp := b1.testBit 6,
    spillOk := b1.testBit 7, flow := field w2 9 0, tol := field w2 13 10, seq := n 4 4, opid := n 8 4,
    waits := [n 12 2, n 14 2, n 16 2, n 18 2], signal := n 20 2, tail := n 22 1, wgroup := field (n 23 1) 5 0,
    scope := field (n 23 1) 7 6, seed := n 24 4, lcount := n 28 2, count := n 30 2, bnd := n 32 8, opl := n 40 8,
    remoteSignal := n 48 2, fmt0 := field (n 50 1) 3 0, fmt1 := field (n 50 1) 7 4, fmt2 := field (n 51 1) 3 0,
    fmt3 := field (n 51 1) 7 4, tailScale := n 52 4, cap := n 56 8 }

/-- M, N and K of a bounds word (R201). -/
def boundM (w : Nat) : Nat := field w 19 0
def boundN (w : Nat) : Nat := field w 39 20
def boundK (w : Nat) : Nat := field w 59 40

/-- Whether an OPC is assigned (Table OPS-2 and the tables of the chapters it names). -/
def opcKnown (o : Nat) : Bool :=
  [0x01, 0x02, 0x03, 0x04, 0x10, 0x11, 0x20, 0x21, 0x22, 0x23, 0x24, 0x28, 0x30, 0x31, 0x32, 0x40, 0x41, 0x42, 0x43, 0x44,
    0x45, 0x46, 0x50, 0x51, 0x52, 0x53, 0x54, 0x55, 0x56, 0x58, 0x59, 0x60, 0x61, 0x62, 0x63, 0x64].contains o

/-! ### Formats -/

/-- Bytes of an element (Table OPS-3); codes 7 to 15 are reserved. -/
def elemBytes (fmt : Nat) : Nat := [4, 2, 2, 1, 1, 2, 2].getD fmt 1

/-- A format code that is not reserved. -/
def fmtOk (fmt : Nat) : Bool := decide (fmt < 7)

/-- The log format of format codes 4 to 6. -/
def logOfFmt (fmt : Nat) : LFmt := if fmt = 4 then lg8 else if fmt = 5 then lg12 else lg16

/-- The log format of an effective precision: 1 LG8, 2 LG12, 3 LG16 (R152). -/
def logOfPrec (prec : Nat) : LFmt := if prec = 1 then lg8 else if prec = 2 then lg12 else lg16

/-- A signed byte. -/
def int8Of (w : Nat) : Int := if w < 128 then (w : Nat) else ((w : Nat) : Int) - 256

/-- An element in binary32: exact for binary formats and INT8, to nearest for log codes (R149, R214). -/
def loadElem (fmt w : Nat) : FVal :=
  match fmt with
  | 0 => fdecode f32 w
  | 1 => fdecode f16 w
  | 2 => fdecode bf16 w
  | 3 => fofInt (int8Of w)
  | _ => logToLin (logOfFmt fmt) (ldecode (logOfFmt fmt) w)

/-- An element in a log format (R149, Table LOG-4). -/
def loadLog (t : LFmt) (fmt w : Nat) : LVal :=
  if fmt ≤ 3 then linToLog t (loadElem fmt w) else logToLog (logOfFmt fmt) t (ldecode (logOfFmt fmt) w)

/-- A value rounded to the nearest integer, ties to even, within −128 to 127; NaN gives 0 (R150). -/
def toInt8 : FVal → Int
  | .nan _ => 0
  | .inf neg => if neg then -128 else 127
  | .fin neg m e =>
    let r : Nat :=
      if e ≥ 0 then (if e ≥ 16 then (if m = 0 then 0 else 1000) else m <<< e.toNat)
      else
        let sh := (-e).toNat
        let q := m >>> sh
        let rem := m % 2 ^ sh
        if 2 * rem > 2 ^ sh ∨ (2 * rem = 2 ^ sh ∧ q % 2 = 1) then q + 1 else q
    if neg then max (-128) (-(r : Int)) else min 127 (r : Int)

/-- The code a binary32 value is stored as (R150), and whether it is a NaR, a NaN or a NaN stored as INT8 0 (R151). -/
def storeElem (fmt : Nat) (v : FVal) : Nat × Bool :=
  match fmt with
  | 0 => (fencode f32 v, isNan v)
  | 1 => (fencode f16 v, isNan v)
  | 2 => (fencode bf16 v, isNan v)
  | 3 => ((toInt8 v % 256).toNat, isNan v)
  | _ =>
    let x := linToLog (logOfFmt fmt) v
    (lencode (logOfFmt fmt) x, x == .nar)

/-- The same for a value held as a log code of format `t`: log to log directly (R149), else through binary32. -/
def storeLog (t : LFmt) (fmt : Nat) (x : LVal) : Nat × Bool :=
  if fmt ≤ 3 then storeElem fmt (logToLin t x)
  else let y := logToLog t (logOfFmt fmt) x; (lencode (logOfFmt fmt) y, y == .nar)

/-! ### Layout -/

/-- Row pitch: the inner CAP extent in bytes rounded up to a multiple of 64 (R209). -/
def pitchOf (cap fmt : Nat) : Nat := roundUp (cap * elemBytes fmt) 64

/-- The present bytes of `rows` rows of `n` bytes each at a pitch. -/
def rowPieces (base rows pitch n : Nat) : List (Nat × Nat) :=
  if n = 0 then [] else (List.range rows).map (fun r => (base + r * pitch, n))

/-- The present bytes of a row-major operand of `rows` × `cols` elements. -/
def matPieces (base rows cols cap fmt : Nat) : List (Nat × Nat) :=
  rowPieces base rows (pitchOf cap fmt) (cols * elemBytes fmt)

/-- What an operation addresses in one pointer-list entry: the pieces it reads and writes. -/
structure Pieces where
  reads : List (Nat × Nat) := []
  writes : List (Nat × Nat) := []
deriving DecidableEq, Repr

/-- Reading an element through a byte source. -/
def elemAt (ld : Nat → Byte) (a fmt : Nat) : Nat :=
  leNat ((List.range (elemBytes fmt)).map (fun i => ld (a + i)))

/-- Reading an `n`-byte number through a byte source. -/
def wordAt (ld : Nat → Byte) (a n : Nat) : Nat := leNat ((List.range n).map (fun i => ld (a + i)))

/-- Element (r, c) of a row-major operand, in binary32. -/
def matElem (ld : Nat → Byte) (base cap fmt r c : Nat) : FVal :=
  loadElem fmt (elemAt ld (base + r * pitchOf cap fmt + c * elemBytes fmt) fmt)

/-- Element (r, c) of a row-major operand, in a log format. -/
def matLog (ld : Nat → Byte) (t : LFmt) (base cap fmt r c : Nat) : LVal :=
  loadLog t fmt (elemAt ld (base + r * pitchOf cap fmt + c * elemBytes fmt) fmt)

/-- One row of binary32 values stored in a format: its bytes, and whether any element is a NaR or NaN. -/
def rowBytes (fmt : Nat) (vs : List FVal) : List Byte × Bool :=
  let es := vs.map (storeElem fmt)
  (es.flatMap (fun e => leBytes (elemBytes fmt) e.1), es.any (fun e => e.2))

/-! ### Where an operation's bytes come from -/

/-- The bytes an operation reads: what has landed in its buffers, host and remote reads (R128, R379) and DRAM lines (R165);
else the device's own memory. -/
def opByte (s : State) (o : Op) (a : Nat) : Byte :=
  match tabGet? o.landed a with
  | some b => b
  | none => if space a = 3 ∨ space a = 4 then 0 else readByte s a

/-- Landed bytes that a later write of the operation itself covers: its own reads see its own earlier writes (R180). -/
def overwriteLanded (t : Tab Byte) (a : Nat) (b : List Byte) : Tab Byte :=
  t.map (fun x => if a ≤ x.1 ∧ x.1 < a + b.length then (x.1, b.getD (x.1 - a) x.2) else x)

/-- The byte that a list of writes, the latest last, gives an address. -/
def writtenByte? : List (Nat × List Byte) → Nat → Option Byte
  | [], _ => none
  | w :: r, a =>
    match writtenByte? r a with
    | some b => some b
    | none => if w.1 ≤ a ∧ a < w.1 + w.2.length then w.2[a - w.1]? else none

/-- A byte source after writes. -/
def seeing (ld : Nat → Byte) (ws : List (Nat × List Byte)) : Nat → Byte := fun a => (writtenByte? ws a).getD (ld a)

/-- Results of a list of tiles in order, each computed from what the earlier ones have left to read. -/
def inTiles {A R : Type} (f : (Nat → Byte) → List A → R) (writes : R → List (Nat × List Byte)) :
    List (List A) → (Nat → Byte) → List R
  | [], _ => []
  | g :: r, ld => let x := f ld g; x :: inTiles f writes r (seeing ld (writes x))

/-- The pointer P`i` of an entry. -/
def ptr (e : List Nat) (i : Nat) : Nat := e.getD i 0

/-- The four device addresses of entry `e` of a pointer list (R208). -/
def readEntry (s : State) (opl e : Nat) : List Nat := (List.range 4).map (fun i => readNum s (opl + 32 * e + 8 * i) 8)

/-- A pointer list and bounds may lie in host memory: their bytes by SPACE. -/
def issueBytes (s : State) (p a n : Nat) : List Byte :=
  match space a with
  | 3 => hostBytesAt s (partFn s p) a n
  | _ => readBytes s a n

/-- The number at an address of device or host memory. -/
def memNum (s : State) (p a n : Nat) : Nat := leNat (issueBytes s p a n)

end Sys2Proof.Machine
end

