-- ==== Sys2Proof/Machine/Order.lean ====
section
/-! DEFINITION. The order of the sort network (R345, R329): NaN and NaR after every number in either direction, equal keys in
ascending input position. -/

namespace Sys2Proof.Machine

open Sys2Proof

/-- A key to sort: NaN or NaR, a binary value, or a log code's value by an order-preserving integer (ZERO is 0). -/
inductive SortKey where
  | nan
  | num (v : FVal)
  | log (v : Int)
deriving DecidableEq, Repr

/-- The key of an element of a format. -/
def sortKey (fmt w : Nat) : SortKey :=
  if fmt ≤ 3 then (let v := loadElem fmt w; if isNan v then .nan else .num v)
  else
    match ldecode (logOfFmt fmt) w with
    | .nar => .nan
    | .zero => .log 0
    | .val neg m => .log (if neg then -(1048576 + m) else 1048576 + m)

/-- Whether key `a` goes strictly before key `b`; −0.0 equals +0.0. -/
def keyBefore (ascend : Bool) (a b : SortKey) : Bool :=
  match a, b with
  | .nan, _ => false
  | _, .nan => true
  | .num x, .num y => if ascend then flt x y else flt y x
  | .log x, .log y => if ascend then decide (x < y) else decide (y < x)
  | _, _ => false

/-- Insertion of a numbered key before the first key that it strictly precedes. -/
def insertKey (ascend : Bool) (k : SortKey × Nat) : List (SortKey × Nat) → List (SortKey × Nat)
  | [] => [k]
  | x :: r => if keyBefore ascend k.1 x.1 then k :: x :: r else x :: insertKey ascend k r

/-- The input positions in rank order. -/
def sortOrder (ascend : Bool) (keys : List SortKey) : List Nat :=
  ((keys.zipIdx).foldl (fun acc k => insertKey ascend k acc) []).map (fun k => k.2)

end Sys2Proof.Machine
end

