-- ==== Sys2Proof/Machine/Flags.lean ====
section
/-! DEFINITION. Status codes (Table OPS-9), WAIT_BUCKET (R257), the flags of a completion record and its bytes
(Table OPS-8, R409). -/

namespace Sys2Proof.Machine

open Sys2Proof

abbrev stOK : Nat := 0x00
abbrev stPARTIAL_FAULT : Nat := 0x01
abbrev stCANCELLED : Nat := 0x02
abbrev stCANCELLED_PARTIAL : Nat := 0x03
abbrev stREFUSED_FULL : Nat := 0x04
abbrev stREFUSED_CREDIT : Nat := 0x05
abbrev stABANDONED : Nat := 0x06
abbrev stPEER_LOST : Nat := 0x07
abbrev stTIMEOUT : Nat := 0x08
abbrev stMEM_ERROR : Nat := 0x09
abbrev stBOUNDS_INVALID : Nat := 0x0A
abbrev stACCESS_DENIED : Nat := 0x0B
abbrev stNAR_PRODUCED : Nat := 0x0C

/-- A successful release (R237). -/
def succeeded (st : Nat) : Bool := st == stOK || st == stPARTIAL_FAULT || st == stNAR_PRODUCED

/-- Statuses of Table OPS-9 that leave output regions unspecified. -/
def outputsUnspecified (st : Nat) : Bool :=
  st == stCANCELLED_PARTIAL || st == stABANDONED || st == stPEER_LOST || st == stTIMEOUT || st == stMEM_ERROR

/-- WAIT_BUCKET of a wait in ns (R257). -/
def waitBucket (ns : Nat) : Nat :=
  if ns < 10000 then 0 else if ns < 100000 then 1 else if ns < 1000000 then 2 else 3

/-- Byte 7 of a completion record. -/
def recordFlags (precOverridden throttled heatPaced spilled partialOut phase : Bool) : Nat :=
  (if precOverridden then 1 else 0) + (if throttled then 2 else 0) + (if heatPaced then 4 else 0) +
    (if spilled then 8 else 0) + (if partialOut then 16 else 0) + (if phase then 128 else 0)

/-- The fields of a completion record. -/
structure Record where
  opid : Nat
  status : Nat
  cls : Nat
  bucket : Nat := 0
  preempts : Nat := 0
  flags : Nat := 0
  faultEntry : Nat := 0xFFFF
  faultIndex : Nat := 0xFF
  faultGroup : Nat := 0xFFFFFFFF
  faultCount : Nat := 0
  flow : Nat
  energyUj : Nat := 0
  durationNs : Nat := 0
  seq : Nat
deriving DecidableEq, Repr

/-- The 32 bytes of a record (Table OPS-8). -/
def recordBytes (r : Record) : List Byte :=
  leBytes 4 r.opid ++ leBytes 1 r.status ++ leBytes 1 (r.cls + 4 * r.bucket) ++ leBytes 1 r.preempts ++ leBytes 1 r.flags ++
    leBytes 2 r.faultEntry ++ leBytes 1 r.faultIndex ++ leBytes 1 0 ++ leBytes 4 r.faultGroup ++ leBytes 2 r.faultCount ++
    leBytes 2 r.flow ++ leBytes 4 r.energyUj ++ leBytes 4 r.durationNs ++ leBytes 4 r.seq

/-- The record of a refused descriptor, PHASE apart (R409). -/
def refusalRecord (d : Desc) (status : Nat) (phase : Bool) : Record :=
  { opid := d.opid, status := status, cls := d.cls, flags := recordFlags false false false false false phase,
    flow := d.flow, seq := d.seq }

/-- The record of a released operation (R221, R257, R84). -/
def releaseRecord (o : Op) (m : Measured) (phase : Bool) : Record :=
  { opid := o.desc.opid, status := o.status, cls := o.desc.cls, bucket := waitBucket m.waitNs, preempts := min 255 o.preempts,
    flags := recordFlags o.precOverridden o.throttled o.heatPaced o.spilled o.partialOut phase,
    faultEntry := o.faultEntry, faultIndex := o.faultIndex, faultGroup := o.faultGroup,
    faultCount := min 0xFFFF o.faultCount, flow := o.desc.flow,
    energyUj := min max32 (o.energyUj + m.energyUj), durationNs := min max32 m.durationNs, seq := o.desc.seq }

end Sys2Proof.Machine
end

