-- ==== Sys2Proof/Machine/Operator.lean ====
section
/-! DEFINITION. What every operation shares: finding it, ending it early (Table WEIR-1), and the one step in which its data
effect takes place once it is dispatched and its requests have landed (log 6). -/

namespace Sys2Proof.Machine

open Sys2Proof

/-- The operation of a number. -/
def opOf? (s : State) (id : Nat) : Option Op := s.weir.ops.find? (fun o => o.id == id)

/-- The list of operations with one replaced. -/
def replaceOp (o : Op) : List Op → List Op
  | [] => []
  | x :: r => if x.id = o.id then o :: r else x :: replaceOp o r

/-- An operation stored. -/
def setOp (s : State) (o : Op) : State := { s with weir := { s.weir with ops := replaceOp o s.weir.ops } }

/-- A collective, and an operation of Table FAB-5. -/
def isColl (opc : Nat) : Bool := decide (0x60 ≤ opc ∧ opc ≤ 0x64)
def isFabric (opc : Nat) : Bool := opc == 0x03 || opc == 0x04 || isColl opc

/-! ### Remote operands (R366, R379) -/

/-- A remote operand named by an operation of Table FAB-5: 0, or the status that refuses it (R366). -/
def remoteStatus (s : State) (p a : Nat) : Nat :=
  if space a ≠ 4 || !(addressLaidOut a) then stACCESS_DENIED
  else
    let c := ctxOf s (remoteCtx a)
    if c.st = .closed ∨ c.part ≠ p then stACCESS_DENIED
    else if c.st ≠ .opened then 0x43
    else 0

/-- A remote read operand at issue, by the OPC that names it (R366, R379). -/
def remoteRead (s : State) (p opc a : Nat) : Nat :=
  if isFabric opc then remoteStatus s p a
  else if !(addressLaidOut a) then stACCESS_DENIED
  else
    let c := ctxOf s (remoteCtx a)
    if c.part ≠ p then stACCESS_DENIED
    else
      match c.st with
      | .opened => 0
      | .failed => stTIMEOUT
      | .closedByPeer => stPEER_LOST
      | _ => stACCESS_DENIED

/-! ### Collective groups (R380, R387) -/

/-- COLL_GROUP_CFG of a group, and its owning partition. -/
def collCfg (s : State) (g : Nat) : Nat := rd s oCOLL_GROUP_CFG (g + 1)
def collPart (s : State) (g : Nat) : Nat := field (collCfg s g) 6 0

/-- The group a collective names: as issued, or as its parameter block stands, a remote one once it has landed. -/
def collGroupOf (s : State) (o : Op) : Option Nat :=
  match o.coll with
  | some r => some r.group
  | none =>
    if isColl o.desc.opc ∧ o.phase = .waiting then
      let block := memNum s o.part (o.desc.opl + 24) 8
      if space block = 4 then (tabGet? o.landed block).map (fun b => field b.toNat 3 0)
      else some (field (memNum s o.part block 1) 3 0)
    else none

/-- A collective of a partition that completes with a status other than OK breaks its group on this chip, if the partition owns it
(R387). -/
def breakOf (s : State) (p g st : Nat) : State := if st = stOK ∨ collPart s g ≠ p then s else wr s oCOLL_GROUP_STATE (g + 1) 2

/-- The same of an issued collective. One that has not been issued names no group yet: nothing of it has been read (R251). -/
def breakGroup (s : State) (o : Op) (st : Nat) : State :=
  match o.coll with
  | some r => breakOf s o.part r.group st
  | none => s

/-! ### Cores and save slots -/

/-- What a core reset leaves of a core: no operation, no load, no slot, its store zero (R114). -/
def clearCore (s : State) (c : Nat) : State :=
  let x := coreOf s c
  zeroStore (setCore s c { retiring := x.retiring, mapping := x.mapping, logged := x.logged }) c

/-- The arrays once no program runs in them: accumulators, weights and rows are discarded (R132, R135). -/
def idleArrays (a : Arrays) : Arrays := { vregs := a.vregs }

/-- Whether an operation's next wavefront can enter: a collective's waits for what it awaits. -/
def entersNext (s : State) (id : Nat) : Bool :=
  match opOf? s id with
  | some o => o.coll.isNone || o.dataDone
  | none => false

/-- The same of the operation that executes on a core. -/
def execEnters (s : State) (x : Core) : Bool :=
  match x.exec with
  | some v => entersNext s v
  | none => false

/-- A core freed of the operation that executes on it: a core reset that waited for it is carried out, another pending load
goes ahead (R134). A load pending for an operation that leaves is dropped, and the wavefronts of the executing one go on. -/
def freeCore (s : State) (c id : Nat) : State :=
  let x := coreOf s c
  if x.exec = some id then
    let s := setCore s c { x with exec := none, wave := false, load := none, stall := none, arrays := idleArrays x.arrays }
    if x.load = some .coreReset then clearCore s c else s
  else if x.load = some (.preempt id) then
    setCore s c { x with wave := x.wave || execEnters s x, load := none, stall := none }
  else s

/-- The save slot of a parked operation freed. -/
def freeSlot (s : State) (c : Nat) (slot : Option Nat) : State :=
  match slot with
  | some i => let x := coreOf s c; setCore s c { x with slots := tabDel x.slots i }
  | none => s

/-- The output regions that an operation which ends early leaves unspecified: its own; an append that has not yet rewritten its
map entries none of a page whose count exceeds 1 (R326). -/
def outsLeft (s : State) (o : Op) : List (Nat × Nat) :=
  if o.desc.opc = 0x28 ∧ !o.dataDone then o.outs.filter (fun x => decide (tabGet 0 s.spawn.refs (x.1 / 65536) ≤ 1)) else o.outs

/-- An operation leaves directly for release with the status that ends it: its core or save slot is free, its outstanding
requests are forgotten, so that data arriving later is discarded (R136, R253); a line request that stands in a controller's FIFO
under a credit returns in its turn (R36). Its outputs hold what Table OPS-9 says. -/
def endOp (s : State) (o : Op) (st : Nat) : State :=
  let s := match o.core with
    | some c => freeSlot (freeCore s c o.id) c o.slot
    | none => s
  let s := if outputsUnspecified st && o.phase != .waiting then freeRegions s o.part (outsLeft s o) else s
  let s := breakGroup s o st
  setOp s { o with phase := .ended, status := st, requests := [], due := [], slot := none, context := none, runnable := false, commits := [],
                   reservedBranches := 0, reservedPages := 0, fencing := false
                   partialOut := o.partialOut || (outputsUnspecified st && o.wrote) }

/-- The same with a fault named (Table OPS-8). -/
def endOpAt (s : State) (o : Op) (st entry : Nat) : State := endOp s { o with faultEntry := entry } st

/-- A placed operation taken back by the Weir, to be placed again: a pre-emption that waited for it is no longer pending
(R90, R114). -/
def takeBack (s : State) (o : Op) : State :=
  let s := match o.core with
    | some c => freeCore s c o.id
    | none => s
  setOp s { o with phase := .issued, core := none, wsCore := 0, wsPool := 0, wsDram := 0, wsSpill := 0, scratch := [],
                   spilled := false, coreWait := false }

/-- The operations of a list that satisfy a test, by number. -/
def opIds (s : State) (p : Op → Bool) : List Nat := (s.weir.ops.filter p).map (fun o => o.id)

/-- Something done to each operation of a list of numbers, as it then stands. -/
def forOps (ids : List Nat) (f : State → Op → State) (s : State) : State :=
  ids.foldl (fun t id => match opOf? t id with
    | some o => f t o
    | none => t) s

/-- Executing in a core's arrays: dispatched, or parked apart from it not. -/
def executing (o : Op) : Bool := o.phase == .dispatched

/-- What an operator does to its data. -/
structure Eff where
  writes : List (Nat × List Byte) := []
  status : Nat := 0
  /-- A NaR or NaN was written, or a NaN stored as INT8 0 (R151). -/
  nar : Bool := false
  partialOut : Bool := false
  faultEntry : Nat := 0xFFFF
  faultIndex : Nat := 0xFF
  faultGroup : Nat := 0xFFFFFFFF
  faultCount : Nat := 0
  acts : List SpawnAct := []
  /-- Regions it writes beyond those known at issue. -/
  outs : List (Nat × Nat) := []
deriving DecidableEq, Repr

/-- Whether a repair makes accesses wait: a row, a Pool bank or the run of a channel being copied (R457 to R459). -/
def repairHolds (s : State) (a n : Nat) : Bool :=
  s.regr.jobs.any (fun j => match j with
    | .row line => overlaps (line - line % 2048) 2048 a n
    | .bank d b _ => overlaps (2 ^ 60 + d * 2 ^ 27 + b * 2 ^ 21) (2 ^ 21) a n
    | .move k c run => decide (run < channelRuns) && overlaps (runAddr s k c run) 2048 a n
    | _ => false)

/-- Memory that cannot be accessed now: a stack in self-refresh (Table CLK-5, R451), a row, bank or run under repair, host memory while
the PCIe core is gated (R69). -/
def memHeld (s : State) (x : Nat × Nat) : Bool :=
  (space x.1 == 0 && selfRefresh s (dramStack x.1)) || repairHolds s x.1 x.2 || (space x.1 == 3 && s.clock.rootGated)

/-- Every line that an operation reads in DRAM, Pool and core store has come in (R45, R165). -/
def linesLanded (s : State) (o : Op) : Bool := (lineAt o.ins o.asked).isNone && !(s.mem.reads.any (fun r => r.op == o.id))

/-- Every operand of an operation has landed in its buffers (R128). -/
def inputsIn (s : State) (o : Op) : Bool := o.requests.isEmpty && o.due.isEmpty && linesLanded s o

/-- Operations that read page maps, pages or branch maps beside their operands while they execute: KV_APPEND and Spawn. -/
def readsOnTheWay (opc : Nat) : Bool := opc == 0x28 || decide (0x40 ≤ opc ∧ opc ≤ 0x4F)

/-- What an operation still accesses once its operands have landed. -/
def stillTouches (o : Op) : List (Nat × Nat) := if readsOnTheWay o.desc.opc then o.ins ++ o.outs else o.outs

/-- The core holds a memory credit for what an operation writes to DRAM, or reads there on its way (R35, R41). -/
def creditLeft (s : State) (o : Op) : Bool :=
  !(readsOnTheWay o.desc.opc || o.outs.any (fun r => space r.1 == 0)) || (match o.core with
    | some c => decide (0 < lineCredits s c (o.desc.cls == 0))
    | none => true)

/-- Whether an operation's accesses can take place now: every operand landed, a credit for its writes, its memory not held. -/
def memoryOpen (s : State) (o : Op) : Bool :=
  inputsIn s o && creditLeft s o && !((stillTouches o).any (memHeld s))

/-- Whether a load pending on the operation's core leaves it to finish: none is pending, or its last wavefront is in progress
(R132, R134). -/
def loadLeaves (s : State) (o : Op) : Bool :=
  match o.core with
  | some c => (coreOf s c).load.isNone || ((coreOf s c).wave && decide (o.tiles ≤ o.tile + 1))
  | none => false

/-- Whether an operation's data effect can take place now: dispatched and not cancelled (R253), no array program load in its way,
its accesses possible. -/
def opReady (s : State) (o : Op) (opc : Nat) : Bool :=
  o.desc.opc == opc && o.phase == .dispatched && !o.dataDone && !o.cancel && loadLeaves s o && memoryOpen s o

/-- NAR_PRODUCED replaces OK only (R151). -/
def effStatus (e : Eff) : Nat := if e.status = stOK && e.nar then stNAR_PRODUCED else e.status

/-- The 32 vector registers of 64 lanes with free value `n` in every lane. -/
def freeVectors (n : Nat) : Tab W32 := (List.range 2048).map (fun i => (i, Config.vectorLane n i))

/-- A lane of a vector register of a core (R116). -/
def vectorLane (s : State) (c r lane : Nat) : W32 := tabGet 0 (coreOf s c).arrays.vregs (64 * r + lane)

/-- The vector registers hold what the operation left in them: no manual states it, so every lane is a free value. -/
def useVectors (s : State) (o : Op) : State :=
  match o.core with
  | some c =>
    let x := coreOf s c
    drawFree (setCore s c { x with arrays := { x.arrays with vregs := freeVectors s.mem.free } })
  | none => s

/-- The outcome of a data effect kept for release. -/
def finishEff (s : State) (o : Op) (e : Eff) : State :=
  setOp (useVectors s o) { o with
    dataDone := true, wrote := true, tile := o.tiles - 1, status := effStatus e, partialOut := e.partialOut,
    faultEntry := e.faultEntry, faultIndex := e.faultIndex, faultGroup := e.faultGroup, faultCount := e.faultCount,
    commits := e.acts, outs := o.outs ++ e.outs }

/-- A status that ends an operation before its last tile, with nothing committed: MEM_ERROR, one of Table OPS-9 that leaves the
outputs untouched, or a code of its chapter. -/
def effEnds (e : Eff) : Bool :=
  e.status == stMEM_ERROR || e.status == stBOUNDS_INVALID || e.status == stACCESS_DENIED || decide (0x40 ≤ e.status)

/-- Two effects one after the other, their writes apart. -/
def addEff (e t : Eff) : Eff :=
  let f := if e.faultCount = 0 then t else e
  { status := max e.status t.status, nar := e.nar || t.nar, partialOut := e.partialOut || t.partialOut
    faultEntry := f.faultEntry, faultIndex := f.faultIndex, faultGroup := f.faultGroup
    faultCount := e.faultCount + t.faultCount, acts := e.acts ++ t.acts, outs := e.outs ++ t.outs }

/-- Parts of one unit's effect as a whole, their writes in order. -/
def joinEff (es : List Eff) : Eff := es.foldl (fun a e => { addEff a e with writes := a.writes ++ e.writes }) {}

/-- An operation after writes of its own: what it reads from then on is what it wrote (R180). -/
def seeWrites (o : Op) (ws : List (Nat × List Byte)) : Op :=
  { o with landed := ws.foldl (fun t w => overwriteLanded t w.1 w.2) o.landed }

/-- The units of a data effect in order, each on the state its forerunners left (R180, R208): state, operation, and what they
come to; the first unit that ends the operation is the last. -/
def runUnits {U : Type} (eff : State → Op → U → Eff) : List U → State → Op → Eff → State × Op × Eff
  | [], s, o, acc => (s, o, acc)
  | u :: r, s, o, acc =>
    let e := eff s o u
    if effEnds e then (s, o, e)
    else runUnits eff r (storeAll s o.part o.id e.writes) (seeWrites o e.writes) (addEff acc e)

/-- The entry that a piece of the operands belongs to, by the piece's number. -/
def entryOfPiece : List Nat → Nat → Nat → Nat
  | [], _, _ => 0xFFFF
  | n :: r, e, i => if i < n then e else entryOfPiece r (e + 1) (i - n)

/-- The entry whose operand holds bytes that satisfy a test, for FAULT_ENTRY. -/
def entryWhere (o : Op) (f : Nat × Nat → Bool) : Nat := entryOfPiece o.insBy 0 (o.ins.findIdx f)

/-- The data effect of an operation of one OPC. `own` says that the operator deals with poisoned lines itself. -/
def runOp {U : Type} (opc : Nat) (own : Bool) (units : Op → List U) (eff : State → Op → U → Eff) (id : Nat) (s : State) : State :=
  match opOf? s id with
  | none => s
  | some o =>
    if opReady s o opc then
      if !own && o.ins.any (fun r => touchesPoison s r.1 r.2) then
        endOpAt s o stMEM_ERROR (entryWhere o (fun r => touchesPoison s r.1 r.2))
      else
        let x := runUnits eff (units o) s o {}
        if effEnds x.2.2 then
          endOp s { o with faultEntry := x.2.2.faultEntry, faultIndex := x.2.2.faultIndex, faultGroup := x.2.2.faultGroup,
                           faultCount := x.2.2.faultCount } x.2.2.status
        else finishEff x.1 x.2.1 x.2.2
    else s

/-- The entries of an operation with their numbers. -/
def entriesOf (o : Op) : List (Nat × List Nat) := o.entries.zipIdx.map (fun x => (x.2, x.1))

/-- A unit of rows: the entry's number, its pointers, the rows. -/
abbrev RowUnit := Nat × List Nat × List Nat

/-- The rows of each entry, `per` at a time (R208, R212). -/
def rowUnits (per : Nat) (o : Op) : List RowUnit :=
  (entriesOf o).flatMap (fun x => (List.range (ceilDiv o.m per)).map (fun g =>
    (x.1, x.2, (List.range (min per (o.m - per * g))).map (fun r => per * g + r))))

end Sys2Proof.Machine
end

