-- ==== Sys2Proof/Machine/Basic.lean ====
section
/-! DEFINITION. COPY; wavefronts of the arrays and those of MATMUL and MATMUL_T (spec/10 R206, R208 to R220; spec/06 R118 to R124;
spec/07 R141 to R150). -/

namespace Sys2Proof.Machine

open Sys2Proof

/-! ### Checks, pieces, working set, tiles -/

/-- Indices of a K slice: 32 in LG8, 16 otherwise (Table CORE-3). -/
def kSlice (prec : Nat) : Nat := if prec = 1 then 32 else 16

/-- Bytes of a loaded element: 1 for LG8, 2 for LG12 and LG16 (R210). -/
def loadedBytes (prec : Nat) : Nat := if prec = 1 then 1 else 2

/-- A tail of Table OPS-7 that OPCs outside 0x30–0x3F may name. -/
def tailOk (tail : Nat) : Bool := decide (tail ≤ 7)

/-- Whether a tail reads the P3 operand. -/
def tailReads (tail : Nat) : Bool := tail == 6 || tail == 7

/-- Step 3 of Table OPS-5 for COPY: 0, or the status. -/
def encCopy (d : Desc) : Nat := if d.tail ≠ 0 then 0x40 else if fmtOk d.fmt0 && fmtOk d.fmt1 then 0 else 0x41

/-- Step 3 for MATMUL and MATMUL_T: with TAIL and a format both invalid TAIL_INVALID, as R205 gives the two no order (DESIGN CHOICE,
log 70). -/
def encMatmul (d : Desc) : Nat :=
  if !(tailOk d.tail) then 0x40
  else if fmtOk d.fmt0 && fmtOk d.fmt1 && fmtOk d.fmt2 && (!(tailReads d.tail) || fmtOk d.fmt3) then 0 else 0x41

/-- Pieces of a COPY entry (Table OPS-6). -/
def piecesCopy (d : Desc) (m n : Nat) (e : List Nat) : Pieces :=
  { reads := matPieces (ptr e 0) m n (boundN d.cap) d.fmt0, writes := matPieces (ptr e 1) m n (boundN d.cap) d.fmt1 }

/-- Pieces of a MATMUL or MATMUL_T entry: nothing where M or N is 0 (R206), no A and W where K is 0. -/
def piecesMatmul (d : Desc) (m n k : Nat) (e : List Nat) : Pieces :=
  if m = 0 ∨ n = 0 then {}
  else
    let w := if d.opc = 0x11 then matPieces (ptr e 1) n k (boundK d.cap) d.fmt1
      else matPieces (ptr e 1) k n (boundN d.cap) d.fmt1
    let u := if tailReads d.tail then matPieces (ptr e 3) m n (boundN d.cap) d.fmt3 else []
    { reads := matPieces (ptr e 0) m k (boundK d.cap) d.fmt0 ++ w ++ u,
      writes := matPieces (ptr e 2) m n (boundN d.cap) d.fmt2 }

/-- Working set of MATMUL and MATMUL_T (R210). -/
def wsMatmul (prec k : Nat) : Nat :=
  let kr := roundUp k (kSlice prec)
  16 * kr * loadedBytes prec + 2 * 64 * kr * loadedBytes prec + 8192

/-- Tiles of MATMUL and MATMUL_T in all entries (R211). -/
def tilesMatmul (prec lcount m n k : Nat) : Nat := lcount * ceilDiv n 16 * ceilDiv m 64 * ceilDiv k (kSlice prec)

/-- Tiles of COPY (R212). -/
def tilesCopy (lcount m : Nat) : Nat := lcount * ceilDiv m 16

/-! ### COPY -/

/-- One element copied: binary32 to binary32 unchanged, log to log directly, every other pair through binary32 (R149, R150). -/
def copyElem (f g w : Nat) : Nat × Bool :=
  if f = 0 ∧ g = 0 then (w % 2 ^ 32, isNan (fdecode f32 w))
  else if 4 ≤ f then storeLog (logOfFmt f) g (ldecode (logOfFmt f) w)
  else storeElem g (loadElem f w)

/-- One row copied. -/
def copyRow (ld : Nat → Byte) (d : Desc) (n : Nat) (e : List Nat) (r : Nat) : (Nat × List Byte) × Bool :=
  let src := ptr e 0 + r * pitchOf (boundN d.cap) d.fmt0
  let es := (List.range n).map (fun c => copyElem d.fmt0 d.fmt1 (elemAt ld (src + c * elemBytes d.fmt0) d.fmt0))
  ((ptr e 1 + r * pitchOf (boundN d.cap) d.fmt1, es.flatMap (fun x => leBytes (elemBytes d.fmt1) x.1)), es.any (fun x => x.2))

/-- Rows written and whether any holds a NaR or NaN, as an effect. -/
def rowsEff (rows : List ((Nat × List Byte) × Bool)) : Eff :=
  { writes := rows.map (fun x => x.1), nar := rows.any (fun x => x.2) }

/-- The data effect of one tile of COPY: 16 rows of one entry (R212). -/
def effCopy (s : State) (o : Op) (u : RowUnit) : Eff :=
  if o.n = 0 then {} else rowsEff (u.2.2.map (copyRow (opByte s o) o.desc o.n u.2.1))

/-! ### MATMUL and MATMUL_T -/

/-- One K slice of one column: products added in ascending K from +0.0 (R146, R147). `lda` and `ldw` give the loaded
activation and weight of a K index; `row` and `col` are the element's row and column. -/
def sliceSum (t : LFmt) (seed tile row col : Nat) (lda ldw : Nat → LVal) (k0 : Nat) : Nat → Nat → FVal → FVal
  | 0, _, sum => sum
  | n + 1, kk, sum =>
    let d := draw t.q seed tile (row % 64 / 16) (row % 16) kk (col % 16)
    sliceSum t seed tile row col lda ldw k0 n (kk + 1) (cell t sum (lda (k0 + kk)) (ldw (k0 + kk)) d)

/-- The accumulator of an element over the K slices in ascending order, from +0.0 (R120, R147). `tile` is the index of its
first slice; absent K indices contribute nothing (R217, R220). -/
def accumulate (t : LFmt) (ks seed tile row col k : Nat) (lda ldw : Nat → LVal) : Nat → Nat → FVal → FVal
  | 0, _, acc => acc
  | n + 1, i, acc =>
    let s := sliceSum t seed (tile + i) row col lda ldw (i * ks) (min ks (k - i * ks)) 0 fzero
    accumulate t ks seed tile row col k lda ldw n (i + 1) (fadd acc s)

/-! ### Wavefronts (R118 to R122) -/

/-- One wavefront of the four arrays: the number it draws its rounding from, the K indices present, the result rows and columns
present, row `r` in array r mod 64 / 16; the activation of a row and a K index, the weight of a K index and a column; whether it is
the first and the last K slice of its output tile. -/
structure Wave where
  tile : Nat
  size : Nat
  rows : List Nat
  cols : List Nat
  act : Nat → Nat → LVal
  weight : Nat → Nat → LVal
  first : Bool
  last : Bool

/-- The weight tile of a wavefront as it is broadcast to the four arrays: the containers of its cells by 16 k + j (R118, R122). -/
def planeOf (t : LFmt) (w : Wave) : Plane :=
  { tile := w.tile
    cells := (List.range w.size).flatMap (fun k => w.cols.map (fun c => (16 * k + c % 16, lencode t (w.weight k c)))) }

/-- The weight in a cell of a plane, ZERO where the tile is absent. -/
def cellWeight (t : LFmt) (p : Plane) (k c : Nat) : LVal :=
  match tabGet? p.cells (16 * k + c % 16) with
  | some x => ldecode t x
  | none => .zero

/-- The column sum of a wavefront for a row and a column: products in ascending K from +0.0 (R120, R147). -/
def columnSum (t : LFmt) (seed : Nat) (w : Wave) (p : Plane) (r c : Nat) : FVal :=
  sliceSum t seed w.tile r c (w.act r) (fun k => cellWeight t p k c) 0 w.size 0 fzero

/-- The place of an accumulator: array (r mod 64) / 16, row r mod 16, column c mod 16. -/
def accAt (r c : Nat) : Nat := 16 * (r % 64) + c % 16

/-- An accumulator as a value; cleared at the first K slice (Table CORE-5). -/
def accValue (acc : Tab W32) (w : Wave) (r c : Nat) : FVal :=
  if w.first then fzero else f32Of (tabGet 0 acc (accAt r c)).toNat

/-- The bits of a binary32 value. -/
def f32Bits (v : FVal) : W32 := BitVec.ofNat 32 (fencode f32 v)

/-- The accumulators after a wavefront: each adds the column sum of its row and column (R120). -/
def accumulated (t : LFmt) (seed : Nat) (w : Wave) (p : Plane) (acc : Tab W32) : Tab W32 :=
  w.rows.flatMap (fun r => w.cols.map (fun c =>
    (accAt r c, f32Bits (fadd (accValue acc w r c) (columnSum t seed w p r c)))))

/-- The 64-lane rows that the arrays hand to the Rill after the last K slice: row i of each array, lane 16 a + j (R121). -/
def rillRows (w : Wave) (acc : Tab W32) : List RillRow :=
  if w.last then
    ((List.range 16).filter (fun i => w.rows.any (fun r => r % 16 == i))).map (fun i =>
      { tile := w.tile, row := i, lanes := (List.range 64).filterMap (fun lane =>
          (tabGet? acc (16 * (16 * (lane / 16) + i) + lane % 16)).map (fun v => (lane, v))) })
  else []

/-! ### The wavefronts of MATMUL and MATMUL_T -/

/-- Where a tile of MATMUL or MATMUL_T lies: its entry, first row, first column, K slice and the number of K slices (R211). An
empty K has one empty slice. -/
structure Wavefront where
  idx : Nat
  e : List Nat
  m0 : Nat
  n0 : Nat
  slice : Nat
  slices : Nat
deriving DecidableEq, Repr

/-- K slices, and wavefronts of the whole operation: none where M or N is 0 (R206). -/
def slicesOf (o : Op) : Nat := max 1 (ceilDiv o.k (kSlice o.precision))
def wavefronts (o : Op) : Nat := o.entries.length * ceilDiv o.n 16 * ceilDiv o.m 64 * slicesOf o

/-- The wavefront of a tile index (R211). -/
def wavefrontAt (o : Op) (t : Nat) : Wavefront :=
  let kb := slicesOf o
  let mb := ceilDiv o.m 64
  let nb := ceilDiv o.n 16
  let idx := t / (kb * mb * nb)
  { idx := idx, e := o.entries.getD idx [], m0 := 64 * (t / kb % mb), n0 := 16 * (t / (kb * mb) % nb), slice := t % kb, slices := kb }

/-- K indices, activation rows and columns of a wavefront that are present: the others are fed ZERO and discarded
(R217, R218). -/
def presentK (o : Op) (w : Wavefront) : Nat := min (kSlice o.precision) (o.k - w.slice * kSlice o.precision)
def presentRows (o : Op) (w : Wavefront) : List Nat := (List.range (min 64 (o.m - w.m0))).map (fun r => w.m0 + r)
def presentCols (o : Op) (w : Wavefront) : List Nat := (List.range (min 16 (o.n - w.n0))).map (fun c => w.n0 + c)

/-- The weight at K index `k` and column `c` of an entry; MATMUL_T finds it transposed (R124). -/
def weightAt (ld : Nat → Byte) (o : Op) (e : List Nat) (k c : Nat) : LVal :=
  let d := o.desc
  let t := logOfPrec o.precision
  if d.opc = 0x11 then matLog ld t (ptr e 1) (boundK d.cap) d.fmt1 c k else matLog ld t (ptr e 1) (boundN d.cap) d.fmt1 k c

/-- The activation at row `r` and K index `k`. -/
def activationAt (ld : Nat → Byte) (o : Op) (e : List Nat) (r k : Nat) : LVal :=
  matLog ld (logOfPrec o.precision) (ptr e 0) (boundK o.desc.cap) o.desc.fmt0 r k

/-- The wavefront of a tile of MATMUL or MATMUL_T. -/
def matmulWave (ld : Nat → Byte) (o : Op) (t : Nat) : Wave :=
  let w := wavefrontAt o t
  let k0 := w.slice * kSlice o.precision
  { tile := t, size := presentK o w, rows := presentRows o w, cols := presentCols o w
    act := fun r k => activationAt ld o w.e r (k0 + k), weight := fun k c => weightAt ld o w.e (k0 + k) c
    first := w.slice == 0, last := w.slice + 1 == w.slices }

/-- The Rill operand of an element. -/
def rillOperand (ld : Nat → Byte) (o : Op) (e : List Nat) (r c : Nat) : FVal :=
  if tailReads o.desc.tail then matElem ld (ptr e 3) (boundN o.desc.cap) o.desc.fmt3 r c else fzero

/-- A row of the Rill handed to the store path: tail, conversion to FMT2, the present columns of its four result rows
(R214, R219). -/
def rillEff (ld : Nat → Byte) (o : Op) (x : RillRow) : Eff :=
  let d := o.desc
  let w := wavefrontAt o x.tile
  rowsEff (((List.range 4).filter (fun a => decide (w.m0 + 16 * a + x.row < o.m))).map (fun a =>
    let r := w.m0 + 16 * a + x.row
    let b := rowBytes d.fmt2 ((presentCols o w).map (fun c =>
      rillTail d.tail (f32Of d.tailScale) (f32Of (tabGet 0 x.lanes (16 * a + c % 16)).toNat) (rillOperand ld o w.e r c)))
    ((ptr w.e 2 + r * pitchOf (boundN d.cap) d.fmt2 + w.n0 * elemBytes d.fmt2, b.1), b.2)))

/-! ### The command -/

/-- COPY: rows of P0 converted into P1 (R212, R149, R150). -/
def execCopy (op : Nat) (s : State) : Host.Outcome State Fault Refusal := .next (runOp 0x02 false (rowUnits 16) effCopy op s)

end Sys2Proof.Machine
end

