-- ==== Sys2Proof/Machine/SpawnOps.lean ====
section
/-! DEFINITION. The Spawn table (spec/14 R312 to R333): branch numbers and pool pages, reservation, the operations of
Table SPAWN-1, commit, and the copy-on-write of KV_APPEND. -/

namespace Sys2Proof.Machine

open Sys2Proof

/-! ### Numbers and pages (R312 to R314) -/

/-- The lowest number from `lo` on that an ascending list of numbers does not hold. -/
def lowestGap : Nat → List Nat → Nat
  | lo, [] => lo
  | lo, x :: r => if x < lo then lowestGap lo r else if x = lo then lowestGap (lo + 1) r else lo

/-- A partition's branches and pool. -/
def branchLo (s : State) (p : Nat) : Nat := rd s oSPAWN_BASE (p + 1)
def branchCount (s : State) (p : Nat) : Nat := rd s oSPAWN_COUNT (p + 1)
def poolLo (s : State) (p : Nat) : Nat := rd s oSPOOL_BASE (p + 1) / 65536
def poolPages (s : State) (p : Nat) : Nat := rd s oSPOOL_PAGES (p + 1)

/-- SPAWN_LIVE: live branches of a partition. -/
def spawnLive (s : State) (p : Nat) : Nat := (s.spawn.branches.filter (fun b => b.2.part == p)).length

/-- Whether a page number lies in a partition's pool. -/
def inPool (s : State) (p page : Nat) : Bool := decide (poolLo s p ≤ page ∧ page < poolLo s p + poolPages s p)

/-- SPOOL_FREE: pages of the pool without a reference. -/
def spoolFree (s : State) (p : Nat) : Nat :=
  poolPages s p - (s.spawn.refs.filter (fun r => inPool s p r.1)).length

/-- Quantities reserved by a partition's operations (R317). -/
def reservedBranchesOf (s : State) (p : Nat) : Nat :=
  (s.weir.ops.filter (fun o => o.part == p)).foldl (fun a o => a + o.reservedBranches) 0
def reservedPagesOf (s : State) (p : Nat) : Nat :=
  (s.weir.ops.filter (fun o => o.part == p)).foldl (fun a o => a + o.reservedPages) 0

/-- The lowest free branch number (R314). -/
def lowestBranch (s : State) (p : Nat) : Nat := lowestGap (branchLo s p) (s.spawn.branches.map (fun b => b.1))

/-- The lowest free page (R314). -/
def lowestPage (s : State) (p : Nat) : Nat := lowestGap (poolLo s p) (s.spawn.refs.map (fun r => r.1))

/-- The references of a page. -/
def refsOf (s : State) (page : Nat) : Nat := tabGet 0 s.spawn.refs page

/-- The references of a page stored; a page without any returns to the pool. -/
def setRefs (s : State) (page n : Nat) : State :=
  { s with spawn := { s.spawn with refs := if n = 0 then tabDel s.spawn.refs page else tabPut s.spawn.refs page n } }

/-- What an operation reserves at its first tile: branch numbers and pages (R317). -/
def spawnNeeds (o : Op) : Nat × Nat :=
  let e := o.entries.length
  match o.desc.opc with
  | 0x40 => (e, 0)
  | 0x41 => (e * o.n, 0)
  | 0x46 => (e * o.n, 0)
  | 0x44 => (0, e * o.n)
  | _ => (0, 0)

/-- SPAWN_RESERVE: 0, or the status that says what is exhausted (R317). -/
def reserveStatus (s : State) (o : Op) : Nat :=
  let n := spawnNeeds o
  if branchCount s o.part < spawnLive s o.part + reservedBranchesOf s o.part + n.1 then 0x43
  else if spoolFree s o.part < reservedPagesOf s o.part + n.2 then 0x44
  else 0

/-! ### Checks at issue -/

/-- Step 3: TAIL must be NONE; SELECT's scores are binary32, binary16 or bfloat16 (R315, Table SPAWN-2). -/
def encSpawn (d : Desc) : Nat := if d.tail ≠ 0 then 0x40 else if d.opc = 0x43 ∧ 3 ≤ d.fmt1 then 0x41 else 0

/-- Bounds of Table SPAWN-2 (R316, R207). -/
def spawnBoundsOk (opc m n : Nat) : Bool :=
  match opc with
  | 0x40 => m == 1 && decide (1 ≤ n ∧ n ≤ 8192)
  | 0x41 => m == 1 && decide (1 ≤ n ∧ n ≤ 64)
  | 0x46 => m == 1 && decide (1 ≤ n ∧ n ≤ 64)
  | 0x43 => decide (1 ≤ n ∧ n ≤ 1024 ∧ m ≤ n)
  | _ => m == 1 && decide (1 ≤ n ∧ n ≤ 4096)

/-- Pieces of an entry; a fork's child maps count as one line until the parent's E is known. -/
def piecesSpawn (d : Desc) (m n : Nat) (e : List Nat) : Pieces :=
  match d.opc with
  | 0x40 => { writes := [(ptr e 0, 8 * n), (ptr e 2, 4)] }
  | 0x41 => { reads := [(ptr e 0, 4)], writes := [(ptr e 1, 64), (ptr e 2, 4 * n)] }
  | 0x46 => { reads := [(ptr e 0, 4)], writes := [(ptr e 1, 64), (ptr e 2, 4 * n)] }
  | 0x42 => { reads := [(ptr e 0, 4 * n)] }
  | 0x43 => { reads := [(ptr e 0, 4 * n), (ptr e 1, n * elemBytes d.fmt1)], writes := [(ptr e 2, 4 * m)] }
  | _ => { reads := [(ptr e 0, 4), (ptr e 1, 4 * n)] }

/-! ### The operations -/

/-- A live branch of the operation's partition. -/
def branchOf? (s : State) (p x : Nat) : Option Branch :=
  match tabGet? s.spawn.branches x with
  | some b => if b.part = p then some b else none
  | none => none

/-- The `n` 32-bit words at an address. -/
def words32 (ld : Nat → Byte) (a n : Nat) : List Nat := (List.range n).map (fun i => wordAt ld (a + 4 * i) 4)

/-- The page map words of a branch. -/
def mapWords (s : State) (b : Branch) : List Nat := (List.range b.e).map (fun i => memNum s b.part (b.mapAddr + 8 * i) 8)

/-- The pool pages that VALID, SPAWN words name (R321, R328). -/
def spawnPages (s : State) (p : Nat) (ws : List Nat) : List Nat :=
  ((ws.filter (fun w => w % 4 == 3)).map (fun w => w / 65536)).filter (inPool s p)

/-- A status that ends the operation, with the entry at fault. -/
def stopEff (st : Nat) (entry : Nat := 0xFFFF) : Eff := { status := st, faultEntry := entry }

/-- The numbers an entry names: each with [31:14] zero (R315). -/
def numbersOk (xs : List Nat) : Bool := xs.all (fun x => decide (x < 16384))

/-- The words of an entry that name branches, through a byte source. -/
def namedWords (rd32 : Nat → Nat → List Nat) (opc n : Nat) (e : List Nat) : List Nat :=
  match opc with
  | 0x40 => []
  | 0x42 => rd32 (ptr e 0) n
  | 0x43 => rd32 (ptr e 0) n
  | _ => rd32 (ptr e 0) 1

/-- The numbers named by the entries of an operation up to entry `i`, for the check against repeats (R316). -/
def namedBy (ld : Nat → Byte) (o : Op) (i : Nat) : List Nat :=
  (o.entries.take (i + 1)).flatMap (namedWords (words32 ld) o.desc.opc o.n)

/-! ### What is known of the parents at issue -/

/-- The lengths of the branches that an entry of FORK, FORK_RETIRE or PRUNE names, 4 bytes each, 0 where none is live; `rd32` reads the
numbers. -/
def lengthsBy (rd32 : Nat → Nat → List Nat) (s : State) (p : Nat) (d : Desc) (n : Nat) (e : List Nat) : List Byte :=
  if d.opc = 0x41 ∨ d.opc = 0x46 ∨ d.opc = 0x42 then
    (namedWords rd32 d.opc n e).flatMap (fun x =>
      leBytes 4 (match branchOf? s p x with
        | some b => b.e
        | none => 0))
  else []

/-- The same as the numbers stand at issue; numbers held by a peer are not read then. -/
def spawnLengths (s : State) (p : Nat) (d : Desc) (n : Nat) (e : List Nat) : List Byte :=
  if space (ptr e 0) = 4 then []
  else lengthsBy (fun a c => (List.range c).map (fun i => memNum s p (a + 4 * i) 4)) s p d n e

/-- The same as the operation reads them once they have come in. -/
def lengthsNow (s : State) (o : Op) (e : List Nat) : List Byte := lengthsBy (words32 (opByte s o)) s o.part o.desc o.n e

/-- Bytes of a child's map set in a brood: 8 E rounded up to a multiple of 64 (R321). -/
def childStride (e : Nat) : Nat := roundUp (8 * e) 64

/-- The pieces of an entry once its lengths are known: a fork writes F child maps (R205, R321). -/
def spawnPieces (d : Desc) (m n : Nat) (e : List Nat) (lengths : List Byte) : Pieces :=
  let base := piecesSpawn d m n e
  if (d.opc = 0x41 ∨ d.opc = 0x46) ∧ numAt lengths 0 4 ≠ 0 then
    { base with writes := [(ptr e 1, n * childStride (numAt lengths 0 4)), (ptr e 2, 4 * n)] }
  else base

/-- Tiles of an entry (R332): at most 512 map entries of one branch each, a branch whose length is not known yet taken as one tile;
512 indices; one sort. -/
def tilesSpawnEntry (opc n : Nat) (lengths : List Byte) : Nat :=
  match opc with
  | 0x43 => 1
  | 0x40 => ceilDiv n 512
  | 0x44 => ceilDiv n 512
  | 0x45 => ceilDiv n 512
  | 0x42 => (List.range n).foldl (fun a i => a + max 1 (ceilDiv (numAt lengths (4 * i) 4) 512)) 0
  | _ => n * max 1 (ceilDiv (numAt lengths 0 4) 512)

/-- Tiles of all entries. -/
def tilesSpawn (opc n : Nat) (blocks : List (List Byte)) : Nat :=
  blocks.foldl (fun a b => a + tilesSpawnEntry opc n b) 0

/-! ### One entry -/

/-- The reference changes of a list of pages. -/
def dropAll (pages : List Nat) : List SpawnAct := pages.map (fun g => .dropRef g 1)

/-- BRANCH_NEW of one entry (R323). -/
def effBranchNew (o : Op) (e : List Nat) : Eff :=
  { writes := [(ptr e 0, List.replicate (8 * o.n) 0)], acts := [.create (ptr e 2) (ptr e 0) o.n] }

/-- FORK and FORK_RETIRE of entry `i` (R321, R322). -/
def effFork (retire : Bool) (s : State) (o : Op) (i : Nat) (e : List Nat) : Eff :=
  let parent := wordAt (opByte s o) (ptr e 0) 4
  match branchOf? s o.part parent with
  | none => stopEff 0x45
  | some b =>
    let st := childStride b.e
    if !(within s o.part (ptr e 1) (o.n * st)) then stopEff stACCESS_DENIED i
    else if touchesPoison s b.mapAddr (8 * b.e) then stopEff stMEM_ERROR i
    else
      let ws := mapWords s b
      let bytes := ws.flatMap (leBytes 8)
      let pages := spawnPages s o.part ws
      { writes := (List.range o.n).map (fun j => (ptr e 1 + j * st, bytes))
        outs := [(ptr e 1, o.n * st)]
        acts := .need parent :: pages.map (fun g => .addRef g o.n) ++
          (List.range o.n).map (fun j => .create (ptr e 2 + 4 * j) (ptr e 1 + j * st) b.e) ++
          (if retire then dropAll pages ++ [.remove parent] else []) }

/-- The changes that remove branches (R328). -/
def pruneActs (s : State) (p : Nat) (xs : List Nat) : List SpawnAct :=
  xs.flatMap (fun x => match branchOf? s p x with
    | some b => dropAll (spawnPages s p (mapWords s b)) ++ [.remove x]
    | none => [])

/-- Whether the map of a named branch touches a poisoned line. -/
def mapPoisoned (s : State) (p x : Nat) : Bool :=
  match branchOf? s p x with
  | some b => touchesPoison s b.mapAddr (8 * b.e)
  | none => false

/-- PRUNE of entry `i` (R328). -/
def effPrune (s : State) (o : Op) (i : Nat) (e : List Nat) : Eff :=
  let xs := words32 (opByte s o) (ptr e 0) o.n
  if xs.any (fun x => (branchOf? s o.part x).isNone) then stopEff 0x45
  else if xs.any (mapPoisoned s o.part) then stopEff stMEM_ERROR i
  else { acts := xs.map (fun x => .need x) ++ pruneActs s o.part xs }

/-- SELECT of entry `i`: candidates by descending score, ties to the lower position (R329). -/
def effSelect (s : State) (o : Op) (i : Nat) (e : List Nat) : Eff :=
  let ld := opByte s o
  let xs := words32 ld (ptr e 0) o.n
  let f := o.desc.fmt1
  let keys := (List.range o.n).map (fun i => sortKey f (elemAt ld (ptr e 1 + i * elemBytes f) f))
  let order := sortOrder false keys
  let pick := fun is => is.map (fun i => xs.getD i 0)
  let losers := pick (order.drop o.m)
  if xs.any (fun x => (branchOf? s o.part x).isNone) then stopEff 0x45
  else if losers.any (mapPoisoned s o.part) then stopEff stMEM_ERROR i
  else
    { writes := if o.m = 0 then [] else [(ptr e 2, (pick (order.take o.m)).flatMap (leBytes 4))]
      acts := xs.map (fun x => .need x) ++ pruneActs s o.part losers }

/-- PAGE_ALLOC and PAGE_DROP of entry `i` (R330): an index of E or more, or an entry already VALID at PAGE_ALLOC, is
PARAM_INVALID; an index named twice names one map entry (log 44). -/
def effPages (drop : Bool) (s : State) (o : Op) (i : Nat) (e : List Nat) : Eff :=
  let ld := opByte s o
  let x := wordAt ld (ptr e 0) 4
  match branchOf? s o.part x with
  | none => stopEff 0x45
  | some b =>
    let is := (words32 ld (ptr e 1) o.n).eraseDups
    let addrs := is.map (fun j => b.mapAddr + 8 * j)
    if is.any (fun j => decide (b.e ≤ j)) then stopEff 0x42
    else if addrs.any (fun a => touchesPoison s a 8) then stopEff stMEM_ERROR i
    else
      let ws := addrs.map (fun a => memNum s o.part a 8)
      if drop then
        { acts := .need x :: dropAll (spawnPages s o.part ws) ++
            (addrs.filter (fun a => memNum s o.part a 8 % 2 == 1)).map (fun a => .clearEntry a) }
      else if ws.any (fun w => w % 2 == 1) then stopEff 0x42
      else { acts := .need x :: addrs.map (fun a => .newPage a) }

/-- The data effect of one entry of a Spawn operation. -/
def effSpawn (s : State) (o : Op) (x : Nat × List Nat) : Eff :=
  let named := namedBy (opByte s o) o x.1
  if !(numbersOk named) || hasRepeat named then stopEff 0x42
  else
    match o.desc.opc with
    | 0x40 => effBranchNew o x.2
    | 0x41 => effFork false s o x.1 x.2
    | 0x46 => effFork true s o x.1 x.2
    | 0x42 => effPrune s o x.1 x.2
    | 0x43 => effSelect s o x.1 x.2
    | 0x44 => effPages false s o x.1 x.2
    | _ => effPages true s o x.1 x.2

/-! ### Commit (R318 to R320) -/

/-- The net change of a page's count. -/
def netRef (acts : List SpawnAct) (page : Nat) : Int :=
  acts.foldl (fun a x => match x with
    | .addRef g n => if g = page then a + (n : Nat) else a
    | .dropRef g n => if g = page then a - (n : Nat) else a
    | _ => a) 0

/-- The pages whose counts a commit changes, each once (R320). -/
def touchedPages (acts : List SpawnAct) : List Nat :=
  acts.foldl (fun a x => match x with
    | .addRef g _ => insertAsc a g
    | .dropRef g _ => insertAsc a g
    | _ => a) []

/-- 0, or the status with which a commit fails: BRANCH_INVALID (R319), REFCOUNT_FULL (R331). -/
def commitStatus (s : State) (p : Nat) (acts : List SpawnAct) : Nat :=
  if acts.any (fun x => match x with
    | .need b => (branchOf? s p b).isNone
    | _ => false) then 0x45
  else if (touchedPages acts).any (fun g => decide (16777215 < (refsOf s g : Int) + netRef acts g)) then 0x46
  else 0

/-- One change of the table (R314, R321 to R323, R328, R330). -/
def commitAct (p id : Nat) (s : State) (x : SpawnAct) : State :=
  match x with
  | .create numAddr mapAddr e =>
    let b := lowestBranch s p
    let s := { s with spawn := { s.spawn with branches := tabPut s.spawn.branches b ⟨p, mapAddr, e⟩ } }
    storeBytes s p id numAddr (leBytes 4 b)
  | .remove b => { s with spawn := { s.spawn with branches := tabDel s.spawn.branches b } }
  | .newPage a =>
    let g := lowestPage s p
    storeBytes (setRefs s g 1) p id a (leBytes 8 (g * 65536 + 3))
  | .clearEntry a => storeBytes s p id a (leBytes 8 0)
  | _ => s

/-- The count of a page after a commit; a page that returns to the pool has unspecified contents (R333). -/
def commitRef (p : Nat) (acts : List SpawnAct) (s : State) (g : Nat) : State :=
  let n := ((refsOf s g : Int) + netRef acts g).toNat
  if n = 0 ∧ refsOf s g ≠ 0 then freeRegion (setRefs s g 0) p (g * 65536) 65536 else setRefs s g n

/-- The commit of an operation (R318): its children are created before its parent is removed, its pages allocated before
others return. -/
def spawnCommit (s : State) (o : Op) : State :=
  (touchedPages o.commits).foldl (commitRef o.part o.commits) (o.commits.foldl (commitAct o.part o.id) s)

/-- Every branch, count and reservation of a partition freed (Table BOOT-2). -/
def freeSpawn (s : State) (p : Nat) : State :=
  { s with spawn := { branches := s.spawn.branches.filter (fun b => b.2.part != p)
                      refs := s.spawn.refs.filter (fun r => !(inPool s p r.1)) } }

/-! ### Copy-on-write (R324 to R326) -/

/-- One target page examined: its word at an entry address, and, where it is shared, the copy made: the count lowered, the
lowest free page taken. Nothing where the pool lacks a page. -/
def cowOne (p : Nat) (acc : Option (State × List (Nat × Nat × Nat))) (x : Nat × Nat) :
    Option (State × List (Nat × Nat × Nat)) :=
  match acc with
  | none => none
  | some (s, copies) =>
    let g := x.2 / 65536
    if x.2 % 4 = 3 ∧ inPool s p g ∧ 1 < refsOf s g then
      if spoolFree s p ≤ reservedPagesOf s p then none
      else
        let new := lowestPage s p
        some (setRefs (setRefs s g (refsOf s g - 1)) new 1, copies ++ [(x.1, g, new)])
    else some (s, copies)

/-- The copies of a list of targets (entry address, word): all of them, or none. -/
def cowPlan (s : State) (p : Nat) (targets : List (Nat × Nat)) : Option (State × List (Nat × Nat × Nat)) :=
  targets.foldl (cowOne p) (some (s, []))

/-! ### The commands -/

/-- BRANCH_NEW (R323). -/
def execBranchNew (op : Nat) (s : State) : Host.Outcome State Fault Refusal := .next (runOp 0x40 false entriesOf effSpawn op s)

/-- FORK (R321). -/
def execFork (op : Nat) (s : State) : Host.Outcome State Fault Refusal := .next (runOp 0x41 false entriesOf effSpawn op s)

/-- FORK_RETIRE (R322). -/
def execForkRetire (op : Nat) (s : State) : Host.Outcome State Fault Refusal := .next (runOp 0x46 false entriesOf effSpawn op s)

/-- PRUNE (R328). -/
def execPrune (op : Nat) (s : State) : Host.Outcome State Fault Refusal := .next (runOp 0x42 false entriesOf effSpawn op s)

/-- SELECT (R329). -/
def execSelect (op : Nat) (s : State) : Host.Outcome State Fault Refusal := .next (runOp 0x43 false entriesOf effSpawn op s)

/-- PAGE_ALLOC (R330). -/
def execPageAlloc (op : Nat) (s : State) : Host.Outcome State Fault Refusal := .next (runOp 0x44 false entriesOf effSpawn op s)

/-- PAGE_DROP (R330). -/
def execPageDrop (op : Nat) (s : State) : Host.Outcome State Fault Refusal := .next (runOp 0x45 false entriesOf effSpawn op s)

end Sys2Proof.Machine
end

