-- ==== Sys2Proof/Machine/Attention.lean ====
section
/-! DEFINITION. Attention, rotary codes and key/value pages (spec/12 R264 to R288). -/

namespace Sys2Proof.Machine

open Sys2Proof

/-- What the issue of one pointer-list entry finds: a failing status, whether FAULT_ENTRY names the entry, the pieces it
addresses, its parameter block and what it points to, its page map words. -/
structure EntryPlan where
  status : Nat := 0
  named : Bool := true
  pieces : Pieces := {}
  block : List Byte := []
  pages : List Nat := []
  /-- Remote bytes that issue has to read first. -/
  needs : List (Nat × Nat) := []
deriving DecidableEq, Repr

/-- The internal answer "remote bytes are needed first": no status of Table OPS-9. -/
abbrev stNEED : Nat := 0x100

/-- A plan that fails. -/
def planFails (st : Nat) (named : Bool) : EntryPlan := { status := st, named := named }

/-- A plan that fails with what a read of `n` bytes at an address met: a status, or that they have to be fetched. -/
def planStops (st a n : Nat) : EntryPlan := { status := st, needs := if st = stNEED then [(a, n)] else [] }

/-- Bytes that issue reads for an operation of a partition (R203, R267): remote ones as they have landed (R379), a poisoned line
as MEM_ERROR. `t` holds what has landed. -/
def readBlock (s : State) (t : Tab Byte) (p a n : Nat) : Nat × List Byte :=
  if space a = 4 then
    let b := (List.range n).filterMap (fun i => tabGet? t (a + i))
    if b.length = n then (0, b) else (stNEED, [])
  else if touchesPoison s a n then (stMEM_ERROR, [])
  else (0, issueBytes s p a n)

/-- What step 6 of Table OPS-5 checks of an entry once its parameter block, its group or the length of a parent is known: pointers used
under the block; addresses in it, which must be laid out as Table MEM-2 or R367 says, with those of them that must be 64-byte aligned;
regions; remote bytes that have to be fetched first. -/
structure Late where
  ptrs : List Nat := []
  laidOut : List Nat := []
  pieces : Pieces := {}
  needs : List (Nat × Nat) := []
deriving DecidableEq, Repr

/-- What step 6 knows of an entry through bytes that it can read; bytes on a poisoned line say nothing, and the chapter's own read
ends the operation. -/
def lateBy (b : Nat × List Byte) (a n : Nat) (f : List Byte → Late) : Late :=
  if b.1 = stNEED then { needs := [(a, n)] } else if b.1 ≠ 0 then {} else f b.2

/-! ### The parameter block (Table ATTN-2) -/

structure AttnParams where
  qpos0 : Nat
  window : Nat
  gcount : Nat
  causal : Bool
  rotPair : Nat
  rotK : Bool
  mode : Nat
  rotPairs : Nat
  rotBase : Nat
  glist : Nat
  kpos0 : Nat
  globals : List Nat
deriving DecidableEq, Repr

/-- A block of 64 bytes, followed by its global list as read at issue. -/
def attnParams (b : List Byte) : AttnParams :=
  let f := numAt b 10 1
  let g := numAt b 8 2
  { qpos0 := numAt b 0 4, window := numAt b 4 4, gcount := g, causal := f.testBit 0, rotPair := field f 2 1,
    rotK := f.testBit 3, mode := field f 5 4, rotPairs := numAt b 11 1, rotBase := numAt b 12 4, glist := numAt b 16 8,
    kpos0 := numAt b 24 4, globals := (List.range (min g 64)).map (fun i => numAt b (64 + 4 * i) 4) }

/-- Rotated pairs P: 0 means D / 2. -/
def rotCount (a : AttnParams) (d : Nat) : Nat := if a.rotPairs = 0 then d / 2 else a.rotPairs

/-- A rotary base finite and greater than 1. -/
def rotBaseOk (w : Nat) : Bool := let v := f32Of w; isFinite v && flt fone v

/-- The rotary fields (R268): no reserved encoding, 2P at most D; the base counts while ROT_PAIR is not none. -/
def rotOk (a : AttnParams) (d : Nat) : Bool :=
  a.rotPair != 3 && decide (a.rotPairs ≤ 128) && (a.rotPair == 0 || rotBaseOk a.rotBase) && decide (2 * rotCount a d ≤ d)

/-- The checks of R268 that every operation with a parameter block of Table ATTN-2 makes. -/
def blockOk (a : AttnParams) (m n k : Nat) : Bool :=
  rotOk a k && decide (a.gcount ≤ 64) && decide (a.qpos0 + m ≤ 2 ^ 24 ∧ a.kpos0 + n ≤ 2 ^ 24) && ascending a.globals

/-- A score scale that R268 accepts. -/
def scaleOk (w : Nat) : Bool := let v := f32Of w; isFinite v && !(isZero v)

/-- R268 for ATTN and ATTN_SCORE. -/
def attnParamsOk (d : Desc) (a : AttnParams) (m n k : Nat) : Bool :=
  blockOk a m n k && (d.opc != 0x20 || a.mode != 3) && scaleOk d.tailScale

/-! ### Pages (R281, R282) -/

/-- A page format. -/
def pageFmtOk (f : Nat) : Bool := f == 1 || f == 2 || f == 4 || f == 5 || f == 6

/-- The least power of two that is at least `n`, for n up to 2^12. -/
def pow2Up (n : Nat) : Nat := ((List.range 13).map (fun i => 2 ^ i)).find? (fun x => decide (n ≤ x)) |>.getD 4096

/-- Slot size SL, and positions a page PPP. -/
def slotSize (d fmt : Nat) : Nat := max 64 (pow2Up (d * elemBytes fmt))
def pagePos (d fmt : Nat) : Nat := 32768 / slotSize d fmt

/-- Addresses of the key row and the value row of key index `i` in its page. -/
def keyRowAt (page d fmt i : Nat) : Nat := page + i % pagePos d fmt * slotSize d fmt
def valRowAt (page d fmt i : Nat) : Nat := page + 32768 + i % pagePos d fmt * slotSize d fmt

/-- The page that a map word names. -/
def pageOf (w : Nat) : Nat := w / 65536 * 65536

/-! ### The key set (R269, R270) -/

/-- Whether key position `q` belongs to the key set of position `p`. -/
def inKeySet (a : AttnParams) (p q : Nat) : Bool :=
  let win := if a.window = 0 then (!a.causal || decide (q ≤ p))
    else if a.causal then decide (p < q + a.window ∧ q ≤ p)
    else decide (p < q + a.window ∧ q < p + a.window)
  win || (a.globals.contains q && (!a.causal || decide (q ≤ p)))

/-- Whether key index `i` is in the key set of query row `r`. -/
def attends (a : AttnParams) (n r i : Nat) : Bool := decide (i < n) && inKeySet a (a.qpos0 + r) (a.kpos0 + i)

/-- The present rows of query group `g`. -/
def groupRows (m g : Nat) : List Nat := (List.range (min 64 (m - 64 * g))).map (fun r => 64 * g + r)

/-- The visited key blocks of a query group, ascending (R270). -/
def visited (a : AttnParams) (m n g : Nat) : List Nat :=
  (List.range (ceilDiv n 32)).filter (fun b =>
    (groupRows m g).any (fun r => (List.range 32).any (fun i => attends a n r (32 * b + i))))

/-- Query groups of an entry. -/
def groupsOf (m : Nat) : Nat := ceilDiv m 64

/-- Every block visited by an entry. -/
def visitedAll (a : AttnParams) (m n : Nat) : List Nat :=
  (List.range (ceilDiv n 32)).filter (fun b => (List.range (groupsOf m)).any (fun g => (visited a m n g).contains b))

/-! ### Issue -/

/-- Step 3 (R273, R277, R278, R281). -/
def encAttn (d : Desc) : Nat :=
  if d.tail ≠ 0 then 0x40
  else
    let ok := match d.opc with
      | 0x20 => fmtOk d.fmt0 && pageFmtOk d.fmt1 && fmtOk d.fmt2
      | 0x21 => fmtOk d.fmt0 && pageFmtOk d.fmt1 && decide (d.fmt2 < 3)
      | 0x22 => decide (d.fmt0 < 3) && fmtOk d.fmt1
      | 0x23 => d.fmt0 == 0 && d.fmt1 == 0 && d.fmt2 == 0
      | 0x24 => d.fmt0 == 0 && fmtOk d.fmt1
      | _ => fmtOk d.fmt0 && fmtOk d.fmt1 && pageFmtOk d.fmt2
    if ok then 0 else 0x41

/-- Head sizes: 16 to 256 in steps of 16, equal to the K extent of CAP (R265). -/
def headOk (d : Desc) (k : Nat) : Bool :=
  d.opc == 0x22 || (k == boundK d.cap && k % 16 == 0 && decide (16 ≤ k ∧ k ≤ 256))

/-- Pitch of a partial state's vectors, and the address of a row's record (R273). -/
def statePitch (d : Desc) : Nat := pitchOf (boundK d.cap) 0
def stateRec (d : Desc) (base r : Nat) : Nat := base + boundM d.cap * statePitch d + 8 * r

/-- Pieces of a partial state. -/
def statePieces (d : Desc) (base m k : Nat) : List (Nat × Nat) :=
  if m = 0 then [] else rowPieces base m (statePitch d) (4 * k) ++ [(stateRec d base 0, 8 * m)]

/-- The pieces that step 6 can check before the parameter block is read. -/
def piecesAttn (d : Desc) (m n k : Nat) (e : List Nat) : Pieces :=
  match d.opc with
  | 0x20 => { reads := matPieces (ptr e 0) m k (boundK d.cap) d.fmt0 ++ [(ptr e 3, 64)],
              writes := matPieces (ptr e 2) m k (boundK d.cap) d.fmt2 }
  | 0x21 => { reads := (if n = 0 then [] else matPieces (ptr e 0) m k (boundK d.cap) d.fmt0) ++ [(ptr e 3, 64)],
              writes := matPieces (ptr e 2) m n (boundN d.cap) d.fmt2 }
  | 0x22 => { reads := matPieces (ptr e 0) m n (boundN d.cap) d.fmt0,
              writes := matPieces (ptr e 1) m n (boundN d.cap) d.fmt1 }
  | 0x23 => { reads := statePieces d (ptr e 0) m k ++ statePieces d (ptr e 1) m k, writes := statePieces d (ptr e 2) m k }
  | 0x24 => { reads := statePieces d (ptr e 0) m k, writes := matPieces (ptr e 1) m k (boundK d.cap) d.fmt1 }
  | _ => { reads := matPieces (ptr e 0) m k (boundK d.cap) d.fmt0 ++ matPieces (ptr e 1) m k (boundK d.cap) d.fmt1 ++
             [(ptr e 3, 64)] }

/-- A page an operation may use: SPACE 0 or 1, within the partition (R283). -/
def pageUsable (s : State) (p w : Nat) : Bool :=
  (space (pageOf w) == 0 || space (pageOf w) == 1) && within s p (pageOf w) 65536

/-- One map entry's word at issue: its status and value; a map outside the partition is denied, a remote one read by
READ_REQ (R379), a poisoned line MEM_ERROR. -/
def readMapWord (s : State) (t : Tab Byte) (p opc a : Nat) : Nat × Nat :=
  let st := if space a = 4 then remoteRead s p opc a else if within s p a 8 then 0 else stACCESS_DENIED
  if st ≠ 0 then (st, 0)
  else
    let b := readBlock s t p a 8
    (b.1, leNat b.2)

/-- The map words of a list of map entries, and the first failure among them: a map outside the partition, a poisoned line of
it, an absent page, a page outside the partition (R267, R283). Answers the status, where it arose, the words. -/
def readMap (s : State) (t : Tab Byte) (p opc base : Nat) : List Nat → Nat × Nat × List Nat
  | [] => (0, 0, [])
  | j :: r =>
    let a := base + 8 * j
    let w := readMapWord s t p opc a
    if w.1 ≠ 0 then (w.1, a, [])
    else if w.2 % 2 = 0 then (0x43, a, [])
    else if !(pageUsable s p w.2) then (stACCESS_DENIED, a, [])
    else
      let x := readMap s t p opc base r
      (x.1, x.2.1, w.2 :: x.2.2)

/-- The map entries that cover a list of blocks of 32 key indices, each once, ascending. -/
def mapEntriesOf (ppp : Nat) (blocks : List Nat) : List Nat := blocks.foldl (fun a b => insertAsc a (32 * b / ppp)) []

/-- The page words held for an operation: entry numbers and words in turn. -/
def interleave : List Nat → List Nat → List Nat
  | j :: js, w :: ws => j :: w :: interleave js ws
  | _, _ => []

/-- The word held for a map entry. -/
def heldWord : List Nat → Nat → Nat
  | j :: w :: r, i => if j = i then w else heldWord r i
  | _, _ => 0

/-- The pieces of the key rows, and of the value rows where wanted, that an entry reads. -/
def kvPieces (d : Desc) (vals : Bool) (n k : Nat) (held : List Nat) (blocks : List Nat) : List (Nat × Nat) :=
  let ppp := pagePos k d.fmt1
  blocks.flatMap (fun b => ((List.range 32).filter (fun i => decide (32 * b + i < n))).flatMap (fun i =>
    let page := pageOf (heldWord held (32 * b / ppp))
    let key := (keyRowAt page k d.fmt1 (32 * b + i), k * elemBytes d.fmt1)
    if vals then [key, (valRowAt page k d.fmt1 (32 * b + i), k * elemBytes d.fmt1)] else [key]))

/-- A global list as step 6 has found it. -/
def readGlobals (s : State) (t : Tab Byte) (p a g : Nat) : Nat × List Byte := if g = 0 then (0, []) else readBlock s t p a (4 * g)

/-- A parameter block followed by its global list, or the plan that stops at one of them (R267). -/
def readAttnBlock (s : State) (t : Tab Byte) (p a : Nat) : Except EntryPlan (List Byte) :=
  let b := readBlock s t p a 64
  if b.1 ≠ 0 then .error (planStops b.1 a 64)
  else
    let x := attnParams b.2
    let g := readGlobals s t p x.glist (min 64 x.gcount)
    if g.1 ≠ 0 then .error (planStops g.1 x.glist (4 * min 64 x.gcount)) else .ok (b.2 ++ g.2)

/-- The map entries that an entry needs: of every visited block, or of every position appended. -/
def mapNeeds (d : Desc) (a : AttnParams) (m n k : Nat) : List Nat :=
  if d.opc = 0x28 then
    let ppp := pagePos k d.fmt2
    if m = 0 then [] else (List.range ((n + m - 1) / ppp + 1 - n / ppp)).map (fun i => n / ppp + i)
  else mapEntriesOf (pagePos k d.fmt1) (visitedAll a m n)

/-- The partial states that ATTN writes and reads at P2 under its MODE (R273). -/
def stateOuts (d : Desc) (a : AttnParams) (m k : Nat) (e : List Nat) : List (Nat × Nat) :=
  if d.opc = 0x20 ∧ (a.mode = 1 ∨ a.mode = 2) then statePieces d (ptr e 2) m k else []
def stateIns (d : Desc) (a : AttnParams) (m k : Nat) (e : List Nat) : List (Nat × Nat) :=
  if d.opc = 0x20 ∧ a.mode = 2 then statePieces d (ptr e 2) m k else []

/-- Step 6 of ATTN, ATTN_SCORE and KV_APPEND: global list, partial states, map entries. -/
def lateAttn (s : State) (t : Tab Byte) (p : Nat) (d : Desc) (m n k : Nat) (e : List Nat) : Late :=
  lateBy (readBlock s t p (ptr e 3) 64) (ptr e 3) 64 (fun b =>
    let a := attnParams b
    let g := min 64 a.gcount
    let own : Late := { ptrs := if g = 0 then [] else [a.glist]
                        pieces := { reads := (if g = 0 then [] else [(a.glist, 4 * g)]) ++ stateIns d a m k e, writes := stateOuts d a m k e } }
    let gs := if a.glist % 64 = 0 ∧ (space a.glist = 4 ∨ within s p a.glist (4 * g)) then readGlobals s t p a.glist g else (stMEM_ERROR, [])
    let r := lateBy gs a.glist (4 * g) (fun gb =>
      let js := (mapNeeds d (attnParams (b ++ gb)) m n k).map (fun j => (ptr e (if d.opc = 0x28 then 2 else 1) + 8 * j, 8))
      { pieces := if d.opc = 0x28 then { writes := js } else { reads := js } })
    { own with needs := r.needs, pieces := { reads := own.pieces.reads ++ r.pieces.reads, writes := own.pieces.writes ++ r.pieces.writes } })

/-- ATTN and ATTN_SCORE of one entry at issue (R267, R268, R270, R273, R283). -/
def planAttn (s : State) (t : Tab Byte) (p : Nat) (d : Desc) (m n k : Nat) (e : List Nat) : EntryPlan :=
  match readAttnBlock s t p (ptr e 3) with
  | .error pl => pl
  | .ok blk =>
    let a := attnParams blk
    if !(attnParamsOk d a m n k) then planFails 0x42 false
    else if d.opc = 0x20 ∧ a.mode ≠ 0 ∧ d.fmt2 ≠ 0 then planFails 0x41 false
    else
      let js := mapNeeds d a m n k
      let mp := readMap s t p d.opc (ptr e 1) js
      if mp.1 ≠ 0 then planStops mp.1 mp.2.1 8
      else
        let held := interleave js mp.2.2
        let base := piecesAttn d m n k e
        { pieces := { reads := base.reads.filter (fun x => x != (ptr e 3, 64)) ++ stateIns d a m k e ++
                        kvPieces d (d.opc == 0x20) n k held (visitedAll a m n)
                      writes := if d.opc = 0x20 ∧ a.mode ≠ 0 then stateOuts d a m k e else base.writes }
          block := blk, pages := held }

/-- The slots that an append writes, with the page of each map entry given. -/
def appendSlots (d : Desc) (m n k : Nat) (page : Nat → Nat) : List (Nat × Nat) :=
  (List.range m).flatMap (fun r =>
    let pg := page ((n + r) / pagePos k d.fmt2)
    [(keyRowAt pg k d.fmt2 (n + r), slotSize k d.fmt2), (valRowAt pg k d.fmt2 (n + r), slotSize k d.fmt2)])

/-- KV_APPEND of one entry at issue. -/
def planAppend (s : State) (t : Tab Byte) (p : Nat) (d : Desc) (m n k : Nat) (e : List Nat) : EntryPlan :=
  match readAttnBlock s t p (ptr e 3) with
  | .error pl => pl
  | .ok blk =>
    if !(blockOk (attnParams blk) m n k) then planFails 0x42 false
    else
      let js := mapNeeds d (attnParams blk) m n k
      let mp := readMap s t p d.opc (ptr e 2) js
      if mp.1 ≠ 0 then planFails mp.1 true
      else
        let held := interleave js mp.2.2
        { pieces := { reads := (piecesAttn d m n k e).reads.filter (fun x => x != (ptr e 3, 64)),
                      writes := appendSlots d m n k (fun j => pageOf (heldWord held j)) },
          block := blk, pages := held }

/-- Working sets (R287). -/
def wsAttn (opc prec k fmt1 : Nat) : Nat :=
  if opc = 0x20 ∨ opc = 0x21 then
    128 * slotSize k fmt1 + 64 * k * loadedBytes prec + 256 * k + 512 + 8192
  else 131072

/-- Tiles of ATTN and ATTN_SCORE in all entries: one for each visited block of each query group (R286); of the other
operations, for which the chapter gives none, 16 rows of one entry (DESIGN CHOICE, log 70). -/
def tilesAttn (opc : Nat) (blocks : List (List Byte)) (lcount m n : Nat) : Nat :=
  if opc = 0x20 ∨ opc = 0x21 then
    blocks.foldl (fun t b => (List.range (groupsOf m)).foldl (fun u g => u + (visited (attnParams b) m n g).length) t) 0
  else lcount * ceilDiv m 16

/-! ### Loading rows (R279, R280) -/

/-- Element `c` of a row at position `t`, rotated in binary32. -/
def rotElem (a : AttnParams) (k t : Nat) (el : Nat → FVal) (c : Nat) : FVal :=
  let pn := rotCount a k
  let base := f32Of a.rotBase
  if 2 * pn ≤ c then el c
  else if a.rotPair = 1 then
    let i := c / 2
    let r := rotatePair t i pn base (el (2 * i)) (el (2 * i + 1))
    if c % 2 = 0 then r.1 else r.2
  else if c < pn then (rotatePair t c pn base (el c) (el (c + pn))).1
  else (rotatePair t (c - pn) pn base (el (c - pn)) (el c)).2

/-- A row of `k` elements of a format at an address, loaded to the effective precision, its pairs rotated where asked: the
elements from 2P on pass unchanged (R279). -/
def loadRow (ld : Nat → Byte) (t : LFmt) (a : AttnParams) (rot : Bool) (k pos addr fmt : Nat) : List LVal :=
  let el := fun c => elemAt ld (addr + c * elemBytes fmt) fmt
  (List.range k).map (fun c =>
    if rot && decide (c < 2 * rotCount a k) then linToLog t (rotElem a k pos (fun i => loadElem fmt (el i)) c)
    else loadLog t fmt (el c))

/-! ### Scores, softmax and the running state (R271, R274) -/

/-- The running state of a row. -/
structure RowState where
  m : FVal := .inf true
  l : FVal := fzero
  a : List FVal
deriving DecidableEq, Repr

/-- The merge of states 1 and 2 (R274). -/
def mergeRow (x y : RowState) : RowState :=
  let m := fmax x.m y.m
  if m = .inf true then { m := m, l := fzero, a := x.a.map (fun _ => fzero) }
  else
    let a1 := rillExp (fsub x.m m)
    let a2 := rillExp (fsub y.m m)
    { m := m, l := fadd (fmul a1 x.l) (fmul a2 y.l),
      a := (x.a.zip y.a).map (fun v => fadd (fmul a1 v.1) (fmul a2 v.2)) }

/-- A product of two loaded rows, slice by slice; `tile` is the index of its first wavefront (R286). -/
def dotRows (prec seed tile row col k : Nat) (x y : List LVal) : FVal :=
  let ks := kSlice prec
  accumulate (logOfPrec prec) ks seed tile row col k (fun i => x.getD i .zero) (fun i => y.getD i .zero) (ceilDiv k ks) 0 fzero

/-- Wavefronts of one tile's scores: two column blocks of 16 keys by the K slices of D. -/
def scoreWaves (prec k : Nat) : Nat := 2 * ceilDiv k (kSlice prec)

/-- Wavefronts of a whole tile (R286). -/
def tileWaves (opc prec k : Nat) : Nat :=
  scoreWaves prec k + (if opc = 0x20 then k / 16 * (32 / kSlice prec) else 0)

/-- The masked score of a query row against key `kk` of a block. -/
def scoreOf (o : Op) (a : AttnParams) (w r b kk : Nat) (q : List LVal) (keys : List (List LVal)) : FVal :=
  if attends a o.n r (32 * b + kk) then
    let tile := w + kk / 16 * ceilDiv o.k (kSlice o.precision)
    fmul (f32Of o.desc.tailScale) (dotRows o.precision o.desc.seed tile r kk o.k q (keys.getD kk []))
  else .inf true

/-- The key rows of a block, absent keys empty (R217). -/
def blockKeys (ld : Nat → Byte) (o : Op) (a : AttnParams) (held : List Nat) (b : Nat) : List (List LVal) :=
  let d := o.desc
  let page := pageOf (heldWord held (32 * b / pagePos o.k d.fmt1))
  (List.range 32).map (fun i =>
    if 32 * b + i < o.n then
      loadRow ld (logOfPrec o.precision) a (a.rotPair != 0 && a.rotK) o.k (a.kpos0 + (32 * b + i))
        (keyRowAt page o.k d.fmt1 (32 * b + i)) d.fmt1
    else [])

/-- Value element `c` of key `i` of a block, ZERO where the key is absent. -/
def blockVal (ld : Nat → Byte) (o : Op) (held : List Nat) (b c i : Nat) : LVal :=
  let d := o.desc
  let page := pageOf (heldWord held (32 * b / pagePos o.k d.fmt1))
  if 32 * b + i < o.n then
    loadLog (logOfPrec o.precision) d.fmt1
      (elemAt ld (valRowAt page o.k d.fmt1 (32 * b + i) + c * elemBytes d.fmt1) d.fmt1)
  else .zero

/-- The masked scores of a query row against the 32 keys of a block. -/
def blockScores (o : Op) (a : AttnParams) (w r b : Nat) (q : List LVal) (keys : List (List LVal)) : List FVal :=
  (List.range 32).map (fun kk => scoreOf o a w r b kk q keys)

/-- Whether a query row attends no key of a block. -/
def blockSkips (o : Op) (a : AttnParams) (r b : Nat) : Bool :=
  (List.range 32).all (fun kk => !(attends a o.n r (32 * b + kk)))

/-- The probabilities of a block's scores as the arrays take them: relative to their maximum. -/
def blockProbs (t : LFmt) (ss : List FVal) : List LVal :=
  ss.map (fun x => linToLog t (rillExp (fsub x (ss.foldl fmax (.inf true)))))

/-- One visited block worked for one row (R271): steps 1 to 6; a row without a key in it stays unchanged. `w` is the index of the tile's first wavefront. -/
def blockStep (ld : Nat → Byte) (o : Op) (a : AttnParams) (held : List Nat) (w r b : Nat) (q : List LVal)
    (keys : List (List LVal)) (st : RowState) : RowState :=
  let prec := o.precision
  let t := logOfPrec prec
  let ss := blockScores o a w r b q keys
  if blockSkips o a r b then st
  else
    let ps := blockProbs t ss
    let lb := (ps.map (logToLin t)).foldl fadd fzero
    let vs := 32 / kSlice prec
    let ab := (List.range o.k).map (fun c =>
      accumulate t (kSlice prec) o.desc.seed (w + scoreWaves prec o.k + c / 16 * vs) r c 32 (fun i => ps.getD i .zero)
        (blockVal ld o held b c) vs 0 fzero)
    mergeRow st { m := ss.foldl fmax (.inf true), l := lb, a := ab }

/-- A row of binary32 values at an address. -/
def f32Row (ld : Nat → Byte) (a k : Nat) : List FVal := (List.range k).map (fun c => f32Of (wordAt ld (a + 4 * c) 4))

/-- A partial state's row (R273). -/
def loadState (ld : Nat → Byte) (d : Desc) (base k r : Nat) : RowState :=
  { m := f32Of (wordAt ld (stateRec d base r) 4), l := f32Of (wordAt ld (stateRec d base r + 4) 4),
    a := f32Row ld (base + r * statePitch d) k }

/-- A row state written as a partial state. -/
def storeState (d : Desc) (base r : Nat) (x : RowState) : List (Nat × List Byte) × Bool :=
  let b := rowBytes 0 x.a
  ([(base + r * statePitch d, b.1), (stateRec d base r, leBytes 4 (fencode f32 x.m) ++ leBytes 4 (fencode f32 x.l))],
   b.2 || isNan x.m || isNan x.l)

/-- O = A × (1 / l), or +0.0 where l = 0 (R272, R276). The reciprocal, of l and of the sum of R278, is the Rill's of the tail RECIP,
within 2 ulp: the rules name no unit for it (DESIGN CHOICE, log 70). -/
def normRow (x : RowState) : List FVal :=
  if isZero x.l then x.a.map (fun _ => fzero) else (let r := rillRecip x.l; x.a.map (fun v => fmul v r))

/-- The wavefront index at which query group `g` of entry `idx` begins (R286). -/
def waveBase (o : Op) (idx g : Nat) : Nat :=
  let w := tileWaves o.desc.opc o.precision o.k
  let before := (o.blocks.take idx).foldl (fun t b =>
    (List.range (groupsOf o.m)).foldl (fun u g' => u + (visited (attnParams b) o.m o.n g').length) t) 0
  let here := (List.range g).foldl (fun u g' => u + (visited (attnParams (o.blocks.getD idx [])) o.m o.n g').length) 0
  (before + here) * w

/-- The query row `r` of an entry, loaded and rotated. -/
def queryRow (ld : Nat → Byte) (o : Op) (a : AttnParams) (e : List Nat) (r : Nat) : List LVal :=
  loadRow ld (logOfPrec o.precision) a (a.rotPair != 0) o.k (a.qpos0 + r)
    (ptr e 0 + r * pitchOf (boundK o.desc.cap) o.desc.fmt0) o.desc.fmt0

/-- The final state of query row `r` of entry `idx` (R271, R272). -/
def attnRow (ld : Nat → Byte) (o : Op) (idx : Nat) (e : List Nat) (r : Nat) : RowState :=
  let a := attnParams (o.blocks.getD idx [])
  let held := o.pages.getD idx []
  let q := queryRow ld o a e r
  let w := tileWaves o.desc.opc o.precision o.k
  let start : RowState := if a.mode = 2 then loadState ld o.desc (ptr e 2) o.k r
    else { a := List.replicate o.k fzero }
  ((visited a o.m o.n (r / 64)).zipIdx).foldl (fun st x =>
    blockStep ld o a held (waveBase o idx (r / 64) + x.2 * w) r x.1 q (blockKeys ld o a held x.1) st) start

/-- The tiles of ATTN and ATTN_SCORE in order (R286): entry, query group, the number of the visited block in it, the block. -/
def attnTiles (o : Op) : List (Nat × Nat × Nat × Nat) :=
  (List.range o.entries.length).flatMap (fun idx => (List.range (groupsOf o.m)).flatMap (fun g =>
    ((visited (attnParams (o.blocks.getD idx [])) o.m o.n g).zipIdx).map (fun x => (idx, g, x.2, x.1))))

/-- The wavefronts of a tile: the scores of two blocks of 16 keys, found transposed (R124, R271), then the products with the values.
A row that attends no key of the block takes part with ZERO. -/
def attnWaves (ld : Nat → Byte) (o : Op) (x : Nat × Nat × Nat × Nat) : List Wave :=
  let idx := x.1
  let b := x.2.2.2
  let e := o.entries.getD idx []
  let a := attnParams (o.blocks.getD idx [])
  let held := o.pages.getD idx []
  let ks := kSlice o.precision
  let nks := ceilDiv o.k ks
  let vs := 32 / ks
  let w := waveBase o idx x.2.1 + x.2.2.1 * tileWaves o.desc.opc o.precision o.k
  let keys := blockKeys ld o a held b
  let rows := groupRows o.m x.2.1
  let prob := fun r =>
    if blockSkips o a r b then [] else blockProbs (logOfPrec o.precision) (blockScores o a w r b (queryRow ld o a e r) keys)
  let scores := (List.range 2).flatMap (fun cb => (List.range nks).map (fun i =>
    { tile := w + cb * nks + i, size := min ks (o.k - i * ks), rows := rows
      cols := ((List.range 16).map (fun c => 16 * cb + c)).filter (fun c => decide (32 * b + c < o.n))
      act := fun r k => (queryRow ld o a e r).getD (i * ks + k) .zero, weight := fun k c => (keys.getD c []).getD (i * ks + k) .zero
      first := i == 0, last := i + 1 == nks }))
  let values := (List.range (o.k / 16)).flatMap (fun cb => (List.range vs).map (fun i =>
    { tile := w + scoreWaves o.precision o.k + cb * vs + i, size := ks, rows := rows
      cols := (List.range 16).map (fun c => 16 * cb + c)
      act := fun r k => (prob r).getD (i * ks + k) .zero, weight := fun k c => blockVal ld o held b c (i * ks + k)
      first := i == 0, last := i + 1 == vs }))
  if o.desc.opc = 0x20 then scores ++ values else scores

/-- ATTN of some rows of one entry. -/
def effAttnEntry (ld : Nat → Byte) (o : Op) (idx : Nat) (e : List Nat) (rs : List Nat) : Eff :=
  let d := o.desc
  let mode := (attnParams (o.blocks.getD idx [])).mode
  let rows := rs.map (fun r => (r, attnRow ld o idx e r))
  if mode = 0 then
    rowsEff (rows.map (fun x =>
      let b := rowBytes d.fmt2 (normRow x.2)
      ((ptr e 2 + x.1 * pitchOf (boundK d.cap) d.fmt2, b.1), b.2)))
  else
    let ws := rows.map (fun x => storeState d (ptr e 2) x.1 x.2)
    { writes := ws.flatMap (fun x => x.1), nar := ws.any (fun x => x.2) }

/-- ATTN_SCORE of some rows (R277): every key index below N, masked scores −∞. -/
def effScoreEntry (ld : Nat → Byte) (o : Op) (idx : Nat) (e : List Nat) (rs : List Nat) : Eff :=
  let d := o.desc
  let a := attnParams (o.blocks.getD idx [])
  let held := o.pages.getD idx []
  let w := tileWaves d.opc o.precision o.k
  if o.n = 0 then {}
  else
    rowsEff (rs.map (fun r =>
      let q := queryRow ld o a e r
      let vis := (visited a o.m o.n (r / 64)).zipIdx
      let ss := (List.range (ceilDiv o.n 32)).flatMap (fun b =>
        match vis.find? (fun x => x.1 == b) with
        | some x =>
          let keys := blockKeys ld o a held b
          (List.range 32).map (fun kk => scoreOf o a (waveBase o idx (r / 64) + x.2 * w) r b kk q keys)
        | none => List.replicate 32 (.inf true))
      let b := rowBytes d.fmt2 (ss.take o.n)
      ((ptr e 2 + r * pitchOf (boundN d.cap) d.fmt2, b.1), b.2)))

/-- ATTN_SOFTMAX of one row (R278). -/
def softmaxRow (xs : List FVal) : List FVal :=
  let m := xs.foldl fmax (.inf true)
  if m = .inf true then xs.map (fun _ => fzero)
  else
    let es := xs.map (fun x => rillExp (fsub x m))
    let r := rillRecip (es.foldl fadd fzero)
    es.map (fun x => fmul x r)

/-- ATTN_SOFTMAX of some rows. -/
def effSoftmaxEntry (ld : Nat → Byte) (o : Op) (e : List Nat) (rs : List Nat) : Eff :=
  let d := o.desc
  if o.n = 0 then {}
  else
    rowsEff (rs.map (fun r =>
      let b := rowBytes d.fmt1 (softmaxRow ((List.range o.n).map (matElem ld (ptr e 0) (boundN d.cap) d.fmt0 r)))
      ((ptr e 1 + r * pitchOf (boundN d.cap) d.fmt1, b.1), b.2)))

/-- ATTN_MERGE of some rows: each row of both inputs is read before that row is written (R275). -/
def effMergeEntry (ld : Nat → Byte) (o : Op) (e : List Nat) (rs : List Nat) : Eff :=
  let d := o.desc
  let ws := rs.map (fun r =>
    storeState d (ptr e 2) r (mergeRow (loadState ld d (ptr e 0) o.k r) (loadState ld d (ptr e 1) o.k r)))
  { writes := ws.flatMap (fun x => x.1), nar := ws.any (fun x => x.2) }

/-- ATTN_NORM of some rows (R276). -/
def effNormEntry (ld : Nat → Byte) (o : Op) (e : List Nat) (rs : List Nat) : Eff :=
  let d := o.desc
  rowsEff (rs.map (fun r =>
    let b := rowBytes d.fmt1 (normRow (loadState ld d (ptr e 0) o.k r))
    ((ptr e 1 + r * pitchOf (boundK d.cap) d.fmt1, b.1), b.2)))

/-- The units in which an operation of Table ATTN-1 reads and writes, in order: query groups (R286), single rows of a merge
(R275), tiles of 16 rows. -/
def attnUnits (o : Op) : List RowUnit :=
  rowUnits (if o.desc.opc = 0x20 ∨ o.desc.opc = 0x21 then 64 else if o.desc.opc = 0x23 then 1 else 16) o

/-- The data effect of one unit of the operations of Table ATTN-1 but KV_APPEND. -/
def effAttn (s : State) (o : Op) (u : RowUnit) : Eff :=
  let ld := opByte s o
  match o.desc.opc with
  | 0x20 => effAttnEntry ld o u.1 u.2.1 u.2.2
  | 0x21 => effScoreEntry ld o u.1 u.2.1 u.2.2
  | 0x22 => effSoftmaxEntry ld o u.2.1 u.2.2
  | 0x23 => effMergeEntry ld o u.2.1 u.2.2
  | _ => effNormEntry ld o u.2.1 u.2.2

/-! ### KV_APPEND (R284, R285, R324 to R326) -/

/-- One slot: a row in the page format, padded with zeros, and whether it holds a NaR or NaN. -/
def slotBytes (ld : Nat → Byte) (d : Desc) (a : AttnParams) (rot : Bool) (k pos addr fmt : Nat) : List Byte × Bool :=
  let el := fun c => elemAt ld (addr + c * elemBytes fmt) fmt
  let es := (List.range k).map (fun c =>
    if rot && decide (c < 2 * rotCount a k) then storeElem d.fmt2 (rotElem a k pos (fun i => loadElem fmt (el i)) c)
    else copyElem fmt d.fmt2 (el c))
  (slice (es.flatMap (fun x => leBytes (elemBytes d.fmt2) x.1)) 0 (slotSize k d.fmt2), es.any (fun x => x.2))

/-- The writes of one entry, to the pages as they stand after the copies. -/
def appendEntry (ld : Nat → Byte) (o : Op) (idx : Nat) (e : List Nat) (page : Nat → Nat) : Eff :=
  let d := o.desc
  let a := attnParams (o.blocks.getD idx [])
  let ppp := pagePos o.k d.fmt2
  let rows := (List.range o.m).map (fun r =>
    let i := o.n + r
    let pg := page (i / ppp)
    let kb := slotBytes ld d a (a.rotPair != 0) o.k (a.kpos0 + i) (ptr e 0 + r * pitchOf (boundK d.cap) d.fmt0) d.fmt0
    let vb := slotBytes ld d a false o.k 0 (ptr e 1 + r * pitchOf (boundK d.cap) d.fmt1) d.fmt1
    ([(keyRowAt pg o.k d.fmt2 i, kb.1), (valRowAt pg o.k d.fmt2 i, vb.1)], kb.2 || vb.2))
  { writes := rows.flatMap (fun x => x.1), nar := rows.any (fun x => x.2) }

/-- Map entry numbers held for an entry. -/
def heldEntries : List Nat → List Nat
  | j :: _ :: r => j :: heldEntries r
  | _ => []

/-- The map entries an append writes through, each address once with its word. -/
def appendTargets (s : State) (o : Op) : List (Nat × Nat) :=
  ((entriesOf o).flatMap (fun x => (heldEntries (o.pages.getD x.1 [])).map (fun j => ptr x.2 2 + 8 * j))).eraseDups.map
    (fun a => (a, memNum s o.part a 8))

/-- The slots of key indices below N that a page of map entry `j` covers (R325). -/
def carried (o : Op) (j : Nat) : Nat := min (pagePos o.k o.desc.fmt2) (o.n - j * pagePos o.k o.desc.fmt2)

/-- Map entry number of an entry address, by the entries of the operation. -/
def entryNumber (o : Op) (addr : Nat) : Nat :=
  (((entriesOf o).flatMap (fun x => (heldEntries (o.pages.getD x.1 [])).map (fun j => (ptr x.2 2 + 8 * j, j)))).find?
    (fun y => y.1 == addr)).elim 0 (fun y => y.2)

/-- One copy made (R325): the new page unspecified but for the carried slots; counted in SPOOL_COPIES. A copy is the address of
its map entry, the page copied, the new page. -/
def makeCopy (o : Op) (s : State) (c : Nat × Nat × Nat) : State :=
  let n := carried o (entryNumber o c.1) * slotSize o.k o.desc.fmt2
  let src := c.2.1 * 65536
  let dst := c.2.2 * 65536
  let kb := readBytes s src n
  let vb := readBytes s (src + 32768) n
  let s := freeRegion s o.part dst 65536
  let s := storeBytes (storeBytes s o.part o.id dst kb) o.part o.id (dst + 32768) vb
  wr s oSPOOL_COPIES (o.part + 1) (rd s oSPOOL_COPIES (o.part + 1) + 1)

/-- The map entry of a copy rewritten, once every copy is complete (R326). -/
def rewriteEntry (o : Op) (s : State) (c : Nat × Nat × Nat) : State :=
  storeBytes s o.part o.id c.1 (leBytes 8 (c.2.2 * 65536 + 3))

/-- The carried slots of a page touch a poisoned line. -/
def copyPoisoned (s : State) (o : Op) (c : Nat × Nat × Nat) : Bool :=
  let n := carried o (entryNumber o c.1) * slotSize o.k o.desc.fmt2
  touchesPoison s (c.2.1 * 65536) n || touchesPoison s (c.2.1 * 65536 + 32768) n

/-- The entry whose page to copy touches a poisoned line, for FAULT_ENTRY (R221). -/
def copyEntry (s : State) (o : Op) (copies : List (Nat × Nat × Nat)) : Nat :=
  match copies.find? (copyPoisoned s o) with
  | some c =>
    ((entriesOf o).find? (fun x => (heldEntries (o.pages.getD x.1 [])).any (fun j => ptr x.2 2 + 8 * j == c.1))).elim 0xFFFF (fun x => x.1)
  | none => 0xFFFF

/-- The page that a map entry of an entry names now. -/
def pageNow (s : State) (o : Op) (e : List Nat) (j : Nat) : Nat := pageOf (memNum s o.part (ptr e 2 + 8 * j) 8)

/-- One entry of an append, once the map entries stand. -/
def effAppend (s : State) (o : Op) (x : Nat × List Nat) : Eff := appendEntry (opByte s o) o x.1 x.2 (pageNow s o x.2)

/-- A page or map entry that the append writes lies where accesses wait now. -/
def appendHeld (s : State) (targets : List (Nat × Nat)) : Bool :=
  targets.any (fun x => memHeld s (x.1, 8) || memHeld s (pageOf x.2, 65536))

/-- KV_APPEND: the copies, the map entries, then every slot written whole, entry by entry; nothing where the pool lacks a page
(R284, R285, R324 to R326). -/
def runAppend (id : Nat) (s : State) : State :=
  match opOf? s id with
  | none => s
  | some o =>
    if opReady s o 0x28 && !(appendHeld s (appendTargets s o)) then
      if o.ins.any (fun r => touchesPoison s r.1 r.2) then
        endOpAt s o stMEM_ERROR (entryWhere o (fun r => touchesPoison s r.1 r.2))
      else
        match cowPlan s o.part (appendTargets s o) with
        | none => endOp s o 0x44
        | some (s', copies) =>
          if copies.any (copyPoisoned s o) then endOpAt s o stMEM_ERROR (copyEntry s o copies)
          else
            let t := copies.foldl (rewriteEntry o) (copies.foldl (makeCopy o) s')
            let x := runUnits effAppend (entriesOf o) t
              { o with outs := o.entries.flatMap (fun e => appendSlots o.desc o.m o.n o.k (pageNow t o e)) } {}
            finishEff x.1 x.2.1 x.2.2
    else s

/-! ### The commands -/

/-- ATTN (R271, R272). -/
def execAttn (op : Nat) (s : State) : Host.Outcome State Fault Refusal := .next (runOp 0x20 false attnUnits effAttn op s)

/-- ATTN_SCORE (R277). -/
def execAttnScore (op : Nat) (s : State) : Host.Outcome State Fault Refusal := .next (runOp 0x21 false attnUnits effAttn op s)

/-- ATTN_SOFTMAX (R278). -/
def execAttnSoftmax (op : Nat) (s : State) : Host.Outcome State Fault Refusal := .next (runOp 0x22 false attnUnits effAttn op s)

/-- ATTN_MERGE (R274, R275). -/
def execAttnMerge (op : Nat) (s : State) : Host.Outcome State Fault Refusal := .next (runOp 0x23 false attnUnits effAttn op s)

/-- ATTN_NORM (R276). -/
def execAttnNorm (op : Nat) (s : State) : Host.Outcome State Fault Refusal := .next (runOp 0x24 false attnUnits effAttn op s)

/-- KV_APPEND (R284, R285). -/
def execKvAppend (op : Nat) (s : State) : Host.Outcome State Fault Refusal := .next (runAppend op s)

end Sys2Proof.Machine
end

