-- ==== Sys2Proof/Machine/Recurrence.lean ====
section
/-! DEFINITION. Gated recurrence and scans: REC_CELL, REC_SCAN and SCAN_CARRY (spec/13 R291 to R311). -/

namespace Sys2Proof.Machine

open Sys2Proof

/-! ### Checks and the parameter block -/

/-- Gates G of a tail of Table REC-3, and the state columns in units of H. -/
def gateCount (tail : Nat) : Nat := if tail = 0x80 then 3 else if tail = 0x81 then 4 else 2
def stateParts (tail : Nat) : Nat := if tail = 0x81 then 2 else 1

/-- Step 3 of Table OPS-5 (R311). -/
def encRec (d : Desc) : Nat :=
  let tail := match d.opc with
    | 0x30 => decide (0x80 ≤ d.tail ∧ d.tail ≤ 0x82)
    | 0x31 => d.tail == 0 || d.tail == 0x83
    | _ => d.tail == 0
  if !tail then 0x40
  else if d.opc = 0x32 || (fmtOk d.fmt0 && fmtOk d.fmt1 && fmtOk d.fmt2) then 0 else 0x41

/-- The bounds that R293 accepts. -/
def recBoundsOk (d : Desc) (n : Nat) : Bool :=
  if d.opc = 0x30 then n == boundN d.cap && n % 16 == 0 && decide (16 ≤ n ∧ n ≤ 256) else decide (1 ≤ n ∧ n ≤ 16384)

structure RecParams where
  stateIn : Nat
  stateOut : Nat
  lg : Bool
  initZero : Bool
  outAll : Bool
  scanMode : Nat
  renorm : Nat
deriving DecidableEq, Repr

/-- The fields of Table REC-2. -/
def recParams (b : List Byte) : RecParams :=
  let f := numAt b 16 1
  { stateIn := numAt b 0 8, stateOut := numAt b 8 8, lg := f.testBit 0, initZero := f.testBit 1, outAll := f.testBit 2,
    scanMode := field f 4 3, renorm := numAt b 17 1 }

/-- Reserved fields zero, SCAN_MODE FULL or SUMMARY where it is used (R295). -/
def recParamsOk (opc : Nat) (b : List Byte) : Bool :=
  field (numAt b 16 1) 7 5 == 0 && numAt b 18 46 == 0 && (opc != 0x31 || decide ((recParams b).scanMode < 2))

/-- SUMMARY mode of REC_SCAN (R308). -/
def isSummary (opc : Nat) (a : RecParams) : Bool := opc == 0x31 && a.scanMode == 1

/-! ### The state buffer (R297) -/

/-- Rows that CAP gives a state buffer, columns of a row, and the extent its pitch follows. -/
def stCapRows (d : Desc) : Nat := if d.opc = 0x30 then boundM d.cap else 1
def stRows (d : Desc) (m : Nat) : Nat := if d.opc = 0x30 then m else 1
def stCols (d : Desc) (n : Nat) : Nat := if d.opc = 0x30 then stateParts d.tail * n else n
def stElem (lg : Bool) : Nat := if lg then 2 else 4
def stPitch (d : Desc) (lg : Bool) : Nat := roundUp (stCols d (boundN d.cap) * stElem lg) 64

/-- Address of a row's elements, and of its I32 scale after the rows of CAP. -/
def stRowAt (d : Desc) (lg : Bool) (base r : Nat) : Nat := base + r * stPitch d lg
def stScaleAt (d : Desc) (lg : Bool) (base r : Nat) : Nat := base + stCapRows d * stPitch d lg + 4 * r

/-- The pieces of a state buffer, row by row: elements, then scale. -/
def stPieces (d : Desc) (lg : Bool) (base m n : Nat) : List (Nat × Nat) :=
  (List.range (stRows d m)).flatMap (fun r =>
    (stRowAt d lg base r, stCols d n * stElem lg) :: (if lg then [(stScaleAt d lg base r, 4)] else []))

/-- The two binary32 rows of a summary, A first (R308). -/
def sumPieces (d : Desc) (base n : Nat) : List (Nat × Nat) :=
  [(base, 4 * n), (base + pitchOf (boundN d.cap) 0, 4 * n)]

/-! ### Issue (R294 to R296) -/

/-- The pieces that step 6 can check before the parameter block is read; SCAN_CARRY's block is that of its first entry. -/
def piecesRec (d : Desc) (first : Bool) (m n k : Nat) (e : List Nat) : Pieces :=
  let blk := [(ptr e 3, 64)]
  match d.opc with
  | 0x30 =>
    if m = 0 ∨ k = 0 then { reads := blk }
    else
      let g := gateCount d.tail
      let xp := pitchOf (g * boundN d.cap) d.fmt0
      let up := pitchOf (boundN d.cap) d.fmt1
      { reads := (List.range k).flatMap (fun t => rowPieces (ptr e 0 + t * boundM d.cap * xp) m xp (g * n * elemBytes d.fmt0)) ++
          (List.range g).flatMap (fun i => rowPieces (ptr e 1 + i * boundN d.cap * up) n up (n * elemBytes d.fmt1)) ++ blk }
  | 0x31 => { reads := matPieces (ptr e 0) m n (boundN d.cap) d.fmt0 ++ matPieces (ptr e 1) m n (boundN d.cap) d.fmt1 ++ blk }
  | _ => { reads := sumPieces d (ptr e 0) n ++ (if first then blk else []) }

/-- The pieces an entry's P2 takes with OUT_ALL. -/
def recOuts (d : Desc) (m n k : Nat) (e : List Nat) (a : RecParams) : List (Nat × Nat) :=
  if !a.outAll then []
  else
    let yp := pitchOf (boundN d.cap) d.fmt2
    match d.opc with
    | 0x30 => (List.range k).flatMap (fun t => rowPieces (ptr e 2 + t * boundM d.cap * yp) m yp (n * elemBytes d.fmt2))
    | 0x31 => if isSummary d.opc a then [] else rowPieces (ptr e 2) m yp (n * elemBytes d.fmt2)
    | _ => []

/-- Pieces whose bytes the issue of an entry reads: a failing status, remote bytes still needed, or the bytes. -/
def readHeld (s : State) (t : Tab Byte) (p opc : Nat) : List (Nat × Nat) → EntryPlan
  | [] => {}
  | x :: r =>
    let st := if space x.1 = 4 then remoteRead s p opc x.1 else if within s p x.1 x.2 then 0 else stACCESS_DENIED
    if st ≠ 0 then planFails st true
    else
      let b := readBlock s t p x.1 x.2
      if b.1 ≠ 0 then planStops b.1 x.1 x.2
      else
        let y := readHeld s t p opc r
        if y.status ≠ 0 then y else { y with block := b.2 ++ y.block }

/-- The incoming state of an entry as read at issue: nothing where INIT_ZERO or SUMMARY says that STATE_IN is not read. -/
def stateUnread (d : Desc) (a : RecParams) : Bool := a.initZero || isSummary d.opc a
def readStateIn (s : State) (t : Tab Byte) (p : Nat) (d : Desc) (m n : Nat) (a : RecParams) : EntryPlan :=
  if stateUnread d a then {} else readHeld s t p d.opc (stPieces d a.lg a.stateIn m n)

/-- The pieces that an entry writes: STATE_OUT, a carry of SCAN_CARRY, with OUT_ALL P2. -/
def recWrites (d : Desc) (m n k : Nat) (e : List Nat) (a : RecParams) : List (Nat × Nat) :=
  (if isSummary d.opc a then sumPieces d a.stateOut n else stPieces d a.lg a.stateOut m n) ++
    (if d.opc = 0x32 then stPieces d a.lg (ptr e 1) m n else []) ++ recOuts d m n k e a

/-- Step 6: the states that the block names, aligned and laid out whatever M is (R156), and what the entry writes. -/
def lateRec (s : State) (t : Tab Byte) (p : Nat) (d : Desc) (m n k : Nat) (e0 e : List Nat) : Late :=
  let at3 := ptr (if d.opc = 0x32 then e0 else e) 3
  lateBy (readBlock s t p at3 64) at3 64 (fun b =>
    let a := recParams b
    { ptrs := a.stateOut :: (if stateUnread d a then [] else [a.stateIn]) ++
        (if a.outAll && d.opc != 0x32 && !(isSummary d.opc a) then [ptr e 2] else [])
      pieces := { reads := if stateUnread d a then [] else stPieces d a.lg a.stateIn m n, writes := recWrites d m n k e a } })

/-- One entry at issue; `e0` is entry 0, whose parameter block SCAN_CARRY takes. -/
def planRec (s : State) (t : Tab Byte) (p : Nat) (d : Desc) (m n k : Nat) (e0 e : List Nat) : EntryPlan :=
  let at3 := ptr (if d.opc = 0x32 then e0 else e) 3
  let b := readBlock s t p at3 64
  if b.1 ≠ 0 then planStops b.1 at3 64
  else if !(recParamsOk d.opc b.2) then planFails 0x42 false
  else
    let a := recParams b.2
    let st := readStateIn s t p d m n a
    if st.status ≠ 0 then st
    else
      { pieces := { reads := (piecesRec d false m n k e).reads.filter (fun x => x != (ptr e 3, 64)), writes := recWrites d m n k e a },
        block := b.2 ++ st.block }

/-- Working sets (R310). -/
def wsRec (d : Desc) (prec : Nat) : Nat :=
  let cm := boundM d.cap
  let cn := boundN d.cap
  match d.opc with
  | 0x30 =>
    let g := gateCount d.tail
    g * cn * cn * loadedBytes prec + 8 * cm * (stateParts d.tail * cn) + 512 * g * cn + 8192
  | 0x31 => 32768 + 8 * cn + 8192
  | _ => 12 * cn + 8192

/-- Tiles (R304, R307, R309). -/
def tilesRec (opc lcount m n k : Nat) : Nat :=
  match opc with
  | 0x30 => lcount * k * ceilDiv m 64 * ceilDiv n 16
  | 0x31 => lcount * ceilDiv m 64 * ceilDiv n 16
  | _ => lcount

/-! ### State rows (R297 to R300) -/

/-- A row of state: binary32 values, or LG16 codes with the row's scale. -/
inductive RecRow where
  | wide (vs : List FVal)
  | lg (cs : List LVal) (e : Int)
deriving DecidableEq, Repr

/-- A signed 32-bit number. -/
def int32Of (w : Nat) : Int := if w < 2 ^ 31 then (w : Nat) else ((w : Nat) : Int) - 2 ^ 32

/-- A finite value times 2^e, rounded to binary32 (R301). -/
def fscale (v : FVal) (e : Int) : FVal :=
  match v with
  | .fin neg m x =>
    if m = 0 then .fin neg 0 0
    else if e > 1000 then .inf neg
    else if e < -1000 then .fin neg 0 0
    else fround f32 neg m (x + e)
  | v => v

/-- ⌊2^(26 + k / 2^f)⌋ with a sticky bit below it. -/
def pow2Sticky (f k : Nat) : Nat := 2 * pow2Search f (2 ^ (26 * 2 ^ f + k)) 26 (2 ^ 26) + (if k = 0 then 0 else 1)

/-- An LG16 code times 2^e in binary32, to nearest, ties to even (R298). -/
def lg16Val (x : LVal) (e : Int) : FVal :=
  match x with
  | .zero => fzero
  | .nar => openNan 5 fzero fzero
  | .val neg m =>
    let i := m / 512 + e
    if i > 200 then .inf neg
    else if i < -200 then .fin neg 0 0
    else fround f32 neg (pow2Sticky 9 (m % 512).toNat) (i - 27)

/-- The LG16 code of value × 2^−e (R298, R149). -/
def lg16Code (v : FVal) (e : Int) : LVal :=
  match v with
  | .fin neg m x => linToLog lg16 (.fin neg m (x - e))
  | v => linToLog lg16 v

/-- A row's values in binary32. -/
def rowVals : RecRow → List FVal
  | .wide vs => vs
  | .lg cs e => cs.map (fun c => lg16Val c e)

/-- New values stored in the mode of a row, with its current scale. -/
def rowKeep (r : RecRow) (vs : List FVal) : RecRow :=
  match r with
  | .wide _ => .wide vs
  | .lg _ e => .lg (vs.map (fun v => lg16Code v e)) e

/-- The largest magnitude field among codes that are neither ZERO nor NaR. -/
def largestMag : List LVal → Option Int
  | [] => none
  | .val _ m :: r => match largestMag r with
    | some k => some (max m k)
    | none => some m
  | _ :: r => largestMag r

/-- One code shifted down by 512 × c. -/
def renormCode (c : Int) (x : LVal) : LVal :=
  match x with
  | .val neg m => if m - 512 * c < -lg16.maxM then .zero else .val neg (m - 512 * c)
  | x => x

/-- Renormalisation of a row (R299, R300). -/
def renormRow (r : RecRow) : RecRow :=
  match r with
  | .wide vs => .wide vs
  | .lg cs e =>
    match largestMag cs with
    | none => .lg cs e
    | some m =>
      let c := m / 512
      if e + c < -(2 ^ 30) ∨ e + c > 2 ^ 30 - 1 then .lg (cs.map (fun _ => .nar)) (Config.lostScale e c)
      else .lg (cs.map (renormCode c)) (e + c)

/-- Whether a row holds a NaR or NaN (R151). -/
def rowNar : RecRow → Bool
  | .wide vs => vs.any isNan
  | .lg cs _ => cs.any (fun c => c == .nar)

/-- The bytes of a row, elements then scale, in the order of `stPieces`. -/
def rowData : RecRow → List (List Byte)
  | .wide vs => [vs.flatMap (fun v => leBytes 4 (fencode f32 v))]
  | .lg cs e => [cs.flatMap (fun c => leBytes 2 (lencode lg16 c)), leBytes 4 (e % 2 ^ 32).toNat]

/-- The zero state of `w` columns. -/
def zeroRow (lg : Bool) (w : Nat) : RecRow :=
  if lg then .lg (List.replicate w .zero) 0 else .wide (List.replicate w fzero)

/-- A row of `w` columns read from held bytes. -/
def rowOfBytes (lg : Bool) (w : Nat) (b : List Byte) : RecRow :=
  if lg then .lg ((List.range w).map (fun c => ldecode lg16 (numAt b (2 * c) 2))) (int32Of (numAt b (2 * w) 4))
  else .wide ((List.range w).map (fun c => f32Of (numAt b (4 * c) 4)))

/-- The incoming rows of an entry. -/
def stateRows (d : Desc) (m n : Nat) (blk : List Byte) : List RecRow :=
  let a := recParams blk
  let w := stCols d n
  let size := w * stElem a.lg + (if a.lg then 4 else 0)
  (List.range (stRows d m)).map (fun r =>
    if a.initZero || isSummary d.opc a then zeroRow a.lg w else rowOfBytes a.lg w (slice blk (64 + r * size) size))

/-- Rows written to a state buffer. -/
def rowWrites (d : Desc) (lg : Bool) (base m n : Nat) (rows : List RecRow) : List (Nat × List Byte) :=
  ((stPieces d lg base m n).map (fun x => x.1)).zip (rows.flatMap rowData)

/-- The incoming state written out unchanged (R293). -/
def carryWrites (d : Desc) (m n : Nat) (blk : List Byte) : List (Nat × List Byte) :=
  let a := recParams blk
  if a.initZero then rowWrites d a.lg a.stateOut m n (stateRows d m n blk)
  else
    let ps := stPieces d a.lg a.stateOut m n
    (ps.foldl (fun (acc : Nat × List (Nat × List Byte)) x => (acc.1 + x.2, acc.2 ++ [(x.1, slice blk acc.1 x.2)])) (64, [])).2

/-- The same as an effect: a NaR or NaN in the state is stored with it (R151). -/
def carryOver (d : Desc) (m n : Nat) (blk : List Byte) : Eff :=
  { writes := carryWrites d m n blk, nar := (stateRows d m n blk).any rowNar }

/-! ### REC_CELL (R301 to R304) -/

/-- The Rill's step of a gate tail: the new h and c. `x` and `rg` give X_g and R_g of the element. -/
def gateStep (tail : Nat) (x rg : Nat → FVal) (h c : FVal) : FVal × FVal :=
  let sg := fun g => fadd (x g) (rg g)
  match tail with
  | 0x80 =>
    let z := rillSigmoid (sg 0)
    let r := rillSigmoid (sg 1)
    let cc := rillTanh (fadd (x 2) (fmul r (rg 2)))
    (fadd (fmul z h) (fmul (fsub fone z) cc), c)
  | 0x81 =>
    let i := rillSigmoid (sg 0)
    let f := rillSigmoid (sg 1)
    let g := rillTanh (sg 2)
    let o := rillSigmoid (sg 3)
    let c' := fadd (fmul f c) (fmul i g)
    (fmul o (rillTanh c'), c')
  | _ =>
    let f := rillSigmoid (sg 0)
    let cc := rillTanh (sg 1)
    (fadd (fmul f h) (fmul (fsub fone f) cc), c)

/-- The state of a row as the arrays take it: binary32 converted, LG16 codes directly or narrowed (R301). -/
def rowActs (t : LFmt) (r : RecRow) (n : Nat) : List LVal :=
  match r with
  | .wide vs => (vs.take n).map (linToLog t)
  | .lg cs _ => (cs.take n).map (logToLog lg16 t)

/-- The scale of a row: 0 in WIDE mode. -/
def rowScale : RecRow → Int
  | .wide _ => 0
  | .lg _ e => e

/-- One step of one row: the new h values and c values. `w0` is the index of the first wavefront of the row group's tiles. -/
def cellRow (ld : Nat → Byte) (o : Op) (e : List Nat) (t r w0 : Nat) (row : RecRow) : List FVal × List FVal :=
  let d := o.desc
  let n := o.n
  let lf := logOfPrec o.precision
  let ks := kSlice o.precision
  let nks := ceilDiv n ks
  let g := gateCount d.tail
  let xp := pitchOf (g * boundN d.cap) d.fmt0
  let up := pitchOf (boundN d.cap) d.fmt1
  let acts := rowActs lf row n
  let vals := rowVals row
  let x := fun c i => loadElem d.fmt0 (elemAt ld (ptr e 0 + (t * boundM d.cap + r) * xp + (i * n + c) * elemBytes d.fmt0) d.fmt0)
  let u := fun c i j => loadLog lf d.fmt1 (elemAt ld (ptr e 1 + (i * boundN d.cap + j) * up + c * elemBytes d.fmt1) d.fmt1)
  let hc := (List.range n).map (fun c =>
    let rg := fun i =>
      let acc := accumulate lf ks d.seed (w0 + c / 16 * (g * nks) + i * nks) r c n (fun j => acts.getD j .zero) (u c i) nks 0 fzero
      match row with
      | .wide _ => acc
      | .lg _ sc => fscale acc sc
    gateStep d.tail (x c) rg (vals.getD c fzero) (vals.getD (n + c) fzero))
  (hc.map (fun y => y.1), if stateParts d.tail = 2 then hc.map (fun y => y.2) else [])

/-- One step of every row: new rows from the old ones, and what OUT_ALL writes. -/
def cellStep (ld : Nat → Byte) (o : Op) (idx : Nat) (e : List Nat) (a : RecParams) (t : Nat) (rows : List RecRow) :
    List RecRow × Eff :=
  let d := o.desc
  let nks := ceilDiv o.n (kSlice o.precision)
  let wpt := gateCount d.tail * nks
  let res := rows.zipIdx.map (fun x =>
    let w0 := ((idx * o.k + t) * ceilDiv o.m 64 + x.2 / 64) * ceilDiv o.n 16 * wpt
    (x.1, cellRow ld o e t x.2 w0 x.1, x.2))
  let new := res.map (fun x => rowKeep x.1 (x.2.1.1 ++ x.2.1.2))
  let new := if a.lg && a.renorm != 0 && (t + 1) % a.renorm == 0 then new.map renormRow else new
  let ys := if a.outAll then
      rowsEff (res.map (fun x =>
        let b := rowBytes d.fmt2 x.2.1.1
        ((ptr e 2 + (t * boundM d.cap + x.2.2) * pitchOf (boundN d.cap) d.fmt2, b.1), b.2)))
    else {}
  (new, ys)

/-- The steps of an entry from step `t` on: the last rows, and the writes. -/
def cellSteps (ld : Nat → Byte) (o : Op) (idx : Nat) (e : List Nat) (a : RecParams) :
    Nat → Nat → List RecRow → List RecRow × List Eff
  | 0, _, rows => (rows, [])
  | n + 1, t, rows =>
    let r := cellStep ld o idx e a t rows
    let q := cellSteps (seeing ld r.2.writes) o idx e a n (t + 1) r.1
    (q.1, r.2 :: q.2)

/-- The wavefronts of a tile of REC_CELL (R304): the K slices of each gate, for one step, one row group, one block of columns. -/
def cellWaves (ld : Nat → Byte) (o : Op) (tile : Nat) : List Wave :=
  let d := o.desc
  let nb := ceilDiv o.n 16
  let rb := ceilDiv o.m 64
  let cb := tile % nb
  let rg := tile / nb % rb
  let t := tile / (nb * rb) % o.k
  let idx := tile / (nb * rb * o.k)
  let e := o.entries.getD idx []
  let blk := o.blocks.getD idx []
  let lf := logOfPrec o.precision
  let ks := kSlice o.precision
  let nks := ceilDiv o.n ks
  let g := gateCount d.tail
  let rows := (cellSteps ld o idx e (recParams blk) t 0 (stateRows d o.m o.n blk)).1
  let up := pitchOf (boundN d.cap) d.fmt1
  (List.range g).flatMap (fun i => (List.range nks).map (fun j =>
    { tile := tile * (g * nks) + i * nks + j, size := min ks (o.n - j * ks)
      rows := (List.range (min 64 (o.m - 64 * rg))).map (fun r => 64 * rg + r)
      cols := (List.range (min 16 (o.n - 16 * cb))).map (fun c => 16 * cb + c)
      act := fun r k => (rowActs lf (rows.getD r (zeroRow false 0)) o.n).getD (j * ks + k) .zero
      weight := fun k c => loadLog lf d.fmt1 (elemAt ld (ptr e 1 + (i * boundN d.cap + (j * ks + k)) * up + c * elemBytes d.fmt1) d.fmt1)
      first := j == 0, last := j + 1 == nks }))

/-- Rows stored to STATE_OUT, renormalised first in LG16 mode (R300). -/
def storeRows (d : Desc) (lg : Bool) (base m n : Nat) (rows : List RecRow) : Eff :=
  let rows := rows.map renormRow
  { writes := rowWrites d lg base m n rows, nar := rows.any rowNar }

/-- REC_CELL of one entry. -/
def effCellEntry (ld : Nat → Byte) (o : Op) (idx : Nat) (e : List Nat) : Eff :=
  let blk := o.blocks.getD idx []
  let a := recParams blk
  if o.m = 0 then {}
  else if o.k = 0 then carryOver o.desc o.m o.n blk
  else
    let r := cellSteps ld o idx e a o.k 0 (stateRows o.desc o.m o.n blk)
    joinEff (r.2 ++ [storeRows o.desc a.lg a.stateOut o.m o.n r.1])

/-! ### REC_SCAN (R305 to R308) -/

/-- One round over the lanes at distance `d`, from the values of the previous round. -/
def scanRound (d : Nat) (ls : List (FVal × FVal)) : List (FVal × FVal) :=
  ls.zipIdx.map (fun x =>
    if x.2 < d then x.1
    else
      let p := ls.getD (x.2 - d) (fone, fzero)
      (fmul p.1 x.1.1, fadd (fmul x.1.1 p.2) x.1.2))

/-- The six rounds over 64 lanes; absent lanes take (1, +0.0) (R306). -/
def scanLanes (ls : List (FVal × FVal)) : List (FVal × FVal) :=
  let full := ls ++ List.replicate (64 - ls.length) (fone, fzero)
  [1, 2, 4, 8, 16, 32].foldl (fun a d => scanRound d a) full

/-- (a, b) of step `t`, channel `c` (Table REC-3, R302). -/
def scanElem (ld : Nat → Byte) (d : Desc) (e : List Nat) (c t : Nat) : FVal × FVal :=
  let x := matElem ld (ptr e 0) (boundN d.cap) d.fmt0 t c
  let y := matElem ld (ptr e 1) (boundN d.cap) d.fmt1 t c
  if d.tail = 0x83 then (let a := rillSigmoid x; (a, fmul (fsub fone a) y)) else (x, y)

/-- The combined lanes of the present steps of chunk `ch` of a channel. -/
def scanChunk (ld : Nat → Byte) (o : Op) (e : List Nat) (c ch : Nat) : List (FVal × FVal) :=
  let n := min 64 (o.m - 64 * ch)
  (scanLanes ((List.range n).map (fun j => scanElem ld o.desc e c (64 * ch + j)))).take n

/-- The value that leaves a chunk and enters the next, as the state buffer holds it (R298). -/
def keptState (lg : Bool) (sc : Int) (v : FVal) : FVal := if lg then lg16Val (lg16Code v sc) sc else v

/-- A tile of REC_SCAN (R307): every h of one chunk for one block of 16 channels, by channel. `hs` are the states that enter. -/
def scanTile (ld : Nat → Byte) (o : Op) (e : List Nat) (ch blk : Nat) (hs : List FVal) : List (List FVal) :=
  (List.range (min 16 (o.n - 16 * blk))).map (fun i =>
    let c := 16 * blk + i
    (scanChunk ld o e c ch).map (fun x => fadd (fmul x.1 (hs.getD c fzero)) x.2))

/-- What OUT_ALL writes of a tile. -/
def scanOut (o : Op) (e : List Nat) (ch blk : Nat) (cols : List (List FVal)) : Eff :=
  let d := o.desc
  rowsEff ((List.range (min 64 (o.m - 64 * ch))).map (fun j =>
    let b := rowBytes d.fmt2 (cols.map (fun x => x.getD j fzero))
    ((ptr e 2 + (64 * ch + j) * pitchOf (boundN d.cap) d.fmt2 + 16 * blk * elemBytes d.fmt2, b.1), b.2)))

/-- The tiles of a list of (chunk, block) in order, each reading what the earlier ones wrote: the states that leave the last
chunk, and the effects. -/
def scanTiles (o : Op) (e : List Nat) (a : RecParams) (sc : Int) :
    List (Nat × Nat) → (Nat → Byte) → List FVal → List FVal × List Eff
  | [], _, hs => (hs, [])
  | x :: r, ld, hs =>
    let cols := scanTile ld o e x.1 x.2 hs
    let ys := if a.outAll then scanOut o e x.1 x.2 cols else {}
    let lastChunk := decide (x.1 + 1 = ceilDiv o.m 64)
    let hs' := hs.zipIdx.map (fun h =>
      if h.2 / 16 = x.2 then
        let v := (cols.getD (h.2 % 16) []).getLastD h.1
        if lastChunk then v else keptState a.lg sc v
      else h.1)
    let t := scanTiles o e a sc r (seeing ld ys.writes) hs'
    (t.1, ys :: t.2)

/-- The composite of all steps of a channel: a later chunk's composite on the earlier one's (R308). -/
def scanSummary (ld : Nat → Byte) (o : Op) (e : List Nat) (c : Nat) : FVal × FVal :=
  match (List.range (ceilDiv o.m 64)).map (fun ch => (scanChunk ld o e c ch).getLastD (fone, fzero)) with
  | [] => (fone, fzero)
  | x :: r => r.foldl (fun a y => (fmul a.1 y.1, fadd (fmul y.1 a.2) y.2)) x

/-- REC_SCAN of one entry. -/
def effScanEntry (ld : Nat → Byte) (o : Op) (idx : Nat) (e : List Nat) : Eff :=
  let d := o.desc
  let blk := o.blocks.getD idx []
  let a := recParams blk
  if isSummary d.opc a then
    let ab := (List.range o.n).map (scanSummary ld o e)
    let ra := rowBytes 0 (ab.map (fun x => x.1))
    let rb := rowBytes 0 (ab.map (fun x => x.2))
    { writes := [(a.stateOut, ra.1), (a.stateOut + pitchOf (boundN d.cap) 0, rb.1)], nar := ra.2 || rb.2 }
  else if o.m = 0 then carryOver d o.m o.n blk
  else
    let row := (stateRows d o.m o.n blk).headD (zeroRow a.lg o.n)
    let tiles := (List.range (ceilDiv o.m 64)).flatMap (fun ch => (List.range (ceilDiv o.n 16)).map (fun b => (ch, b)))
    let r := scanTiles o e a (rowScale row) tiles ld (rowVals row)
    joinEff (r.2 ++ [storeRows d a.lg a.stateOut o.m o.n [rowKeep row r.1]])

/-! ### SCAN_CARRY (R309) -/

/-- The carries from an entry on: k_e written to P1, k_(e+1) = A_e × k_e + B_e held as the state buffer holds it. -/
def carrySteps (ld : Nat → Byte) (o : Op) (a : RecParams) : List (List Nat) → RecRow → List Eff × RecRow
  | [], row => ([], row)
  | e :: r, row =>
    let d := o.desc
    let w : Eff := { writes := rowWrites d a.lg (ptr e 1) 1 o.n [row], nar := rowNar row }
    let ld := seeing ld w.writes
    let av := f32Row ld (ptr e 0) o.n
    let bv := f32Row ld (ptr e 0 + pitchOf (boundN d.cap) 0) o.n
    let ks := (rowVals row).zipIdx.map (fun x => fadd (fmul (av.getD x.2 fzero) x.1) (bv.getD x.2 fzero))
    let t := carrySteps ld o a r (rowKeep row ks)
    (w :: t.1, t.2)

/-- SCAN_CARRY of a whole operation. -/
def effCarry (ld : Nat → Byte) (o : Op) : Eff :=
  let blk := o.blocks.getD 0 []
  let a := recParams blk
  let row := (stateRows o.desc 1 o.n blk).headD (zeroRow a.lg o.n)
  let r := carrySteps ld o a o.entries row
  joinEff (r.1 ++ [storeRows o.desc a.lg a.stateOut 1 o.n [r.2]])

/-- The data effect of one entry of REC_CELL or REC_SCAN. -/
def effRec (s : State) (o : Op) (x : Nat × List Nat) : Eff :=
  if o.desc.opc = 0x30 then effCellEntry (opByte s o) o x.1 x.2 else effScanEntry (opByte s o) o x.1 x.2

/-- The data effect of SCAN_CARRY, whose entries make one chain. -/
def effScanCarry (s : State) (o : Op) (_ : Unit) : Eff := effCarry (opByte s o) o

/-! ### The commands -/

/-- REC_CELL (R301 to R304). -/
def execRecCell (op : Nat) (s : State) : Host.Outcome State Fault Refusal := .next (runOp 0x30 false entriesOf effRec op s)

/-- REC_SCAN (R305 to R308). -/
def execRecScan (op : Nat) (s : State) : Host.Outcome State Fault Refusal := .next (runOp 0x31 false entriesOf effRec op s)

/-- SCAN_CARRY (R309). -/
def execScanCarry (op : Nat) (s : State) : Host.Outcome State Fault Refusal := .next (runOp 0x32 false (fun _ => [()]) effScanCarry op s)

end Sys2Proof.Machine
end

