-- ==== Sys2Proof/Machine/Image.lean ====
section
/-! DEFINITION. Image operators, selection and gather (spec/15 R334 to R354). -/

namespace Sys2Proof.Machine

open Sys2Proof

/-! ### The parameter block (Table IMG-2) -/

structure ImgParams where
  kh : Nat
  kw : Nat
  sy : Nat
  sx : Nat
  py : Nat
  px : Nat
  dy : Nat
  dx : Nat
  cOut : Nat
  factor : Nat
  packed : Bool
  avg : Bool
  ascend : Bool
  clip : Bool
  payload : Bool
  scoreMin : Nat
  iouMax : Nat
  varXy : Nat
  varWh : Nat
  whClamp : Nat
  imgW : Nat
  imgH : Nat
  maxOut : Nat
  bias : Nat
deriving DecidableEq, Repr

/-- The fields of a block. -/
def imgParams (b : List Byte) : ImgParams :=
  let lo := fun i => field (numAt b i 1) 3 0
  let hi := fun i => field (numAt b i 1) 7 4
  let f := numAt b 7 1
  { kh := lo 0, kw := hi 0, sy := lo 1, sx := hi 1, py := lo 2, px := hi 2, dy := lo 3, dx := hi 3, cOut := numAt b 4 2,
    factor := lo 6, packed := f.testBit 0, avg := f.testBit 1, ascend := f.testBit 2, clip := f.testBit 3,
    payload := f.testBit 4, scoreMin := numAt b 8 4, iouMax := numAt b 12 4, varXy := numAt b 16 4, varWh := numAt b 20 4,
    whClamp := numAt b 24 4, imgW := numAt b 28 4, imgH := numAt b 32 4, maxOut := numAt b 36 4, bias := numAt b 40 8 }

/-- Reserved fields zero. -/
def imgReservedOk (b : List Byte) : Bool :=
  field (numAt b 6 1) 7 4 == 0 && field (numAt b 7 1) 7 5 == 0 && numAt b 48 16 == 0

/-- A number within a range. -/
def between (lo hi n : Nat) : Bool := decide (lo ≤ n ∧ n ≤ hi)

/-- The window fields in range. -/
def windowOk (a : ImgParams) : Bool :=
  between 1 7 a.kh && between 1 7 a.kw && between 1 4 a.sy && between 1 4 a.sx && between 0 3 a.py && between 0 3 a.px &&
    between 1 4 a.dy && between 1 4 a.dx

/-- ⌊(E + 2P − D(K − 1) − 1) / S⌋ + 1, which can be zero or less (R337). -/
def outSize (e p d k st : Nat) : Int := ((e : Int) + 2 * p - d * ((k : Int) - 1) - 1) / (st : Int) + 1

/-- Output size for bounds, and for CAP. -/
def outH (a : ImgParams) (m : Nat) : Nat := (outSize m a.py a.dy a.kh a.sy).toNat
def outW (a : ImgParams) (n : Nat) : Nat := (outSize n a.px a.dx a.kw a.sx).toNat

/-- The numbers of BOX_DECODE: finite, and the image not negative where it is used. -/
def boxParamsOk (a : ImgParams) : Bool :=
  let fin := fun w => isFinite (f32Of w)
  let dim := fun w => isFinite (f32Of w) && !(flt (f32Of w) fzero)
  fin a.varXy && fin a.varWh && fin a.whClamp && (!a.clip || (dim a.imgW && dim a.imgH))

/-- What gives PARAM_INVALID, by OPC (R336, R337, R340, R341, R344, R346). -/
def imgParamsOk (d : Desc) (a : ImgParams) (m n k : Nat) : Bool :=
  match d.opc with
  | 0x50 => windowOk a && between 1 4096 a.cOut && decide (0 < outH a (boundM d.cap) ∧ 0 < outW a (boundN d.cap))
  | 0x51 => between 2 8 a.factor && k == boundK d.cap
  | 0x52 => between 2 8 a.factor && k == boundK d.cap && k % (a.factor * a.factor) == 0
  | 0x53 => windowOk a && k == boundK d.cap && decide (0 < outH a (boundM d.cap) ∧ 0 < outW a (boundN d.cap))
  | 0x54 => boxParamsOk a
  | 0x55 =>
    let i := f32Of a.iouMax
    !(isNan (f32Of a.scoreMin)) && fle fzero i && fle i fone && between 1 1024 a.maxOut && between 1 1024 m
  | _ => between 1 1024 n && decide (m ≤ n)

/-! ### Formats -/

/-- A pair that R341 allows. -/
def pairOk (f g : Nat) : Bool := fmtOk f && fmtOk g && (decide (f < 4) || decide (4 ≤ g))

/-- Step 3 of Table OPS-5 (R338, R341, R343, R347, R350, R354). -/
def encImage (d : Desc) : Nat :=
  if !(if d.opc = 0x50 then decide (d.tail ≤ 5) else d.tail == 0) then 0x40
  else
    let ok := match d.opc with
      | 0x50 => fmtOk d.fmt0 && fmtOk d.fmt1 && fmtOk d.fmt2
      | 0x51 => pairOk d.fmt0 d.fmt1
      | 0x52 => pairOk d.fmt0 d.fmt1
      | 0x53 => pairOk d.fmt0 d.fmt1
      | 0x54 => decide (d.fmt1 ≤ 2)
      | 0x55 => decide (d.fmt1 ≤ 2)
      | 0x56 => fmtOk d.fmt0
      | _ => fmtOk d.fmt0 && d.fmt0 == d.fmt2 && (d.gfp || d.fmt0 != 3)
    if ok then 0 else 0x41

/-! ### Layout (R335) -/

/-- An image: base, pitch of a pixel, pitch of an image row. -/
structure ImgLay where
  base : Nat
  pix : Nat
  row : Nat
deriving DecidableEq, Repr

/-- The layout of R209 with a width and an inner extent from CAP. -/
def imgLay (base width inner fmt : Nat) : ImgLay := ⟨base, pitchOf inner fmt, width * pitchOf inner fmt⟩

/-- The PACKED layout. -/
def packedLay (base width inner fmt : Nat) : ImgLay :=
  ⟨base, inner * elemBytes fmt, roundUp (width * (inner * elemBytes fmt)) 64⟩

/-- Address of pixel (y, x). -/
def pixAt (l : ImgLay) (y x : Nat) : Nat := l.base + y * l.row + x * l.pix

/-- The present bytes of an image of `h` × `w` pixels of `c` channels. -/
def imgPieces (l : ImgLay) (h w c fmt : Nat) : List (Nat × Nat) :=
  if c = 0 then []
  else (List.range h).flatMap (fun y => (List.range w).map (fun x => (pixAt l y x, c * elemBytes fmt)))

/-- Input and output layouts of an operation. -/
def inLay (d : Desc) (a : ImgParams) (e : List Nat) : ImgLay :=
  if d.opc = 0x51 ∧ a.packed then packedLay (ptr e 0) (boundN d.cap) (boundK d.cap) d.fmt0
  else imgLay (ptr e 0) (boundN d.cap) (boundK d.cap) d.fmt0

def outLay (d : Desc) (a : ImgParams) (e : List Nat) : ImgLay :=
  let b := a.factor
  match d.opc with
  | 0x50 => imgLay (ptr e 2) (outW a (boundN d.cap)) a.cOut d.fmt2
  | 0x51 => imgLay (ptr e 1) (ceilDiv (boundN d.cap) b) (b * b * boundK d.cap) d.fmt1
  | 0x52 =>
    if a.packed then packedLay (ptr e 1) (boundN d.cap * b) (boundK d.cap / (b * b)) d.fmt1
    else imgLay (ptr e 1) (boundN d.cap * b) (boundK d.cap / (b * b)) d.fmt1
  | _ => imgLay (ptr e 1) (outW a (boundN d.cap)) (boundK d.cap) d.fmt1

/-- Output rows, columns and channels. -/
def outDims (d : Desc) (a : ImgParams) (m n k : Nat) : Nat × Nat × Nat :=
  let b := a.factor
  match d.opc with
  | 0x50 => (outH a m, outW a n, a.cOut)
  | 0x51 => if m = 0 ∨ n = 0 then (0, 0, 0) else (ceilDiv m b, ceilDiv n b, b * b * k)
  | 0x52 => if m = 0 ∨ n = 0 then (0, 0, 0) else (m * b, n * b, k / (b * b))
  | _ => if m = 0 ∨ n = 0 then (0, 0, 0) else (outH a m, outW a n, k)

/-- Output pixels. -/
def outPixels (d : Desc) (a : ImgParams) (m n k : Nat) : Nat := let x := outDims d a m n k; x.1 * x.2.1

/-- Address of weight (tap, c), row start (R337). -/
def weightRow (d : Desc) (a : ImgParams) (e : List Nat) (tap c : Nat) : Nat :=
  ptr e 1 + (tap * boundK d.cap + c) * pitchOf a.cOut d.fmt1

/-! ### Issue (R336) -/

/-- The pieces that step 6 can check before the parameter block is read; GATHER and SCATTER have no block, and an input of S2D,
which may be packed, an output or weights wait for it. -/
def piecesImage (d : Desc) (m n k : Nat) (e : List Nat) : Pieces :=
  let blk := [(ptr e 3, 64)]
  match d.opc with
  | 0x58 =>
    if n = 0 then {}
    else { reads := matPieces (ptr e 0) k n (boundN d.cap) d.fmt0 ++ [(ptr e 1, 4 * m)],
           writes := matPieces (ptr e 2) m n (boundN d.cap) d.fmt2 }
  | 0x59 =>
    if n = 0 then {}
    else { reads := matPieces (ptr e 0) m n (boundN d.cap) d.fmt0 ++ [(ptr e 1, 4 * m)],
           writes := matPieces (ptr e 2) k n (boundN d.cap) d.fmt2 }
  | 0x51 => { reads := blk }
  | 0x54 => { reads := blk ++ (if m = 0 then [] else [(ptr e 0, 16 * m), (ptr e 1, 4 * elemBytes d.fmt1 * m)]),
              writes := if m = 0 then [] else [(ptr e 2, 16 * m)] }
  | 0x55 => { reads := blk ++ [(ptr e 0, 16 * m), (ptr e 1, elemBytes d.fmt1 * m)] }
  | 0x56 => { reads := blk ++ [(ptr e 0, elemBytes d.fmt0 * n)], writes := if m = 0 then [] else [(ptr e 2, 4 * m)] }
  | _ => { reads := blk ++ imgPieces (imgLay (ptr e 0) (boundN d.cap) (boundK d.cap) d.fmt0) m n k d.fmt0 }

/-- The pieces an entry addresses once its block is known. -/
def fullPieces (d : Desc) (a : ImgParams) (m n k : Nat) (e : List Nat) : Pieces :=
  let o := outDims d a m n k
  match d.opc with
  | 0x50 =>
    if o.1 = 0 ∨ o.2.1 = 0 then {}
    else { reads := imgPieces (inLay d a e) m n k d.fmt0 ++
             (List.range (a.kh * a.kw)).flatMap (fun t =>
               (List.range k).map (fun c => (weightRow d a e t c, a.cOut * elemBytes d.fmt1))),
           writes := imgPieces (outLay d a e) o.1 o.2.1 o.2.2 d.fmt2 }
  | 0x54 => { reads := if m = 0 then [] else [(ptr e 0, 16 * m), (ptr e 1, 4 * elemBytes d.fmt1 * m)],
              writes := if m = 0 then [] else [(ptr e 2, 16 * m)] }
  | 0x55 => { reads := [(ptr e 0, 16 * m), (ptr e 1, elemBytes d.fmt1 * m)], writes := [(ptr e 2, 4 * (a.maxOut + 1))] }
  | 0x56 => { reads := (ptr e 0, elemBytes d.fmt0 * n) :: (if a.payload then [(ptr e 1, 4 * n)] else []),
              writes := if m = 0 then [] else [(ptr e 2, 4 * m)] }
  | _ =>
    if o.1 = 0 ∨ o.2.1 = 0 then {}
    else { reads := imgPieces (inLay d a e) m n k d.fmt0, writes := imgPieces (outLay d a e) o.1 o.2.1 o.2.2 d.fmt1 }

/-- Whether the numbers that lay out an entry's regions are ones that Table IMG-2 allows; else step 6 has no region to check
(log 43). -/
def layoutOk (d : Desc) (a : ImgParams) : Bool :=
  match d.opc with
  | 0x50 => windowOk a
  | 0x51 => between 2 8 a.factor
  | 0x52 => between 2 8 a.factor
  | 0x53 => windowOk a
  | _ => true

/-- Step 6 of an operation with a block: its regions, the payload pointer, the layout of the address of BIAS (R156), whose other
conditions are Table IMG-2's. -/
def lateImage (s : State) (t : Tab Byte) (p : Nat) (d : Desc) (m n k : Nat) (e : List Nat) : Late :=
  if d.opc = 0x58 ∨ d.opc = 0x59 then {}
  else
    lateBy (readBlock s t p (ptr e 3) 64) (ptr e 3) 64 (fun b =>
      let a := imgParams b
      { ptrs := if d.opc = 0x56 ∧ a.payload then [ptr e 1] else [], laidOut := if d.opc = 0x50 then [a.bias] else []
        pieces := if layoutOk d a then fullPieces d a m n k e else {} })

/-- One entry at issue: its block and BIAS read and checked, then what it addresses. -/
def planImage (s : State) (t : Tab Byte) (p : Nat) (d : Desc) (m n k : Nat) (e : List Nat) : EntryPlan :=
  if d.opc = 0x58 ∨ d.opc = 0x59 then
    if n * elemBytes d.fmt0 ≤ 16384 then { pieces := piecesImage d m n k e } else planFails 0x42 false
  else
    let b := readBlock s t p (ptr e 3) 64
    if b.1 ≠ 0 then planStops b.1 (ptr e 3) 64
    else if !(imgReservedOk b.2) || !(imgParamsOk d (imgParams b.2) m n k) then planFails 0x42 false
    else
      let a := imgParams b.2
      let hasBias := d.opc == 0x50 && a.bias != 0
      if hasBias && (a.bias % 64 != 0 || !(within s p a.bias (4 * a.cOut))) then planFails 0x42 false
      else
        let bs := if hasBias then readBlock s t p a.bias (4 * a.cOut) else (0, [])
        if bs.1 ≠ 0 then planStops bs.1 a.bias (4 * a.cOut)
        else
          { pieces := fullPieces d a m n k e, block := b.2 ++ bs.2 }

/-- K_e of a CONV (Table IMG-4). -/
def convKe (prec k : Nat) (a : ImgParams) : Nat := a.kh * a.kw * roundUp k (kSlice prec)

/-- Working sets (Table IMG-4). -/
def wsImage (d : Desc) (prec k : Nat) (blocks : List (List Byte)) : Nat :=
  match d.opc with
  | 0x50 => 144 * (blocks.foldl (fun x b => max x (convKe prec k (imgParams b))) 0) * loadedBytes prec + 8192
  | 0x51 => 131072
  | 0x52 => 131072
  | 0x53 => 131072
  | 0x54 => 73728
  | 0x55 => 90112
  | 0x56 => 73728
  | _ => 32 * pitchOf (boundN d.cap) d.fmt0 + 8192

/-- Tiles of one entry (R338, Table IMG-4). -/
def entryTiles (d : Desc) (prec m n k : Nat) (a : ImgParams) : Nat :=
  let px := outPixels d a m n k
  match d.opc with
  | 0x50 => ceilDiv a.cOut 16 * ceilDiv px 64 * (a.kh * a.kw) * ceilDiv k (kSlice prec)
  | 0x51 => ceilDiv px 16
  | 0x52 => ceilDiv px 16
  | 0x53 => ceilDiv px 16 * ceilDiv k 64
  | 0x54 => ceilDiv m 64
  | 0x55 => m + 1
  | 0x56 => 1
  | _ => ceilDiv m 16

/-- Tiles of an operation. -/
def tilesImage (d : Desc) (prec m n k : Nat) (blocks : List (List Byte)) : Nat :=
  if d.opc = 0x58 ∨ d.opc = 0x59 then d.lcount * ceilDiv m 16
  else blocks.foldl (fun t b => t + entryTiles d prec m n k (imgParams b)) 0

/-! ### CONV (R337, R338) -/

/-- The input pixel of an output position and tap, if it is present. -/
def tapPixel (a : ImgParams) (m n u v tap : Nat) : Option (Nat × Nat) :=
  let y := u * a.sy + tap / a.kw * a.dy
  let x := v * a.sx + tap % a.kw * a.dx
  if a.py ≤ y ∧ y < m + a.py ∧ a.px ≤ x ∧ x < n + a.px then some (y - a.py, x - a.px) else none

/-- Where a wavefront of CONV lies: its entry and block, block of 16 output channels, group of 64 output pixels, tap, K slice and
their number; an empty K has one empty slice (R338). -/
structure ConvAt where
  idx : Nat
  e : List Nat
  oc0 : Nat
  px0 : Nat
  tap : Nat
  slice : Nat
  slices : Nat
deriving DecidableEq, Repr

/-- K slices of a tap, and the wavefronts of an entry. -/
def convSlices (o : Op) : Nat := max 1 (ceilDiv o.k (kSlice o.precision))
def convWaves (o : Op) (a : ImgParams) : Nat :=
  ceilDiv a.cOut 16 * ceilDiv (outPixels o.desc a o.m o.n o.k) 64 * (a.kh * a.kw) * convSlices o

/-- The parameters of an entry. -/
def imgOf (o : Op) (idx : Nat) : ImgParams := imgParams (o.blocks.getD idx [])

/-- The place of wavefront `t` counted from the first of a list of entries. -/
def convAtFrom (o : Op) : List (Nat × List Nat) → Nat → Option ConvAt
  | [], _ => none
  | x :: r, t =>
    let a := imgOf o x.1
    let n := convWaves o a
    if n ≤ t then convAtFrom o r (t - n)
    else
      let nks := convSlices o
      let taps := a.kh * a.kw
      let groups := ceilDiv (outPixels o.desc a o.m o.n o.k) 64
      some { idx := x.1, e := x.2, oc0 := 16 * (t / (nks * taps * groups)), px0 := 64 * (t / (nks * taps) % groups),
             tap := t / nks % taps, slice := t % nks, slices := nks }

/-- The place of a wavefront of CONV, and the wavefronts of all entries. -/
def convAt (o : Op) (t : Nat) : Option ConvAt := convAtFrom o (entriesOf o) t
def convTotal (o : Op) : Nat := (List.range o.entries.length).foldl (fun t idx => t + convWaves o (imgOf o idx)) 0

/-- The wavefront at a place of CONV: the taps of an output tile add to its accumulators in order (R337, R338). -/
def convWave (ld : Nat → Byte) (o : Op) (t : Nat) (w : ConvAt) : Wave :=
  let d := o.desc
  let a := imgOf o w.idx
  let lf := logOfPrec o.precision
  let k0 := w.slice * kSlice o.precision
  let lay := inLay d a w.e
  { tile := t, size := min (kSlice o.precision) (o.k - k0)
    rows := (List.range (min 64 (outPixels d a o.m o.n o.k - w.px0))).map (fun i => w.px0 + i)
    cols := (List.range (min 16 (a.cOut - w.oc0))).map (fun j => w.oc0 + j)
    act := fun px k =>
      match tapPixel a o.m o.n (px / outW a o.n) (px % outW a o.n) w.tap with
      | some yx => loadLog lf d.fmt0 (elemAt ld (pixAt lay yx.1 yx.2 + (k0 + k) * elemBytes d.fmt0) d.fmt0)
      | none => .zero
    weight := fun k oc => loadLog lf d.fmt1 (elemAt ld (weightRow d a w.e w.tap (k0 + k) + oc * elemBytes d.fmt1) d.fmt1)
    first := w.tap == 0 && w.slice == 0, last := w.tap + 1 == a.kh * a.kw && w.slice + 1 == w.slices }

/-- A row of the Rill of CONV handed to the store path: bias, tail, conversion to FMT2 (R337, R338). -/
def convRill (o : Op) (x : RillRow) : Eff :=
  match convAt o x.tile with
  | none => {}
  | some w =>
    let d := o.desc
    let blk := o.blocks.getD w.idx []
    let a := imgParams blk
    let width := outW a o.n
    rowsEff (((List.range 4).filter (fun i => decide (w.px0 + 16 * i + x.row < outPixels d a o.m o.n o.k))).map (fun i =>
      let px := w.px0 + 16 * i + x.row
      let b := rowBytes d.fmt2 ((List.range (min 16 (a.cOut - w.oc0))).map (fun j =>
        let y := f32Of (tabGet 0 x.lanes (16 * i + j)).toNat
        let y := if a.bias = 0 then y else fadd y (f32Of (numAt blk (64 + 4 * (w.oc0 + j)) 4))
        rillTail d.tail fone y fzero))
      ((pixAt (outLay d a w.e) (px / width) (px % width) + w.oc0 * elemBytes d.fmt2, b.1), b.2)))

/-- The output pixels of an entry in tile order, `per` pixels by `chans` channels a tile, the channel blocks within the pixel groups
(Table IMG-4). Each item is a pixel and the first channel of its block. -/
def pixelTiles (px c per chans : Nat) : List (List (Nat × Nat)) :=
  let groups := List.range (ceilDiv px per)
  let blocks := List.range (ceilDiv c chans)
  let tile := fun g b => (List.range (min per (px - per * g))).map (fun i => (per * g + i, chans * b))
  groups.flatMap (fun g => blocks.map (tile g))

/-! ### Space-to-depth, depth-to-space, pooling (R339 to R342) -/

/-- The ZERO of a format. -/
def zeroOf (fmt : Nat) : Nat := if fmt < 4 then 0 else lencode (logOfFmt fmt) .zero

/-- One output element of S2D: its input pixel and channel, if present. -/
def s2dSource (b m n k y x ch : Nat) : Option (Nat × Nat × Nat) :=
  let iy := b * y + ch / k / b
  let ix := b * x + ch / k % b
  if iy < m ∧ ix < n then some (iy, ix, ch % k) else none

/-- One output element of D2S. -/
def d2sSource (b c y x ch : Nat) : Nat × Nat × Nat := (y / b, x / b, (y % b * b + x % b) * c + ch)

/-- S2D or D2S of one entry. -/
def effShuffleEntry (ld : Nat → Byte) (o : Op) (idx : Nat) (e : List Nat) : Eff :=
  let d := o.desc
  let a := imgParams (o.blocks.getD idx [])
  let dims := outDims d a o.m o.n o.k
  let li := inLay d a e
  let lo := outLay d a e
  joinEff (inTiles (fun ld g => rowsEff (g.map (fun p =>
    let y := p.1 / dims.2.1
    let x := p.1 % dims.2.1
    let es := (List.range dims.2.2).map (fun ch =>
      match (if d.opc = 0x51 then s2dSource a.factor o.m o.n o.k y x ch else some (d2sSource a.factor dims.2.2 y x ch)) with
      | some q => copyElem d.fmt0 d.fmt1 (elemAt ld (pixAt li q.1 q.2.1 + q.2.2 * elemBytes d.fmt0) d.fmt0)
      | none => (zeroOf d.fmt1, false))
    ((pixAt lo y x, es.flatMap (fun v => leBytes (elemBytes d.fmt1) v.1)), es.any (fun v => v.2))))) Eff.writes
    (pixelTiles (dims.1 * dims.2.1) 1 16 1) ld)

/-- The first maximal value in order; a NaN gives a quiet NaN. -/
def firstMax : List FVal → FVal
  | [] => fzero
  | x :: r => r.foldl fmax x

/-- The binary32 sum of values in order. -/
def sumInOrder : List FVal → FVal
  | [] => fzero
  | x :: r => r.foldl fadd x

/-- One pooled element from the values of the present positions (R342). -/
def poolElem (avg : Bool) (vs : List FVal) : FVal :=
  if vs.isEmpty then fzero
  else if avg then fmul (sumInOrder vs) (fdiv fone (fofInt vs.length))
  else firstMax vs

/-- POOL of one entry. -/
def effPoolEntry (ld : Nat → Byte) (o : Op) (idx : Nat) (e : List Nat) : Eff :=
  let d := o.desc
  let a := imgParams (o.blocks.getD idx [])
  let dims := outDims d a o.m o.n o.k
  let li := inLay d a e
  joinEff (inTiles (fun ld g => rowsEff (g.map (fun p =>
    let u := p.1 / dims.2.1
    let v := p.1 % dims.2.1
    let present := (List.range (a.kh * a.kw)).filterMap (tapPixel a o.m o.n u v)
    let b := rowBytes d.fmt1 ((List.range (min 64 (o.k - p.2))).map (fun c =>
      poolElem a.avg (present.map (fun q =>
        loadElem d.fmt0 (elemAt ld (pixAt li q.1 q.2 + (p.2 + c) * elemBytes d.fmt0) d.fmt0)))))
    ((pixAt (outLay d a e) u v + p.2 * elemBytes d.fmt1, b.1), b.2)))) Eff.writes
    (pixelTiles (dims.1 * dims.2.1) o.k 16 64) ld)

/-! ### Boxes (R343, R344) -/

/-- Value `i` of record `r` of a box array. -/
def boxVal (ld : Nat → Byte) (base r i : Nat) : FVal := f32Of (wordAt ld (base + 16 * r + 4 * i) 4)

/-- A value clamped to [0, top]. -/
def clampTo (top v : FVal) : FVal := fmin (fmax v fzero) top

/-- Centre and half extent of one axis of a decoded box. -/
def boxAxis (a : ImgParams) (c ext dc de : FVal) : FVal × FVal :=
  let c' := fadd c (fmul (fmul dc (f32Of a.varXy)) ext)
  let e' := fmul ext (rillExp (fmin (fmul de (f32Of a.varWh)) (f32Of a.whClamp)))
  let half := fmul (.fin false 1 (-1)) e'
  (fsub c' half, fadd c' half)

/-- BOX_DECODE of one entry. -/
def effBoxEntry (ld : Nat → Byte) (o : Op) (idx : Nat) (e : List Nat) : Eff :=
  let d := o.desc
  let a := imgParams (o.blocks.getD idx [])
  joinEff (inTiles (fun ld g => rowsEff (g.map (fun x =>
    let r := x.1
    let an := boxVal ld (ptr e 0) r
    let eb := elemBytes d.fmt1
    let dl := fun i => loadElem d.fmt1 (elemAt ld (ptr e 1 + (4 * r + i) * eb) d.fmt1)
    let x := boxAxis a (an 0) (an 2) (dl 0) (dl 2)
    let y := boxAxis a (an 1) (an 3) (dl 1) (dl 3)
    let clip := fun w v => if a.clip then clampTo (f32Of w) v else v
    let b := rowBytes 0 [clip a.imgW x.1, clip a.imgH y.1, clip a.imgW x.2, clip a.imgH y.2]
    ((ptr e 2 + 16 * r, b.1), b.2)))) Eff.writes (pixelTiles o.m 1 64 1) ld)

/-- A box (x0, y0, x1, y1). -/
structure Box where
  x0 : FVal
  y0 : FVal
  x1 : FVal
  y1 : FVal
deriving DecidableEq, Repr

/-- The area of a box. -/
def boxArea (b : Box) : FVal := fmul (fmax fzero (fsub b.x1 b.x0)) (fmax fzero (fsub b.y1 b.y0))

/-- Whether box `b` suppresses box `a`. -/
def suppresses (iou : FVal) (a b : Box) : Bool :=
  let inter := fmul (fmax fzero (fsub (fmin a.x1 b.x1) (fmax a.x0 b.x0)))
    (fmax fzero (fsub (fmin a.y1 b.y1) (fmax a.y0 b.y0)))
  let union := fsub (fadd (boxArea a) (boxArea b)) inter
  fgt inter (fmul iou union)

/-- The kept candidates, in keeping order. -/
def nmsKeep (iou : FVal) (maxOut : Nat) (box : Nat → Box) : List Nat → List Nat → List Nat
  | [], kept => kept
  | i :: r, kept =>
    if maxOut ≤ kept.length then kept
    else if kept.any (fun j => suppresses iou (box i) (box j)) then nmsKeep iou maxOut box r kept
    else nmsKeep iou maxOut box r (kept ++ [i])

/-- NMS of one entry. -/
def effNmsEntry (ld : Nat → Byte) (o : Op) (idx : Nat) (e : List Nat) : Eff :=
  let d := o.desc
  let a := imgParams (o.blocks.getD idx [])
  let raw := fun i => elemAt ld (ptr e 1 + i * elemBytes d.fmt1) d.fmt1
  let order := sortOrder false ((List.range o.m).map (fun i => sortKey d.fmt1 (raw i)))
  let cands := order.filter (fun i =>
    let v := loadElem d.fmt1 (raw i)
    !(isNan v) && !(flt v (f32Of a.scoreMin)))
  let v := boxVal ld (ptr e 0)
  let kept := nmsKeep (f32Of a.iouMax) a.maxOut (fun i => ⟨v i 0, v i 1, v i 2, v i 3⟩) cands []
  let words := kept.length :: kept ++ List.replicate (a.maxOut - kept.length) 0xFFFFFFFF
  { writes := [(ptr e 2, words.flatMap (leBytes 4))] }

/-! ### SORT (R345, R346) -/

/-- SORT of one entry. -/
def effSortEntry (ld : Nat → Byte) (o : Op) (idx : Nat) (e : List Nat) : Eff :=
  let d := o.desc
  let a := imgParams (o.blocks.getD idx [])
  let keys := (List.range o.n).map (fun i => sortKey d.fmt0 (elemAt ld (ptr e 0 + i * elemBytes d.fmt0) d.fmt0))
  let ranks := (sortOrder a.ascend keys).take o.m
  let words := ranks.map (fun i => if a.payload then wordAt ld (ptr e 1 + 4 * i) 4 else i)
  { writes := if words.isEmpty then [] else [(ptr e 2, words.flatMap (leBytes 4))] }

/-- The data effect of one entry of the operations of Table IMG-1 but CONV, GATHER and SCATTER. -/
def effImage (s : State) (o : Op) (x : Nat × List Nat) : Eff :=
  let ld := opByte s o
  match o.desc.opc with
  | 0x51 => effShuffleEntry ld o x.1 x.2
  | 0x52 => effShuffleEntry ld o x.1 x.2
  | 0x53 => effPoolEntry ld o x.1 x.2
  | 0x54 => effBoxEntry ld o x.1 x.2
  | 0x55 => effNmsEntry ld o x.1 x.2
  | _ => effSortEntry ld o x.1 x.2

/-! ### GATHER and SCATTER (R347 to R352) -/

/-- The element a faulted lane receives: NaR, or the quiet NaN of R350. -/
def faultElem (fmt : Nat) : Nat :=
  if 4 ≤ fmt then lencode (logOfFmt fmt) .nar
  else if fmt = 1 then 0x7E00
  else if fmt = 2 then 0x7FC0
  else 0x7FC00000

/-- A row of `n` faulted elements. -/
def faultRow (fmt n : Nat) : List Byte := (List.replicate n (faultElem fmt)).flatMap (leBytes (elemBytes fmt))

/-- Whether a raw element is a NaR or NaN (R151). -/
def rawNar (fmt w : Nat) : Bool :=
  if 4 ≤ fmt then ldecode (logOfFmt fmt) w == .nar else isNan (loadElem fmt w)

/-- What one lane does: fault, write, and whether it wrote a NaR or NaN. -/
structure Lane where
  fault : Bool
  write : Option (Nat × List Byte)
  nar : Bool
deriving DecidableEq, Repr

/-- Whether bytes that a lane reads are poisoned: on this chip, or as the peer answered. -/
def laneLost (s : State) (o : Op) (a n : Nat) : Bool :=
  if space a = 4 then o.lostPieces.any (fun x => overlaps x.1 x.2 a n) else touchesPoison s a n

/-- A row moved unchanged but for bits [15:12] of LG12 containers, which every store leaves 0 (R140). -/
def movedRow (fmt : Nat) (b : List Byte) : List Byte :=
  if fmt = 5 then b.zipIdx.map (fun x => if x.2 % 2 = 1 then x.1 &&& 0x0F else x.1) else b

/-- Lane at position `i` of an entry (R347 to R350). -/
def laneOf (s : State) (o : Op) (e : List Nat) (i : Nat) : Lane :=
  let d := o.desc
  let ld := opByte s o
  let pitch := pitchOf (boundN d.cap) d.fmt0
  let bytes := o.n * elemBytes d.fmt0
  let badWord := laneLost s o (ptr e 1 + 4 * i) 4
  let idx := wordAt ld (ptr e 1 + 4 * i) 4
  let inRange := decide (idx < o.k)
  let src := ptr e 0 + (if d.opc = 0x58 then idx else i) * pitch
  let dst := ptr e 2 + (if d.opc = 0x58 then i else idx) * pitch
  let fault := badWord || !inRange || laneLost s o src bytes
  let lost := d.opc == 0x59 && (badWord || !inRange)
  let row := if fault then faultRow d.fmt0 o.n else movedRow d.fmt0 ((List.range bytes).map (fun j => ld (src + j)))
  { fault := fault, write := if lost then none else some (dst, row),
    nar := !fault && (List.range o.n).any (fun c => rawNar d.fmt0 (elemAt ld (src + c * elemBytes d.fmt0) d.fmt0)) }

/-- The groups of all entries in tile order: entry, pointers, group. -/
def gatherGroups (o : Op) : List (Nat × List Nat × Nat) :=
  if o.n = 0 then []
  else (entriesOf o).flatMap (fun x => (List.range (ceilDiv o.m 16)).map (fun g => (x.1, x.2, g)))

/-- The lanes of a group. -/
def lanesOf (s : State) (o : Op) (e : List Nat) (g : Nat) : List Lane :=
  (List.range (min 16 (o.m - 16 * g))).map (fun l => laneOf s o e (16 * g + l))

/-- The lanes whose rows stand once the group is written: of several with one destination the highest (R348). -/
def standing : List Lane → List Lane
  | [] => []
  | l :: r =>
    match l.write with
    | some w => if r.any (fun x => x.write.any (fun y => y.1 == w.1)) then standing r else l :: standing r
    | none => standing r

/-- A row put among rows in rising address order. -/
def insertRow (x : Nat × List Byte) : List (Nat × List Byte) → List (Nat × List Byte)
  | [] => [x]
  | y :: r => if x.1 ≤ y.1 then x :: y :: r else y :: insertRow x r

/-- Rows in rising order joined where one ends at the next. -/
def joinRows : List (Nat × List Byte) → List (Nat × List Byte)
  | [] => []
  | x :: r =>
    match joinRows r with
    | y :: q => if x.1 + x.2.length = y.1 then (x.1, x.2 ++ y.2) :: q else x :: y :: q
    | [] => [x]

/-- The rows of a group as one masked write (R348). -/
def groupWrite (ls : List Lane) : List (Nat × List Byte) :=
  joinRows (((standing ls).filterMap (fun l => l.write)).foldl (fun t x => insertRow x t) [])

/-- One group worked on what the earlier ones wrote (R348): its lanes in fault are counted in GATHER_FAULTS, the first lane in fault of
all named (R352), its rows written; with a lane in fault under GFP = 1 nothing is written, and the answer says that the operation ends
there (R350, R351). -/
def workGroup (s : State) (o : Op) (x : Nat × List Nat × Nat) : State × Op × Bool :=
  let ls := lanesOf s o x.2.1 x.2.2
  let faults := (ls.zipIdx.filter (fun y => y.1.fault)).map (fun y => y.2)
  let named := if o.faultCount = 0 ∧ !faults.isEmpty then
      { o with faultEntry := x.1, faultGroup := x.2.2, faultIndex := faults.headD 0 }
    else o
  let o := { named with faultCount := o.faultCount + faults.length }
  let s := wr s oGATHER_FAULTS (o.part + 1) (satAdd max32 (rd s oGATHER_FAULTS (o.part + 1)) faults.length)
  if o.desc.gfp && !faults.isEmpty then (s, o, true)
  else
    let ws := groupWrite ls
    (storeAll s o.part o.id ws,
      { seeWrites o ws with wrote := o.wrote || !ws.isEmpty, nar := o.nar || (standing ls).any (fun l => l.nar) }, false)

/-- Groups worked in order, up to the one that ends the operation. -/
def workGroups : List (Nat × List Nat × Nat) → State → Op → State × Op × Bool
  | [], s, o => (s, o, false)
  | x :: r, s, o =>
    let y := workGroup s o x
    if y.2.2 then y else workGroups r y.1 y.2.1

/-- The end of a GATHER or SCATTER whose group faulted under GFP = 1: the earlier groups stay written, PARTIAL says whether one was
(R351). -/
def gatherStops (s : State) (o : Op) : State := endOp s { o with outs := [], wrote := false, partialOut := o.wrote } stMEM_ERROR

/-- What a GATHER or SCATTER comes to once every group is worked. -/
def gatherEff (o : Op) : Eff :=
  { nar := o.nar, status := if o.faultCount = 0 then stOK else stPARTIAL_FAULT, faultEntry := o.faultEntry,
    faultGroup := o.faultGroup, faultIndex := o.faultIndex, faultCount := o.faultCount }

/-- The groups left of a GATHER or SCATTER. -/
def runGather (opc id : Nat) (s : State) : State :=
  match opOf? s id with
  | none => s
  | some o =>
    if opReady s o opc then
      let x := workGroups ((gatherGroups o).drop o.tile) s o
      if x.2.2 then gatherStops x.1 x.2.1 else finishEff x.1 x.2.1 (gatherEff x.2.1)
    else s

/-! ### The commands -/

/-- S2D (R339). -/
def execS2d (op : Nat) (s : State) : Host.Outcome State Fault Refusal := .next (runOp 0x51 false entriesOf effImage op s)

/-- D2S (R340). -/
def execD2s (op : Nat) (s : State) : Host.Outcome State Fault Refusal := .next (runOp 0x52 false entriesOf effImage op s)

/-- POOL (R342). -/
def execPool (op : Nat) (s : State) : Host.Outcome State Fault Refusal := .next (runOp 0x53 false entriesOf effImage op s)

/-- BOX_DECODE (R343). -/
def execBoxDecode (op : Nat) (s : State) : Host.Outcome State Fault Refusal := .next (runOp 0x54 false entriesOf effImage op s)

/-- NMS (R344). -/
def execNms (op : Nat) (s : State) : Host.Outcome State Fault Refusal := .next (runOp 0x55 false entriesOf effImage op s)

/-- SORT (R345, R346). -/
def execSort (op : Nat) (s : State) : Host.Outcome State Fault Refusal := .next (runOp 0x56 false entriesOf effImage op s)

/-- GATHER (R347 to R352). -/
def execGather (op : Nat) (s : State) : Host.Outcome State Fault Refusal := .next (runGather 0x58 op s)

/-- SCATTER (R347 to R352). -/
def execScatter (op : Nat) (s : State) : Host.Outcome State Fault Refusal := .next (runGather 0x59 op s)

end Sys2Proof.Machine
end

