-- ==== Sys2Proof/Machine/Arrays.lean ====
section
/-! DEFINITION. The arrays of a core at work: weight planes, accumulators, the Rill, tile by tile; MATMUL, MATMUL_T and CONV, whose
rows leave through it (spec/06 R116 to R132). -/

namespace Sys2Proof.Machine

open Sys2Proof

/-! ### What a tile gives the arrays -/

/-- Operations that run in the arrays, and those of them whose result rows the Rill hands to the store path as they come. -/
def usesArrays (opc : Nat) : Bool := [0x10, 0x11, 0x20, 0x21, 0x30, 0x50].contains opc
def streamsRows (opc : Nat) : Bool := opc == 0x10 || opc == 0x11 || opc == 0x50

/-- A byte source after the units of an operation before unit `i`. -/
def ldAfter {U : Type} (eff : (Nat → Byte) → U → Eff) (us : List U) (i : Nat) (ld : Nat → Byte) : Nat → Byte :=
  (us.take i).foldl (fun l u => seeing l (eff l u).writes) ld

/-- The wavefronts of tile `t` of an operation, in order; `ld` is what it reads. The result rows of ATTN, ATTN_SCORE and REC_CELL,
which the Rill works on into buffers of the working set, are stored by their command (log 6). -/
def wavesOf (ld : Nat → Byte) (o : Op) (t : Nat) : List Wave :=
  match o.desc.opc with
  | 0x50 =>
    match convAt o t with
    | some w => [convWave ld o t w]
    | none => []
  | 0x30 =>
    if o.m = 0 ∨ o.n = 0 ∨ o.k = 0 then []
    else
      let idx := t / (ceilDiv o.n 16 * ceilDiv o.m 64 * o.k)
      cellWaves (ldAfter (fun l x => effCellEntry l o x.1 x.2) (entriesOf o) idx ld) o t
  | 0x20 =>
    match (attnTiles o)[t]? with
    | some x => attnWaves (ldAfter (fun l u => effAttnEntry l o u.1 u.2.1 u.2.2) (attnUnits o) (x.1 * groupsOf o.m + x.2.1) ld) o x
    | none => []
  | 0x21 =>
    match (attnTiles o)[t]? with
    | some x => attnWaves (ldAfter (fun l u => effScoreEntry l o u.1 u.2.1 u.2.2) (attnUnits o) (x.1 * groupsOf o.m + x.2.1) ld) o x
    | none => []
  | 0x10 => if t < wavefronts o then [matmulWave ld o t] else []
  | 0x11 => if t < wavefronts o then [matmulWave ld o t] else []
  | _ => []

/-- The wavefronts of a streaming operation. -/
def streamWaves (o : Op) : Nat := if o.desc.opc = 0x50 then convTotal o else wavefronts o

/-- What a row of the Rill stores. -/
def rillOut (ld : Nat → Byte) (o : Op) (x : RillRow) : Eff :=
  if o.desc.opc = 0x50 then convRill o x else if streamsRows o.desc.opc then rillEff ld o x else {}

/-! ### The Rill -/

/-- One effect written to memory by an operation: what it reads next is what it wrote (R180). -/
def writeEff (s : State) (o : Op) (e : Eff) : State × Op :=
  (storeAll s o.part o.id e.writes, { seeWrites o e.writes with nar := o.nar || e.nar, wrote := o.wrote || !e.writes.isEmpty })

/-- Rows handed to the store path in order. -/
def drainRill : List RillRow → State → Op → State × Op
  | [], s, o => (s, o)
  | x :: r, s, o => let y := writeEff s o (rillOut (opByte s o) o x); drainRill r y.1 y.2

/-- The oldest rows in the Rill of a core leave until `keep` are left. -/
def drainTo (keep c : Nat) (s : State) (o : Op) : State × Op :=
  let x := coreOf s c
  let n := x.arrays.rill.length - keep
  let y := drainRill (x.arrays.rill.take n) s o
  (setCore y.1 c { x with arrays := { x.arrays with rill := x.arrays.rill.drop n } }, y.2)

/-! ### Tiles -/

/-- Whether what an operation writes lies apart from what it reads, so that weights may be read ahead of earlier rows. Where it does
not, each tile reads after every earlier row has left the Rill, and nothing is read ahead (R46, R180, log 60). -/
def readsAhead (o : Op) : Bool := !(o.outs.any (fun w => o.ins.any (fun r => overlaps w.1 w.2 r.1 r.2)))

/-- A plane for a wavefront: one that the arrays hold already, or loaded. -/
def planeFor (t : LFmt) (w : Wave) : List (Option Plane) → Plane
  | [] => planeOf t w
  | some p :: r => if p.tile = w.tile then p else planeFor t w r
  | none :: r => planeFor t w r

/-- Tile `t` enters the arrays of core `c`: its weights become active, and those of the wavefront after it enter the shadow
registers while it runs (R122). -/
def enterTile (c t : Nat) (s : State) (o : Op) : State × Op :=
  let y := if readsAhead o then (s, o) else drainTo 0 c s o
  let x := coreOf y.1 c
  let ld := opByte y.1 y.2
  let lf := logOfPrec o.precision
  match wavesOf ld y.2 t with
  | [] => y
  | w :: rest =>
    let next := (rest ++ (if rest.isEmpty then (wavesOf ld y.2 (t + 1)).take 1 else [])).head?
    (setCore y.1 c { x with arrays := { x.arrays with
      active := some (planeFor lf w [x.arrays.active, x.arrays.shadow])
      shadow := if readsAhead o then next.map (fun v => planeFor lf v [x.arrays.shadow]) else none } }, y.2)

/-- Wavefronts run one after the other: the plane that is active at the end, the accumulators, the rows handed to the Rill. -/
def runWaves (t : LFmt) (seed : Nat) : List Wave → List (Option Plane) → Tab W32 → Option Plane × Tab W32 × List RillRow
  | [], held, acc => (held.headD none, acc, [])
  | w :: r, held, acc =>
    let p := planeFor t w held
    let acc := accumulated t seed w p acc
    let y := runWaves t seed r [some p] acc
    (y.1, y.2.1, rillRows w acc ++ y.2.2)

/-- The rows that stand between the arrays and the Rill at most (Table HSK-2). -/
def rillRoom : Nat := 8

/-- Tile `t` leaves the arrays: its accumulators add, after a last K slice its result rows go to the Rill, which takes them as older
ones leave for the store path, and the move engine's position passes to the next tile (R120, R121, R127). -/
def leaveTile (c t : Nat) (s : State) (o : Op) : State × Op :=
  let y := if readsAhead o then (s, o) else drainTo 0 c s o
  let x := coreOf y.1 c
  let ws := wavesOf (opByte y.1 y.2) y.2 t
  let z := runWaves (logOfPrec o.precision) o.desc.seed ws [x.arrays.active, x.arrays.shadow] x.arrays.acc
  drainTo rillRoom c (setCore y.1 c { x with arrays := { x.arrays with
    active := z.1, acc := z.2.1, rill := x.arrays.rill ++ z.2.2, position := t + 1 } }) y.2

/-- `n` tiles from tile `t` on. -/
def runTiles (c : Nat) : Nat → Nat → State → Op → State × Op
  | 0, _, s, o => (s, o)
  | n + 1, t, s, o => let y := leaveTile c t s o; runTiles c n (t + 1) y.1 y.2

/-- What remains of a streaming operation from its next tile to its last row: the tiles, then the rows still in the Rill. -/
def streamRest (c : Nat) (s : State) (o : Op) : State × Op :=
  let y := runTiles c (streamWaves o - o.tile) o.tile s o
  drainTo 0 c y.1 y.2

/-- The data effect of MATMUL, MATMUL_T or CONV from its next tile on. -/
def runStream (opc id : Nat) (s : State) : State :=
  match opOf? s id with
  | none => s
  | some o =>
    if opReady s o opc then
      if o.ins.any (fun r => touchesPoison s r.1 r.2) then endOpAt s o stMEM_ERROR (entryWhere o (fun r => touchesPoison s r.1 r.2))
      else
        let y := streamRest (o.core.getD 0) s o
        finishEff y.1 y.2 { nar := y.2.nar }
    else s

/-- The move engine's position once tile `t` is done. -/
def passTile (c t : Nat) (s : State) : State :=
  let x := coreOf s c
  setCore s c { x with arrays := { x.arrays with position := t + 1 } }

/-- One tile of an operation that executes: of an operation in the arrays its wavefronts; of GATHER and SCATTER its group; of every
other operation the position of the move engine and, where it has outputs, that they have begun, as its data effect is one
(log 6). -/
def runTile (c : Nat) (s : State) (o : Op) : State :=
  let next := fun (x : Op) => { x with tile := o.tile + 1 }
  if streamsRows o.desc.opc then let y := leaveTile c o.tile s o; setOp y.1 (next y.2)
  else if usesArrays o.desc.opc then
    let y := leaveTile c o.tile s o
    setOp y.1 (next { y.2 with wrote := o.wrote || !o.outs.isEmpty })
  else if o.desc.opc = 0x58 ∨ o.desc.opc = 0x59 then
    match (gatherGroups o)[o.tile]? with
    | some x =>
      let y := workGroup s o x
      if y.2.2 then gatherStops y.1 y.2.1 else setOp (passTile c o.tile y.1) (next y.2.1)
    | none => setOp (passTile c o.tile s) (next o)
  else setOp (passTile c o.tile s) (next { o with wrote := o.wrote || !o.outs.isEmpty })

/-- Rows that tile `t` would hand to the Rill. -/
def rowsOf (s : State) (o : Op) (t : Nat) : Nat :=
  (wavesOf (opByte s o) o t).foldl (fun n w => n + (rillRows w []).length) 0

/-- A tile that cannot end now, as rows would have to leave for memory that cannot be written, or a group cannot be written. -/
def tileStalls (s : State) (o : Op) (c : Nat) : Bool :=
  let waiting := (coreOf s c).arrays.rill.length
  if streamsRows o.desc.opc then
    !(memoryOpen s o) && ((!(readsAhead o) && waiting != 0) || decide (rillRoom < waiting + rowsOf s o o.tile))
  else (o.desc.opc == 0x58 || o.desc.opc == 0x59) && !(memoryOpen s o)

/-- The tile of the operation that executes on a core enters its arrays, once its operands are in and no load is pending. -/
def startTile (c : Nat) (s : State) : State :=
  let x := coreOf s c
  match x.exec.bind (opOf? s) with
  | some o =>
    if usesArrays o.desc.opc && x.wave && x.load.isNone && !o.dataDone && inputsIn s o &&
        (readsAhead o || x.arrays.rill.isEmpty || memoryOpen s o) then
      let y := enterTile c o.tile s o
      setOp y.1 y.2
    else s
  | none => s

/-! ### The commands -/

/-- MATMUL: C = tail(A × W) (R208 to R220). -/
def execMatmul (op : Nat) (s : State) : Host.Outcome State Fault Refusal := .next (runStream 0x10 op s)

/-- MATMUL_T: the same with the weights stored transposed (R124). -/
def execMatmulT (op : Nat) (s : State) : Host.Outcome State Fault Refusal := .next (runStream 0x11 op s)

/-- CONV (R337, R338). -/
def execConv (op : Nat) (s : State) : Host.Outcome State Fault Refusal := .next (runStream 0x50 op s)

end Sys2Proof.Machine
end

