-- ==== Sys2Proof/Machine/Route.lean ====
section
/-! DEFINITION. How a message leaves the package (spec/16 R356 to R358, R368, R373, R374; spec/02 R43) and what a hold series suspends
(R363). -/

namespace Sys2Proof.Machine

open Sys2Proof

abbrev mtWRITE : Nat := 0x01
abbrev mtFLAG : Nat := 0x02
abbrev mtREAD_REQ : Nat := 0x03
abbrev mtREAD_RESP : Nat := 0x04
abbrev mtACK : Nat := 0x05
abbrev mtNACK : Nat := 0x06
abbrev mtFLAG_ACK : Nat := 0x07
abbrev mtREADY : Nat := 0x10
abbrev mtSEGMENT : Nat := 0x11
abbrev mtMISMATCH : Nat := 0x12
abbrev mtOPEN : Nat := 0x20
abbrev mtCLOSE : Nat := 0x21
abbrev mtHOLD : Nat := 0x22
abbrev mtPACE : Nat := 0x23
abbrev mtDEPART : Nat := 0x24
abbrev mtJOIN : Nat := 0x25

/-- The ROUTE entry of a destination chip (Table FAB-9). -/
def routeOf (s : State) (chip : Nat) : Nat := rd s (oROUTE + chip / 128) (chip % 128 + 1)

/-- A port that is UP, or was when the root loop was lost: its messages fill its FIFO while its clock is gated (R43, R66). -/
def portOpen (s : State) (n : Nat) : Bool :=
  portUp s n || (portCode s n == 4 && (portOf s n).before == 2 && decide (n < portCount s))

/-- The UP ports of a port group. -/
def groupUp (s : State) (g : Nat) : List Nat :=
  (List.range 16).filter (fun n => (rd s oPORT_GROUP (g + 1)).testBit n && portOpen s n)

/-- The ports a message to a chip may leave by: the UP ports of its group, else of the alternate group (R373). -/
def routePorts (s : State) (chip : Nat) : List Nat :=
  let r := routeOf s chip
  if r.testBit 15 then
    let g := groupUp s (field r 3 0)
    if g.isEmpty && r.testBit 14 then groupUp s (field r 11 8) else g
  else []

/-- The port of a message, chosen by the hash of DST_CTX and XSEQ (R373). -/
def choosePort (s : State) (m : Msg) : Option Nat :=
  let ps := routePorts s m.dstChip
  if ps.isEmpty then none else some (ps.getD (Config.portHash m.dstCtx m.xseq % ps.length) 0)

/-- The virtual channel on which a message leaves by a port: VC1 from a dateline on (R374). -/
def leaveVc (s : State) (port vc : Nat) : Nat := if (rd s oDATELINE 0).testBit port then 1 else vc

/-! ### Lanes (R356, R360) -/

/-- The lanes of a port's transmit direction in the order of a flit's bytes: the spare, 4, stands in the place of the lane it
has taken over. -/
def txLanes (x : Port) : List Nat := (List.range 4).map (fun l => if x.swapped = some l then 4 else l)

/-- A flit striped byte-wise over the four active lanes: byte i goes to the lane at place i mod 4. -/
def stripe (x : Port) (b : List Byte) : List (Nat × List Byte) :=
  (txLanes x).zipIdx.map (fun l => (l.1, (List.range (b.length / 4)).map (fun i => b.getD (4 * i + l.2) 0)))

/-- The bytes of a flit put together again from its lanes. -/
def unstripe (lanes : List (Nat × List Byte)) : List Byte :=
  (List.range (lanes.foldl (fun a l => a + l.2.length) 0)).map (fun i => ((lanes.map (fun l => l.2)).getD (i % 4) []).getD (i / 4) 0)

/-- A flit leaves on a port. -/
def emitFlit (s : State) (n : Nat) (b : List Byte) : State := emit s (.flit n (stripe (portOf s n) b))

/-! ### The boundary FIFO and the replay buffer of a port (R35, R43, R357, R358) -/

/-- The flits of a message as the FIFO holds them. -/
def fifoFlits (vc : Nat) (m : Msg) : List FifoFlit :=
  (msgFlits m).zipIdx.map (fun x => ⟨vc, x.1, if x.2 + 1 = (msgFlits m).length then some m else none⟩)

/-- Whether the link layer takes a flit now: the port UP, room in its replay buffer of 1024 flits, a receive-buffer credit of
the peer on the flit's virtual channel. -/
def linkTakes (s : State) (n : Nat) (f : FifoFlit) : Bool :=
  portUp s n && decide ((portOf s n).replay.length < 1024) &&
    decide (0 < (if f.vc = 1 then (portOf s n).room1 else (portOf s n).room0))

/-- A DATA flit sent and kept in the replay buffer; with its last flit the message has been transmitted. -/
def transmit (s : State) (n : Nat) (f : FifoFlit) : State :=
  let x := portOf s n
  let b := flitBytes 0 f.vc x.txSeq (x.rxSeq + 4095) x.nak (min 255 x.cred0) (min 255 x.cred1) f.payload
  let s := emitFlit (setPort s n { x with
    txSeq := (x.txSeq + 1) % 4096, replay := x.replay ++ [(x.txSeq, b)], nak := false, cred0 := x.cred0 - 255, cred1 := x.cred1 - 255
    room0 := if f.vc = 1 then x.room0 else x.room0 - 1, room1 := if f.vc = 1 then x.room1 - 1 else x.room1 }) n b
  match f.last with
  | some m => emit s (.msg n f.vc m)
  | none => s

/-- Flits sent in the order in which they entered the FIFO, until one cannot go (R43); answers those left. -/
def pumpFlits (n : Nat) : List FifoFlit → State → State × List FifoFlit
  | [], s => (s, [])
  | f :: r, s => if linkTakes s n f then pumpFlits n r (transmit s n f) else (s, f :: r)

/-- A port's FIFO emptied as far as its link allows. -/
def pump (s : State) (n : Nat) : State :=
  let r := pumpFlits n (portOf s n).fifo s
  setPort r.1 n { portOf r.1 n with fifo := r.2 }

/-- Room for a message in a port's FIFO (Table HSK-2). -/
def fifoRoom (s : State) (n : Nat) (m : Msg) : Bool :=
  decide ((portOf s n).fifo.length + (msgFlits m).length ≤ hskCredits .fabricFlit)

/-- A message enters a port's FIFO on the virtual channel it leaves by. -/
def putOnPort (s : State) (n vc : Nat) (m : Msg) : State :=
  pump (setPort s n { portOf s n with fifo := (portOf s n).fifo ++ fifoFlits (leaveVc s n vc) m }) n

/-- The port a waiting message would leave by now. -/
def wayOf (s : State) (w : Waiting) : Option Nat :=
  match w.port with
  | some n => if portTrained s n || portOpen s n then some n else none
  | none => choosePort s w.msg

/-- Whether an earlier message waits for the port: none passes it (R43). -/
def waitsAhead (s : State) (n : Nat) : Bool := s.fabric.stuck.any (fun w => decide (wayOf s w = some n))

/-- A message that waits. -/
def holdBack (s : State) (w : Waiting) : State := { s with fabric := { s.fabric with stuck := s.fabric.stuck ++ [w] } }

/-- The receive-buffer credits of a message in transit, which the port it came by returns with its next flits once the message has left
the buffer (R44, R358). -/
def freeRx (s : State) (w : Waiting) : State :=
  match w.cameBy with
  | some (n, vc) =>
    let x := portOf s n
    let k := (msgFlits w.msg).length
    setPort s n { x with cred0 := if vc = 1 then x.cred0 else x.cred0 + k, cred1 := if vc = 1 then x.cred1 + k else x.cred1 }
  | none => s

/-- A message leaves by its port, or waits for an UP port, for room, or behind an earlier one (R43, R373); to the chip itself
it is delivered internally. -/
def sendWaitingMsg (s : State) (w : Waiting) : State :=
  if w.port = none ∧ w.msg.dstChip = s.fabric.chipId then emit (freeRx s w) (.internal w.msg)
  else
    match wayOf s w with
    | some n => if fifoRoom s n w.msg && !(waitsAhead s n) then putOnPort (freeRx s w) n w.vc w.msg else holdBack s w
    | none => holdBack s w

/-- A message sent by its route. -/
def sendMsg (s : State) (vc : Nat) (m : Msg) : State := sendWaitingMsg s { port := none, vc := vc, msg := m }

/-- The FIFOs go on, and the messages that waited are tried again in order. -/
def unstick (s : State) : State :=
  let s := (List.range 16).foldl pump s
  s.fabric.stuck.foldl sendWaitingMsg { s with fabric := { s.fabric with stuck := [] } }

/-- A message flooded on every trained port but one, on the virtual channel it came by (R374, R391). Its destination field is
left 0 (log 19). -/
def flood (s : State) (skip : Option Nat) (vc : Nat) (m : Msg) : State :=
  ((List.range 16).filter (fun n => portTrained s n && some n != skip)).foldl (fun t n => sendWaitingMsg t { port := some n, vc := vc, msg := m }) s

/-- DEPART with SVC_EPOCH on every trained port whose link layer runs (R111, R391, R465). -/
def departAll (s : State) : State :=
  if s.clock.rootGated then s
  else flood s none 0 { mtype := mtDEPART, srcChip := s.fabric.chipId, aux := rd s oSVC_EPOCH 0 }

/-- Whether the chip is in a hold series (R363): a port in lane repair or gated, or HOLD received. -/
def inHold (s : State) : Bool :=
  s.fabric.holdRx || (List.range 16).any (fun n => portCode s n == 3 || portCode s n == 4)

/-- A hold series begins, unless one is running. -/
def beginHold (s : State) : State :=
  if inHold s then s else { s with fabric := { s.fabric with holdCapped := false } }

/-- The repair of a lane of a port's transmit direction begins (R359, R360). -/
def startLane (s : State) (n lane : Nat) : State :=
  let s := beginHold s
  setPortCode (setPort s n { portOf s n with repairing := some lane }) n 3

/-- The repair of a lane of a port put off while the firmware is switched (R463). -/
def putOffLane (s : State) (n lane : Nat) : State :=
  if s.regr.deferred.any (fun j => match j with
    | .lane n' _ => n' == n
    | _ => false) then s
  else { s with regr := { s.regr with deferred := s.regr.deferred ++ [.lane n lane] } }

/-- Whether transport and collective timers are suspended: in a hold series, until its 100 ms limit. -/
def suspended (s : State) : Bool := inHold s && !s.fabric.holdCapped

end Sys2Proof.Machine
end

