-- ==== Sys2Proof/Machine/Lose.lean ====
section
/-! DEFINITION. What the loss of the compute rails and a reset clear (Table BOOT-2, R93, R94, R452), and the persisted
dictionary at a start (R106, R448). -/

namespace Sys2Proof.Machine

open Sys2Proof

/-- Objects produced by the compute side: they read their Default again once its rails are off (R104). -/
def computeObj (i : Nat) : Bool :=
  i == oMC_DIVISOR || i == oREFRESH_MODE || i == oPORT_STATE || i == oPART_STATE || i == oCOLL_GROUP_STATE ||
    i == oENV_DEMAND || decide (oBOUND_REG ≤ i ∧ i ≤ oBOUND_REG + 0x7F)

/-- Every port goes DOWN, and the sessions that ask for it are told (R441, Table STESTO-5). -/
def portsOff (s : State) : State := (List.range 16).foldl (fun t n => wrNote t 5 oPORT_STATE (n + 1) 0) s

/-- The rails of the compute side go off: memories, queues, operations, flows, tokens, branches, contexts and ports are lost;
the endpoints present no link (R94, Table BOOT-2). The lock and fallback bits of CLK_STATUS stay as they are: no manual says
what they read then (DESIGN CHOICE, log 62). -/
def loseCompute (s : State) : State :=
  let s := loseMemory (portsOff s)
  let s := clearObjs s computeObj
  { s with
    power := { s.power with compute := false, control := false, fullMode := false }
    clock := { s.clock with seqs := [] }
    iqs := [], cqs := [], parts := [], eps := s.eps.map (fun e => (e.1, { perst := e.2.perst })), fns := [], hostHeld := []
    outRecords := [], cores := [], spawn := {}
    weir := { nextOp := s.weir.nextOp }
    fabric := { chipId := s.fabric.chipId, epochs := s.fabric.epochs, departed := s.fabric.departed }
    regr := { s.regr with jobs := [], deferred := [] } }

/-- Delayed replies and Stesto sessions end (R435). -/
def endSessions (s : State) : State :=
  { s with mgmt := { s.mgmt with sessions := [], closing := [], waiting := [] } }

/-- A protective shutdown in the order of Table BASK-5 (R93, R94): dispatch stops and the cause is recorded, DEPART is sent unless
the link layer is gated, ALERT_N and the notification follow, the rails go off. One in progress is not restarted by a second
cause. -/
def protectiveShutdown (s : State) (cause : Nat) : State :=
  if s.power.shutdown || !s.power.good then s
  else
    let s := count32P s oSHUTDOWN_COUNT 0 1
    let s := departAll (wrP s oSHUTDOWN_CAUSE 0 cause)
    let s := notify s 1 oSHUTDOWN_CAUSE 0 cause
    let s := pwrBit s 2 true
    let s := loseCompute s
    { s with power := { s.power with shutdown := true, lowTimer := false, highTimer := false } }

/-! ### The persisted dictionary -/

/-- Whether an object key belongs to the persisted dictionary. -/
def keyPersists (key : Nat) : Bool :=
  match objRow? (key / 256) (key % 256) with
  | some r => r.persist
  | none => false

/-- The newer valid copy (R106). -/
def newerCopy (n : Nv) : Option NvCopy :=
  if n.copyA.valid && n.copyB.valid then (if n.copyB.gen < n.copyA.gen then some n.copyA else some n.copyB)
  else if n.copyA.valid then some n.copyA
  else if n.copyB.valid then some n.copyB
  else none

/-- Entries put into a table. -/
def tabMerge {α : Type} (t : Tab α) : Tab α → Tab α
  | [] => t
  | (k, v) :: r => tabMerge (tabPut t k v) r

/-- The dictionary as it stands in persisted form: values accepted in limited mode are part of it, though they act on nothing
yet (R105). -/
def persistedView (s : State) : State := { s with dict := tabMerge s.dict s.staged, blobs := tabMerge s.blobs s.stagedBlobs }

/-- The accepted values of a range of objects take effect at the step of Table BOOT-1 that uses them (R105). -/
def applyStaged (s : State) (p : Nat → Bool) : State :=
  { s with
    dict := tabMerge s.dict (s.staged.filter (fun e => p (e.1 / 256)))
    blobs := tabMerge s.blobs (s.stagedBlobs.filter (fun e => p (e.1 / 256)))
    staged := s.staged.filter (fun e => !(p (e.1 / 256))), stagedBlobs := s.stagedBlobs.filter (fun e => !(p (e.1 / 256))) }

/-- A commit: the changed objects stored in the older copy, its own count with them (R106, R448). -/
def commit (s : State) : State :=
  let s := wr s oPERSIST_COMMITS 0 (satAdd max32 (rd s oPERSIST_COMMITS 0) 1)
  let c : NvCopy := { valid := true, gen := max s.nv.copyA.gen s.nv.copyB.gen + 1,
                      nums := (persistedView s).dict.filter (fun e => keyPersists e.1)
                      blobs := (persistedView s).blobs.filter (fun e => keyPersists e.1) }
  let overA := s.nv.copyA.valid && s.nv.copyB.valid && decide (s.nv.copyA.gen < s.nv.copyB.gen) || !s.nv.copyA.valid
  if overA then { s with nv := { s.nv with copyA := c, dirty := false } }
  else { s with nv := { s.nv with copyB := c, dirty := false } }

/-- The boot ROM of step 4: the newer valid copy is loaded, or every persisted object returns to its Default; BOOT_FAULT says
which copy was invalid (R106). -/
def bootRom (s : State) : State :=
  let nums := s.dict.filter (fun e => !(keyPersists e.1))
  let blobs := s.blobs.filter (fun e => !(keyPersists e.1))
  let s := { s with staged := [], stagedBlobs := [] }
  match newerCopy s.nv with
  | some c =>
    let s := { s with dict := tabMerge nums c.nums, blobs := tabMerge blobs c.blobs }
    if s.nv.copyA.valid && s.nv.copyB.valid then s else bootFault s 6
  | none => bootFault { s with dict := nums, blobs := blobs } 7

/-! ### Starting (steps 4 to 13) -/

/-- Objects a warm reset returns to their Default: those the sequence of Table BOOT-1 produces anew, and those that report
the compute side. Meters, counters since cold reset and straps are kept (Table BOOT-2); so are the last measured REPLICA_RATE
and REPLICA_MIN, of which Table BOOT-2 says nothing (DESIGN CHOICE, log 62). -/
def warmObj (i : Nat) : Bool :=
  computeObj i || i == oBOOT_STAGE || i == oBOOT_FAULT || i == oBOOT_TIME_MS || i == oRESTORE_STATUS ||
    i == oSTACK_PC_ACTIVE || i == oSTACK_SPARE_FREE || i == oCLK_STATUS || i == oPWR_STATUS || i == oSVC_STATE ||
    i == oPOOL_DEGRADED || i == oFW_BLOCK_SEL || i == oFW_STATE || i == oPART_DISCARD || i == oMGMT_LINK

/-- The straps sampled (R48, R109, R425). -/
def sampleStraps (s : State) (clksel : Bool) (id : Nat) : State :=
  let s := wr s oSTRAPS 0 (id % 32 + (if clksel then 32 else 0))
  let s := wr s oCLK_MODE 0 (if clksel then 1 else 0)
  let s := wr s oPLCA_NODE_ID 0 (id % 32)
  { s with pins := { s.pins with straps := id % 32 + (if clksel then 32 else 0) } }

/-- A device with node ID 0 whose management port is clocked coordinates its segment: it sends beacons for PLCA_NODE_COUNT nodes
(R425). What is emitted says for how many from here on. -/
def sendBeacons (s : State) : State :=
  if s.power.good && s.clock.phyOn && rd s oPLCA_NODE_ID 0 == 0 then emit s (.beacons (rd s oPLCA_NODE_COUNT 0)) else s

/-- Step 4: the boot ROM runs; BOOT_STAGE becomes 4, RESET_CAUSE is recorded, the backup oscillator clocks management, the
firmware bank of FW_BOOT_BANK runs (R50, R96, R463). -/
def bootStart (s : State) (cause : Nat) : State :=
  let s := wrP (bootRom s) oRESET_CAUSE 0 cause
  let s := wr s oCLK_STATUS 0 (rd s oCLK_STATUS 0 / 2 % 2 * 2 + 257)
  let s := wr s oMGMT_LINK 0 (if rd s oPLCA_NODE_ID 0 = 0 then 4 else 0)
  let bank := rd s oFW_BOOT_BANK 0
  let s := wr s oFW_STATE 0 (if (if bank = 0 then s.fw.valid1 else s.fw.valid0) then 2 else 0)
  let s : State := { s with nv := { s.nv with bootNo := (s.nv.bootNo + 1) % 2 ^ 32 }
                            regr := { s.regr with resetAt := s.nowUs }, fw := { s.fw with active := bank } }
  sendBeacons (stage s 4)

/-- The body of a warm reset (R111): changes not yet committed are committed, DEPART is sent, the compute rails go off, every
session closes, the objects of the sequence return to their Default. The boot that follows records `cause`; a pin-control instruction
that stands in the instruction register takes control now (R484). -/
def warmBody (s : State) (cause : Nat) : State :=
  let s := if s.nv.dirty then commit s else s
  let s := loseCompute (endSessions (departAll s))
  let osc := rd s oCLK_STATUS 0 % 4
  let volts := rd s oPWR_STATUS 0 % 4
  let s := clearObjs s warmObj
  let s := wr (wr s oCLK_STATUS 0 osc) oPWR_STATUS 0 volts
  { s with
    power := { good := s.power.good, alertPulse := s.power.alertPulse, lowTimer := s.power.lowTimer,
               highTimer := s.power.highTimer, bootCause := cause }
    clock := { phyOn := s.clock.phyOn }
    mgmt := { s.mgmt with boxes := [], silent := false, addressOk := false }
    fabric := {}
    jtag := { s.jtag with control := s.jtag.control || pinCode s.jtag.ir, hold := if pinCode s.jtag.ir then some 4 else none } }

end Sys2Proof.Machine
end

