-- ==== Sys2Proof/Machine/Boot.lean ====
section
/-! DEFINITION. Input voltage, the power-on sequence and the RESET_N pin (spec/04 R73, R74, R93 to R95; spec/05 R96 to R103,
R109, R111; spec/03 R48 to R56). An event that cannot occur in the present state leaves it unchanged (log 7). -/

namespace Sys2Proof.Machine

open Sys2Proof

/-! ### Input voltage (Table BASK-2) -/

/-- The input level remembered from the command that reports it. -/
def setV48 (s : State) (mv : Nat) : State := { s with pins := { s.pins with v48Mv := mv } }

/-- POWER_GOOD_RISE (R73): straps sampled, and step 4 unless RESET_N is low. -/
def execPowerGoodRise (clksel : Bool) (mgmtId : Nat) (s : State) : Result :=
  .next (if s.power.good then s
    else
      let s := setV48 { s with power := { s.power with good := true, bootCause := 0 } } (max 40000 s.pins.v48Mv)
      let s := sampleStraps s clksel mgmtId
      if s.pins.resetLow then s else bootStart s 0)

/-- Objects whose Default is fused or given by the assembly: no reset changes them (Tables PKG-7, STESTO-9, REGR-6). -/
def fusedObj (i : Nat) : Bool :=
  i == oPKG_VARIANT || i == oSERIAL || i == oDEVICE_SERIAL || i == oPCI_IDS ||
    i == oSTEPPING || i == oROM_VERSION || i == oMGMT_MAC || i == oROW_SPARE_FREE || i == oFW_ROLLBACK_MIN

/-- COLD_RESET (R73, R110, Table BASK-2): the management rail is lost; what survives is the persisted dictionary, the repair
map, the flash and what is fused, and beside the package the host's memory and the levels of its pins. What was poisoned is so no
more: below 30 V all state but the persisted objects is lost (Table BASK-2). -/
def execColdReset (s : State) : Result :=
  .next { State.reset with
    pending := s.pending
    dict := s.dict.filter (fun e => fusedObj (e.1 / 256))
    blobs := s.blobs.filter (fun e => fusedObj (e.1 / 256))
    pins := { s.pins with v48Mv := 0 }
    nv := { s.nv with dirty := false }
    mgmt := { nonces := s.mgmt.nonces }
    fw := { s.fw with active := 0 }
    weir := { nextOp := s.weir.nextOp }
    eps := s.eps.map (fun e => (e.1, { perst := e.2.perst }))
    mem := { host := s.mem.host, epoch := s.mem.epoch + 1, free := s.mem.free }
    nowUs := s.nowUs
    out := s.out }

/-- V48_UNDER: 30 V to below 36 V (Table BASK-2). Before power good a level only keeps the management rail up (Table BASK-1). -/
def execV48Under (mv : Nat) (s : State) : Result :=
  .next (if 30000 ≤ mv ∧ mv < 36000 then
      if s.power.good then protectiveShutdown (setV48 s mv) 3 else setV48 s mv
    else s)

/-- V48_LOW: 36 V to below 40 V; the 10 ms limit runs. -/
def execV48Low (mv : Nat) (s : State) : Result :=
  .next (if 36000 ≤ mv ∧ mv < 40000 then
      if s.power.good then
        let s := pwrBit (pwrBit (setV48 s mv) 1 false) 0 true
        { s with power := { s.power with lowTimer := true, highTimer := false } }
      else setV48 s mv
    else s)

/-- V48_LOW_TIMEOUT: the condition lasted 10 ms. -/
def execV48LowTimeout (s : State) : Result :=
  .next (if s.power.lowTimer then protectiveShutdown { s with power := { s.power with lowTimer := false } } 3 else s)

/-- V48_HIGH: above 60 V to 63 V; the 1 ms limit runs. -/
def execV48High (mv : Nat) (s : State) : Result :=
  .next (if s.power.good ∧ 60000 < mv ∧ mv ≤ 63000 then
      let s := pwrBit (pwrBit (setV48 s mv) 0 false) 1 true
      { s with power := { s.power with highTimer := true, lowTimer := false } }
    else s)

/-- V48_HIGH_TIMEOUT: the condition lasted 1 ms. -/
def execV48HighTimeout (s : State) : Result :=
  .next (if s.power.highTimer then protectiveShutdown { s with power := { s.power with highTimer := false } } 4 else s)

/-- V48_OVER: above 63 V. -/
def execV48Over (mv : Nat) (s : State) : Result :=
  .next (if s.power.good ∧ 63000 < mv then protectiveShutdown (setV48 s mv) 4 else s)

/-- V48_NORMAL: 40 V to 60 V. -/
def execV48Normal (mv : Nat) (s : State) : Result :=
  .next (if s.power.good ∧ 40000 ≤ mv ∧ mv ≤ 60000 then
      let s := pwrBit (pwrBit (setV48 s mv) 0 false) 1 false
      { s with power := { s.power with highTimer := false, lowTimer := false } }
    else s)

/-! ### Restart from a shutdown (R95) -/

/-- A signed 32-bit temperature in 0.1 °C. -/
def tempOf (w : Nat) : Int := if w < 2 ^ 31 then (w : Int) else (w : Int) - ((2 ^ 32 : Nat) : Int)

/-- Every quadrant and stack below its WARM threshold, none with a failed sensor. -/
def packageCool (s : State) : Bool :=
  rd s oBASK_FAULT 0 == 0 && (List.range 8).all (fun i =>
    decide (tempOf (rd s oQUAD_TEMP (i + 1)) < ((rd s oSTACK_WARM_C 0 + 10) * 10 : Nat)) &&
      (!(stackFitted s i) || decide (tempOf (rd s oSTACK_TEMP (i + 1)) < (rd s oSTACK_WARM_C 0 * 10 : Nat))))

/-- SHUTDOWN_RESTART: a requested restart, held until the package is cool and V48_IN within 40 to 60 V (R95, R111). -/
def execShutdownRestart (s : State) : Result :=
  .next (match s.power.held with
    | some cause =>
      if s.power.shutdown ∧ s.power.good ∧ packageCool s ∧ 40000 ≤ s.pins.v48Mv ∧ s.pins.v48Mv ≤ 60000 ∧ !s.pins.resetLow then
        bootStart (warmBody s cause) cause
      else s
    | none => s)

/-! ### Steps 5 to 8 -/

/-- The sequence stands at a step and is not halted, RESET_N is high and no shutdown holds. -/
def atStage (s : State) (v : Nat) : Bool :=
  s.power.good && !s.pins.resetLow && !s.power.halted && !s.power.shutdown && rd s oBOOT_STAGE 0 == v

/-- A step that would bring BOOT_STAGE to `v` may run: the test port does not hold the sequence before it (R484). -/
def mayReach (s : State) (v : Nat) : Bool :=
  match s.jtag.hold with
  | some h => decide (v ≤ h)
  | none => true

/-- CRYSTAL_OSCILLATION (R54): the detector reports, from the first oscillation on; the 10BASE-T1S port is clocked. -/
def execCrystalOscillation (s : State) : Result :=
  .next (
    let s := clkBit s 1 true
    let t : State := { s with clock := { s.clock with phyOn := true } }
    if s.clock.phyOn then t else sendBeacons t)

/-- REFERENCE_QUALIFIED (R51, step 6). -/
def execReferenceQualified (s : State) : Result :=
  .next (if atStage s 4 ∧ mayReach s 6 ∧ (rd s oCLK_MODE 0 = 1 ∨ clkIs s 1) then stage (clkBit s 2 true) 6 else s)

/-- REF_FAULT (R52): the sequence halts. -/
def execRefFault (s : State) : Result :=
  .next (if atStage s 4 ∧ mayReach s 6 then
      let s := clkBit s 6 true
      { s with power := { s.power with halted := true } }
    else s)

/-- LOOPS_LOCKED (R55, R56, step 7): root loop, ML0 and ML1; management leaves the backup oscillator (R50). -/
def execLoopsLocked (s : State) : Result :=
  .next (if atStage s 6 ∧ mayReach s 7 then stage (clkBit (clkBit (clkBit (clkBit s 3 true) 4 true) 5 true) 8 false) 7 else s)

/-- LOOP_LOCK_FAILURE (R97): LOCK in BOOT_FAULT; the sequence halts. -/
def execLoopLockFailure (s : State) : Result :=
  .next (if atStage s 6 ∧ mayReach s 7 then
      let s := bootFault s 0
      { s with power := { s.power with halted := true } }
    else s)

/-- Every quadrant's rail at the P7 voltage with the P7 divisor (R57, R100). -/
def startQuads (s : State) : State :=
  (List.range 8).foldl (fun t q => storeDivisor (setSeq t q { level := 7, phase := .idle, railMv := railOf 7 }) q 7) s

/-- COMPUTE_RAILS_IN_REGULATION (R72, R100, step 8), unless the test port holds it (R484). -/
def execComputeRailsInRegulation (s : State) : Result :=
  .next (if atStage s 7 ∧ mayReach s 8 then
      let s := startQuads s
      let s := storeRefreshAll { s with power := { s.power with compute := true, control := true } }
      stage s 8
    else s)

/-- RAIL_FAILURE (R97): RAIL in BOOT_FAULT; the sequence halts. -/
def execRailFailure (s : State) : Result :=
  .next (if atStage s 7 ∧ mayReach s 8 then
      let s := bootFault s 1
      { s with power := { s.power with halted := true } }
    else s)

/-! ### Self test and training (R101 to R103) -/

/-- The quadrant 4d + q in which a logical core is placed when nothing is repaired. -/
def homeQuad (c : Nat) : Nat := (physHome c / 68) * 4 + (physHome c % 68) / 17

/-- A logical core mapped onto a spare by R27, or retired without replacement. -/
def remapCore (s : State) (c : Nat) : State :=
  match spareChoice s (homeQuad c) with
  | some ph => addRepair s (.core c ph)
  | none => addRepair s (.coreRetired c)

/-- The logical cores whose physical core is among those failed, remapped (R27, R102). Of several that fail at once the
lower core number is served first, as spec/19, "When things coincide", says of two cores and one free spare; that BIST_CORE tells
only of a core that fails at this start, not of one retired before, is the model's choice (DESIGN CHOICE, log 62). -/
def bistCores (failed : List Nat) : List Nat → State → State
  | [], s => s
  | c :: r, s =>
    if !(coreRetired s c) && failed.contains (physOf s c) then
      let s := remapCore s c
      bistCores failed r (if coreRetired s c then bootFault s 2 else s)
    else bistCores failed r s

/-- Failed spares that run no core, recorded. -/
def bistSpares (s : State) (failed : List Nat) : State :=
  (failed.filter (fun ph => ph % 17 == 16 && !(s.nv.repair.any (takesSpare ph)))).foldl
    (fun t ph => addRepair t (.badSpare ph)) s

/-- Failed spare Pool banks, 50 d + 48 and 50 d + 49, that hold nothing, recorded. -/
def bistSpareBanks (s : State) (failed : List Nat) : State :=
  (failed.filter (fun ph => decide (48 ≤ ph % 50) && !(s.nv.repair.any (takesBank (ph / 50) (ph % 50))))).foldl
    (fun t ph => addRepair t (.bankRemoved (ph / 50) (ph % 50))) s

/-- Pool bank `x.2` of die `x.1`: where its physical bank failed, a spare bank takes its place, or it leaves the Pool (R102). BIST_POOL
tells only of a bank that fails at this start (DESIGN CHOICE, log 62). -/
def bistBank (failed : List Nat) (s : State) (x : Nat × Nat) : State :=
  if !(bankRemoved s x.1 x.2) && failed.contains (50 * x.1 + bankIn s.nv.repair x.1 x.2 x.2) then
    match bankSpares s x.1 with
    | sp :: _ => addRepair s (.bank x.1 x.2 sp)
    | [] => bootFault (addRepair s (.bankRemoved x.1 x.2)) 3
  else s

/-- Every Pool bank of the two dies. -/
def poolBanks : List (Nat × Nat) := [0, 1].flatMap (fun d => (List.range 48).map (fun b => (d, b)))

/-- BUILT_IN_SELF_TEST (R101, R102, step 9) with the physical cores 68 d + 17 q + i and Pool banks 50 d + b that fail; failed
spares are ruled out before they could be chosen. -/
def execBuiltInSelfTest (failedCores failedBanks : List Nat) (s : State) : Result :=
  .next (if atStage s 8 then
      let s := bistSpares s failedCores
      let s := bistCores failedCores (List.range 128) s
      let s := poolBanks.foldl (bistBank failedBanks) (bistSpareBanks s failedBanks)
      stage s 9
    else s)

/-- One pseudo-channel that failed: onto a free spare, else retired (R103). -/
def retireChannel (s : State) (k c : Nat) : State :=
  if (deadChannels s k).contains c then s
  else if (idleChannels s k).contains c then addRepair s (.channelRetired k c)
  else
    match idleChannels s k with
    | sp :: _ => addRepair s (.channel k c sp)
    | [] => addRepair s (.channelRetired k c)

/-- Training of one stack with the physical channels that fail: failed spares first, then the rest (R103). DRAM_TRAIN is set
whenever fewer than 32 channels of the stack are active, also where they were retired at an earlier time (DESIGN CHOICE,
log 62). -/
def trainStack (failed : List (Nat × Nat)) (s : State) (k : Nat) : State :=
  if !(stackFitted s k) then wr (wr s oSTACK_PC_ACTIVE (k + 1) 0) oSTACK_SPARE_FREE (k + 1) 0
  else
    let f := (failed.filter (fun x => x.1 == k)).map (fun x => x.2)
    if (List.range 34).all (fun c => f.contains c || (deadChannels s k).contains c) then
      bootFault (wr (wr s oSTACK_PC_ACTIVE (k + 1) 0) oSTACK_SPARE_FREE (k + 1) 0) 5
    else
      let s := (f.filter (fun c => (idleChannels s k).contains c)).foldl (fun t c => retireChannel t k c) s
      let s := storeChannels (f.foldl (fun t c => retireChannel t k c) s) k
      if rd s oSTACK_PC_ACTIVE (k + 1) < 32 then bootFault s 4 else s

/-- Every fitted fabric port begins to train (step 12). -/
def startPorts (s : State) : State :=
  ((List.range 16).filter (fun n => decide (n < portCount s))).foldl (fun t n => setPortCode t n 1) s

/-- DRAM_TRAINING (R103, R158, R159, step 10) with the pairs (stack, physical channel) that fail. -/
def execDramTraining (failed : List (Nat × Nat)) (s : State) : Result :=
  .next (if atStage s 9 then startPorts (stage ((List.range 8).foldl (trainStack failed) s) 10) else s)

/-! ### PCIe links (R395, R99, step 11) -/

/-- An endpoint is fitted (R17). -/
def epFitted (s : State) (ep : Nat) : Bool := ep == 0 || (ep == 1 && twoX s)

/-- Link training can complete: step 8 done, PERSTn_N high, the PCIe core clocked. -/
def epTrains (s : State) (ep : Nat) : Bool :=
  epFitted s ep && s.power.compute && decide (8 ≤ rd s oBOOT_STAGE 0) && !(epOf s ep).perst && !s.clock.rootGated

/-- PCIE_LINK_TRAINING (R395): width x16, x8 or x4, 2.5 to 64 GT/s, Flit mode only. -/
def execPcieLinkTraining (ep width rateMt : Nat) (flit : Bool) (s : State) : Result :=
  .next (if epTrains s ep ∧ flit ∧ (width = 16 ∨ width = 8 ∨ width = 4) ∧ 2500 ≤ rateMt ∧ rateMt ≤ 64000 then
      setEp s ep { epOf s ep with linkUp := true, width := width, rateMt := rateMt }
    else s)

/-- PERST_DEASSERT: PERSTn_N of the endpoint is high again. -/
def execPerstDeassert (ep : Nat) (s : State) : Result :=
  .next (if epFitted s ep then setEp s ep { epOf s ep with perst := false } else s)

/-- PCIE_LINK_LOSS: BOOT_STAGE stays as it is (R98). -/
def execPcieLinkLoss (ep : Nat) (s : State) : Result :=
  .next (if (epOf s ep).linkUp then setEp s ep { epOf s ep with linkUp := false, width := 0, rateMt := 0 } else s)

/-! ### What a function shows the host (R396, R397, Tables HOST-1 and HOST-2) -/

/-- Class code and Device ID of a function; vendor and subsystem numbers are PCI_IDS. -/
def classCode : Nat := 0x120000
def deviceIdOf (fn : Nat) : Nat := if fn % 256 = 0 then 0x4E0D else 0x4E0E

/-- The capabilities of Table HOST-1. -/
inductive Capability where
  | powerManagement
  | pciExpress
  | msix
  | sriov
  | ari
  | aer
  | serialNumber
  | link
deriving DecidableEq, Repr

/-- Whether a function has a capability; the link capabilities stand on function 0 only. -/
def hasCapability (fn : Nat) : Capability → Bool
  | .pciExpress => true
  | .msix => true
  | .ari => true
  | .aer => true
  | _ => fn % 256 == 0

/-- SR-IOV of a PF: TotalVFs, VF offset, VF stride. -/
def sriovNumbers : Nat × Nat × Nat := (127, 1, 1)

/-- Bytes of BAR0 and of BAR2, both 64-bit and non-prefetchable; the PBA lies at half of BAR2. -/
def bar0Bytes : Nat := 0x80000
def bar2Bytes (fn : Nat) : Nat := if fn % 256 = 0 then 0x10000 else 0x1000

/-- The low and the high half of a 64-bit non-prefetchable memory BAR with a base address (R397): its type bits are 64-bit memory, not
prefetchable. -/
def barLow (base : Nat) : Nat := base % 2 ^ 32 + 4
def barHigh (base : Nat) : Nat := base / 2 ^ 32 % 2 ^ 32

/-- A base address as a BAR of a size holds it: the bits below the size read zero. -/
def barBase (bytes base : Nat) : Nat := base % 2 ^ 64 / bytes * bytes

/-- 32 bits of a function's header: vendor and Device ID, class code, BARs, subsystem numbers at the places of the PCI header
(R396, R397, PRESUMED, log 58); the low byte beside the class code and every other register are not the manual's. -/
def cfgRead (s : State) (fn reg : Nat) : Nat :=
  let ids := rd s oPCI_IDS 0
  match reg / 4 * 4 with
  | 0x00 => deviceIdOf fn * 65536 + field ids 15 0
  | 0x08 => classCode * 256 + Config.cfgHeader fn 8 % 256
  | 0x10 => barLow (fnOf s fn).bar0
  | 0x14 => barHigh (fnOf s fn).bar0
  | 0x18 => barLow (fnOf s fn).bar2
  | 0x1C => barHigh (fnOf s fn).bar2
  | 0x2C => field ids 63 32 / 65536 * 65536 + field ids 47 32
  | r => Config.cfgHeader fn r % 2 ^ 32

/-- What a configuration request returns: a read its data; the Device Serial Number of a PF, the value of DEVICE_SERIAL. -/
def configData (s : State) (fn : Nat) : CfgReq → Nat
  | .read reg => cfgRead s fn reg
  | .serial => if hasCapability fn .serialNumber then rd s oDEVICE_SERIAL 0 else 0
  | _ => 0

/-- A function in D0 that the host can reach: the PF, or a VF that it has enabled (log 58). -/
def fnOn (s : State) (fn : Nat) : Bool :=
  (epOf s (fn / 256)).linkUp && !(fnOf s fn).d3 && (fn % 256 == 0 || decide (fn % 256 ≤ (fnOf s (fn / 256 * 256)).vfs))

/-- What a configuration request, or an access to the MSI-X table, makes of a function (R396, R399, R415, log 58). -/
def configure (s : State) (fn : Nat) (req : CfgReq) : State :=
  let f := fnOf s fn
  match req with
  | .read _ => s
  | .serial => s
  | .bar n base =>
    if n = 0 then setFn s fn { f with bar0 := barBase bar0Bytes base }
    else if n = 2 then setFn s fn { f with bar2 := barBase (bar2Bytes fn) base }
    else s
  | .power d3 => if hasCapability fn .powerManagement then setFn s fn { f with d3 := d3 } else s
  | .msix enable mask => flushMsix (setFn s fn { f with msixEnable := enable, msixMask := mask }) fn
  | .vector v addr data masked =>
    if !(fnOn s fn) || decide (msixVectors fn ≤ v) then s
    else flushMsix (setFn s fn { f with vectors := tabPut f.vectors v { addr := addr, data := data, masked := masked } }) fn
  | .payload bytes => setFn s fn { f with payload := bytes }
  | .vfs n => if hasCapability fn .sriov && f.vfs == 0 && decide (n ≤ sriovNumbers.1) then setFn s fn { f with vfs := n } else s

/-- A configuration request answered (R99): Request Retry Status until step 13 completes, then a normal answer. -/
def configNow (s : State) (fn : Nat) (req : CfgReq) : State :=
  if rd s oBOOT_STAGE 0 = 13 then emit (configure s fn req) (.config fn true (configData s fn req)) else emit s (.config fn false)

/-- A request of the host that arrives while the PCIe core is gated; it is completed after the relock (R69). -/
def holdHost (s : State) (r : HostReq) : State := { s with hostHeld := s.hostHeld ++ [r] }

/-- CONFIG_REQUEST (R69, R99). -/
def execConfigRequest (fn : Nat) (s : State) (req : CfgReq := .read) : Result :=
  .next (if (epOf s (fn / 256)).linkUp ∧ fn % 256 ≤ 127 then
      if s.clock.rootGated then holdHost s (.config fn req) else configNow s fn req
    else s)

/-! ### RESET_N (R111) -/

/-- RESET_N_ASSERT: a warm reset begins; after a shutdown the restart is requested and held (R95). -/
def execResetNAssert (s : State) : Result :=
  .next (if s.pins.resetLow then s
    else
      let s := { s with pins := { s.pins with resetLow := true } }
      if !s.power.good then s
      else if s.power.shutdown then { s with power := { s.power with held := some 1 } }
      else warmBody s 1)

/-- RESET_N_DEASSERT: the straps are sampled; the sequence runs from step 4 (R109, R111). -/
def execResetNDeassert (clksel : Bool) (mgmtId : Nat) (s : State) : Result :=
  .next (if !s.pins.resetLow then s
    else
      let s := { s with pins := { s.pins with resetLow := false } }
      if !s.power.good then s
      else
        let s := sampleStraps s clksel mgmtId
        if s.power.shutdown then s else bootStart s s.power.bootCause)

end Sys2Proof.Machine
end

