-- ==== Sys2Proof/Machine/Clocks.lean ====
section
/-! DEFINITION. Loops, references and sequencers in service (spec/03 R57 to R71, Table CLK-5), and the contained error of chip
scope (R451). -/

namespace Sys2Proof.Machine

open Sys2Proof

/-! ### Contained error of chip scope (R451) -/

/-- An admitted, unreleased operation completed by a contained error of chip scope, whatever it had come to (R451). -/
def chipEnds (s : State) (o : Op) : State := endOp s o stMEM_ERROR

/-- ROOT_LOCK 1, MEM_LOCK 2, REF_LOST 3. Each one is raised, logged and counted; the first stops dispatch, sends DEPART where the
link layer runs and completes every unreleased operation MEM_ERROR while the PCIe core runs. The device stays in limited mode
with DRAM in self-refresh. -/
def chipError (s : State) (cause : Nat) : State :=
  let s := contained s 9 cause 0 0 0
  if s.power.chipError then s
  else
    let s := departAll { s with power := { s.power with chipError := true, fullMode := false } }
    let s := storeRefreshAll s
    if s.clock.rootGated then s else forOps (opIds s (fun _ => true)) chipEnds s

/-! ### Loss of lock and relock (Table CLK-5) -/

/-- LOSS_COUNT entry raised. -/
def countLoss (s : State) (i : Nat) : State := count32 s oLOSS_COUNT (i + 1) 1

/-- Every trained port gated, its state remembered. -/
def gatePorts (s : State) : State :=
  let ns := (List.range 16).filter (portTrained s)
  ns.foldl (fun t n => setPortCode (setPort t n { portOf t n with before := portCode t n }) n 4)
    (if ns.isEmpty then s else beginHold s)

/-- Every gated port back in its former state. -/
def ungatePorts (s : State) : State :=
  ((List.range 16).filter (fun n => portCode s n == 4)).foldl (fun t n => setPortCode t n (portOf t n).before) s

/-- LOSS_OF_LOCK_ROOT (R64, R66): fabric, PCIe and controller logic gated, management on the backup oscillator, every stack in
self-refresh. -/
def execLossOfLockRoot (s : State) : Result :=
  .next (if clkIs s 3 then
      let s := countLoss (clkBit (clkBit s 3 false) 8 true) 0
      let s := gatePorts { s with clock := { s.clock with rootGated := true } }
      storeRefreshAll s
    else s)

/-- The relock flag of a memory loop. -/
def setRelock (s : State) (die : Nat) (b : Bool) : State :=
  if die = 0 then { s with clock := { s.clock with relock0 := b } } else { s with clock := { s.clock with relock1 := b } }

/-- LOSS_OF_LOCK_MEMORY (R64, R67): that die's interface on the 400 MHz fallback, its stacks in self-refresh. -/
def execLossOfLockMemory (die : Nat) (s : State) : Result :=
  .next (if die < 2 ∧ clkIs s (4 + die) then
      let s := countLoss (clkBit (clkBit s (4 + die) false) 9 true) (1 + die)
      storeRefreshAll (setRelock s die true)
    else s)

/-- The crystal has stopped: its detector tells it and the management port falls silent (R54, R71). -/
def crystalStops (s : State) : State :=
  let s := clkBit s 1 false
  { s with clock := { s.clock with phyOn := false } }

/-- REF_LOST (R65): the reference has stopped, or has left its range and still runs. REF_QUAL stays as it was (DESIGN CHOICE,
log 62). In XTAL mode a reference that has stopped is the crystal, whether REF_LOST is set already or the reference has not been
qualified yet: the management port falls silent and ALERT_N is asserted (R54, R71). -/
def execRefLost (s : State) (stopped : Bool := false) : Result :=
  .next (
    let s := if clkIs s 2 ∧ !clkIs s 7 then clkBit s 7 true else s
    if stopped ∧ rd s oCLK_MODE 0 = 0 ∧ s.power.good then crystalStops s else s)

/-- Whether a memory loop is being relocked, and whether its attempts have failed. -/
def relocking (s : State) (die : Nat) : Bool := if die = 0 then s.clock.relock0 else s.clock.relock1
def relockFailed (s : State) (die : Nat) : Bool := if die = 0 then s.clock.failed0 else s.clock.failed1

/-- Attempts to relock still run. -/
def attemptsRun (s : State) : Bool :=
  (s.clock.rootGated && !s.clock.rootFailed) || (relocking s 0 && !(relockFailed s 0)) || (relocking s 1 && !(relockFailed s 1))

/-- The failures not yet raised (R71): with REF_LOST set one error when the last attempt has ended, cause REF_LOST; without it
an error for each loop. -/
def settle (s : State) : State :=
  let c := s.clock
  let done : State := { s with clock := { c with rootNoted := false, noted0 := false, noted1 := false } }
  if !(c.rootNoted || c.noted0 || c.noted1) then s
  else if clkIs s 7 then (if attemptsRun s then s else chipError done 3)
  else
    let t := if c.rootNoted then chipError done 1 else done
    let t := if c.noted0 then chipError t 2 else t
    if c.noted1 then chipError t 2 else t

/-- The controllers take the line requests that wait in their boundary FIFOs, and reserve return space for each (R43, R45). -/
def takeReads (s : State) : State :=
  if s.clock.rootGated then s
  else { s with mem := { s.mem with reads := s.mem.reads.map (fun r => { r with reserved := true }) } }

/-- The root loop has locked again (R66): the divisor of the effective level is set before ungating; a reference that lets the
loop lock is no longer lost; the stacks leave self-refresh and the controllers take the requests and writes that waited; the
operations that a contained error of chip scope found while the PCIe core was gated complete now that it runs (R451). -/
def rootRelocked (s : State) : State :=
  let s := (List.range 8).foldl (fun t q => if t.power.compute then storeDivisor t q (effLevel t q) else t) s
  let s := clkBit (clkBit (clkBit s 3 true) 8 false) 7 false
  let s := ungatePorts { s with clock := { s.clock with rootGated := false } }
  let s := retryWaits (takeReads (unstick (storeRefreshAll s)))
  settle (if s.power.chipError then forOps (opIds s (fun _ => true)) chipEnds s else s)

/-- ROOT_RELOCK_FAIL (R66, R71). -/
def execRootRelockFail (s : State) : Result :=
  .next (if s.clock.rootGated ∧ !s.clock.rootFailed then
      settle { s with clock := { s.clock with rootFailed := true, rootNoted := true } }
    else s)

/-- MEM_RELOCK (R67): the interface returns to its loop, the stacks leave self-refresh. -/
def execMemRelock (die : Nat) (s : State) : Result :=
  .next (if die < 2 ∧ relocking s die ∧ !relockFailed s die then
      let s := setRelock (clkBit s (4 + die) true) die false
      let s := if s.clock.relock0 || s.clock.relock1 then s else clkBit s 9 false
      settle (storeRefreshAll (clkBit s 7 false))
    else s)

/-- MEM_RELOCK_FAIL (R67, R71): the stacks keep their contents in self-refresh. -/
def execMemRelockFail (die : Nat) (s : State) : Result :=
  .next (if die < 2 ∧ relocking s die ∧ !relockFailed s die then
      settle (if die = 0 then { s with clock := { s.clock with failed0 := true, noted0 := true } }
        else { s with clock := { s.clock with failed1 := true, noted1 := true } })
    else s)

/-! ### Effective P-levels (R58) -/

/-- A sequencer whose up step Bask's demand overtakes before its divisor has changed turns its rail back (spec/03, "When things
coincide"); any other demand is read again after the completed step (R61). -/
def turnBack (s : State) (q : Nat) : State :=
  let x := seqOf s q
  if (x.phase = .rampUp ∨ x.phase = .settle) ∧ x.level ≤ baskDemand s q then setSeq s q { x with phase := .rampBack } else s

/-- A quadrant held below software's request by the envelope or Bask (R81). -/
def heldBelow (s : State) (q : Nat) : Bool := decide (rd s oPLEVEL_REQ (q + 1) < effLevel s q)

/-- THROTTLED noted for the operations executing in such a quadrant (R81). -/
def markThrottled (s : State) : State :=
  { s with weir := { s.weir with ops := s.weir.ops.map (fun o =>
      match o.core with
      | some c => if executing o && heldBelow s (quadOf s c) then { o with throttled := true } else o
      | none => o) } }

/-- What follows a change of any demand. -/
def demandChanged (s : State) : State := markThrottled ((List.range 8).foldl turnBack s)

/-! ### The sequencer (R57, R59 to R63) -/

/-- The sequencer of a quadrant can act: compute powered, the root-fed domains running. -/
def seqRuns (s : State) (q : Nat) : Bool := decide (q < 8) && s.power.compute && !s.clock.rootGated

/-- SEQUENCER_STEP_UP (R59, R61): the rail begins to rise to the next level's voltage. -/
def execSequencerStepUp (q : Nat) (s : State) : Result :=
  .next (if seqRuns s q ∧ (seqOf s q).phase = .idle ∧ effLevel s q < (seqOf s q).level then
      setSeq s q { seqOf s q with phase := .rampUp }
    else s)

/-- SEQUENCER_STEP_DOWN (R60, R63): the divisor first, then the rail begins to fall. -/
def execSequencerStepDown (q : Nat) (s : State) : Result :=
  .next (if seqRuns s q ∧ (seqOf s q).phase = .idle ∧ (seqOf s q).level < effLevel s q then
      storeDivisor (setSeq s q { seqOf s q with phase := .rampDown }) q ((seqOf s q).level + 1)
    else s)

/-- RAIL_RAMP_DONE (R62): the rail has reached its voltage. -/
def execRailRampDone (q : Nat) (s : State) : Result :=
  .next (if seqRuns s q then
      let x := seqOf s q
      match x.phase with
      | .rampUp => setSeq s q { x with phase := .settle, railMv := railOf (x.level - 1) }
      | .rampBack => setSeq s q { x with phase := .idle, railMv := railOf x.level }
      | .rampDown => setSeq s q { x with phase := .wait, level := x.level + 1, railMv := railOf (x.level + 1) }
      | _ => s
    else s)

/-- RAIL_SETTLE_END (R59, R63): the 2 µs settle ends; the divisor changes and the step is complete. -/
def execRailSettleEnd (q : Nat) (s : State) : Result :=
  .next (if seqRuns s q ∧ (seqOf s q).phase = .settle then
      let x := seqOf s q
      storeDivisor (setSeq s q { x with phase := .idle, level := x.level - 1 }) q (x.level - 1)
    else s)

/-- STEP_DOWN_WAIT_END (R60, R61): the 1 µs wait after a step down ends. -/
def execStepDownWaitEnd (q : Nat) (s : State) : Result :=
  .next (if seqRuns s q ∧ (seqOf s q).phase = .wait then setSeq s q { seqOf s q with phase := .idle } else s)

end Sys2Proof.Machine
end

