-- ==== Sys2Proof/Machine/Tokens.lean ====
section
/-! DEFINITION. Tokens and flows (spec/11 R228 to R238). -/

namespace Sys2Proof.Machine

open Sys2Proof

/-- A token that a partition may name (R228). -/
def tokenOf (s : State) (p t : Nat) : Bool :=
  decide (t ≠ 0 ∧ rd s oTOKEN_BASE (p + 1) ≤ t ∧ t < rd s oTOKEN_BASE (p + 1) + rd s oTOKEN_COUNT (p + 1))

/-- One of its counting tokens: the highest TOKEN_COUNTING numbers. -/
def tokenCounts (s : State) (p t : Nat) : Bool :=
  tokenOf s p t &&
    decide (rd s oTOKEN_BASE (p + 1) + rd s oTOKEN_COUNT (p + 1) - rd s oTOKEN_COUNTING (p + 1) ≤ t)

/-- A flow that a partition may name (R233). -/
def flowOf (s : State) (p f : Nat) : Bool :=
  decide (rd s oFLOW_BASE (p + 1) ≤ f ∧ f < rd s oFLOW_BASE (p + 1) + rd s oFLOW_COUNT (p + 1))

/-- Every token waited on is satisfied. -/
def waitsMet (o : Op) : Bool := o.waits.all (fun w => w.satisfied)

/-- Whether an operation still waits on a counting token. -/
def wantsCount (t : Nat) (o : Op) : Bool :=
  o.phase == .waiting && o.waits.any (fun w => w.counting && w.token == t && !w.satisfied)

/-- A counting token's count handed to its waiters in admission order, one each (R230). -/
def serveCount (t : Nat) : List Op → Nat → List Op × Nat
  | [], n => ([], n)
  | o :: r, n =>
    if wantsCount t o ∧ 0 < n then
      let x := serveCount t r (n - 1)
      ({ o with waits := o.waits.map (fun w => if w.counting && w.token == t then { w with satisfied := true } else w) } :: x.1,
       x.2)
    else
      let x := serveCount t r n
      (o :: x.1, x.2)

/-- The waiters of a counting token served. -/
def serveToken (s : State) (t : Nat) : State :=
  let x := serveCount t s.weir.ops (tabGet 0 s.weir.counts t)
  { s with weir := { s.weir with ops := x.1, counts := tabPut s.weir.counts t x.2 } }

/-- One added to a counting token, saturating at 65,535, and its waiters served (R230). -/
def signalCount (s : State) (t : Nat) : State :=
  serveToken { s with weir := { s.weir with counts := tabPut s.weir.counts t (satAdd 65535 (tabGet 0 s.weir.counts t) 1) } } t

/-- Whether an admitted, unreleased operation before number `id` signals an event token. -/
def producersLeft (s : State) (p t id : Nat) : Bool :=
  s.weir.ops.any (fun o => o.part == p && o.desc.signal == t && decide (o.id < id))

/-- Where the marks of a partition's token stand: only a producer of the partition satisfies its waiters (R229). -/
def markKey (p t : Nat) : Nat := 65536 * p + t

/-- Whether a producer of a partition's event token in a flow has released with a failure mark (R237, R238). -/
def markedFlow (s : State) (p t flow : Nat) : Bool := (tabGet [] s.weir.marks (markKey p t)).contains flow

/-- The waits of a descriptor at admission: an event token without an unreleased earlier producer is satisfied at once (R229);
a producer of its flow that failed passes the failure on, whenever it released (R238, log 59); a token the partition may not
use is left to the checks at issue. -/
def admitWaits (s : State) (p id : Nat) (d : Desc) : List Wait :=
  d.waits.zipIdx.filterMap (fun x =>
    let t := x.1
    if t = 0 then none
    else
      let tol := d.tol.testBit x.2
      if !(tokenOf s p t) then some ⟨t, false, true, tol, false⟩
      else if tokenCounts s p t then some ⟨t, true, false, tol, false⟩
      else some ⟨t, false, !(producersLeft s p t id), tol, markedFlow s p t d.flow && !tol⟩)

/-- A wait on an event token after one of its producers has released (R229, R238). -/
def eventWait (s : State) (o : Op) (t flow : Nat) (failed : Bool) (w : Wait) : Wait :=
  if w.counting || w.token != t || w.satisfied then w
  else { w with satisfied := !(producersLeft s o.part t o.id),
                failed := w.failed || (failed && flow == o.desc.flow && !w.tolerant) }

/-- The signal of an operation that has left the list of admitted operations (R185, R230, R237). -/
def signalRelease (s : State) (o : Op) : State :=
  let t := o.desc.signal
  if !(tokenOf s o.part t) then s
  else if tokenCounts s o.part t then signalCount s t
  else
    let failed := !(succeeded o.status)
    let key := markKey o.part t
    let s := if failed then
        { s with weir := { s.weir with marks := tabPut s.weir.marks key (insertAsc (tabGet [] s.weir.marks key) o.desc.flow) } }
      else s
    { s with weir := { s.weir with ops := s.weir.ops.map (fun x =>
        if x.part = o.part ∧ o.id < x.id then { x with waits := x.waits.map (eventWait s x t o.desc.flow failed) } else x) } }

/-- A remote signal: counts only on a counting token of the receiving partition (R192, R232). -/
def remoteSignal (s : State) (p t : Nat) : State := if tokenCounts s p t then signalCount s t else s

/-- The earlier-admitted, unreleased operations of an operation's flow (R234). -/
def earlierInFlow (s : State) (o : Op) : List Op :=
  s.weir.ops.filter (fun x => x.part == o.part && x.desc.flow == o.desc.flow && decide (x.id < o.id))

end Sys2Proof.Machine
end

