-- ==== Sys2Proof/Machine/Xport.lean ====
section
/-! DEFINITION. The transport as a sender (spec/16 R365 to R371, R378, R392): sequenced messages of a context, credits,
acknowledgements, and contexts that fail or lose their peer. Every message on a context but ACK, OPEN and CLOSE carries an
XSEQ of its own (log 21). -/

namespace Sys2Proof.Machine

open Sys2Proof

/-- The writer recorded for bytes that no operation of this chip wrote. -/
def noOp : Nat := 2 ^ 64

/-- A message given the addresses and the next XSEQ of its context (Table FAB-2). -/
def addressed (s : State) (c : Ctx) (m : Msg) : Msg :=
  { m with dstChip := c.peerChip, srcChip := s.fabric.chipId, dstCtx := c.peerCtx, xseq := c.txSeq, len := m.data.length }

/-- A sequenced message sent on a context on behalf of an operation, or kept until a credit returns (R369). -/
def xsend (s : State) (x : Nat) (m : Msg) (op part flow : Nat) : State :=
  let c := ctxOf s x
  let m := addressed s c m
  let now := decide (0 < c.credits)
  let s := setCtx s x { c with txSeq := (c.txSeq + 1) % 2 ^ 32, credits := c.credits - 1 }
  let s := { s with fabric := { s.fabric with
    msgs := s.fabric.msgs ++ [{ ctx := x, msg := m, op := op, part := part, flow := flow, retries := 0, sent := now }] } }
  if now then sendMsg s 0 m else s

/-- The first message of a context that waits for a credit marked sent. -/
def markSent (x : Nat) : List TxMsg → List TxMsg
  | [] => []
  | t :: r => if t.ctx = x ∧ !t.sent then { t with sent := true } :: r else t :: markSent x r

/-- Waiting messages of a context sent while it has credits (R369); `fuel` bounds their number. -/
def sendWaiting (x : Nat) : Nat → State → State
  | 0, s => s
  | fuel + 1, s =>
    let c := ctxOf s x
    match s.fabric.msgs.find? (fun t => t.ctx == x && !t.sent) with
    | some t =>
      if c.credits = 0 then s
      else
        let s := setCtx s x { c with credits := c.credits - 1 }
        let s := { s with fabric := { s.fabric with msgs := markSent x s.fabric.msgs } }
        sendWaiting x fuel (sendMsg s 0 t.msg)
    | none => s

/-- Whether a message has been transmitted on its first hop (R377): it waits neither for a port nor in one's FIFO. -/
def transmitted (s : State) (t : TxMsg) : Bool :=
  t.sent && !(s.fabric.stuck.any (fun y => y.msg == t.msg)) &&
    !(s.fabric.ports.any (fun p => p.2.fifo.any (fun f => decide (f.last = some t.msg))))

/-- Every message of an operation has been transmitted. -/
def allTransmitted (s : State) (id : Nat) : Bool :=
  (s.fabric.msgs.filter (fun t => t.op == id)).all (transmitted s)

/-! ### Sequence numbers (R370) -/

/-- Whether XSEQ `a` lies before `b`, modulo 2^32. -/
def seqBefore (a b : Nat) : Bool := decide (0 < (b + 2 ^ 32 - a) % 2 ^ 32 ∧ (b + 2 ^ 32 - a) % 2 ^ 32 < 2 ^ 31)

/-- Whether an XSEQ has been received on a context. -/
def received (c : Ctx) (q : Nat) : Bool := seqBefore q c.rxNext || c.rxMap.contains q

/-- Whether an XSEQ lies among the next 64, which an acknowledgement can name. -/
def inWindow (c : Ctx) (q : Nat) : Bool := decide ((q + 2 ^ 32 - c.rxNext) % 2 ^ 32 < 64)

/-- The next XSEQ moved past those received; `fuel` bounds how many. -/
def advance : Nat → Ctx → Ctx
  | 0, c => c
  | fuel + 1, c =>
    if c.rxMap.contains c.rxNext then
      advance fuel { c with rxMap := c.rxMap.filter (fun q => q != c.rxNext), rxNext := (c.rxNext + 1) % 2 ^ 32 }
    else c

/-- An XSEQ received. -/
def rxMark (c : Ctx) (q : Nat) : Ctx := advance 65 { c with rxMap := insertAsc c.rxMap q }

/-- The 8 data bytes of an ACK: bit i stands for the i-th XSEQ after the cumulative one. -/
def ackMap (c : Ctx) : List Byte :=
  leBytes 8 ((List.range 64).foldl (fun w i => if c.rxMap.contains ((c.rxNext + i) % 2 ^ 32) then w + 2 ^ i else w) 0)

/-- An ACK sent on a context with the credits it returns (R369, R370). -/
def sendAck (s : State) (x credits : Nat) : State :=
  let c := ctxOf s x
  let m := addressed s c { mtype := mtACK, tag := (c.rxNext + 2 ^ 32 - 1) % 2 ^ 32, aux := credits, data := ackMap c }
  sendMsg s 0 { m with xseq := 0 }

/-- OPEN and CLOSE name the pair and carry no XSEQ: the receiving context in DST_CTX, the sending one in TAG; AUX 1 says that
the sender is PENDING (log 22). -/
def sendPair (s : State) (x mtype : Nat) : State :=
  let m := addressed s (ctxOf s x) { mtype := mtype, tag := x, aux := if (ctxOf s x).st = .pendingOpen then 1 else 0 }
  sendMsg s 0 { m with xseq := 0 }

/-! ### Failure of a context (R371, R378, R392) -/

/-- Whether an operation names a context: a request or an unacknowledged message on it. -/
def opUses (s : State) (x : Nat) (o : Op) : Bool :=
  o.requests.any (fun r => r.remote && r.ctx == x) || s.fabric.msgs.any (fun t => t.ctx == x && t.op == o.id)

/-- An unreleased operation ended by a remote failure, unless it already failed. -/
def remoteEnds (st : Nat) (s : State) (o : Op) : State :=
  if o.phase = .ended ∧ !(succeeded o.status) then s else endOp s o st

/-- The remote writes of a context that will never land (R378), a FLAG not yet visible among them (R194). -/
def lostOf (s : State) (x st : Nat) : List LostWrite :=
  ((s.fabric.msgs.filter (fun t => t.msg.mtype == mtWRITE || t.msg.mtype == mtFLAG) ++ s.fabric.unseen).filter
    (fun t => t.ctx == x)).map (fun t => ⟨t.part, t.flow, t.op, x, st⟩)

/-- Messages, held flags and partial writes of a context dropped. -/
def dropCtx (s : State) (x : Nat) : State :=
  { s with fabric := { s.fabric with
    msgs := s.fabric.msgs.filter (fun t => t.ctx != x)
    unseen := s.fabric.unseen.filter (fun t => t.ctx != x)
    held := s.fabric.held.filter (fun h => h.ctx != x)
    arriving := s.fabric.arriving.filter (fun a => a.ctx != x)
    stuck := s.fabric.stuck.filter (fun y => !(s.fabric.msgs.any (fun t => t.ctx == x && t.msg == y.msg))) } }

/-- A context that will carry nothing more: its state, the status its operations complete with (R371, R392). -/
def ctxDown (s : State) (x : Nat) (st : CtxSt) (status : Nat) : State :=
  let lost := lostOf s x status
  let ids := opIds s (opUses s x)
  let s := forOps ids (remoteEnds status) s
  let s := dropCtx s x
  let s := { s with fabric := { s.fabric with lost := s.fabric.lost ++ lost } }
  setCtx s x { ctxOf s x with st := st }

/-! ### Bytes that land from outside (R190) -/

/-- Bytes written at CHIP scope: what lands is behind the Eddy (Table ORD-1). -/
def landBytes (s : State) (p a : Nat) (b : List Byte) : State :=
  let s := storeBytes s p noOp a b
  if space a = 0 then
    retryWaits ((linesOf a b.length).foldl (fun t l => match eddyEntry? t l with
      | some e => drainBurst t (dramStack l) e
      | none => t) s)
  else s

end Sys2Proof.Machine
end

