-- ==== Sys2Proof/Machine/Puts.lean ====
section
/-! DEFINITION. PUT and PUT_FLAG (spec/16 R366, R376 to R379, Tables FAB-5 and FAB-7): their checks, and the messages they
send. -/

namespace Sys2Proof.Machine

open Sys2Proof

/-- Step 3 of Table OPS-5: TAIL must be NONE; a reduction's FMT0 is binary32, binary16 or bfloat16 (R383). -/
def encFabric (d : Desc) : Nat :=
  if d.tail ≠ 0 then 0x40 else if (d.opc = 0x60 ∨ d.opc = 0x61) ∧ 3 ≤ d.fmt0 then 0x41 else 0

/-- Bounds and LCOUNT of R376 and R380; K is unused and ignored (R198, R207). -/
def fabricBoundsOk (d : Desc) (m n : Nat) : Bool := m == 1 && (if isColl d.opc then d.lcount == 1 else decide (1 ≤ n))

/-- What an entry of PUT or PUT_FLAG reads: the last entry of a PUT_FLAG carries the 8 bytes of the FLAG write (R376). -/
def piecesPut (d : Desc) (last : Bool) (n : Nat) (e : List Nat) : Pieces :=
  { reads := [(ptr e 0, if d.opc = 0x04 ∧ last then 8 else n)] }

/-- One entry of PUT or PUT_FLAG at issue (R366, R376). -/
def planPut (s : State) (p : Nat) (d : Desc) (n : Nat) (e0 e : List Nat) (last : Bool) : EntryPlan :=
  if remoteStatus s p (ptr e 1) ≠ 0 then planFails (remoteStatus s p (ptr e 1)) true
  else if d.opc = 0x04 ∧ remoteCtx (ptr e 1) ≠ remoteCtx (ptr e0 1) then planFails 0x42 false
  else { pieces := piecesPut d last n e }

/-- Messages of an operation of PUT (R394: a tile is one message). -/
def tilesPut (d : Desc) (n : Nat) : Nat :=
  if d.opc = 0x04 then (d.lcount - 1) * ceilDiv n 4096 + 1 else d.lcount * ceilDiv n 4096

/-- Bytes cut into messages of at most 4096; no bytes make one empty message (R368, R382). -/
def dataParts (b : List Byte) : List (List Byte) := if b.isEmpty then [[]] else chunksOf 4096 (b.length / 4096 + 1) b

/-- The bytes of P0 of an entry. -/
def putBytes (s : State) (o : Op) (e : List Nat) (n : Nat) : List Byte :=
  (List.range n).map (fun i => opByte s o (ptr e 0 + i))

/-- An operation with the remote write that an entry begins on record. -/
def noteWrite (s : State) (o : Op) (e : List Nat) : Op :=
  let x := remoteCtx (ptr e 1)
  { o with writes := o.writes ++ [(x, (ctxOf s x).txSeq)] }

/-- The FLAG write of a PUT_FLAG's last entry: its XSEQ is what the acknowledgement names (R191, R192). -/
def sendFlag (s : State) (o : Op) : State :=
  let e := o.entries.getLastD []
  let x := remoteCtx (ptr e 1)
  let q := (ctxOf s x).txSeq
  let m : Msg := { mtype := mtFLAG, wgroup := o.desc.wgroup, tag := q, parts := 1, addr := ptr e 1 % 2 ^ 48,
                   aux := o.desc.count + o.desc.remoteSignal * 65536, data := putBytes s o e 8 }
  let t := xsend s x m o.id o.part o.desc.flow
  setOp t { noteWrite s o e with dataDone := true, flagDue := false, putting := false, tile := o.tiles - 1, requests := [⟨0, 0, x, q, true⟩] }

/-- Messages of each entry of a PUT, and data messages of the whole operation (R368, R376). -/
def putParts (o : Op) : Nat := max 1 (ceilDiv o.n 4096)
def putTotal (o : Op) : Nat := (if o.desc.opc = 0x04 then o.entries.length - 1 else o.entries.length) * putParts o

/-- The entry of data message `t`. -/
def putEntry (o : Op) (t : Nat) : List Nat := o.entries.getD (t / putParts o) []

/-- Data message `t` of an operation sent: its entry's parts go in ascending address order, each with its own XSEQ; the first begins a
remote write (R368). -/
def putMsg (s : State) (o : Op) (t : Nat) : State × Op :=
  let e := putEntry o t
  let x := remoteCtx (ptr e 1)
  let j := t % putParts o
  let o := if j = 0 then noteWrite s o e else o
  let m : Msg := { mtype := mtWRITE, wgroup := o.desc.wgroup, tag := (o.writes.getLastD (x, 0)).2, parts := putParts o
                   addr := (ptr e 1 + 4096 * j) % 2 ^ 48, data := slice (putBytes s o e o.n) (4096 * j) (min 4096 (o.n - 4096 * j)) }
  (xsend s x m o.id o.part o.desc.flow, { o with tile := t + 1, wrote := true })

/-- A FLAG write that is due goes once every earlier entry has been transmitted (R376); on a context that is no longer OPEN the
operation ends CTX_DOWN. -/
def flagOn (s : State) (o : Op) : State :=
  if allTransmitted s o.id then
    if (ctxOf s (remoteCtx (ptr (o.entries.getLastD []) 1))).st = .opened then sendFlag s o else endOp s o 0x43
  else s

/-- The data messages of an operation sent in order, a tile each (R394), as long as their contexts have credits; then the FLAG write of
a PUT_FLAG. An operation whose next message waits stands at a tile boundary. `fuel` bounds the number of messages. -/
def putLoop : Nat → State → Op → State
  | 0, s, o => setOp s o
  | fuel + 1, s, o =>
    if o.tile < putTotal o then
      let x := remoteCtx (ptr (putEntry o o.tile) 1)
      if (ctxOf s x).st ≠ .opened then endOp s o 0x43
      else if (ctxOf s x).credits = 0 then setOp s { o with putting := true }
      else let y := putMsg s o o.tile; putLoop fuel y.1 y.2
    else if o.desc.opc = 0x04 then
      let o := { o with flagDue := true, putting := true, wrote := true }
      flagOn (setOp s o) o
    else setOp s { o with dataDone := true, putting := false, tile := o.tiles - 1 }

/-- A PUT or PUT_FLAG that waits for a credit or for its FLAG's turn goes on, while it executes and no program load is pending. -/
def putOn (s : State) (o : Op) : State :=
  if o.phase == .dispatched && (match o.core with
      | some c => (coreOf s c).load.isNone
      | none => false) then
    if o.flagDue then flagOn s o else putLoop (putTotal o + 1) s o
  else s

/-- The same for every operation: after anything that moves messages on. -/
def flagsOn (s : State) : State := forOps (opIds s (fun o => o.putting)) putOn s

/-- Messages that waited are tried again, and a FLAG write that was due behind them. -/
def moveOn (s : State) : State := flagsOn (unstick s)

/-- PUT or PUT_FLAG (R376): every entry sent, the FLAG write after the others; a context that is no longer OPEN ends it
CTX_DOWN. -/
def runPut (opc id : Nat) (s : State) : State :=
  match opOf? s id with
  | none => s
  | some o =>
    if o.putting then putOn s o
    else if opReady s o opc then
      if o.ins.any (fun r => touchesPoison s r.1 r.2) then
        endOpAt s o stMEM_ERROR (entryWhere o (fun r => touchesPoison s r.1 r.2))
      else if o.entries.any (fun e => (ctxOf s (remoteCtx (ptr e 1))).st != .opened) then endOp s o 0x43
      else putLoop (putTotal o + 1) s { o with tile := 0 }
    else s

/-- PUT (R376, R377). -/
def execPut (op : Nat) (s : State) : Host.Outcome State Fault Refusal := .next (runPut 0x03 op s)

/-- PUT_FLAG (R376, R192). -/
def execPutFlag (op : Nat) (s : State) : Host.Outcome State Fault Refusal := .next (runPut 0x04 op s)

end Sys2Proof.Machine
end

