-- ==== Sys2Proof/Machine/Coll.lean ====
section
/-! DEFINITION. Collectives (spec/16 R380 to R390, Tables FAB-6 and FAB-7). A collective runs as far as READY and the step
data received allow each time something arrives (log 6). -/

namespace Sys2Proof.Machine

open Sys2Proof

/-! ### Groups (R380) -/

/-- The contexts of a group. -/
def collNext (s : State) (g : Nat) : Nat := field (collCfg s g) 31 20
def collPrev (s : State) (g : Nat) : Nat := field (collCfg s g) 19 8

/-- The chip IDs of a member list: 2 bytes each. -/
def membersIn (b : List Byte) : List Nat := (List.range (b.length / 2)).map (fun i => numAt b (2 * i) 2)

/-- The members of a group in rank order. -/
def collMembers (s : State) (g : Nat) : List Nat := membersIn (rdBytes s oCOLL_GROUP_MEMBERS (g + 1))

/-- The chip's rank in a group. -/
def collRank (s : State) (g : Nat) : Nat := (collMembers s g).findIdx (fun c => c == s.fabric.chipId)

/-- COLL_GROUP_STATE: BROKEN as stored, else ready with a member list, else unconfigured. -/
def collState (s : State) (g : Nat) : Nat :=
  if rd s oCOLL_GROUP_STATE (g + 1) = 2 then 2 else if (collMembers s g).isEmpty then 0 else 1

/-- A group that cannot run: BROKEN, or without a list that names this chip (log 24). -/
def collUnusable (s : State) (g : Nat) : Bool :=
  collState s g != 1 || !((collMembers s g).contains s.fabric.chipId)

/-! ### Checks at issue -/

/-- Reserved fields zero and REDOP defined where it is used (Table FAB-6). -/
def collBlockOk (opc : Nat) (b : List Byte) : Bool :=
  field (numAt b 0 1) 7 4 == 0 && field (numAt b 1 1) 7 3 == 0 && numAt b 2 2 == 0 && numAt b 8 56 == 0 &&
    (!(opc == 0x60 || opc == 0x61) || field (numAt b 1 1) 1 0 != 3)

/-- Elements of a chunk but the last: ⌈N / R⌉ rounded up to a multiple of 16 (R382). -/
def chunkSize (n r : Nat) : Nat := roundUp (ceilDiv n r) 16

/-- Elements of chunk `k`. -/
def chunkLen (n r k : Nat) : Nat := min n ((k + 1) * chunkSize n r) - min n (k * chunkSize n r)

/-- The pieces of a collective of `r` members, of rank `i` (Table FAB-5, R384). -/
def piecesColl (d : Desc) (n r i : Nat) (e : List Nat) : Pieces :=
  let eb := elemBytes d.fmt0
  match d.opc with
  | 0x60 => { reads := [(ptr e 0, n * eb)], writes := [(ptr e 1, n * eb)] }
  | 0x61 => { reads := [(ptr e 0, n * eb)], writes := [(ptr e 1, chunkLen n r i * eb)] }
  | 0x62 => { reads := [(ptr e 0, n)], writes := (List.range r).map (fun j => (ptr e 1 + j * roundUp n 64, n)) }
  | 0x64 => { reads := [(ptr e 0, n)], writes := [(ptr e 1, n)] }
  | _ => {}

/-- The pieces that step 6 can check before the group is known. -/
def basePiecesColl (d : Desc) (n : Nat) (e : List Nat) : Pieces :=
  let blk := [(ptr e 3, 64)]
  let size := if d.opc = 0x60 ∨ d.opc = 0x61 then n * elemBytes d.fmt0 else n
  if d.opc = 0x63 then { reads := blk }
  else { reads := (ptr e 0, size) :: blk, writes := if d.opc = 0x60 ∨ d.opc = 0x64 then [(ptr e 1, size)] else [] }

/-- A context of a group at issue (R366). -/
def collCtxStatus (s : State) (p x : Nat) : Nat :=
  let c := ctxOf s x
  if c.st = .closed ∨ c.part ≠ p then stACCESS_DENIED else if c.st ≠ .opened then 0x43 else 0

/-- Step 6 of a collective whose buffers depend on its group. -/
def lateColl (s : State) (t : Tab Byte) (p : Nat) (d : Desc) (n : Nat) (e : List Nat) : Late :=
  lateBy (readBlock s t p (ptr e 3) 64) (ptr e 3) 64 (fun b =>
    let g := field (numAt b 0 1) 3 0
    { pieces := if collPart s g = p ∧ !(collUnusable s g) then piecesColl d n (collMembers s g).length (collRank s g) e else {} })

/-- A collective at issue: block, group, contexts, then its buffers. -/
def planColl (s : State) (t : Tab Byte) (p : Nat) (d : Desc) (n : Nat) (e : List Nat) : EntryPlan :=
  let b := readBlock s t p (ptr e 3) 64
  if b.1 ≠ 0 then planStops b.1 (ptr e 3) 64
  else if !(collBlockOk d.opc b.2) then planFails 0x42 false
  else
    let g := field (numAt b.2 0 1) 3 0
    if collPart s g ≠ p then planFails stACCESS_DENIED false
    else if collUnusable s g then planFails 0x45 false
    else
      let next := collCtxStatus s p (collNext s g)
      let st := if next ≠ 0 then next else collCtxStatus s p (collPrev s g)
      if st ≠ 0 then planFails st false
      else
        { pieces := piecesColl d n (collMembers s g).length (collRank s g) e, block := b.2 }

/-- The run of a collective as it is issued. -/
def newColl (b : List Byte) : CollRun :=
  { group := field (numAt b 0 1) 3 0, collId := numAt b 4 4, redop := field (numAt b 1 1) 1 0,
    dir := field (numAt b 1 1) 2 2, readySent := false, readyGot := false, sent := 0, done := 0, segs := [], chunks := [] }

/-- Steps that a member sends and receives (R384, R385); a BARRIER's are its hops of the two rounds. -/
def collSends (opc r : Nat) : Nat :=
  match opc with
  | 0x60 => 2 * (r - 1)
  | 0x63 => 2
  | 0x64 => 1
  | _ => r - 1

/-- Tiles: up to 64 KiB of one step each. -/
def tilesColl (d : Desc) (n r : Nat) : Nat :=
  let b := match d.opc with
    | 0x60 => 4 * chunkSize n r
    | 0x61 => 4 * chunkSize n r
    | 0x63 => 0
    | _ => n
  collSends d.opc r * max 1 (ceilDiv b 65536)

/-- An earlier-admitted collective of the group has not executed (R381). -/
def collBlocked (s : State) (o : Op) (g : Nat) : Bool :=
  s.weir.ops.any (fun x => decide (x.id < o.id) && x.phase != .executed && x.phase != .ended &&
    decide (collGroupOf s x = some g))

/-! ### Arithmetic (R383) -/

/-- One reduction of two binary32 values. -/
def redOp (op : Nat) (a b : FVal) : FVal :=
  match op with
  | 0 => fadd a b
  | 1 => if isNan a || isNan b then openNan 14 a b else if fltSigned a b then b else a
  | _ => if isNan a || isNan b then openNan 15 a b else if fltSigned b a then b else a

/-- The chip's own elements of chunk `k`, as binary32. -/
def ownChunk (s : State) (o : Op) (r k : Nat) : List FVal :=
  let d := o.desc
  let base := ptr (o.entries.headD []) 0 + k * chunkSize o.n r * elemBytes d.fmt0
  (List.range (chunkLen o.n r k)).map (fun i => loadElem d.fmt0 (elemAt (opByte s o) (base + i * elemBytes d.fmt0) d.fmt0))

/-- Values as binary32 bytes, and back. -/
def f32Bytes (vs : List FVal) : List Byte := vs.flatMap (fun v => leBytes 4 (fencode f32 v))
def f32Vals (b : List Byte) : List FVal := (List.range (b.length / 4)).map (fun i => f32Of (numAt b (4 * i) 4))

/-- Values rounded to the format of the operands (R150). -/
def fmtBytes (fmt : Nat) (vs : List FVal) : List Byte := vs.flatMap (fun v => leBytes (elemBytes fmt) (storeElem fmt v).1)

/-- The chip's own bytes. -/
def ownBytes (s : State) (o : Op) : List Byte :=
  (List.range o.n).map (fun i => opByte s o (ptr (o.entries.headD []) 0 + i))

/-! ### Steps -/

/-- `a - b` modulo `r`, for b at most a few times r. -/
def ringSub (r a b : Nat) : Nat := (a + 8 * r * r - b) % r

/-- The bytes that step `t` sends. -/
def stepData (s : State) (o : Op) (c : CollRun) (r i t : Nat) : List Byte :=
  match o.desc.opc with
  | 0x62 => if t = 0 then ownBytes s o else tabGet [] c.chunks (ringSub r i t)
  | 0x63 => []
  | 0x64 => ownBytes s o
  | _ =>
    if t + 1 < r then
      let k := ringSub r i (1 + t)
      if t = 0 then f32Bytes (ownChunk s o r k) else tabGet [] c.chunks k
    else tabGet [] c.chunks (ringSub r i (t + 1 - r))

/-- The chunk that step `t` receives, and the bytes it then holds. -/
def stepWork (s : State) (o : Op) (c : CollRun) (r i t : Nat) (b : List Byte) : Nat × List Byte :=
  match o.desc.opc with
  | 0x62 => (ringSub r i (t + 1), b)
  | 0x63 => (0, [])
  | 0x64 => (0, b)
  | _ =>
    if t + 1 < r then
      let k := ringSub r i (2 + t)
      let vs := (f32Vals b).zip (ownChunk s o r k) |>.map (fun x => redOp c.redop x.1 x.2)
      (k, if k = i then fmtBytes o.desc.fmt0 vs else f32Bytes vs)
    else (ringSub r i (t + 2 - r), b)

/-- The bytes that step `t` receives, from which its number of messages follows. -/
def stepBytes (o : Op) (r i t : Nat) : Nat :=
  match o.desc.opc with
  | 0x62 => o.n
  | 0x63 => 0
  | 0x64 => o.n
  | _ => if t + 1 < r then 4 * chunkLen o.n r (ringSub r i (2 + t))
    else elemBytes o.desc.fmt0 * chunkLen o.n r (ringSub r i (t + 2 - r))

/-- Step number on the fabric of the `t`-th hop a member receives: the hops of a BARRIER count round the ring. -/
def rxStep (opc r i t : Nat) : Nat := if opc = 0x63 then ringSub r i 1 + t * r else t

/-- Step number on the fabric of the `t`-th hop a member sends. -/
def txStep (opc r i t : Nat) : Nat := if opc = 0x63 then i + t * r else t

/-- Whether the data for hop `sent` is there: a BARRIER's rank 0 starts it, another member passes on what it received. -/
def maySend (opc i sent done : Nat) : Bool :=
  if opc = 0x63 ∧ i ≠ 0 then decide (sent < done) else decide (sent ≤ done)

/-- The message of a step received, if every part is there. -/
def stepRx (o : Op) (c : CollRun) (r i t : Nat) : Option (List Byte) :=
  let st := rxStep o.desc.opc r i t
  let parts := max 1 (ceilDiv (stepBytes o r i t) 4096)
  let got := (List.range parts).map (fun j => c.segs.find? (fun g => g.step == st && g.index == j))
  if got.all (fun g => g.isSome) then some (got.flatMap (fun g => g.elim [] (fun x => x.bytes))) else none

/-- The context a collective sends on and receives on. -/
def collOut (s : State) (o : Op) (c : CollRun) : Nat :=
  if o.desc.opc = 0x64 ∧ c.dir = 1 then collPrev s c.group else collNext s c.group
def collIn (s : State) (o : Op) (c : CollRun) : Nat :=
  if o.desc.opc = 0x64 ∧ c.dir = 1 then collNext s c.group else collPrev s c.group

/-- The segments of a step sent. -/
def sendSegs (x collId step op part flow : Nat) : Nat → List (List Byte) → State → State
  | _, [], s => s
  | j, b :: r, s =>
    let m : Msg := { mtype := mtSEGMENT, tag := collId, parts := 1, aux := step + 65536 * j, data := b }
    sendSegs x collId step op part flow (j + 1) r (xsend s x m op part flow)

/-- Sends and works steps as far as READY and the data received allow; `fuel` bounds the number of steps. -/
def collLoop (r i : Nat) : Nat → State → Op → CollRun → State × CollRun
  | 0, s, _, c => (s, c)
  | fuel + 1, s, o, c =>
    if c.readyGot ∧ c.sent < collSends o.desc.opc r ∧ maySend o.desc.opc i c.sent c.done then
      let t := c.sent
      let ps := dataParts (stepData s o c r i t)
      let s := sendSegs (collOut s o c) c.collId (txStep o.desc.opc r i t) o.id o.part o.desc.flow 0 ps s
      collLoop r i fuel s o { c with sent := t + 1 }
    else if c.done < collSends o.desc.opc r then
      match stepRx o c r i c.done with
      | some b =>
        let w := stepWork s o c r i c.done b
        let st := rxStep o.desc.opc r i c.done
        collLoop r i fuel s o { c with done := c.done + 1, chunks := tabPut c.chunks w.1 w.2,
                                       segs := c.segs.filter (fun g => g.step != st) }
      | none => (s, c)
    else (s, c)

/-- Whether every step is done, and, for a RING_PASS, its send has landed (R385). -/
def collOver (s : State) (o : Op) (c : CollRun) (r : Nat) : Bool :=
  c.sent == collSends o.desc.opc r && c.done == collSends o.desc.opc r &&
    (o.desc.opc != 0x64 || !(s.fabric.msgs.any (fun t => t.op == o.id && t.msg.mtype == mtSEGMENT)))

/-- The output of a collective, and whether it holds a NaN (R151). -/
def collOutput (s : State) (o : Op) (c : CollRun) (r i : Nat) : List (Nat × List Byte) × Bool :=
  let d := o.desc
  let out := ptr (o.entries.headD []) 1
  let chunk := fun k => tabGet [] c.chunks k
  let eb := elemBytes d.fmt0
  let nan := fun (b : List Byte) => (List.range (b.length / eb)).any (fun j => isNan (loadElem d.fmt0 (numAt b (eb * j) eb)))
  match d.opc with
  | 0x60 => ((List.range r).map (fun k => (out + k * chunkSize o.n r * eb, chunk k)), (List.range r).any (fun k => nan (chunk k)))
  | 0x61 => ([(out, chunk i)], nan (chunk i))
  | 0x62 => ((List.range r).map (fun k => (out + k * roundUp o.n 64, if k = i then ownBytes s o else chunk k)), false)
  | 0x64 => ([(out, chunk 0)], false)
  | _ => ([], false)

/-- A collective that has finished: outputs stored; a status other than OK breaks the group (R387). -/
def collFinish (s : State) (o : Op) (c : CollRun) (r i : Nat) : State :=
  let w := collOutput s o c r i
  let s := storeAll s o.part o.id w.1
  let st := if w.2 then stNAR_PRODUCED else stOK
  let s := if st = stOK then s else wr s oCOLL_GROUP_STATE (c.group + 1) 2
  let s := setOp s { o with coll := some c, dataDone := true, tile := o.tiles - 1, status := st }
  match o.core with
  | some k => setCore s k { coreOf s k with wave := (coreOf s k).load.isNone }
  | none => s

/-- READY, which names the collective and what it is made of (R381). -/
def readyMsg (s : State) (o : Op) (c : CollRun) : Msg :=
  { mtype := mtREADY, tag := c.collId, parts := 1,
    aux := Config.readyCrc (collMembers s c.group) o.desc.opc o.n c.redop o.desc.fmt0 % 2 ^ 32 }

/-- The collective is dispatched and its turn has come. -/
def collTurn (s : State) (o : Op) (c : CollRun) : Bool :=
  o.phase == .dispatched && inputsIn s o && !o.dataDone && !(collBlocked s o c.group) &&
    (match o.core with
      | some k => (coreOf s k).load.isNone
      | none => false)

/-- The READY that has arrived for a collective, if any (R381). -/
def readyFor (s : State) (o : Op) (c : CollRun) : Option Msg :=
  (s.fabric.ready.find? (fun y => y.1 == c.group && y.2.dstCtx == collOut s o c)).map (fun y => y.2)

/-- That READY taken. -/
def takeReady (s : State) (o : Op) (c : CollRun) : State :=
  { s with fabric := { s.fabric with ready := s.fabric.ready.eraseP (fun y => y.1 == c.group && y.2.dstCtx == collOut s o c) } }

/-- Whether a READY agrees with a collective (R381). -/
def readyAgrees (s : State) (o : Op) (c : CollRun) (m : Msg) : Bool := m.tag == c.collId && m.aux == (readyMsg s o c).aux

/-- READY sent to the sending neighbour, once. -/
def sendReady (s : State) (o : Op) (c : CollRun) : State :=
  if c.readySent then s else xsend s (collIn s o c) (readyMsg s o c) o.id o.part o.desc.flow

/-- A collective that has sent READY works what it can. -/
def collSteps (s : State) (o : Op) (c : CollRun) : State :=
  let r := (collMembers s c.group).length
  let i := collRank s c.group
  let x := collLoop r i (4 * r + 8) s o c
  if collOver x.1 o x.2 r then collFinish x.1 o x.2 r i else setOp x.1 { o with coll := some x.2 }

/-- A collective moved on as far as it can go. -/
def collMove (s : State) (id : Nat) : State :=
  match opOf? s id with
  | none => s
  | some o =>
    match o.coll with
    | none => s
    | some c =>
      if !(collTurn s o c) then s
      else if (ctxOf s (collNext s c.group)).st ≠ .opened ∨ (ctxOf s (collPrev s c.group)).st ≠ .opened then endOp s o 0x43
      else if o.ins.any (fun r => touchesPoison s r.1 r.2) then endOpAt s o stMEM_ERROR 0
      else
        let s := sendReady s o c
        let c := { c with readySent := true }
        match (if c.readyGot then none else readyFor s o c) with
        | some m =>
          let s := takeReady s o c
          if readyAgrees s o c m then collSteps s o { c with readyGot := true }
          else
            let s := xsend s (collOut s o c) { mtype := mtMISMATCH, tag := m.tag, parts := 1 } noOp o.part o.desc.flow
            endOp s { o with coll := some c } 0x44
        | none => collSteps s o c

/-- The collectives of a group moved on. -/
def collMoveAll (s : State) (g : Nat) : State :=
  (opIds s (fun o => match o.coll with
    | some c => c.group == g
    | none => false)).foldl collMove s

/-- A collective of one OPC moved on. -/
def runColl (opc id : Nat) (s : State) : State :=
  match opOf? s id with
  | some o => if o.desc.opc = opc then collMove s id else s
  | none => s

/-! ### The commands -/

/-- ALL_REDUCE (R382 to R384). -/
def execAllReduce (op : Nat) (s : State) : Host.Outcome State Fault Refusal := .next (runColl 0x60 op s)

/-- REDUCE_SCATTER (R384). -/
def execReduceScatter (op : Nat) (s : State) : Host.Outcome State Fault Refusal := .next (runColl 0x61 op s)

/-- ALL_GATHER (R384). -/
def execAllGather (op : Nat) (s : State) : Host.Outcome State Fault Refusal := .next (runColl 0x62 op s)

/-- BARRIER (R385). -/
def execBarrier (op : Nat) (s : State) : Host.Outcome State Fault Refusal := .next (runColl 0x63 op s)

/-- RING_PASS (R385). -/
def execRingPass (op : Nat) (s : State) : Host.Outcome State Fault Refusal := .next (runColl 0x64 op s)

end Sys2Proof.Machine
end

