-- ==== Sys2Proof/Machine/Heat.lean ====
section
/-! DEFINITION. Envelope, meters and Bask (spec/04 R75 to R92), and the replica rates (spec/02 R34). -/

namespace Sys2Proof.Machine

open Sys2Proof

/-! ### The envelope (R78) -/

/-- ENV_DEMAND stored, with what follows. -/
def setEnv (s : State) (v : Nat) : State := demandChanged (wr s oENV_DEMAND 0 v)

/-- The envelope loop acts: from step 8 on (R100), and not while firmware is switched (R463). -/
def envActs (s : State) : Bool := s.power.control && !s.mgmt.silent

/-- ENV_PERIOD_END (R78, R79) with the average input power of the 1 ms period. Ten periods below 0.95 of the envelope lower the
demand by one level, and ten more are needed to lower it again (DESIGN CHOICE, log 62); a period in which the envelope does not act
ends the sequence. -/
def execEnvPeriodEnd (mw : Nat) (s : State) : Result :=
  .next (
    let none : State := { s with power := { s.power with lowPeriods := 0 } }
    if envActs s then
      let env := powerEnv s * 1000
      let d := rd s oENV_DEMAND 0
      if env < mw then setEnv none (min 7 (d + 1))
      else if mw * 100 < env * 95 then
        if 9 ≤ s.power.lowPeriods then setEnv none (d - 1)
        else { s with power := { s.power with lowPeriods := s.power.lowPeriods + 1 } }
      else none
    else none)

/-- ENV_FAST_RAISE (R78) with the 100 µs average. -/
def execEnvFastRaise (mw : Nat) (s : State) : Result :=
  .next (if envActs s ∧ powerEnv s * 1100 < mw then setEnv s (min 7 (rd s oENV_DEMAND 0 + 1)) else s)

/-! ### Measurements and meters (R75, R82 to R84) -/

/-- POWER_MEASUREMENT_UPDATE (R75). -/
def execPowerMeasurementUpdate (mv mw : Nat) (s : State) : Result :=
  .next (if s.power.good then wr (wr s oV48_MV 0 mv) oPKG_POWER_MW 0 mw else s)

/-- The sum of the partition meters. -/
def partEnergy (s : State) : Nat := (List.range 128).foldl (fun a p => a + rd s oPART_ENERGY_UJ (p + 1)) 0

/-- Energy added to a partition's meter, if it exists. -/
def addPartUj (s : State) (p uj : Nat) : State :=
  if p < 128 ∧ partExists s p then wr s oPART_ENERGY_UJ (p + 1) (rd s oPART_ENERGY_UJ (p + 1) + uj) else s

/-- Energy added to an operation that has not released. -/
def addOpUj (s : State) (id uj : Nat) : State :=
  match opOf? s id with
  | some o => setOp s { o with energyUj := o.energyUj + uj }
  | none => s

/-- A share of energy in proportion to a count, in whole µJ. -/
def shareUj (uj n total : Nat) : Nat := if total = 0 then 0 else uj * n / total

/-- Handshakes of a core in an interval, and of all cores of a list. -/
def coreShakes (c : CoreUse) : Nat := c.idle + c.ran.foldl (fun a x => a + x.2) 0
def quadShakes (cs : List CoreUse) : Nat := cs.foldl (fun a c => a + coreShakes c) 0

/-- A core's share of its quadrant's rail: to the partition that owns it, and of it to each operation what its handshakes took; an
unowned core's stays unattributed (R83). -/
def coreEnergy (uj total : Nat) (s : State) (c : CoreUse) : State :=
  match corePart s c.core with
  | some p =>
    c.ran.foldl (fun t x => addOpUj t x.1 (shareUj uj x.2 total)) (addPartUj s p (shareUj uj (coreShakes c) total))
  | none => s

/-- The energy of a core rail shared (R83). -/
def quadEnergy (s : State) (q : QuadUse) : State := q.cores.foldl (coreEnergy q.uj (quadShakes q.cores)) s

/-- The energy of a shared part by the bytes or accesses of its users (R83). -/
def sharedEnergy (s : State) (u : SharedUse) : State :=
  let total := u.users.foldl (fun a x => a + x.2.2) 0
  u.users.foldl (fun t x =>
    let t := addPartUj t x.1 (shareUj u.uj x.2.2 total)
    match x.2.1 with
    | some id => addOpUj t id (shareUj u.uj x.2.2 total)
    | none => t) s

/-- ENERGY_METER_UPDATE (R82 to R84): what was used is attributed to partitions and operations; UNATTR_ENERGY_UJ is the rest. -/
def execEnergyMeterUpdate (pkgUj : Nat) (quads : List QuadUse) (shared : List SharedUse) (s : State) : Result :=
  .next (if s.power.good then
      let s := wr s oPKG_ENERGY_UJ 0 (rd s oPKG_ENERGY_UJ 0 + pkgUj)
      let s := quads.foldl quadEnergy s
      let s := shared.foldl sharedEnergy s
      wr s oUNATTR_ENERGY_UJ 0 (rd s oPKG_ENERGY_UJ 0 - partEnergy s)
    else s)

/-! ### Bask (R86 to R92) -/

/-- A reading outside −40 °C to 150 °C is a failed sensor (R92). -/
def sensorOk : Option Int → Bool
  | some t => decide (-400 ≤ t ∧ t ≤ 1500)
  | none => false

/-- The highest good reading of a list, in 0.1 °C. -/
def highest : List (Option Int) → Option Int
  | [] => none
  | r :: rest =>
    match highest rest with
    | some m => if sensorOk r then some (max m (r.getD 0)) else some m
    | none => if sensorOk r then r else none

/-- WARM and HOT thresholds in 0.1 °C: of a stack, and of a compute die 10 °C higher (R87). -/
def warmAt (s : State) (stack : Bool) : Int := (((rd s oSTACK_WARM_C 0 + (if stack then 0 else 10)) * 10 : Nat) : Int)
def hotAt (s : State) (stack : Bool) : Int := (((rd s oSTACK_HOT_C 0 + (if stack then 0 else 10)) * 10 : Nat) : Int)
def tripAt (stack : Bool) : Int := if stack then 1050 else 1150

/-- The state after a sample: entered at a threshold, left only by THERMAL_STATE_EXIT (R88); HOT with a failed sensor (R92). -/
def sampled (s : State) (stack bad : Bool) (own : Therm) (t : Option Int) : Therm :=
  if bad then .hot
  else
    match t with
    | some t => if hotAt s stack ≤ t then .hot else if own = .hot then .hot else if warmAt s stack ≤ t then .warm else own
    | none => own

/-- One quadrant or stack sampled: temperature, own state, its BASK_FAULT bit; every sensor failed is a contained error, cause
SENSOR, raised once. The temperature reported is the highest of the good readings, and stays as it was where every sensor has
failed (DESIGN CHOICE, log 62). -/
def sampleOne (stack : Bool) (s : State) (i : Nat) (readings : List (Option Int)) : State :=
  let bit := if stack then 8 + i else i
  let bad := readings.any (fun r => !(sensorOk r))
  let dead := readings.all (fun r => !(sensorOk r))
  let t := highest readings
  let own := if stack then stackOwn s i else quadOwn s i
  let new := sampled s stack bad own t
  let s := match t with
    | some t => wr s (if stack then oSTACK_TEMP else oQUAD_TEMP) (i + 1) (t % ((2 ^ 32 : Nat) : Int)).toNat
    | none => s
  let s := wr s oBASK_FAULT 0 (setBit (rd s oBASK_FAULT 0) bit bad)
  let reported := s.therm.failed.testBit bit
  let s := { s with therm := { s.therm with
    quad := if stack then s.therm.quad else tabPut s.therm.quad i new
    stack := if stack then tabPut s.therm.stack i new else s.therm.stack
    failed := setBit s.therm.failed bit dead } }
  if dead && !reported then contained s (if stack then 3 else 2) 0x04 i 0 0 else s

/-- Notifications of quadrant thermal states that changed, and what a new HOT quadrant does: the Weir takes back what is placed
there (R89 to R91). -/
def thermFollow (before : List Nat) (s : State) : State :=
  let now := (List.range 8).map (fun q => thermCode (quadTherm s q))
  let s := ((List.range 8).filter (fun q => before.getD q 0 != now.getD q 0)).foldl
    (fun t q => notify t 0 oQUAD_THERM (q + 1) (now.getD q 0)) s
  let s := forOps (opIds s (fun o => o.phase == .placed && (match o.core with
    | some c => quadTherm s (quadOf s c) == .hot
    | none => false))) takeBack s
  demandChanged (storeRefreshAll s)

/-- Whether a reading list reaches TRIP. -/
def trips (stack : Bool) (readings : List (Option Int)) : Bool :=
  match highest readings with
  | some t => decide (tripAt stack ≤ t)
  | none => false

/-- BASK_SAMPLE (R86 to R93): the readings of 16 diodes for each quadrant and 2 sensors for each stack, in 0.1 °C, none for one
that reads open or shorted. Where a stack and a compute die reach TRIP in one sample the cause is STACK_TRIP (DESIGN CHOICE,
log 62). -/
def execBaskSample (quads piles : List (List (Option Int))) (s : State) : Result :=
  .next (if s.power.good then
      let before := (List.range 8).map (fun q => thermCode (quadTherm s q))
      let s := (List.range 8).foldl (fun t q => if (quads.getD q []).isEmpty then t else sampleOne false t q (quads.getD q [])) s
      let s := (List.range 8).foldl (fun t k =>
        if !(stackFitted t k) then wr t oSTACK_TEMP (k + 1) 0x80000000
        else if (piles.getD k []).isEmpty then t
        else sampleOne true t k (piles.getD k [])) s
      let s := thermFollow before s
      if s.power.compute ∧ (List.range 8).any (fun k => stackFitted s k && trips true (piles.getD k [])) then
        protectiveShutdown s 1
      else if s.power.compute ∧ (List.range 8).any (fun q => trips false (quads.getD q [])) then protectiveShutdown s 2
      else s
    else s)

/-- THERMAL_STATE_EXIT (R88): a quadrant's or a stack's temperature has stayed 3 °C or more below the threshold of its state
for 10 ms; it leaves HOT for WARM, or WARM for NORMAL. -/
def execThermalStateExit (stack : Bool) (i : Nat) (s : State) : Result :=
  .next (
    let own := if stack then stackOwn s i else quadOwn s i
    let t := tempOf (rd s (if stack then oSTACK_TEMP else oQUAD_TEMP) (i + 1))
    let bad := (rd s oBASK_FAULT 0).testBit (if stack then 8 + i else i)
    let limit := if own = .hot then hotAt s stack else warmAt s stack
    if i < 8 ∧ own ≠ .normal ∧ !bad ∧ t ≤ limit - 30 then
      let before := (List.range 8).map (fun q => thermCode (quadTherm s q))
      let new : Therm := if own = .hot then .warm else .normal
      thermFollow before (if stack then { s with therm := { s.therm with stack := tabPut s.therm.stack i new } }
        else { s with therm := { s.therm with quad := tabPut s.therm.quad i new } })
    else s)

/-- REPLICA_MEASUREMENT (R34): the measured rate of each quadrant, and the lowest of them. -/
def execReplicaMeasurement (rates : List Nat) (s : State) : Result :=
  .next (if s.power.compute ∧ rates.length = 8 then
      let s := rates.zipIdx.foldl (fun t x => wr t oREPLICA_RATE (x.2 + 1) x.1) s
      wr s oREPLICA_MIN 0 (rates.foldl min (rates.headD 0))
    else s)

end Sys2Proof.Machine
end

