-- ==== Sys2Proof/Machine/Link.lean ====
section
/-! DEFINITION. The link layer of the fabric ports (spec/16 R357 to R364; spec/05 R115; spec/16 R391 for JOIN). -/

namespace Sys2Proof.Machine

open Sys2Proof

/-! ### Training (Table BOOT-1 step 12, R361, R391) -/

/-- Fabric training belongs to a port's life: step 10 done, the package not departed (R465). -/
def trainsPort (s : State) (n : Nat) : Bool :=
  decide (n < portCount s) && s.power.compute && decide (10 ≤ rd s oBOOT_STAGE 0) && rd s oSVC_STATE 0 == 0

/-- Fabric training can take place: the link layer clocked too. -/
def mayTrain (s : State) (n : Nat) : Bool := trainsPort s n && !s.clock.rootGated

/-- JOIN with SVC_EPOCH raised by one (R391, R466): once for each time the chip joins; a port that trains later carries the
same epoch. -/
def joinAll (s : State) : State :=
  let s := if s.fabric.joined then s else wrP s oSVC_EPOCH 0 ((rd s oSVC_EPOCH 0 + 1) % 2 ^ 32)
  flood { s with fabric := { s.fabric with joined := true } } none 0
    { mtype := mtJOIN, srcChip := s.fabric.chipId, aux := rd s oSVC_EPOCH 0 }

/-- The lane that a port's persisted spare-lane map replaces (R461). -/
def laneOfMap (v : Nat) : Option Nat := if v = 0 then none else some (v - 1)

/-- What remains of a FIFO once the flits sent and not acknowledged are discarded: the rest of a message that had begun goes too. -/
def dropBegun (l : List FifoFlit) : List FifoFlit :=
  let head := l.takeWhile (fun f => f.last.isNone)
  match l.drop head.length with
  | f :: r =>
    match f.last with
    | some m => if head.length + 1 < (msgFlits m).length then r else l
    | none => l
  | [] => []

/-- A port with a fresh link: the credits of the peer's receive buffer, the spare-lane map (R461), the FIFO as it stood. -/
def freshPort (s : State) (n : Nat) : Port :=
  { fifo := (portOf s n).fifo, swapped := laneOfMap (tabGet 0 s.nv.lanes n)
    swappedRx := laneOfMap (tabGet 0 s.nv.lanes (16 + n)), room0 := Config.linkCredits n 0
    room1 := Config.linkCredits n 1 }

/-- CHIP_ID and the routing and port objects, which limited mode has stored and fabric training applies (R105). -/
def trainingObj (i : Nat) : Bool := decide (0x6000 ≤ i ∧ i < 0x6100)

/-- The receive buffer of a fresh link is empty: messages in transit that came by the old one owe it no credit. -/
def forgetRx (s : State) (n : Nat) : State :=
  { s with fabric := { s.fabric with stuck := s.fabric.stuck.map (fun w => if w.cameBy.any (fun x => x.1 == n) then { w with cameBy := none } else w) } }

/-- FABRIC_TRAINING: the port is UP with a fresh link; CHIP_ID takes effect. -/
def execFabricTraining (n : Nat) (s : State) : Result :=
  .next (if mayTrain s n && portCode s n == 1 then
      let s := applyStaged s trainingObj
      let s := setPort (forgetRx s n) n (freshPort s n)
      let s := setPortCode { s with fabric := { s.fabric with chipId := rd s oCHIP_ID 0 % 1024 } } n 2
      moveOn (joinAll s)
    else s)

/-- PORT_RETRAIN (R361): a DOWN port tries to train again. -/
def execPortRetrain (n : Nat) (s : State) : Result :=
  .next (if mayTrain s n && portCode s n == 0 then setPortCode s n 1 else s)

/-! ### Flits (Table FAB-1, R358) -/

/-- Fields of a flit. -/
def flitType (b : List Byte) : Nat := field (numAt b 0 1) 7 4
def flitVc (b : List Byte) : Nat := field (numAt b 0 1) 3 3
def flitSeq (b : List Byte) : Nat := field (numAt b 2 2) 11 0
def flitAck (b : List Byte) : Nat := field (numAt b 4 2) 11 0
def flitNak (b : List Byte) : Bool := (numAt b 4 2).testBit 12

/-- The replay buffer after an acknowledgement: every flit up to the one named is free. -/
def ackReplay (r : List (Nat × List Byte)) (ack : Nat) : List (Nat × List Byte) :=
  if r.any (fun x => x.1 == ack) then (r.dropWhile (fun x => x.1 != ack)).drop 1 else r

/-- Every flit of the replay buffer sent again and counted. -/
def replayAll (s : State) (n : Nat) : State :=
  let r := (portOf s n).replay
  let s := r.foldl (fun t x => emitFlit t n x.2) s
  wr s oPORT_REPLAYS (n + 1) ((rd s oPORT_REPLAYS (n + 1) + r.length) % 2 ^ 64)

/-- The credits a flit returns: the peer's buffer has room again. -/
def takeCredits (s : State) (n : Nat) (b : List Byte) : State :=
  let x := portOf s n
  setPort s n { x with room0 := x.room0 + numAt b 6 1, room1 := x.room1 + numAt b 7 1 }

/-- ACK and NAK of a received flit: acknowledged flits are free, a NAK replays the rest; what waited goes on. -/
def takeAck (s : State) (n : Nat) (b : List Byte) : State :=
  let x := portOf s n
  let s := setPort s n { x with replay := ackReplay x.replay (flitAck b) }
  moveOn (if flitNak b then replayAll s n else s)

/-- A message from its bytes (Table FAB-2). -/
def parseMsg (b : List Byte) : Msg :=
  let len := field (numAt b 18 2) 12 0
  { mtype := numAt b 0 1, wgroup := field (numAt b 1 1) 5 0, dstChip := field (numAt b 2 2) 9 0,
    srcChip := field (numAt b 4 2) 9 0, dstCtx := field (numAt b 6 2) 11 0, xseq := numAt b 8 4, tag := numAt b 12 4,
    parts := numAt b 16 2, len := len, addr := numAt b 20 8 % 2 ^ 48, aux := numAt b 28 4, data := slice b 32 len }

/-- Membership messages flood and are looked at by every chip (R391). -/
def isFlooded (m : Msg) : Bool := m.mtype == mtDEPART || m.mtype == mtJOIN

/-- A whole message received by a port on a virtual channel: for this chip it goes to the transport, else it is forwarded (R374). Its
receive-buffer credits return once it has gone on (R44). -/
def takeMsg (s : State) (n vc : Nat) (m : Msg) : State :=
  let w : Waiting := { port := none, vc := vc, msg := m, cameBy := some (n, vc) }
  if isFlooded m then emit (freeRx s w) (.internal m) else sendWaitingMsg s w

/-- The payload of an accepted DATA flit added to the message of its virtual channel. -/
def takePayload (s : State) (n vc : Nat) (p : List Byte) : State :=
  let x := portOf s n
  let b := (if vc = 1 then x.rx1 else x.rx0) ++ p
  let whole := decide (32 + field (numAt b 18 2) 12 0 ≤ b.length)
  let keep := if whole then [] else b
  let s := setPort s n { x with rx0 := if vc = 1 then x.rx0 else keep, rx1 := if vc = 1 then keep else x.rx1 }
  if whole then takeMsg s n vc (parseMsg b) else s

/-- A DATA flit in order accepted: acknowledged by the next flit sent; its buffer space stays taken until its message has gone on. -/
def acceptFlit (s : State) (n : Nat) (b : List Byte) : State :=
  let x := portOf s n
  takePayload (setPort s n { x with rxSeq := (x.rxSeq + 1) % 4096 }) n (flitVc b) (slice b 8 240)

/-- DATA_FLIT_RECEIVE (R358): a CRC error or a SEQ out of order is answered with NAK. The credits of a flit count once, when it is
accepted, as a replayed one carries them again. -/
def execDataFlitReceive (n : Nat) (flit : List Byte) (s : State) : Result :=
  .next (if !(portTrained s n) then s
    else if !(flitOk flit) then setPort s n { portOf s n with nak := true }
    else if flitType flit ≠ 0 then s
    else
      let accepted := decide (flitSeq flit = (portOf s n).rxSeq)
      let s := takeAck (if accepted then takeCredits s n flit else s) n flit
      if accepted then acceptFlit s n flit else setPort s n { portOf s n with nak := true })

/-- IDLE_FLIT (R358): ACK, NAK and credits of an IDLE flit. -/
def execIdleFlit (n : Nat) (flit : List Byte) (s : State) : Result :=
  .next (if portTrained s n && flitOk flit && flitType flit == 1 then takeAck (takeCredits s n flit) n flit else s)

/-- A flit without SEQ, with the acknowledgement and credits of a port. -/
def plainFlit (x : Port) (ftype : Nat) : List Byte :=
  flitBytes ftype 0 0 (x.rxSeq + 4095) x.nak (min 255 x.cred0) (min 255 x.cred1) []

/-- A port whose acknowledgement and credits have gone out. -/
def answered (x : Port) : Port := { x with nak := false, cred0 := x.cred0 - 255, cred1 := x.cred1 - 255 }

/-- IDLE_FLIT_SEND (R361). -/
def execIdleFlitSend (n : Nat) (s : State) : Result :=
  .next (if portUp s n then emitFlit (setPort s n (answered (portOf s n))) n (plainFlit (portOf s n) 1) else s)

/-! ### Lane repair and hold (R359 to R364) -/

/-- The port goes DOWN (R361): its replay buffer, half-received messages and every flit and message that waits for it dropped, contained
error PORT_DOWN (Table REGR-2). -/
def goDown (s : State) (n : Nat) : State :=
  let s := { s with fabric := { s.fabric with stuck := s.fabric.stuck.filter (fun w => wayOf s w != some n) } }
  let s := setPortCode (setPort s n { swapped := (portOf s n).swapped, swappedRx := (portOf s n).swappedRx }) n 0
  flagsOn (contained s 6 0x30 n 0 0)

/-- REPLAY_LIMIT (R359 to R361) with the active lane that had the most symbol errors: its repair starts, or is put off while the firmware
is switched (R463); with the spare already in use, the port goes DOWN. -/
def execReplayLimit (n : Nat) (s : State) (lane : Nat := 0) : Result :=
  .next (if portUp s n && !(portOf s n).replay.isEmpty && decide (lane < 4) then
      if (portOf s n).spare then goDown s n
      else if s.mgmt.silent then putOffLane s n lane
      else startLane s n lane
    else s)

/-- LANE_REPAIR_DONE (R360, R461): the spare stands in the place of the repaired lane; replay resumes from ACK + 1. With `received`, the
peer has repaired that lane of the direction this port receives: its map is kept too, and nothing is replayed (log 48). -/
def execLaneRepairDone (n : Nat) (s : State) (received : Option Nat := none) : Result :=
  .next (match received, (portOf s n).repairing with
    | some lane, _ =>
      if portTrained s n && decide (lane < 4) && (portOf s n).swappedRx.isNone then
        let s := setPort s n { portOf s n with swappedRx := some lane }
        setPortCode { s with nv := { s.nv with lanes := tabPut s.nv.lanes (16 + n) (lane + 1) } } n (portCode s n)
      else s
    | none, some lane =>
      if portTrained s n && portCode s n == 3 then
        let s := setPort s n { portOf s n with swapped := some lane, repairing := none }
        let s := setPortCode { s with nv := { s.nv with lanes := tabPut s.nv.lanes n (lane + 1) } } n 2
        moveOn (replayAll s n)
      else s
    | none, none => s)

/-- PORT_DOWN: a trained port goes DOWN (R361); one that does not train stays down until it tries again (Table BOOT-1, step 12). -/
def execPortDown (n : Nat) (s : State) : Result :=
  .next (if portTrained s n then goDown s n else if n < portCount s ∧ portCode s n = 1 then setPortCode s n 0 else s)

/-- The lanes on which a port sends HOLD flits: every active lane, but the one under repair (R362). -/
def holdLanes (x : Port) : List Nat :=
  (List.range 4).zip (txLanes x) |>.filterMap (fun l => if x.repairing = some l.1 then none else some l.2)

/-- HOLD_FLIT_SEND (R362): one HOLD flit on each of those lanes; NAK and credits go out with the first. -/
def execHoldFlitSend (n : Nat) (s : State) : Result :=
  .next (if portCode s n = 3 ∨ portCode s n = 4 then
      let x := portOf s n
      let bare := { x with nak := false, cred0 := 0, cred1 := 0 }
      match holdLanes x with
      | [] => s
      | l :: r =>
        r.foldl (fun t k => emit t (.laneFlit n k (plainFlit bare 2)))
          (emit (setPort s n (answered x)) (.laneFlit n l (plainFlit x 2)))
    else s)

/-- A HOLD received keeps the chip in a hold series (R363). -/
def heldUp (s : State) : State := let s := beginHold s; { s with fabric := { s.fabric with holdRx := true } }

/-- HOLD_FLIT (R358, R363): the series goes on; the flit's ACK, NAK and credits are taken. -/
def execHoldFlit (n : Nat) (s : State) (flit : List Byte := []) : Result :=
  .next (if portTrained s n && flitOk flit && flitType flit == 2 then
      let s := heldUp s
      takeAck (takeCredits (setPort s n { portOf s n with holding := true }) n flit) n flit
    else s)

/-- HOLD_SERIES_END (R363): 200 µs without a HOLD, or 100 ms after the series began, when the timers resume though the series may last. -/
def execHoldSeriesEnd (s : State) (capped : Bool := false) : Result :=
  .next (if capped then { s with fabric := { s.fabric with holdCapped := inHold s } }
    else
      let ports := s.fabric.ports.map (fun x => (x.1, { x.2 with holding := false }))
      let s := { s with fabric := { s.fabric with ports := ports, holdRx := false } }
      { s with fabric := { s.fabric with holdCapped := s.fabric.holdCapped && inHold s } })

/-- Whether a message that waits has a port among those of its groups. -/
def waitsFor (s : State) (n : Nat) (m : Msg) : Bool :=
  let r := routeOf s m.dstChip
  r.testBit 15 && ((rd s oPORT_GROUP (field r 3 0 + 1)).testBit n ||
    (r.testBit 14 && (rd s oPORT_GROUP (field r 11 8 + 1)).testBit n))

/-- The transit messages that wait for a port: in its FIFO, or for the port itself. -/
def transitFor (s : State) (n : Nat) : List Msg :=
  ((portOf s n).fifo.filterMap (fun f => f.last) ++ ((s.fabric.stuck.filter (fun y => waitsFor s n y.msg)).map (fun y => y.msg))).filter
    (fun m => m.srcChip != s.fabric.chipId)

/-- HOLD_MESSAGE_SEND (R364): HOLD to the source of each transit message that waits for the port. -/
def execHoldMessageSend (n : Nat) (s : State) : Result :=
  .next (if portCode s n = 3 ∨ (portOf s n).holding then
      (transitFor s n).foldl (fun t m => sendMsg t 0 { mtype := mtHOLD, dstChip := m.srcChip, srcChip := s.fabric.chipId }) s
    else s)

/-- LINK_RESET of a port (R115): the flits that await acknowledgement are discarded, the lanes retrained; those of a gated port once
the root loop runs again (R66). -/
def linkReset (s : State) (n : Nat) : State :=
  let x := portOf s n
  let y : Port := { swapped := x.swapped, swappedRx := x.swappedRx, fifo := dropBegun x.fifo, before := 1 }
  setPortCode (setPort s n y) n (if portCode s n = 4 then 4 else 1)

end Sys2Proof.Machine
end

