-- ==== Sys2Proof/Machine/Deliver.lean ====
section
/-! DEFINITION. Queue ranges of partitions, the rings of intake and completion queues, and the delivery of completion records
with their interrupts (spec/17 R413 to R415). -/

namespace Sys2Proof.Machine

open Sys2Proof

/-- BASE and COUNT of a queue range object (Table HOST-10). -/
def rangeBase (v : Nat) : Nat := field v 11 0
def rangeCount (v : Nat) : Nat := field v 28 16

/-- The partition that owns an intake queue of the package. -/
def iqPart (s : State) (q : Nat) : Option Nat :=
  (List.range 128).find? (fun p => partExists s p &&
    let v := rd s oIQ_RANGE (p + 1)
    decide (rangeBase v ≤ q ∧ q < rangeBase v + rangeCount v))

/-- The partition that owns a completion queue of the package. -/
def cqPart (s : State) (q : Nat) : Option Nat :=
  (List.range 128).find? (fun p => partExists s p &&
    let v := rd s oCQ_RANGE (p + 1)
    decide (rangeBase v ≤ q ∧ q < rangeBase v + rangeCount v))

/-- Package queue numbers of a partition's function-local queues. -/
def iqIndex (s : State) (p i : Nat) : Nat := rangeBase (rd s oIQ_RANGE (p + 1)) + i
def cqIndex (s : State) (p j : Nat) : Nat := rangeBase (rd s oCQ_RANGE (p + 1)) + j

/-- Address and depth of a ring from its BASE register (Tables HOST-4 and HOST-5). -/
def ringAddr (base : Nat) : Nat := base / 4096 * 4096
def ringLog (base : Nat) : Nat := field base 4 0
def ringDepth (base : Nat) : Nat := 2 ^ ringLog base

/-- Fetch class URGENT (R411). -/
def iqUrgent (s : State) (p q : Nat) : Bool := decide (q < iqIndex s p 0 + rd s oIQ_URGENT_COUNT (p + 1))

/-- The MSI-X vector of a completion queue sent; the records before it are signalled. -/
def cqSignal (s : State) (q fn : Nat) : State :=
  sendMsix (setCq s q { cqOf s q with unsignalled := 0, timer := false }) fn (cqOf s q).vector

/-- The interrupt rule after a record (R415): a field of 0 is a trigger not used, and with both 0 every record signals. -/
def cqInterrupt (s : State) (q fn : Nat) : State :=
  let c := cqOf s q
  if !c.irqEn then s
  else if c.coalTime = 0 ∧ c.coalCount = 0 then cqSignal s q fn
  else if c.coalCount ≠ 0 ∧ c.coalCount ≤ c.unsignalled then cqSignal s q fn
  else setCq s q { c with timer := decide (c.coalTime ≠ 0) }

/-- One record written at the tail with the queue's PHASE, using up a reserved entry (R413, R414). -/
def postRecord (s : State) (q fn : Nat) (r : Bool → Record) : State :=
  let c := cqOf s q
  if !c.enabled then s
  else
    let s := hostStore s fn (ringAddr c.base + 32 * c.tail) (recordBytes (r c.phase))
    let last := decide (c.tail + 1 = ringDepth c.base)
    let s := setCq s q { c with tail := if last then 0 else c.tail + 1, phase := if last then !c.phase else c.phase,
                                used := c.used + 1, reserved := c.reserved - 1, unsignalled := c.unsignalled + 1 }
    cqInterrupt s q fn

end Sys2Proof.Machine
end

