-- ==== Sys2Proof/Machine/Issue.lean ====
section
/-! DEFINITION. The checks at issue in the order of Table OPS-5, what an operation addresses, its working set and its tiles
(spec/10 R201 to R211; spec/08 R171). -/

namespace Sys2Proof.Machine

open Sys2Proof

/-! ### What each OPC uses -/

/-- Families of OPCs. -/
def isAttn (o : Nat) : Bool := decide (0x20 ≤ o ∧ o ≤ 0x2F)
def isRec (o : Nat) : Bool := decide (0x30 ≤ o ∧ o ≤ 0x3F)
def isSpawn (o : Nat) : Bool := decide (0x40 ≤ o ∧ o ≤ 0x4F)
def isImage (o : Nat) : Bool := decide (0x50 ≤ o ∧ o ≤ 0x5F)

/-- Which of M, N and K an OPC uses (Table OPS-4 and the operand tables). -/
def usesBounds (o : Nat) : Bool × Bool × Bool :=
  if o = 0x01 then (false, false, false)
  else if o = 0x02 ∨ o = 0x22 ∨ o = 0x31 ∨ o = 0x56 ∨ o = 0x03 ∨ o = 0x04 ∨ isSpawn o then (true, true, false)
  else if o = 0x23 ∨ o = 0x24 then (true, false, true)
  else if o = 0x32 then (false, true, false)
  else if o = 0x54 ∨ o = 0x55 ∨ o = 0x63 then (true, false, false)
  else if isColl o then (true, true, false)
  else (true, true, true)

/-- The pointers that step 6 checks, for a first entry or another; one used only under a parameter block is checked with it. -/
def usedPtrs (d : Desc) (first : Bool) : List Nat :=
  match d.opc with
  | 0x02 => [0, 1]
  | 0x03 => [0, 1]
  | 0x04 => [0, 1]
  | 0x10 => if tailReads d.tail then [0, 1, 2, 3] else [0, 1, 2]
  | 0x11 => if tailReads d.tail then [0, 1, 2, 3] else [0, 1, 2]
  | 0x22 => [0, 1]
  | 0x23 => [0, 1, 2]
  | 0x24 => [0, 1]
  | 0x30 => [0, 1, 3]
  | 0x31 => [0, 1, 3]
  | 0x32 => if first then [0, 1, 3] else [0, 1]
  | 0x40 => [0, 2]
  | 0x41 => [0, 1, 2]
  | 0x46 => [0, 1, 2]
  | 0x42 => [0]
  | 0x43 => [0, 1, 2]
  | 0x44 => [0, 1]
  | 0x45 => [0, 1]
  | 0x51 => [0, 1, 3]
  | 0x52 => [0, 1, 3]
  | 0x53 => [0, 1, 3]
  | 0x56 => [0, 2, 3]
  | 0x58 => [0, 1, 2]
  | 0x59 => [0, 1, 2]
  | 0x63 => [3]
  | 0x60 => [0, 1, 3]
  | 0x61 => [0, 1, 3]
  | 0x62 => [0, 1, 3]
  | 0x64 => [0, 1, 3]
  | _ => [0, 1, 2, 3]

/-! ### Steps 1 to 5 -/

/-- The tokens that a descriptor names: WAIT0 to WAIT3, SIGNAL, and REMOTE_SIGNAL of a PUT_FLAG (R228, Table OPS-1). -/
def namedTokens (d : Desc) : List Nat := d.signal :: d.waits ++ (if d.opc = 0x04 then [d.remoteSignal] else [])

/-- Step 2 (R228, R233): FLOW and every named token are available to the partition. -/
def namesOk (s : State) (p : Nat) (d : Desc) : Bool :=
  flowOf s p d.flow && (namedTokens d).all (fun t => t == 0 || tokenOf s p t)

/-- Step 3: 0, or the status. -/
def encStatus (d : Desc) : Nat :=
  if d.opc = 0x01 then (if d.scope = 3 then 0x40 else 0)
  else if d.bndsrc = 3 then stBOUNDS_INVALID
  else if d.opc = 0x02 then encCopy d
  else if d.opc = 0x10 ∨ d.opc = 0x11 then encMatmul d
  else if isAttn d.opc then encAttn d
  else if isRec d.opc then encRec d
  else if isSpawn d.opc then encSpawn d
  else if isImage d.opc then encImage d
  else encFabric d

/-- Step 4: the bounds word and 0, or the status (R202). An address that is not 8-byte aligned ends ACCESS_DENIED: the rule states the
alignment and no status (DESIGN CHOICE, log 70). -/
def boundsWord (s : State) (p : Nat) (d : Desc) : Nat × Nat :=
  match d.bndsrc with
  | 0 => (d.bnd, 0)
  | 1 => (rd s (oBOUND_REG + p) (field d.bnd 3 0 + 1), 0)
  | _ =>
    if d.bnd % 8 ≠ 0 || !(within s p d.bnd 8) || space d.bnd == 4 then (0, stACCESS_DENIED)
    else if touchesPoison s d.bnd 8 then (0, stMEM_ERROR)
    else (memNum s p d.bnd 8, 0)

/-- Step 5: extents and LCOUNT. -/
def extentsOk (d : Desc) (w : Nat) : Bool :=
  let u := usesBounds d.opc
  let ok := fun (use : Bool) (b c : Nat) => !use || (c != 0 && decide (b ≤ c))
  ok u.1 (boundM w) (boundM d.cap) && ok u.2.1 (boundN w) (boundN d.cap) && ok u.2.2 (boundK w) (boundK d.cap) &&
    decide (1 ≤ d.lcount)

/-- The bounds rules of the chapters (R265, R293, R316, R376, R380): 0, or the status. They come after step 6 (R267, R294; for
Spawn and fabric operations log 61). -/
def chapterBounds (d : Desc) (m n k : Nat) : Nat :=
  if isAttn d.opc ∧ !(headOk d k) then stBOUNDS_INVALID
  else if isRec d.opc ∧ !(recBoundsOk d n) then stBOUNDS_INVALID
  else if isSpawn d.opc ∧ !(spawnBoundsOk d.opc m n) then 0x42
  else if isFabric d.opc ∧ !(fabricBoundsOk d m n) then 0x42
  else 0

/-! ### Step 6 and the chapters' own reads -/

/-- What an entry addresses before any parameter block is read; `first` and `last` say where it stands in the list. -/
def basePieces (d : Desc) (first last : Bool) (m n k : Nat) (e : List Nat) : Pieces :=
  if d.opc = 0x02 then piecesCopy d m n e
  else if d.opc = 0x10 ∨ d.opc = 0x11 then piecesMatmul d m n k e
  else if isAttn d.opc then piecesAttn d m n k e
  else if isRec d.opc then piecesRec d first m n k e
  else if isSpawn d.opc then piecesSpawn d m n e
  else if isImage d.opc then piecesImage d m n k e
  else if isColl d.opc then basePiecesColl d n e
  else piecesPut d last n e

/-- A piece read: 0, or the status that refuses it (R156, R366, R379, R420). -/
def readStatus (s : State) (p opc : Nat) (x : Nat × Nat) : Nat :=
  if space x.1 = 4 then remoteRead s p opc x.1 else if within s p x.1 x.2 then 0 else stACCESS_DENIED

/-- A piece written: no remote one (R379). -/
def writeStatus (s : State) (p : Nat) (x : Nat × Nat) : Nat :=
  if space x.1 ≠ 4 && within s p x.1 x.2 then 0 else stACCESS_DENIED

/-- The first status that refuses a piece. -/
def piecesStatus (s : State) (p opc : Nat) (ps : Pieces) : Nat :=
  ((ps.reads.map (readStatus s p opc) ++ ps.writes.map (writeStatus s p)).find? (fun st => st != 0)).getD 0

/-- What step 6 checks of an entry beside its used pointers and base pieces. -/
def lateOf (s : State) (t : Tab Byte) (p : Nat) (d : Desc) (m n k : Nat) (e0 e : List Nat) : Late :=
  if d.opc = 0x20 ∨ d.opc = 0x21 ∨ d.opc = 0x28 then lateAttn s t p d m n k e
  else if isRec d.opc then lateRec s t p d m n k e0 e
  else if isSpawn d.opc then { pieces := spawnPieces d m n e (spawnLengths s p d n e) }
  else if isImage d.opc then lateImage s t p d m n k e
  else if isColl d.opc then lateColl s t p d n e
  else {}

/-- A pointer that step 6 refuses: not 64-byte aligned, or with a reserved SPACE or bit (R156). -/
def badPtr (a : Nat) : Bool := a % 64 != 0 || !(addressLaidOut a)

/-- Step 6 for one entry: alignment, reserved SPACEs and bits (R156), regions, and the context that P1 of a PUT names; the remote bytes
that it needs first. `t` holds those that issue has read. -/
def entryStatus (s : State) (t : Tab Byte) (p : Nat) (d : Desc) (first last : Bool) (m n k : Nat) (e0 e : List Nat) :
    Nat × List (Nat × Nat) :=
  let base := piecesStatus s p d.opc (basePieces d first last m n k e)
  if (usedPtrs d first).any (fun i => badPtr (ptr e i)) then (stACCESS_DENIED, [])
  else if (d.opc = 0x03 ∨ d.opc = 0x04) ∧ remoteStatus s p (ptr e 1) = stACCESS_DENIED then (stACCESS_DENIED, [])
  else if base ≠ 0 then (base, [])
  else
    let l := lateOf s t p d m n k e0 e
    if l.ptrs.any badPtr || l.laidOut.any (fun a => !(addressLaidOut a)) then (stACCESS_DENIED, [])
    else
      let st := piecesStatus s p d.opc l.pieces
      if st ≠ 0 then (st, []) else if l.needs.isEmpty then (0, []) else (stNEED, l.needs)

/-- What a Spawn operation's entry addresses (R321). -/
def planSpawn (s : State) (p : Nat) (d : Desc) (m n : Nat) (e : List Nat) : EntryPlan :=
  let l := spawnLengths s p d n e
  { pieces := spawnPieces d m n e l, block := l }

/-- What a chapter makes of one entry; `t` holds the remote bytes that issue has read. -/
def planEntry (s : State) (t : Tab Byte) (p : Nat) (d : Desc) (m n k : Nat) (e0 e : List Nat) (first last : Bool) : EntryPlan :=
  if d.opc = 0x20 ∨ d.opc = 0x21 then planAttn s t p d m n k e
  else if d.opc = 0x28 then planAppend s t p d m n k e
  else if isRec d.opc then planRec s t p d m n k e0 e
  else if isSpawn d.opc then planSpawn s p d m n e
  else if isImage d.opc then planImage s t p d m n k e
  else if d.opc = 0x03 ∨ d.opc = 0x04 then planPut s p d n e0 e last
  else if isColl d.opc then planColl s t p d n e
  else { pieces := basePieces d first last m n k e }

/-- The plans of the entries in order, up to the first that fails: status, the entry named, the plans. -/
def planAll (s : State) (t : Tab Byte) (p : Nat) (d : Desc) (m n k : Nat) (e0 : List Nat) :
    Nat → List (List Nat) → Nat × Nat × List EntryPlan
  | _, [] => (0, 0xFFFF, [])
  | i, e :: r =>
    let pl := planEntry s t p d m n k e0 e (i == 0) r.isEmpty
    if pl.status ≠ 0 then (pl.status, if pl.named then i else 0xFFFF, [pl])
    else
      let x := planAll s t p d m n k e0 (i + 1) r
      (x.1, x.2.1, pl :: x.2.2)

/-- Step 6 over the entries in order: the first status that is not 0, its entry, what it needs. -/
def entriesStatus (s : State) (t : Tab Byte) (p : Nat) (d : Desc) (m n k : Nat) (e0 : List Nat) :
    Nat → List (List Nat) → Nat × Nat × List (Nat × Nat)
  | _, [] => (0, 0xFFFF, [])
  | i, e :: r =>
    let st := entryStatus s t p d (i == 0) r.isEmpty m n k e0 e
    if st.1 ≠ 0 then (st.1, i, st.2) else entriesStatus s t p d m n k e0 (i + 1) r

/-! ### Working set and tiles -/

/-- The effective precision of a partition's operation now: the lock, PREC, or PREC_DEFAULT (R152, R153). -/
def effPrec (s : State) (p : Nat) (d : Desc) : Nat :=
  if rd s oPREC_LOCK (p + 1) ≠ 0 then rd s oPREC_LOCK (p + 1)
  else if d.prec ≠ 0 then d.prec else rd s oPREC_DEFAULT (p + 1)

/-- Working set in bytes, its context area included (R247). -/
def workingSet (d : Desc) (prec k : Nat) (blocks : List (List Byte)) : Nat :=
  if d.opc = 0x01 then 0
  else if d.opc = 0x02 then 131072
  else if d.opc = 0x10 ∨ d.opc = 0x11 then wsMatmul prec k
  else if isAttn d.opc then wsAttn d.opc prec k d.fmt1
  else if isRec d.opc then wsRec d prec
  else if isSpawn d.opc then 73728
  else if isImage d.opc then wsImage d prec k blocks
  else if isColl d.opc then 139264
  else 24576

/-- Tiles of an operation; one without a tile passes through one empty tile. -/
def tileCount (s : State) (d : Desc) (prec m n k : Nat) (blocks : List (List Byte)) : Nat :=
  max 1
    (if d.opc = 0x02 then tilesCopy d.lcount m
     else if d.opc = 0x10 ∨ d.opc = 0x11 then tilesMatmul prec d.lcount m n k
     else if isAttn d.opc then tilesAttn d.opc blocks d.lcount m n
     else if isRec d.opc then tilesRec d.opc d.lcount m n k
     else if isSpawn d.opc then tilesSpawn d.opc n blocks
     else if isImage d.opc then tilesImage d prec m n k blocks
     else if isColl d.opc then
       tilesColl d n (collMembers s (field (numAt (blocks.headD []) 0 1) 3 0)).length
     else tilesPut d n)

/-- The general area of core store (Table CORE-4). -/
def generalArea : Nat := 6080 * 1024

/-- A partition's spill window in bytes, as SPILL_TARGET selects (R174). -/
def spillWindow (s : State) (p : Nat) : Nat :=
  match rd s oSPILL_TARGET (p + 1) with
  | 1 => rd s oSPILL_HOST_BYTES (p + 1)
  | 2 => rd s oSPILL_PEER_BYTES (p + 1)
  | _ => 0

/-- Configured space below core store: Pool scratch of a die, DRAM scratch, spill window. -/
def poolScratch (s : State) (p : Nat) : Nat := rd s oPOOL_SCRATCH_KIB (p + 1) * 1024
def dramScratch (s : State) (p : Nat) : Nat := rd s oDRAM_SCRATCH_MIB (p + 1) * 2 ^ 20

/-- Step 7 (R171). -/
def workingSetFits (s : State) (p : Nat) (spillOk : Bool) (ws : Nat) : Bool :=
  decide (ws ≤ (if spillOk then generalArea + poolScratch s p + dramScratch s p + spillWindow s p else generalArea))

/-! ### Issue as a whole -/

/-- The remote bytes that the checks need first, noted to be asked for. -/
def askFirst (o : Op) (l : List (Nat × Nat)) : Op := { o with requests := l.map (fun x => ⟨x.1, x.2, 0, 0, true⟩) }

/-- What the checks make of an operation: the status that ends it (0 where it is issued), FAULT_ENTRY, and the operation with
everything fixed at issue. -/
def checkIssue (s : State) (o : Op) : Nat × Nat × Op :=
  let d := o.desc
  let p := o.part
  if !(opcKnown d.opc) then (0x40, 0xFFFF, o)
  else if !(namesOk s p d) then (stACCESS_DENIED, 0xFFFF, o)
  else if encStatus d ≠ 0 then (encStatus d, 0xFFFF, o)
  else if d.opc = 0x01 then (0, 0xFFFF, o)
  else
    let b := boundsWord s p d
    if b.2 ≠ 0 then (b.2, 0xFFFF, o)
    else if !(extentsOk d b.1) then (stBOUNDS_INVALID, 0xFFFF, o)
    else
      let m := boundM b.1
      let n := boundN b.1
      let k := boundK b.1
      if d.opl % 32 ≠ 0 || !(within s p d.opl (32 * d.lcount)) || space d.opl == 4 then (stACCESS_DENIED, 0xFFFF, o)
      else if touchesPoison s d.opl (32 * d.lcount) then (stMEM_ERROR, 0xFFFF, o)
      else
        let es := (List.range d.lcount).map (fun e => (List.range 4).map (fun i => memNum s p (d.opl + 32 * e + 8 * i) 8))
        let st := entriesStatus s o.landed p d m n k (es.headD []) 0 es
        if st.1 ≠ 0 then (st.1, st.2.1, askFirst o st.2.2)
        else if chapterBounds d m n k ≠ 0 then (chapterBounds d m n k, 0xFFFF, o)
        else
          let pl := planAll s o.landed p d m n k (es.headD []) 0 es
          if pl.1 ≠ 0 then
            (pl.1, pl.2.1, askFirst o (pl.2.2.flatMap (fun x => x.needs)))
          else
            let blocks := pl.2.2.map (fun x => x.block)
            if !(workingSetFits s p d.spillOk (workingSet d (effPrec s p d) k blocks)) then (stBOUNDS_INVALID, 0xFFFF, o)
            else
              (0, 0xFFFF, { o with
                phase := .issued, m := m, n := n, k := k, entries := es, blocks := blocks
                ins := pl.2.2.flatMap (fun x => x.pieces.reads), insBy := pl.2.2.map (fun x => x.pieces.reads.length)
                outs := pl.2.2.flatMap (fun x => x.pieces.writes), pages := pl.2.2.map (fun x => x.pages)
                coll := if isColl d.opc then some (newColl (blocks.headD [])) else none })

/-! ### What issue waits for -/

/-- What a parameter block makes issue read: global list, incoming state, BIAS. -/
def blockRefs (d : Desc) (m n : Nat) (b : List Byte) : List (Nat × Nat) :=
  if isAttn d.opc then (let a := attnParams b; if a.gcount = 0 then [] else [(a.glist, 4 * min 64 a.gcount)])
  else if isRec d.opc then (let a := recParams b; if stateUnread d a then [] else stPieces d a.lg a.stateIn m n)
  else if d.opc = 0x50 then (let a := imgParams b; if a.bias = 0 then [] else [(a.bias, 4 * a.cOut)])
  else []

/-- Whether an OPC has a parameter block at P3. -/
def hasBlock (opc : Nat) : Bool :=
  opc == 0x20 || opc == 0x21 || opc == 0x28 || isRec opc || decide (0x50 ≤ opc ∧ opc ≤ 0x56) || isColl opc

/-- The part of a page map that issue may read of an entry, and the numbers of the branches that it names. -/
def mapRange (d : Desc) (m n k : Nat) (e : List Nat) : List (Nat × Nat) :=
  if d.opc = 0x20 ∨ d.opc = 0x21 then [(ptr e 1, 8 * ceilDiv n (pagePos k d.fmt1))]
  else if d.opc = 0x28 then [(ptr e 2, 8 * ceilDiv (n + m) (pagePos k d.fmt2))]
  else if d.opc = 0x41 ∨ d.opc = 0x46 then [(ptr e 0, 4)]
  else if d.opc = 0x42 then [(ptr e 0, 4 * n)]
  else []

/-- What issue reads of one entry: the block, what it names once it can be read (`t` holds the remote bytes landed so far), a page map,
the numbers of branches. -/
def issueReads (s : State) (t : Tab Byte) (p : Nat) (d : Desc) (m n k : Nat) (e : List Nat) : List (Nat × Nat) :=
  (if hasBlock d.opc then (ptr e 3, 64) :: (match readBlock s t p (ptr e 3) 64 with
    | (0, b) => blockRefs d m n b
    | _ => []) else []) ++ mapRange d m n k e

/-- The entries of an operation that has not been issued, with what issue reads of each. -/
def issueEntries (s : State) (o : Op) : List (List (Nat × Nat)) :=
  let d := o.desc
  let w := (boundsWord s o.part d).1
  (List.range d.lcount).map (fun e => issueReads s o.landed o.part d (boundM w) (boundN w) (boundK w)
    ((List.range 4).map (fun i => memNum s o.part (d.opl + 32 * e + 8 * i) 8)))

/-- The entry whose issue needs some bytes, for FAULT_ENTRY. -/
def entryNeeding (s : State) (o : Op) (a n : Nat) : Nat :=
  let i := (issueEntries s o).findIdx (fun l => l.any (fun x => overlaps x.1 x.2 a n))
  if i < o.desc.lcount then i else 0xFFFF

/-- Whether the issue of an operation has to wait for memory (Table CLK-5, R40, R451, R457 to R459): its bounds, its pointer list, what
its entries name. -/
def issueHeld (s : State) (o : Op) : Bool :=
  let d := o.desc
  d.opc != 0x01 && ((d.bndsrc == 2 && memHeld s (d.bnd, 8)) || memHeld s (d.opl, 32 * d.lcount) ||
    (issueEntries s o).any (fun l => l.any (memHeld s)))

end Sys2Proof.Machine
end

