-- ==== Sys2Proof/Machine/Weir.lean ====
section
/-! DEFINITION. The Weir (spec/11): admission, issue, placement, dispatch, wavefronts, pre-emption and parking, release. -/

namespace Sys2Proof.Machine

open Sys2Proof

/-! ### When the Weir works -/

/-- The Weir works in full mode until a contained error of chip scope stops dispatch (R96, R451). The loss of the root loop does
not stop it: Table CLK-5 gates the fabric, PCIe and controller logic only (R39, R40). -/
def weirRuns (s : State) : Bool := s.power.fullMode && !s.power.chipError

/-- The partition pauses while a core of it is being mapped onto a spare (R455). -/
def paused (s : State) (p : Nat) : Bool := (partCores s p).any (fun c => (coreOf s c).mapping)

/-- The partition is in service: not resetting, not paused. -/
def partRuns (s : State) (p : Nat) : Bool := !((partOf s p).resetting) && !(paused s p)

/-! ### Admission (R224 to R226, R231) -/

/-- The compute die whose Weir fetches a queue. -/
def queueDie (q : Nat) : Nat := q / 2048

/-- Operations admitted that satisfy a test. -/
def opCount (s : State) (f : Op → Bool) : Nat := (s.weir.ops.filter f).length

/-- Whether a slot is free for an operation of a class: 2048 a die, 64 of them kept for URGENT, within the quotas. -/
def slotFree (s : State) (p die cls : Nat) : Bool :=
  let onDie := opCount s (fun o => queueDie o.queue == die)
  let lowOnDie := opCount s (fun o => queueDie o.queue == die && o.desc.cls != 0)
  if cls = 0 then
    decide (onDie < 2048) && decide (opCount s (fun o => o.part == p && o.desc.cls == 0) < rd s oURGENT_QUOTA (p + 1))
  else
    decide (onDie < 2048) && decide (lowOnDie < 1984) &&
      decide (opCount s (fun o => o.part == p && o.desc.cls != 0) < rd s oSLOT_QUOTA (p + 1))

/-- A descriptor admitted with the completion queue that holds its entry: a slot, its waits, counting tokens served. -/
def admitDesc (s : State) (q p cq : Nat) (b : List Byte) : State :=
  let d := decodeDesc b
  let id := s.weir.nextOp
  let o : Op := { id := id, part := p, queue := q, cq := cq, desc := d, waits := admitWaits s p id d }
  let s := { s with weir := { s.weir with ops := s.weir.ops ++ [o], nextOp := id + 1 } }
  (o.waits.filter (fun w => w.counting)).foldl (fun t w => serveToken t w.token) s

/-- ADMIT (R225): the first fetched descriptor of a queue takes a slot and gives back its descriptor credit. -/
def execAdmitOp (q : Nat) (s : State) : Result :=
  .next (match (iqOf s q).fetched, iqPart s q with
    | x :: rest, some p =>
      if weirRuns s && !((partOf s p).resetting) && slotFree s p (queueDie q) (decodeDesc x.2).cls then
        admitDesc (setIq s q { iqOf s q with fetched := rest }) q p x.1 x.2
      else s
    | _, _ => s)

/-! ### Requests for host and remote operands (R128, R368, R379, R399) -/

/-- Pieces of at most `size` bytes. -/
def cutPiece (size : Nat) (x : Nat × Nat) : List (Nat × Nat) :=
  (List.range (ceilDiv x.2 size)).map (fun i => (x.1 + i * size, min size (x.2 - i * size)))

/-- A piece line by line. -/
def cutLines (x : Nat × Nat) : List (Nat × Nat) :=
  (linesOf x.1 x.2).map (fun l => (max x.1 l, min (x.1 + x.2) (l + 256) - max x.1 l))

/-- READ_REQ for each piece of remote operands (R368, R379). -/
def remoteRequests (o : Op) : List (Nat × Nat) → State → State × List Request
  | [], s => (s, [])
  | x :: r, s =>
    let c := remoteCtx x.1
    let q := (ctxOf s c).txSeq
    let s := xsend s c { mtype := mtREAD_REQ, tag := q, parts := 1, addr := x.1 % 2 ^ 48, aux := x.2 } o.id o.part o.desc.flow
    let t := remoteRequests o r s
    (t.1, ⟨x.1, x.2, c, q, true⟩ :: t.2)

/-- What an entry of a GATHER fetches: its index list and the rows that list names where it is at hand and no write of the operation
changes it, else every row. -/
def gatherPieces (s : State) (o : Op) (e : List Nat) : List (Nat × Nat) :=
  let rows := if space (ptr e 1) ≤ 2 && !(o.outs.any (fun r => overlaps r.1 r.2 (ptr e 1) (4 * o.m))) then
      ((List.range o.m).map (fun i => readNum s (ptr e 1 + 4 * i) 4)).eraseDups.filter (fun r => decide (r < o.k))
    else List.range o.k
  (ptr e 1, 4 * o.m) :: rows.map (fun r => (ptr e 0 + r * pitchOf (boundN o.desc.cap) o.desc.fmt0, o.n * elemBytes o.desc.fmt0))

/-- The pieces that an operation fetches from outside the chip. -/
def fetchPieces (s : State) (o : Op) : List (Nat × Nat) :=
  if o.desc.opc = 0x58 then o.entries.flatMap (gatherPieces s o) else o.ins

/-- The requests for its host operands: reads of at most 4096 bytes (R399). -/
def hostRequests (s : State) (o : Op) : List Request :=
  (((fetchPieces s o).filter (fun x => space x.1 == 3)).flatMap (cutPiece 4096)).map (fun x => ⟨x.1, x.2, 0, 0, false⟩)

/-- The remote pieces of an operation; of GATHER and SCATTER line by line, so that the lanes of a poisoned line can be told from
the others (R349). -/
def remotePieces (s : State) (o : Op) : List (Nat × Nat) :=
  ((fetchPieces s o).filter (fun x => space x.1 == 4)).flatMap
    (if o.desc.opc = 0x58 ∨ o.desc.opc = 0x59 then cutLines else cutPiece 4096)

/-! ### Issue (R203, R205, R238) -/

/-- The remote bytes that the checks at issue still need are asked for; the operation waits for them (log 63). -/
def askRemote (s : State) (o : Op) : State :=
  let r := remoteRequests o (o.requests.flatMap (fun x => cutPiece 4096 (x.addr, x.len))) s
  setOp r.1 { o with requests := r.2 }

/-- Whether the checks at issue of a collective got as far as its pointer list (Table OPS-5). -/
def listRead (s : State) (o : Op) : Bool :=
  let b := boundsWord s o.part o.desc
  namesOk s o.part o.desc && encStatus o.desc == 0 && b.2 == 0 && extentsOk o.desc b.1 &&
    o.desc.opl % 32 == 0 && within s o.part o.desc.opl (32 * o.desc.lcount) && space o.desc.opl != 4 &&
    !(touchesPoison s o.desc.opl (32 * o.desc.lcount))

/-- A collective that its checks refuse breaks the group that its block names (R387). -/
def breakRefused (s : State) (o : Op) (st : Nat) : State :=
  if listRead s o then (match collGroupOf s o with
    | some g => breakOf s o.part g st
    | none => s)
  else s

/-- ISSUE: once its tokens are satisfied; a failure that reached it comes before the checks. -/
def issueOp (s : State) (o : Op) : State :=
  if o.waits.any (fun w => w.failed) then endOp s o stCANCELLED
  else
    let r := checkIssue s o
    if r.1 = stNEED then askRemote s r.2.2
    else if r.1 ≠ 0 then endOpAt (breakRefused s o r.1) o r.1 r.2.1
    else setOp s { r.2.2 with phase := .issued }

/-- ISSUE of an operation by its number, once the memory that its checks read can be read. -/
def execIssue (op : Nat) (s : State) : Result :=
  .next (match opOf? s op with
    | some o =>
      if weirRuns s && partRuns s o.part && o.phase == .waiting && waitsMet o && o.requests.isEmpty &&
          (o.waits.any (fun w => w.failed) || !(issueHeld s o)) then issueOp s o
      else s
    | none => s)

/-! ### Placement (R168 to R172, R239 to R244) -/

/-- The operations on a core in some phases. -/
def onCore (s : State) (c : Nat) (f : OpPhase → Bool) : List Op :=
  s.weir.ops.filter (fun o => decide (o.core = some c) && f o.phase)

/-- Operations placed on a core and not yet executed. -/
def coreLoad (s : State) (c : Nat) : Nat := (onCore s c (fun f => f == .placed || f == .dispatched || f == .parked)).length

/-- Room left in a core's general area. -/
def coreRoom (s : State) (c : Nat) : Nat :=
  generalArea - (onCore s c (fun _ => true)).foldl (fun a o => a + o.wsCore) 0

/-- A free entry of a core's op slot queue: 4, of which one only for URGENT (R241). -/
def entryFree (s : State) (c cls : Nat) : Bool :=
  let placed := onCore s c (fun f => f == .placed)
  decide (placed.length < 4) && (cls == 0 || decide ((placed.filter (fun o => o.desc.cls != 0)).length < 3))

/-- The DRAM scratch of a partition on each stack: the top DRAM_SCRATCH_MIB of its extents in descending order (R420). -/
def scratchOn (s : State) (p k : Nat) : Nat :=
  ((bitList (rd s oPART_DRAM_EXT (p + 1)) 768).reverse.zipIdx).foldl (fun a x =>
    if x.1 / 96 = k then a + min extentBytes (dramScratch s p - extentBytes * x.2) else a) 0

/-- What is unused of it. -/
def scratchLeft (s : State) (p k : Nat) : Nat :=
  scratchOn s p k - (s.weir.ops.filter (fun o => o.part == p)).foldl (fun a o => a + tabGet 0 o.scratch k) 0

/-- The stacks tried for DRAM scratch: the home stack of the core, then the others by number (Table MEM-4). -/
def scratchOrder (s : State) (c : Nat) : List Nat :=
  match homeStack s c with
  | some h => h :: (List.range 8).filter (fun k => k != h)
  | none => List.range 8

/-- Bytes taken from stacks in order. -/
def takeFrom (left : Nat → Nat) : List Nat → Nat → Tab Nat
  | [], _ => []
  | k :: r, n => if n = 0 then [] else let a := min n (left k); tabPut (takeFrom left r (n - a)) k a

/-- Where `n` bytes of DRAM scratch go: whole on the home stack, whole on the first other stack with room, else over the stacks in
that order (log 64). -/
def scratchShares (s : State) (p c n : Nat) : Tab Nat :=
  if n = 0 then []
  else
    let left := scratchLeft s p
    match (scratchOrder s c).find? (fun k => decide (n ≤ left k)) with
    | some k => [(k, n)]
    | none => takeFrom left (scratchOrder s c) n

/-- How a working set spreads over core store, Pool, DRAM and spill window (R169), if it fits. -/
def spread (s : State) (p c ws : Nat) : Option (Nat × Nat × Nat × Nat) :=
  let mine := s.weir.ops.filter (fun o => o.part == p)
  let die := c / 64
  let pool := poolScratch s p - (mine.filter (fun o => match o.core with
    | some k => k / 64 == die
    | none => false)).foldl (fun a o => a + o.wsPool) 0
  let dram := dramScratch s p - mine.foldl (fun a o => a + o.wsDram) 0
  let win := spillWindow s p - mine.foldl (fun a o => a + o.wsSpill) 0
  let a := min ws (coreRoom s c)
  let b := min (ws - a) pool
  let d := min (ws - a - b) dram
  if ws - a - b - d ≤ win then some (a, b, d, ws - a - b - d) else none

/-- Whether an operation's working set can be placed on a core (R170, R172). -/
def roomFor (s : State) (o : Op) (ws c : Nat) : Bool :=
  if o.desc.spillOk then (spread s o.part c ws).isSome else decide (ws ≤ coreRoom s c)

/-- The working set of an issued operation at the precision in force. -/
def opSet (s : State) (o : Op) : Nat := workingSet o.desc (effPrec s o.part o.desc) o.k o.blocks

/-- The candidate cores of an issued operation, ascending (R239, R454, R456). -/
def candidates (s : State) (o : Op) : List Nat :=
  (partCores s o.part).filter (fun c =>
    !(coreRetired s c) && !(coreOf s c).retiring && !(coreOf s c).mapping && quadTherm s (quadOf s c) != .hot &&
      entryFree s c o.desc.cls && roomFor s o (opSet s o) c)

/-- Bytes of a region inside the 4 KiB regions that a core's residency tags name (R130). -/
def tagBytes (tags : List Nat) (a n : Nat) : Nat :=
  if n = 0 then 0
  else
    (List.range ((a + n - 1) / 4096 + 1 - a / 4096)).foldl (fun t i =>
      let g := a / 4096 + i
      if tags.contains g then t + (min (a + n) (4096 * (g + 1)) - max a (4096 * g)) else t) 0

/-- Input bytes of an operation that a core's tags cover. -/
def resident (s : State) (o : Op) (c : Nat) : Nat :=
  let tags := (coreOf s c).tags.map (fun x => x.2)
  o.ins.foldl (fun t x => t + tagBytes tags x.1 x.2) 0

/-- DRAM operand bytes of an operation on a stack. -/
def stackBytesOf (o : Op) (k : Nat) : Nat :=
  (o.ins ++ o.outs).foldl (fun t x => if space x.1 = 0 ∧ dramStack x.1 = k then t + x.2 else t) 0

/-- The first of a list that has the largest value of a measure: of stacks that hold equally many of an operation's DRAM operand
bytes the lowest-numbered one counts in R240, which is silent on it (DESIGN CHOICE, log 70). -/
def argMax (f : Nat → Nat) (l : List Nat) : Option Nat :=
  l.foldl (fun b c => match b with
    | none => some c
    | some d => if f d < f c then some c else some d) none

/-- The first of a list that has the smallest value of a measure. -/
def argMin (f : Nat → Nat) (l : List Nat) : Option Nat :=
  l.foldl (fun b c => match b with
    | none => some c
    | some d => if f c < f d then some c else some d) none

/-- The core that R240 chooses from a list in ascending order. -/
def choose (s : State) (o : Op) (cs : List Nat) : Option Nat :=
  let top := (cs.map (resident s o)).foldl max 0
  let equal := cs.filter (fun c => resident s o c == top)
  let stack := match argMax (stackBytesOf o) (List.range 8) with
    | some k => if stackBytesOf o k = 0 then none else some k
    | none => none
  let near := equal.filter (fun c => decide (stack = some (quadOf s c)))
  argMin (coreLoad s) (if near.isEmpty then equal else near)

/-- The order in which issued operations are served: class, rotation of partitions, admission (R242). The rotation of a class begins
with partition 0 (DESIGN CHOICE, log 70). -/
def servedBefore (s : State) (a b : Op) : Bool :=
  let turn := fun (o : Op) => (o.part + 128 - (tabGet 127 s.weir.rotation o.desc.cls + 1) % 128) % 128
  if a.desc.cls ≠ b.desc.cls then decide (a.desc.cls < b.desc.cls)
  else if a.part ≠ b.part then decide (turn a < turn b)
  else decide (a.id < b.id)

/-- An issued operation that takes a core. -/
def wantsCore (s : State) (o : Op) : Bool := o.phase == .issued && o.desc.opc != 0x01 && partRuns s o.part

/-- Whether another operation that competes for the same cores is served first. -/
def outranked (s : State) (o : Op) (cs : List Nat) : Bool :=
  s.weir.ops.any (fun x => x.id != o.id && wantsCore s x && servedBefore s x o && (candidates s x).any (fun c => cs.contains c))

/-- The operation that executes on a core. -/
def executingOn (s : State) (c : Nat) : Option Op := (coreOf s c).exec.bind (opOf? s)

/-- A runnable parked operation of a core that still holds a save slot, the oldest first (R248). -/
def movable (s : State) (c : Nat) : Option Op :=
  let l := (onCore s c (fun f => f == .parked)).filter (fun o => o.runnable && o.slot.isSome)
  (argMin (fun i => i) (l.map (fun o => o.parkedNo))).bind (fun n => l.find? (fun o => o.parkedNo == n))

/-- A core that URGENT work may pre-empt: it executes a non-URGENT operation and no load is pending (R129, R243, R244). -/
def victim (s : State) (c : Nat) : Bool :=
  (match executingOn s c with
    | some v => v.desc.cls != 0
    | none => false) && (coreOf s c).load.isNone

/-- Whether an operation whose data effect has taken place may pass to Executed. -/
def mayFinish (s : State) (o : Op) : Bool :=
  o.dataDone && o.requests.isEmpty && (o.desc.opc != 0x03 || allTransmitted s o.id)

/-- An operation whose wavefront cannot go on: operands that have not landed or cannot be read or written, or a completion that
waits for the fabric. -/
def starved (s : State) (v : Op) : Bool := if v.dataDone then !(mayFinish s v) else !(memoryOpen s v)

/-- A wavefront is in progress on a core. An operation whose operands have not all landed has none: it waits at a tile boundary, for the
host, a peer or a memory controller alike (R244); so does a PUT whose next message waits (R394). -/
def inWave (s : State) (c : Nat) : Bool :=
  (coreOf s c).wave && (match executingOn s c with
    | some v => v.dataDone || (inputsIn s v && !v.putting)
    | none => true)

/-- The group of R244 a victim belongs to: waiting at a tile boundary, advancing, stalled mid-wavefront. -/
def victimGroup (s : State) (c : Nat) : Nat :=
  let waits := match executingOn s c with
    | some v => starved s v
    | none => false
  if !(inWave s c) then 0 else if waits then 2 else 1

/-- The core to pre-empt: one with a free save slot, else one where a slot can be freed (R248, R249); the first group of R244 that
holds any, R240 within it. -/
def chooseVictim (s : State) (o : Op) (cs : List Nat) : Option Nat :=
  let vs := cs.filter (victim s)
  let ready := vs.filter (fun c => decide ((coreOf s c).slots.length < 8))
  let vs := if ready.isEmpty then vs.filter (fun c => (movable s c).isSome) else ready
  match ([0, 1, 2].map (fun g => vs.filter (fun c => victimGroup s c == g))).find? (fun l => !l.isEmpty) with
  | some l => choose s o l
  | none => none

/-- The context that a save slot holds. -/
def slotSaved (s : State) (c : Nat) (slot : Option Nat) : Option Saved :=
  match slot with
  | some i => (tabGet? (coreOf s c).slots i).map (fun x => x.saved)
  | none => none

/-- The context of a runnable parked operation moved into its context area, where no save slot is free (R248). -/
def makeSlot (s : State) (c : Nat) : State :=
  if (coreOf s c).slots.length < 8 then s
  else
    match movable s c with
    | some v => setOp (freeSlot s c v.slot) { v with slot := none, context := slotSaved s c v.slot }
    | none => s

/-- An operation placed on a core with its working set (R168, R169, R173). -/
def placeOn (s : State) (o : Op) (c : Nat) : State :=
  let ws := opSet s o
  let w := if o.desc.spillOk then (spread s o.part c ws).getD (ws, 0, 0, 0) else (ws, 0, 0, 0)
  let s := { s with weir := { s.weir with rotation := tabPut s.weir.rotation o.desc.cls o.part } }
  setOp s { o with phase := .placed, core := some c, wsCore := w.1, wsPool := w.2.1, wsDram := w.2.2.1, wsSpill := w.2.2.2,
                   scratch := scratchShares s o.part c w.2.2.1, coreWait := false
                   spilled := decide (0 < w.2.1 + w.2.2.1 + w.2.2.2) }

/-- A program load becomes pending; where a wavefront is in progress the stall timer starts, unless it runs already (R132, R133,
and spec/06, "When things coincide"). -/
def pendLoad (s : State) (l : Load) (c : Nat) : State :=
  let x := coreOf s c
  let timer := match x.stall with
    | some t => some t
    | none => if inWave s c then some (rd s oARRAY_STALL_LIMIT_US 0) else none
  setCore s c { x with load := some l, wave := inWave s c, stall := timer, arrays := { x.arrays with shadow := none } }

/-- The candidates whose arrays are idle. -/
def idleCores (s : State) (cs : List Nat) : List Nat := cs.filter (fun c => (coreOf s c).exec.isNone)

/-- PLACE (R239 to R244, R249). An URGENT operation that finds neither idle arrays nor a save slot waits, and then takes the core on
which either comes free first. -/
def execPlace (op : Nat) (s : State) : Result :=
  .next (match opOf? s op with
    | some o =>
      let cs := candidates s o
      let idle := idleCores s cs
      if !(weirRuns s && wantsCore s o) || outranked s o cs then s
      else if o.desc.cls = 0 ∧ idle.isEmpty then
        match chooseVictim s o cs with
        | some c => pendLoad (placeOn (makeSlot s c) o c) (.preempt o.id) c
        | none => setOp s { o with coreWait := true }
      else
        match choose s o (if o.coreWait then idle else cs) with
        | some c => placeOn s o c
        | none => s
    | none => s)

/-! ### Dispatch (R154, R131, R317) -/

/-- The status of the remote operands at dispatch: a context that has closed or failed since issue (R379). -/
def remoteNow (s : State) (o : Op) : Nat :=
  (((remotePieces s o).map (fun x => remoteRead s o.part o.desc.opc x.1)).find? (fun st => st != 0)).getD 0

/-- The 4 KiB regions of DRAM and Pool that an operation's inputs touch, ascending. -/
def inputRegions (o : Op) : List Nat :=
  (o.ins.filter (fun x => space x.1 ≤ 1)).foldl (fun l x =>
    if x.2 = 0 then l
    else (List.range ((x.1 + x.2 - 1) / 4096 + 1 - x.1 / 4096)).foldl (fun m i => insertAsc m (x.1 / 4096 + i)) l) []

/-- The lowest granule from `g` on that is not among those taken; `fuel` bounds the search. -/
def freeGranule (taken : List Nat) : Nat → Nat → Option Nat
  | 0, _ => none
  | fuel + 1, g => if taken.contains g then freeGranule taken fuel (g + 1) else some g

/-- The regions staged into a core's general area of 1520 granules (R130, log 25): one that is resident stays where it is, another
takes the lowest granule that nobody holds; answers the tags and the granules that hold the inputs. -/
def stageRegions (held : List Nat) : List Nat → Tab Nat × List Nat → Tab Nat × List Nat
  | [], x => x
  | r :: rest, (tags, mine) =>
    match tags.find? (fun t => t.2 == r) with
    | some t => stageRegions held rest (tags, mine ++ [t.1])
    | none =>
      match freeGranule (held ++ mine) 1520 0 with
      | some g => stageRegions held rest (tabPut tags g r, mine ++ [g])
      | none => stageRegions held rest (tags, mine)

/-- Granules that the operations dispatched or parked on a core hold (R128). -/
def heldGranules (s : State) (c : Nat) : List Nat :=
  (onCore s c (fun f => f == .dispatched || f == .parked)).flatMap (fun o => o.granules)

/-- The array program of an operation (Table CORE-5). -/
def programOf (o : Op) (prec : Nat) : Program :=
  { op := o.id, precision := prec, transposed := o.desc.opc == 0x11 || o.desc.opc == 0x20 || o.desc.opc == 0x21, tail := o.desc.tail, seed := o.desc.seed, m := o.m, n := o.n }

/-- A line of an operation's operands in its buffers, unless it is poisoned. -/
def landLine (s : State) (o : Op) (line : Nat) : State :=
  if readsPoison s line then s else setOp s { o with landed := tabPutAll o.landed line (readBytes s line 256) }

/-- Whether a core has asked for a line of an operation of a class and not had it yet: the lines come in the order in which they were
asked for, those of URGENT operations apart (R182, R258). -/
def asksAhead (s : State) (c : Nat) (urgent : Bool) : Bool := s.mem.reads.any (fun r => r.core == c && r.urgent == urgent)

/-- Lines asked for in operand order: a line of Pool or core store comes at once where none is outstanding before it; for another the
core spends a credit of every boundary on its way (Table HSK-2, R258), and the controllers reserve return space as they take the
request (R45). `fuel` bounds their number. -/
def askLines (id : Nat) : Nat → State → State
  | 0, s => s
  | fuel + 1, s =>
    match opOf? s id with
    | none => s
    | some o =>
      match o.core, lineAt o.ins o.asked with
      | some c, some line =>
        let urgent := o.desc.cls == 0
        let o' := { o with asked := o.asked + 1 }
        if space line ≠ 0 ∧ !(asksAhead s c urgent) ∧ !(repairHolds s line 256) then askLines id fuel (landLine (setOp s o') o' line)
        else if !(mayAsk s c line urgent) then s
        else
          let r : LineRead := { core := c, op := id, line := line, urgent := urgent, reserved := !s.clock.rootGated }
          askLines id fuel (setOp { s with mem := { s.mem with reads := s.mem.reads ++ [r] } } o')
      | _, _ => s

/-- Host reads of an operation that executes, asked as long as its die holds credits for their answers (R35, R44); `fuel` bounds their
number. -/
def askHost (id : Nat) : Nat → State → State
  | 0, s => s
  | fuel + 1, s =>
    match opOf? s id with
    | none => s
    | some o =>
      match o.core, o.due with
      | some c, r :: rest =>
        if o.phase = .dispatched ∧ linkTransfers r.len ≤ linkCredits s (c / 64) then
          askHost id fuel (setOp s { o with requests := o.requests ++ [r], due := rest })
        else s
      | _, _ => s

/-- Lines of all pieces of a list. -/
def lineCount (l : List (Nat × Nat)) : Nat := l.foldl (fun t x => t + (x.1 % 256 + x.2 + 255) / 256) 0

/-- The tiles of a Spawn operation before its first has ended, once the numbers of its branches have come in (R332). -/
def retile (s : State) (c : Nat) : State :=
  match executingOn s c with
  | some o =>
    if isSpawn o.desc.opc && o.tile == 0 && !o.dataDone && inputsIn s o then
      setOp s { o with tiles := max 1 (tilesSpawn o.desc.opc o.n (o.entries.map (lengthsNow s o))) }
    else s
  | none => s

/-- The operation that executes on a core asks for its next host reads and lines; once all are in, its tile enters the arrays. -/
def askMore (s : State) (c : Nat) : State :=
  match executingOn s c with
  | some o =>
    if o.dataDone then s else startTile c (retile (askLines o.id (lineCount o.ins) (askHost o.id o.due.length s)) c)
  | none => s

/-- A line that a core was asked for, in the buffers of its operation; discarded where that is over (R36, R136). -/
def landRead (s : State) (r : LineRead) : State :=
  match opOf? s r.op with
  | some o => if o.phase = .dispatched ∨ o.phase = .parked then landLine s o r.line else s
  | none => s

/-- The lines of Pool and core store at the front of what a core has asked for in a class come; `fuel` bounds their number. -/
def serveFront (c : Nat) (urgent : Bool) : Nat → State → State
  | 0, s => s
  | fuel + 1, s =>
    match s.mem.reads.find? (fun r => r.core == c && r.urgent == urgent) with
    | some r =>
      if space r.line ≠ 0 ∧ !(repairHolds s r.line 256) then
        serveFront c urgent fuel (landRead { s with mem := { s.mem with reads := s.mem.reads.erase r } } r)
      else s
    | none => s

/-- What a core has asked for goes on, and its operation asks for more. -/
def serveCore (s : State) (c : Nat) : State :=
  let n := s.mem.reads.length
  askMore (serveFront c false n (serveFront c true n s)) c

/-- Writes that waited enter, and the cores that held credits for them ask for more (R35). -/
def retryAll (s : State) : State :=
  ((s.mem.eddyWait.filterMap (fun w => w.core)).eraseDups).foldl askMore (retryWaits s)

/-- The same for every core that waits for a line. -/
def serveCores (s : State) : State := ((s.mem.reads.map (fun r => r.core)).eraseDups).foldl serveCore s

/-- An operation with its effective precision as its first tile is dispatched (R153, R154); one that ends there carries
PREC_OVERRIDDEN as well. -/
def resolved (s : State) (o : Op) : Op :=
  { o with precision := effPrec s o.part o.desc, precOverridden := decide (rd s oPREC_LOCK (o.part + 1) ≠ 0) }

/-- An operation begins its first tile on an idle core: precision resolved (R153, R154), reservations made (R317), requests
for host and remote operands and for lines sent, the program loaded, arrays taken. -/
def beginOp (s : State) (o : Op) (c : Nat) : State :=
  let o := resolved s o
  let res := if isSpawn o.desc.opc then reserveStatus s o else 0
  if res ≠ 0 then endOp s o res
  else if remoteNow s o ≠ 0 then endOp s o (remoteNow s o)
  else
    let need := if isSpawn o.desc.opc then spawnNeeds o else (0, 0)
    let rr := remoteRequests o (remotePieces s o) s
    let x := coreOf rr.1 c
    let staged := stageRegions (heldGranules rr.1 c) (inputRegions o) (x.tags, [])
    let s := setCore rr.1 c { x with
      exec := some o.id, wave := !(isColl o.desc.opc), load := none, stall := none, tags := staged.1
      arrays := { idleArrays x.arrays with program := some (programOf o o.precision) } }
    askMore (setOp s { o with
      phase := .dispatched, tile := 0, tiles := tileCount s o.desc o.precision o.m o.n o.k o.blocks
      requests := rr.2, due := hostRequests s o
      granules := staged.2, reservedBranches := need.1, reservedPages := need.2
      throttled := o.throttled || heldBelow s (quadOf s c) }) c

/-- Whether an operation of a lower class code is placed on the core. -/
def placedAhead (s : State) (c cls : Nat) : Bool :=
  (onCore s c (fun f => f == .placed)).any (fun x => decide (x.desc.cls < cls))

/-- The runnable parked operation of a core that resumes next: the oldest-parked of those that no placed operation of a higher class
goes before (R246). -/
def oldestRunnable (s : State) (c : Nat) : Option Op :=
  let l := (onCore s c (fun f => f == .parked)).filter (fun o => o.runnable && !(placedAhead s c o.desc.cls))
  (argMin (fun i => i) (l.map (fun o => o.parkedNo))).bind (fun n => l.find? (fun o => o.parkedNo == n))

/-- A runnable parked operation of a core that resumes before a placed operation of class `cls` (R246). -/
def resumesFirst (s : State) (c cls : Nat) : Bool :=
  (onCore s c (fun f => f == .parked)).any (fun v => v.runnable && decide (v.desc.cls ≤ cls))

/-- An issued URGENT operation that waits for the core and takes it once its arrays are idle (R246, R249). -/
def urgentWaits (s : State) (c : Nat) : Bool :=
  s.weir.ops.any (fun x => x.desc.cls == 0 && wantsCore s x && (candidates s x).contains c)

/-- DISPATCH (R117, R131, R154, R242, R246, R249). -/
def execDispatch (op : Nat) (s : State) : Result :=
  .next (match opOf? s op with
    | some o =>
      match o.core with
      | some c =>
        if weirRuns s && partRuns s o.part && o.phase == .placed && (coreOf s c).exec.isNone && !(resumesFirst s c o.desc.cls) &&
            !(placedAhead s c o.desc.cls) && (o.desc.cls == 0 || !(urgentWaits s c)) then beginOp s o c
        else s
      | none => s
    | none => s)

/-! ### Tile boundaries (R131 to R136, R253, R254) -/

/-- The last tile of an operation has ended: its arrays are free. A PUT waits for its transmission, a PUT_FLAG for its
acknowledgement (R377). -/
def execOp (s : State) (o : Op) (c : Nat) : State :=
  setOp (freeCore s c o.id) { o with phase := .executed, tile := o.tiles }

/-- An operation leaves the list of admitted operations. -/
def removeOp (s : State) (o : Op) : State :=
  { s with weir := { s.weir with ops := s.weir.ops.filter (fun x => x.id != o.id) } }

/-- An operation discarded by a partition reset (R112): its core is free, its requests are forgotten, it is counted. Where it may
have written, its outputs in DRAM are unspecified; Pool and host memory keep what they hold (Table BOOT-2). -/
def discardOp (s : State) (o : Op) : State :=
  let s := match o.core with
    | some c => freeSlot (freeCore s c o.id) c o.slot
    | none => s
  let began := !(o.phase == .waiting || o.phase == .issued || o.phase == .placed || o.phase == .ended)
  let s := removeOp (if began then freeRegions s o.part (o.outs.filter (fun r => space r.1 == 0)) else s) o
  setPart s o.part { partOf s o.part with discarded := (partOf s o.part).discarded + 1 }

/-- What becomes of the executing operation of a core at a tile boundary where a load is pending: a core reset abandons it (R114), a
partition reset discards it (R112), a pre-emption parks it (PREEMPT). -/
def loadActs (s : State) (c : Nat) : State :=
  match executingOn s c with
  | some o =>
    match (coreOf s c).load with
    | some .coreReset => endOp s o stABANDONED
    | some .partReset => discardOp s o
    | _ => s
  | none => s

/-- A wavefront of an operation that has more tiles completes on a core: the next one begins unless a load is pending (R132, R134)
or the operation waits at the boundary for operands. -/
def nextTile (s : State) (o : Op) (c : Nat) : State :=
  let s := runTile c s o
  let x := coreOf s c
  if x.exec = some o.id then loadActs (startTile c (setCore s c { x with wave := x.load.isNone, stall := none })) c else s

/-- WAVEFRONT_COMPLETE (R114, R134, R253, R254): a core reset that waits for the wavefront abandons the operation, in its last tile too;
else the last tile ends the operation once its data effect has taken place; before it a cancel acts, else the tile is done. -/
def execWavefrontComplete (c : Nat) (s : State) : Result :=
  .next (match executingOn s c with
    | some o =>
      if !(inWave s c) then s
      else if (coreOf s c).load = some .coreReset then endOp s { o with tile := min o.tiles (o.tile + 1) } stABANDONED
      else if o.dataDone then (if mayFinish s o then execOp s o c else s)
      else if o.tiles ≤ o.tile + 1 then s
      else if o.cancel then endOp s o stCANCELLED_PARTIAL
      else if tileStalls s o c then s
      else nextTile s o c
    | none => s)

/-- A placed operation whose program may load now: dispatch goes on, and its partition neither resets nor pauses (R112, R455). -/
def mayLoad (s : State) (o : Op) : Bool := weirRuns s && partRuns s o.part && o.phase == .placed

/-- What follows an abandoned wavefront: the new program loads (R135). -/
def loadNext (s : State) (l : Load) (c : Nat) : State :=
  match l with
  | .preempt u =>
    match opOf? s u with
    | some o => if mayLoad s o then beginOp s o c else s
    | none => s
  | _ => s

/-- STALL_TIMER_EXPIRY (R135) with the wavefronts in progress: they are abandoned and counted, the operation ends, or is discarded
by the partition reset that waited for it; the new program loads. -/
def execStallTimerExpiry (c : Nat) (s : State) (waves : Nat := 1) : Result :=
  .next (match executingOn s c, (coreOf s c).stall, (coreOf s c).load with
    | some v, some _, some l =>
      if (coreOf s c).wave then
        let s := count32 s oCORE_ABANDONS (c + 1) (max 1 waves)
        loadNext (if l = .partReset then discardOp s v else endOp s v stABANDONED) l c
      else s
    | _, _, _ => s)

/-! ### Pre-emption and parking (R245 to R250) -/

/-- The lowest free save slot of a core: R245 says a free one (DESIGN CHOICE, log 70). -/
def lowestSlot (s : State) (c : Nat) : Nat :=
  ((List.range 8).find? (fun i => (tabGet? (coreOf s c).slots i).isNone)).getD 0

/-- The context of the operation that executes on a core (R127). -/
def contextOf (x : Core) (v : Op) : Saved :=
  { acc := x.arrays.acc, program := x.arrays.program, position := x.arrays.position, rill := x.arrays.rill, tile := v.tile }

/-- The core-local address of a save slot (Table CORE-4). -/
def slotAddr (i : Nat) : Nat := 0x5F0000 + 0x2000 * i

/-- Requests of an operation that have not landed: of the host, of a peer, of the Pool or a memory controller. -/
def awaits (s : State) (o : Op) : Bool := !o.requests.isEmpty || s.mem.reads.any (fun r => r.op == o.id)

/-- An executing operation parked: its context in a save slot, its requests outstanding; runnable at once where none is. -/
def parkOp (s : State) (v : Op) (c : Nat) : State :=
  let i := lowestSlot s c
  let x := coreOf s c
  let s := setCore s c { x with exec := none, wave := false, load := none, stall := none, arrays := idleArrays x.arrays
                                slots := tabPut x.slots i { op := v.id, addr := slotAddr i, saved := contextOf x v } }
  let n := s.weir.parkedNo
  let s := { s with weir := { s.weir with parkedNo := n + 1 } }
  setOp s { v with phase := .parked, slot := some i, preempts := v.preempts + 1, parkedNo := n,
                   parkLimit := rd s oPARK_LIMIT_US 0, runnable := !(awaits s v) && v.coll.isNone }

/-- PREEMPT (R245): at a tile boundary the context is saved, the operation parks and the URGENT program loads. -/
def execPreempt (op : Nat) (s : State) : Result :=
  .next (match opOf? s op with
    | some u =>
      match u.core with
      | some c =>
        match executingOn s c with
        | some v =>
          if mayLoad s u && decide ((coreOf s c).load = some (.preempt op)) && !(coreOf s c).wave &&
              decide ((coreOf s c).slots.length < 8) then beginOp (parkOp s v c) u c
          else s
        | none => s
      | none => s
    | none => s)

/-- Whether what a parked collective awaits has arrived: READY, or the data of its next step. -/
def collReady (s : State) (o : Op) (c : CollRun) : Bool :=
  let r := (collMembers s c.group).length
  let i := collRank s c.group
  o.dataDone || (!c.readyGot && (readyFor s o c).isSome) || (stepRx o c r i c.done).isSome

/-- PARK_RUNNABLE (R246): every request outstanding at parking has landed. -/
def execParkRunnable (op : Nat) (s : State) : Result :=
  .next (match opOf? s op with
    | some o =>
      let here := match o.coll with
        | some c => collReady s o c
        | none => true
      if o.phase == .parked && !(awaits s o) && here then setOp s { o with runnable := true } else s
    | none => s)

/-- A parked operation back in the arrays of its core: its context returns from the slot or the context area, the slot is free,
throttling that holds now is noted (R81, R127). -/
def resumeOp (s : State) (o : Op) (c : Nat) : State :=
  let saved := match slotSaved s c o.slot with
    | some x => some x
    | none => o.context
  let s := freeSlot s c o.slot
  let x := coreOf s c
  let arrays := match saved with
    | some v => { x.arrays with acc := v.acc, program := v.program, position := v.position, rill := v.rill }
    | none => x.arrays
  let s := setCore s c { x with exec := some o.id, wave := o.coll.isNone || o.dataDone, arrays := arrays }
  askMore (setOp s { o with phase := .dispatched, slot := none, context := none, runnable := false
                            throttled := o.throttled || heldBelow s (quadOf s c) }) c

/-- RESUME_PARKED (R246, R249): the arrays free, no URGENT operation waiting for the core. -/
def execResumeParked (c : Nat) (s : State) : Result :=
  .next (match oldestRunnable s c with
    | some o =>
      if weirRuns s && (coreOf s c).exec.isNone && !(urgentWaits s c) then flagsOn (collMove (resumeOp s o c) o.id) else s
    | none => s)

/-- PARK_LIMIT_EXPIRY (R250): not runnable in time. -/
def execParkLimitExpiry (op : Nat) (s : State) : Result :=
  .next (match opOf? s op with
    | some o => if o.phase = .parked ∧ !o.runnable then endOp s o stTIMEOUT else s
    | none => s)

/-! ### Cancellation (R251 to R255) -/

/-- A cancel reaches one unreleased operation; in its last tile it has no effect (R253, R254). -/
def cancelOne (s : State) (o : Op) : State :=
  match o.phase with
  | .waiting => endOp s o stCANCELLED
  | .issued => endOp s o stCANCELLED
  | .placed => endOp s o stCANCELLED
  | .parked => endOp s o stCANCELLED_PARTIAL
  | .dispatched =>
    let atBoundary := match o.core with
      | some c => !(inWave s c)
      | none => false
    if o.dataDone || (!atBoundary && decide (o.tiles ≤ o.tile + 1)) then s
    else if atBoundary then endOp s o stCANCELLED_PARTIAL
    else setOp s { o with cancel := true }
  | .executed => s
  | .ended => s

/-- Every unreleased operation that satisfies a test cancelled; answers how many there were. -/
def cancelAll (s : State) (f : Op → Bool) : State × Nat :=
  let ids := opIds s f
  (forOps ids cancelOne s, ids.length)

/-! ### Data that arrives (R128, R136, R253) -/

/-- Bytes landed for a request of an operation; the link credits of a host read let others be asked (R35). -/
def landRequest (s : State) (o : Op) (r : Request) (b : List Byte) : State :=
  let s := setOp s { o with requests := o.requests.filter (fun x => x != r), landed := tabPutAll o.landed r.addr b }
  let s := if r.remote then s else (opIds s (fun x => !x.due.isEmpty)).foldl (fun t id => askHost id (hskCredits .ioLink) t) s
  match o.core with
  | some c => askMore s c
  | none => s

/-- READ_RETURN (R128, R136): host data arrives, or is discarded where nothing awaits it. -/
def execReadReturn (op addr : Nat) (s : State) : Result :=
  .next (match opOf? s op with
    | some o =>
      match o.requests.find? (fun r => !r.remote && r.addr == addr) with
      | some r => if s.clock.rootGated then s else landRequest s o r (hostBytesAt s (partFn s o.part) r.addr r.len)
      | none => s
    | none => s)

/-! ### Release (R185, R186, R221, R234, R237) -/

/-- The Eddy entries that hold an operation's writes. -/
def entriesBy (s : State) (id : Nat) : List (Nat × EddyEntry) :=
  s.mem.eddies.flatMap (fun x => (x.2.filter (fun e => e.writers.contains id)).map (fun e => (x.1, e)))

/-- They drain, each with its burst, and writes that waited enter (R163, R184). -/
def drainBy (s : State) (id : Nat) : State :=
  retryAll ((entriesBy s id).foldl (fun t x => match eddyEntry? t x.2.line with
    | some e => drainBurst t x.1 e
    | none => t) s)

/-- Whether the release fence of an operation can complete: no entry of it lies in a stack in self-refresh or in a row
under repair (R458), no write of it waits for an entry. After a contained
error of chip scope the operation has ended MEM_ERROR and nothing is drained. -/
def fenceCan (s : State) (id : Nat) : Bool :=
  s.power.chipError ||
    ((entriesBy s id).all (fun x => !(selfRefresh s x.1) && !(repairHolds s x.2.line 256)) && !(s.mem.eddyWait.any (fun w => w.op == id)))

/-- The commit of a Spawn operation at its release (R318, R319, R331): the status it then has. -/
def commitOp (s : State) (o : Op) : State × Op :=
  if o.phase = .executed ∧ o.status = stOK ∧ !o.commits.isEmpty then
    let st := commitStatus s o.part o.commits
    if st = 0 then (spawnCommit s o, o) else (s, { o with status := st })
  else (s, o)

/-- The record of a release delivered to the completion queue that holds its entry, and OPEN lowered (R414, Table HOST-4). -/
def deliver (s : State) (o : Op) (m : Measured) : State :=
  let q := iqOf s o.queue
  let s := setIq s o.queue { q with opened := q.opened - 1 }
  postRecord s o.cq (partFn s o.part) (releaseRecord o m)

/-- A record delivered, or put behind those that wait for the PCIe core (R43). -/
def deliverRecord (s : State) (o : Op) (m : Measured) : State :=
  if s.clock.rootGated then { s with outRecords := s.outRecords ++ [(o, m)] } else deliver s o m

/-- What the commit of a Spawn operation writes: numbers of children, map entries. -/
def commitWrites (acts : List SpawnAct) : List (Nat × Nat) :=
  acts.filterMap (fun x => match x with
    | .create numAddr _ _ => some (numAddr, 4)
    | .newPage a => some (a, 8)
    | .clearEntry a => some (a, 8)
    | _ => none)

/-- Whether the writes of a commit can be made and fenced now: none meets memory that cannot be accessed (R185). -/
def commitCan (s : State) (o : Op) : Bool :=
  s.power.chipError || o.phase != .executed || o.status != stOK || !((commitWrites o.commits).any (memHeld s))

/-- PREC_OVERRIDDEN of an operation that never dispatched a tile, so that nothing resolved its precision: the lock as it stands at
release (R153, R154; DESIGN CHOICE, log 70). -/
def releaseFlags (s : State) (o : Op) : Op :=
  if o.precision = 0 then { o with precOverridden := decide (rd s oPREC_LOCK (o.part + 1) ≠ 0) } else o

/-- Everything a release does, in order: commit, CHIP fence, token, record. -/
def releaseOp (s : State) (o : Op) (m : Measured) : State :=
  let x := commitOp s (releaseFlags s o)
  let o := x.2
  let s := if x.1.power.chipError then x.1 else drainBy x.1 o.id
  let s := signalRelease (removeOp s o) o
  let s := if o.spilled then count32 s oSPILL_COUNT (o.part + 1) 1 else s
  deliverRecord s o m

/-- An operation that may release: executed or ended, first of its flow, its fence able to complete. -/
def mayRelease (s : State) (o : Op) : Bool :=
  (o.phase == .executed || o.phase == .ended) && (earlierInFlow s o).isEmpty && commitCan s o && fenceCan s o.id &&
    s.power.compute && !((partOf s o.part).resetting)

/-- RELEASE (R234). -/
def execRelease (op : Nat) (m : Measured) (s : State) : Result :=
  .next (match opOf? s op with
    | some o => if mayRelease s o then releaseOp s o m else s
    | none => s)

end Sys2Proof.Machine
end

