-- ==== Sys2Proof/Machine/Inbound.lean ====
section
/-! DEFINITION. Transport messages received, transport and collective timers, pairing of contexts, heat pacing and membership
(spec/16 R365 to R393; spec/09 R190 to R195). -/

namespace Sys2Proof.Machine

open Sys2Proof

/-! ### Receiving a sequenced message (R369, R370) -/

/-- The open context a message is for: addressed to this chip, sent by the context's peer. -/
def inCtx (s : State) (m : Msg) : Option Nat :=
  let c := ctxOf s m.dstCtx
  if m.dstChip = s.fabric.chipId ∧ c.st = .opened ∧ c.peerChip = m.srcChip then some m.dstCtx else none

/-- A message whose XSEQ is new is acted on and acknowledged with the credits `act` returns; a duplicate draws its
acknowledgement again and `again`. -/
def receive (s : State) (m : Msg) (again : State → Nat → State) (act : State → Nat → State × Nat) : State :=
  match inCtx s m with
  | none => s
  | some x =>
    let c := ctxOf s x
    if received c m.xseq then again (sendAck s x 0) x
    else if !(inWindow c m.xseq) then s
    else
      let r := act (setCtx s x (rxMark c m.xseq)) x
      sendAck r.1 x r.2

/-- Nothing more happens to a duplicate. -/
def quiet (s : State) (_x : Nat) : State := s

/-- A sequenced message answered on its context by the device itself. -/
def answer (s : State) (x : Nat) (m : Msg) : State := xsend s x m noOp (ctxOf s x).part 0

/-! ### Remote writes (R190, R367, R368) -/

/-- The local address a message names, if it lies within the partition that owns the context (R367, R420). -/
def landAddr (s : State) (x : Nat) (m : Msg) (n : Nat) : Option Nat :=
  let a := remoteLocal m.addr
  if addressLaidOut (4 * 2 ^ 60 + m.addr) && within s (ctxOf s x).part a n then some a else none

/-- Whether memory at an address cannot be accessed now: self-refresh, or a repair holds it. -/
def landHeld (s : State) (a n : Nat) : Bool :=
  (space a == 0 && selfRefresh s (dramStack a)) || repairHolds s a n

/-- A message for memory that cannot be accessed now, which waits at its controller. -/
def msgHeld (s : State) (m : Msg) (n : Nat) : Bool := landHeld s (remoteLocal m.addr) n

/-- The landed counter of a write group, and the same set. -/
def landedOf (s : State) (x g : Nat) : Nat := tabGet 0 (ctxOf s x).landed g
def setLanded (s : State) (x g n : Nat) : State :=
  setCtx s x { ctxOf s x with landed := tabPut (ctxOf s x).landed g (n % 65536) }

/-- COUNT and REMOTE_SIGNAL of a FLAG. -/
def flagCount (m : Msg) : Nat := m.aux % 65536
def flagSignal (m : Msg) : Nat := m.aux / 65536

/-- A FLAG write becomes visible (R191, R192): its 8 bytes, the counter lowered, the token signalled, FLAG_ACK. -/
def flagVisible (s : State) (x : Nat) (m : Msg) : State :=
  let p := (ctxOf s x).part
  let s := landBytes s p (remoteLocal m.addr) (slice m.data 0 8)
  let s := setLanded s x m.wgroup (landedOf s x m.wgroup - flagCount m)
  answer (remoteSignal s p (flagSignal m)) x { mtype := mtFLAG_ACK, tag := m.xseq, aux := 0 }

/-- Held FLAG writes of a context looked at in order of arrival; each that becomes visible returns its credit. -/
def tryFlags (x : Nat) (s : State) : State :=
  (s.fabric.held.filter (fun h => h.ctx == x)).foldl (fun t h =>
    if flagCount h.msg ≤ landedOf t x h.msg.wgroup then
      let t := { t with fabric := { t.fabric with held := t.fabric.held.filter (fun y => y != h) } }
      sendAck (flagVisible t x h.msg) x 1
    else t) s

/-- One remote write has landed whole. -/
def countLanded (s : State) (x g : Nat) : State := tryFlags x (setLanded s x g (landedOf s x g + 1))

/-- A part of a remote write landed; the write counts once every part has. -/
def partLanded (s : State) (x : Nat) (m : Msg) : State :=
  if m.parts ≤ 1 then countLanded s x m.wgroup
  else
    let rest := s.fabric.arriving.filter (fun a => !(a.ctx == x && a.tag == m.tag))
    let got := m.xseq :: (match s.fabric.arriving.find? (fun a => a.ctx == x && a.tag == m.tag) with
      | some a => a.got
      | none => [])
    if got.length = m.parts then countLanded { s with fabric := { s.fabric with arriving := rest } } x m.wgroup
    else { s with fabric := { s.fabric with arriving := rest ++ [⟨x, m.tag, got⟩] } }

/-- The refusal of an address (R367). -/
def refuseAddr (s : State) (x : Nat) (m : Msg) : State × Nat := (answer s x { mtype := mtNACK, tag := m.tag }, 1)

/-- What a WRITE does. -/
def actWrite (m : Msg) (s : State) (x : Nat) : State × Nat :=
  match landAddr s x m m.data.length with
  | some a => (partLanded (landBytes s (ctxOf s x).part a m.data) x m, 1)
  | none => refuseAddr s x m

/-- WRITE (R190, R368, R370). -/
def execWriteMsg (m : Msg) (s : State) : Result :=
  .next (if msgHeld s m m.data.length then s else receive s m quiet (actWrite m))

/-! ### FLAG writes (R191 to R195, R370) -/

/-- What a FLAG does: visible at once, or held with the limit in force now. -/
def actFlag (m : Msg) (s : State) (x : Nat) : State × Nat :=
  match (if m.addr % 8 = 0 ∧ m.data.length = 8 then landAddr s x m 8 else none) with
  | some _ =>
    if flagCount m ≤ landedOf s x m.wgroup then (flagVisible s x m, 1)
    else ({ s with fabric := { s.fabric with held := s.fabric.held ++ [⟨x, m, rd s oFLAG_HOLD_LIMIT_US 0⟩] } }, 0)
  | none => refuseAddr s x m

/-- A duplicate FLAG that is no longer held draws a second FLAG_ACK and changes no counter. -/
def againFlag (m : Msg) (s : State) (x : Nat) : State :=
  if s.fabric.held.any (fun h => h.ctx == x && h.msg.xseq == m.xseq) then s
  else answer s x { mtype := mtFLAG_ACK, tag := m.xseq, aux := if (ctxOf s x).expired.contains m.xseq then 1 else 0 }

/-- FLAG. -/
def execFlagMsg (m : Msg) (s : State) : Result :=
  .next (if msgHeld s m 8 then s else receive s m (againFlag m) (actFlag m))

/-- FLAG_HOLD_EXPIRY (R195): discarded, counted, the counter undefined, an expiry notice returned. -/
def execFlagHoldExpiry (ctx xseq : Nat) (s : State) : Result :=
  .next (match s.fabric.held.find? (fun h => h.ctx == ctx && h.msg.xseq == xseq) with
    | some h =>
      let s := { s with fabric := { s.fabric with held := s.fabric.held.filter (fun y => y != h) } }
      let s := count32 s oFLAG_EXPIRED ((ctxOf s ctx).part + 1) 1
      let n := s.mem.free
      let s := setLanded (drawFree s) ctx h.msg.wgroup (Config.freeCounter n)
      let s := setCtx s ctx { ctxOf s ctx with expired := (ctxOf s ctx).expired ++ [xseq] }
      sendAck (answer s ctx { mtype := mtFLAG_ACK, tag := xseq, aux := 1 }) ctx 1
    | none => s)

/-- The operation that waits for an answer named by a TAG on a context. -/
def askedBy (s : State) (x tag : Nat) : Option Op :=
  s.weir.ops.find? (fun o => o.requests.any (fun r => r.remote && r.ctx == x && r.xseq == tag))

/-- A FLAG write that this chip sent: still unacknowledged, or acknowledged and not yet reported visible. -/
def flagSent? (s : State) (x tag : Nat) : Option TxMsg :=
  (s.fabric.msgs ++ s.fabric.unseen).find? (fun t => t.ctx == x && t.msg.mtype == mtFLAG && t.msg.xseq == tag)

/-- It is over: visible, expired or refused. -/
def flagOver (s : State) (x tag : Nat) : State :=
  let mine := fun (t : TxMsg) => t.ctx == x && t.msg.mtype == mtFLAG && t.msg.xseq == tag
  { s with fabric := { s.fabric with msgs := s.fabric.msgs.filter (fun t => !(mine t)), unseen := s.fabric.unseen.filter (fun t => !(mine t)) } }

/-- What a FLAG_ACK does (R192, R195): visible, the operation may release; expired, it completes TIMEOUT and the write is lost
to every fence. -/
def actFlagAck (m : Msg) (s : State) (x : Nat) : State × Nat :=
  let lost := if m.aux = 0 then [] else match flagSent? s x m.tag with
    | some t => [(⟨t.part, t.flow, t.op, x, stTIMEOUT⟩ : LostWrite)]
    | none => []
  let s := flagOver s x m.tag
  let s := { s with fabric := { s.fabric with lost := s.fabric.lost ++ lost } }
  match askedBy s x m.tag with
  | some o =>
    if m.aux = 0 then
      (setOp s { o with requests := o.requests.filter (fun r => !(r.remote && r.ctx == x && r.xseq == m.tag)) }, 1)
    else (remoteEnds stTIMEOUT s o, 1)
  | none => (s, 1)

/-- FLAG_ACK. -/
def execFlagAck (m : Msg) (s : State) : Result := .next (receive s m quiet (actFlagAck m))

/-! ### Remote reads (R379) -/

/-- Responses of at most 4096 bytes sent. -/
def sendResp (x tag parts : Nat) : List (List Byte) → State → State
  | [], s => s
  | b :: r, s => sendResp x tag parts r (answer s x { mtype := mtREAD_RESP, tag := tag, parts := parts, data := b, aux := b.length })

/-- What a READ_REQ does: the data, or, from a poisoned line, a response without data. -/
def actReadReq (m : Msg) (s : State) (x : Nat) : State × Nat :=
  match landAddr s x m m.aux with
  | some a =>
    let ps := if touchesPoison s a m.aux then [[]] else dataParts (readBytes s a m.aux)
    (sendResp x m.tag ps.length ps s, 1)
  | none => refuseAddr s x m

/-- READ_REQ. -/
def execReadReq (m : Msg) (s : State) : Result :=
  .next (if msgHeld s m m.aux then s else receive s m quiet (actReadReq m))

/-- A remote piece that the peer has answered as poisoned: MEM_ERROR, or a fault of its lanes in GATHER and SCATTER (R176, R349). -/
def pieceLost (s : State) (o : Op) (r : Request) : State :=
  if (o.desc.opc = 0x58 ∨ o.desc.opc = 0x59) ∧ o.phase ≠ .waiting ∧ o.phase ≠ .ended then
    landRequest s { o with lostPieces := o.lostPieces ++ [(r.addr, r.len)] } r []
  else
    let entry := if o.phase = .waiting then entryNeeding s o r.addr r.len else entryWhere o (fun y => overlaps y.1 y.2 r.addr r.len)
    remoteEnds stMEM_ERROR s { o with faultEntry := entry }

/-- What a READ_RESP does: the data lands in the reserved space; no data for a request that wanted some tells of a poisoned line. -/
def actReadResp (m : Msg) (s : State) (x : Nat) : State × Nat :=
  match askedBy s x m.tag with
  | some o =>
    match o.requests.find? (fun r => r.remote && r.ctx == x && r.xseq == m.tag) with
    | some r => (if m.data.isEmpty ∧ 0 < r.len then pieceLost s o r else landRequest s o r m.data, 1)
    | none => (s, 1)
  | none => (s, 1)

/-- READ_RESP (R370, R379). -/
def execReadResp (m : Msg) (s : State) : Result := .next (receive s m quiet (actReadResp m))

/-! ### Acknowledgements and refusals -/

/-- Whether an ACK covers an XSEQ: up to TAG, or in the map of the 64 that follow (R370). -/
def ackCovers (m : Msg) (q : Nat) : Bool :=
  q == m.tag || seqBefore q m.tag ||
    (let d := (q + 2 ^ 32 - m.tag - 1) % 2 ^ 32
     decide (d < 64) && (leNat m.data).testBit d)

/-- ACK (R369, R370): messages freed, a FLAG among them not yet visible (R192); credits returned, waiting messages sent; a collective
that waited for its send to land goes on (R385), and so does a FLAG write behind them. -/
def execAck (m : Msg) (s : State) : Result :=
  .next (match inCtx s m with
    | some x =>
      let freed := fun (t : TxMsg) => t.ctx == x && t.sent && ackCovers m t.msg.xseq
      let gone := s.fabric.msgs.filter freed
      let s := { s with fabric := { s.fabric with
        msgs := s.fabric.msgs.filter (fun t => !(freed t)), unseen := s.fabric.unseen ++ gone.filter (fun t => t.msg.mtype == mtFLAG) } }
      let s := setCtx s x { ctxOf s x with credits := (ctxOf s x).credits + m.aux }
      let s := sendWaiting x s.fabric.msgs.length s
      flagsOn ((gone.map (fun t => t.op)).foldl collMove s)
    | none => s)

/-- What a NACK does (R367): the issuing operation, if it is unreleased, completes REMOTE_DENIED or ACCESS_DENIED. -/
def actNack (m : Msg) (s : State) (x : Nat) : State × Nat :=
  let s := flagOver s x m.tag
  match s.weir.ops.find? (fun o => o.writes.contains (x, m.tag) ||
      o.requests.any (fun r => r.remote && r.ctx == x && r.xseq == m.tag)) with
  | some o => (remoteEnds (if isFabric o.desc.opc then 0x46 else stACCESS_DENIED) s o, 1)
  | none => (s, 1)

/-- NACK. -/
def execNack (m : Msg) (s : State) : Result := .next (receive s m quiet (actNack m))

/-! ### Collective messages (R381, R387) -/

/-- The collective in progress that a COLL_ID names on a context. -/
def collOn (s : State) (x tag : Nat) : Option Op :=
  s.weir.ops.find? (fun o => o.phase != .ended && o.phase != .executed && (match o.coll with
    | some c => c.collId == tag && (collNext s c.group == x || collPrev s c.group == x)
    | none => false))

/-- The group a message on a context belongs to: that of the collective it names, else one configured on the context. -/
def collGroupOn (s : State) (x tag : Nat) : Option Nat :=
  match collOn s x tag with
  | some o => o.coll.map (fun c => c.group)
  | none => (List.range 16).find? (fun g => collPart s g == (ctxOf s x).part && !((collMembers s g).isEmpty) &&
      (collNext s g == x || collPrev s g == x))

/-- The answer of a group that cannot run. -/
def sayMismatch (s : State) (x : Nat) (m : Msg) : State := answer s x { mtype := mtMISMATCH, tag := m.tag, parts := 1 }

/-- What a READY does: kept for its collective, or answered with MISMATCH by a BROKEN group (R387, log 24). -/
def actReady (m : Msg) (s : State) (x : Nat) : State × Nat :=
  match collGroupOn s x m.tag with
  | some g =>
    if collUnusable s g then (sayMismatch s x m, 1)
    else (collMoveAll { s with fabric := { s.fabric with ready := s.fabric.ready ++ [(g, m)] } } g, 1)
  | none => (sayMismatch s x m, 1)

/-- READY. -/
def execReady (m : Msg) (s : State) : Result := .next (receive s m quiet (actReady m))

/-- What a SEGMENT does: step data for its collective; from a BROKEN group a MISMATCH, whatever collective it names (R387); else
discarded. -/
def actSegment (m : Msg) (s : State) (x : Nat) : State × Nat :=
  let broken := match collGroupOn s x m.tag with
    | some g => collState s g == 2
    | none => false
  if broken then (sayMismatch s x m, 1)
  else
    match collOn s x m.tag with
    | some o =>
      match o.coll with
      | some c =>
        let g : SegRx := { step := m.aux % 65536, index := m.aux / 65536, bytes := m.data }
        (collMove (setOp s { o with coll := some { c with segs := c.segs ++ [g] } }) o.id, 1)
      | none => (s, 1)
    | none => (s, 1)

/-- SEGMENT. -/
def execSegment (m : Msg) (s : State) : Result := .next (receive s m quiet (actSegment m))

/-- What a MISMATCH does: the collective completes GROUP_MISMATCH, which breaks its group. -/
def actMismatch (m : Msg) (s : State) (x : Nat) : State × Nat :=
  match collOn s x m.tag with
  | some o => (remoteEnds 0x44 s o, 1)
  | none => (s, 1)

/-- MISMATCH. -/
def execMismatch (m : Msg) (s : State) : Result := .next (receive s m quiet (actMismatch m))

/-! ### Pairing (R365, R393) -/

/-- A context as it opens: XSEQ 0, group counters 0, CTX_CREDITS credits (R365, R369). -/
def freshCtx (s : State) (c : Ctx) (st : CtxSt) : Ctx :=
  { st := st, peerChip := c.peerChip, peerCtx := c.peerCtx, part := c.part, credits := rd s oCTX_CREDITS 0 }

/-- OPEN (R365): the mirror of a PENDING context; a peer that is still PENDING is answered. -/
def execOpenMsg (m : Msg) (s : State) : Result :=
  .next (
    let x := m.dstCtx
    let c := ctxOf s x
    if m.dstChip ≠ s.fabric.chipId ∨ c.peerChip ≠ m.srcChip ∨ c.peerCtx ≠ m.tag then s
    else if c.st = .pendingOpen then
      let s := setCtx s x (freshCtx s c .opened)
      if m.aux = 1 then sendPair s x mtOPEN else s
    else if c.st = .opened ∧ m.aux = 1 then sendPair s x mtOPEN
    else s)

/-- CLOSE (R393): the paired context loses its peer. -/
def execCloseMsg (m : Msg) (s : State) : Result :=
  .next (
    let c := ctxOf s m.dstCtx
    if m.dstChip = s.fabric.chipId ∧ c.peerChip = m.srcChip ∧ c.peerCtx = m.tag ∧ (c.st = .opened ∨ c.st = .failed) then
      ctxDown s m.dstCtx .closedByPeer stPEER_LOST
    else s)

/-- OPEN_RESEND (R365). -/
def execOpenResend (ctx : Nat) (s : State) : Result :=
  .next (if (ctxOf s ctx).st = .pendingOpen then sendPair s ctx mtOPEN else s)

/-- CTX_OPEN (R365). -/
def ctxOpen (s : State) (x chip peer p : Nat) : State :=
  sendPair (setCtx s x (freshCtx s { peerChip := chip, peerCtx := peer, part := p } .pendingOpen)) x mtOPEN

/-- CTX_CLOSE or a partition reset of one context (R393, R112): CLOSE to the peer, the context closed; what it had not
delivered is lost to every fence. -/
def ctxShut (s : State) (x : Nat) : State :=
  let lost := lostOf s x stPEER_LOST
  let s := dropCtx (sendPair s x mtCLOSE) x
  setCtx { s with fabric := { s.fabric with lost := s.fabric.lost ++ lost } } x {}

/-- The pointer sets of an operation: as issued, or as its list stands. -/
def entriesNow (s : State) (o : Op) : List (List Nat) :=
  if o.phase = .waiting ∧ o.desc.opc ≠ 0x01 then
    (List.range o.desc.lcount).map (fun e => (List.range 4).map (fun i => memNum s o.part (o.desc.opl + 32 * e + 8 * i) 8))
  else o.entries

/-- Whether an unreleased operation names a context (R393), issued or not. -/
def opNames (s : State) (x : Nat) (o : Op) : Bool :=
  opUses s x o || (o.ins ++ o.outs).any (fun r => space r.1 == 4 && remoteCtx r.1 == x) ||
    (entriesNow s o).zipIdx.any (fun e => (usedPtrs o.desc (e.2 == 0)).any (fun i =>
      space (ptr e.1 i) == 4 && remoteCtx (ptr e.1 i) == x)) ||
    (match collGroupOf s o with
      | some g => collNext s g == x || collPrev s g == x
      | none => false)

/-! ### HOLD, PACE, DEPART, JOIN (R363, R388 to R392) -/

/-- HOLD. -/
def execHoldMsg (m : Msg) (s : State) : Result :=
  .next (if m.dstChip = s.fabric.chipId then heldUp s else s)

/-- The unreleased collectives of a group. -/
def collsOf (s : State) (g : Nat) : List Nat := opIds s (fun o => collGroupOf s o == some g)

/-- An operation's wait timers extended (R389, R390). -/
def paceOp (delay : Nat) (s : State) (o : Op) : State :=
  let new := min (rd s oPACE_CAP_US 0) (o.pacedUs + delay)
  setOp s { o with pacedUs := max o.pacedUs new, heatPaced := o.heatPaced || decide (o.pacedUs < new) }

/-- What a PACE does: applied and forwarded; the originator's predecessor does not forward it (log 23). -/
def actPace (m : Msg) (s : State) (x : Nat) : State × Nat :=
  match (List.range 16).find? (fun g => collPart s g == (ctxOf s x).part && collPrev s g == x && !((collMembers s g).isEmpty)) with
  | none => (s, 1)
  | some g =>
    if (collsOf s g).isEmpty then (s, 1)
    else
      let s := forOps (collsOf s g) (paceOp m.aux) s
      if (ctxOf s (collNext s g)).st = .opened ∧ (ctxOf s (collNext s g)).peerChip ≠ m.addr then
        (answer s (collNext s g) { mtype := mtPACE, aux := m.aux, addr := m.addr }, 1)
      else (s, 1)

/-- PACE. -/
def execPace (m : Msg) (s : State) : Result := .next (receive s m quiet (actPace m))

/-- Any quadrant or stack of the chip is HOT. -/
def chipHot (s : State) : Bool := (List.range 8).any (fun i => quadOwn s i == .hot || stackOwn s i == .hot)

/-- PACE_SEND (R388, R390). -/
def execPaceSend (g : Nat) (s : State) : Result :=
  .next (if chipHot s && !((collsOf s g).isEmpty) && (ctxOf s (collNext s g)).st == .opened then
      let s := forOps (collsOf s g) (fun t o => setOp t { o with heatPaced := true }) s
      answer s (collNext s g) { mtype := mtPACE, aux := rd s oPACE_GRANT_US 0, addr := s.fabric.chipId }
    else s)

/-- Operations whose spill window lies in a chip's memory (spec/08, "When things coincide"). -/
def spillsTo (s : State) (chip : Nat) (o : Op) : Bool :=
  decide (0 < o.wsSpill) && rd s oSPILL_TARGET (o.part + 1) == 2 && field (rd s oSPILL_PEER (o.part + 1)) 9 0 == chip

/-- A departure acted on (R392). -/
def chipGone (s : State) (chip : Nat) : State :=
  let xs := (s.fabric.ctxs.filter (fun c => c.2.peerChip == chip && c.2.st != .closed)).map (fun c => c.1)
  let colls := opIds s (fun o => match collGroupOf s o with
    | some g => (collMembers s g).contains chip
    | none => false)
  let s := xs.foldl (fun t x => ctxDown t x .closedByPeer stPEER_LOST) s
  let s := forOps colls (remoteEnds stPEER_LOST) s
  forOps (opIds s (spillsTo s chip)) (remoteEnds stPEER_LOST) s

/-- Whether a DEPART is new: not older than the last epoch of the chip, not the one already acted on (R391). -/
def newDepart (s : State) (chip epoch : Nat) : Bool :=
  match tabGet? s.fabric.epochs chip with
  | some e => decide (e < epoch) || (e == epoch && !(s.fabric.departed.contains chip))
  | none => true

/-- DEPART (R374, R391, R392), which came by a port on a virtual channel: forwarded on it, then acted on. -/
def execDepart (m : Msg) (port : Nat) (s : State) (vc : Nat := 0) : Result :=
  .next (if m.srcChip ≠ s.fabric.chipId ∧ newDepart s m.srcChip m.aux then
      let s := flood s (some port) vc m
      let s := { s with fabric := { s.fabric with epochs := tabPut s.fabric.epochs m.srcChip m.aux,
                                                  departed := insertAsc s.fabric.departed m.srcChip } }
      chipGone s m.srcChip
    else s)

/-- Whether a JOIN is new. -/
def newJoin (s : State) (chip epoch : Nat) : Bool :=
  match tabGet? s.fabric.epochs chip with
  | some e => decide (e < epoch)
  | none => true

/-- JOIN (R374, R391), which came by a port on a virtual channel: recorded and flooded. -/
def execJoin (m : Msg) (port : Nat) (s : State) (vc : Nat := 0) : Result :=
  .next (if m.srcChip ≠ s.fabric.chipId ∧ newJoin s m.srcChip m.aux then
      let s := { s with fabric := { s.fabric with epochs := tabPut s.fabric.epochs m.srcChip m.aux,
                                                  departed := s.fabric.departed.filter (fun c => c != m.srcChip) } }
      flood s (some port) vc m
    else s)

/-! ### Timers (R371, R386) -/

/-- A message re-issued with the same XSEQ; one that has not left yet is not sent twice. -/
def reissue (s : State) (t : TxMsg) : State :=
  let ms := s.fabric.msgs.map (fun y => if y = t then { y with retries := y.retries + 1 } else y)
  let s := count32 { s with fabric := { s.fabric with msgs := ms } } oXPORT_REISSUES ((ctxOf s t.ctx).part + 1) 1
  if transmitted s t then sendMsg s 0 t.msg else s

/-- XPORT_TIMEOUT_EXPIRY (R371): re-issued, or after the last re-issue the context FAILS. -/
def execXportTimeoutExpiry (ctx xseq : Nat) (s : State) : Result :=
  .next (match s.fabric.msgs.find? (fun t => t.ctx == ctx && t.msg.xseq == xseq && t.sent) with
    | some t =>
      if suspended s then s
      else if t.retries < rd s oXPORT_RETRIES 0 then reissue s t
      else contained (ctxDown s ctx .failed stTIMEOUT) 7 0x31 ctx 0 0
    | none => s)

/-- COLL_TIMEOUT_EXPIRY (R386, R387). -/
def execCollTimeoutExpiry (op : Nat) (s : State) : Result :=
  .next (match opOf? s op with
    | some o =>
      if (o.phase == .dispatched || o.phase == .parked) && o.coll.isSome && !o.dataDone && !(suspended s) then endOp s o stTIMEOUT
      else s
    | none => s)

end Sys2Proof.Machine
end

