-- ==== Sys2Proof/Machine/Jtag.lean ====
section
/-! DEFINITION. The test access port (spec/20 R481 to R484, Table ELEC-6). -/

namespace Sys2Proof.Machine

open Sys2Proof

/-- The ID code (R482): VERSION 4 × (letter − 'A') + digit, PART, manufacturer, 1. -/
def idCode (s : State) : Nat :=
  let w := rd s oSTEPPING 0
  ((4 * (w / 256 - 0x41) + (w % 256 - 0x30)) % 16) * 2 ^ 28 + 0x4E0D * 2 ^ 12 + 0x2E5 * 2 + 1

/-- The levels that the boundary-scan register captures, in the order of Table ELEC-3: CLKSEL, MGMT_ID, RESET_N, PERST0_N,
PERST1_N, ALERT_N (R483; log 26). -/
def pinLevels (s : State) : Nat :=
  s.pins.straps / 32 % 2 + s.pins.straps % 32 * 2 + (if s.pins.resetLow then 0 else 64) +
    (if (epOf s 0).perst then 0 else 128) + (if (epOf s 1).perst then 0 else 256) + (if alertN s then 0 else 512)

/-- Bits shifted into the ten cells one after the other, each at the far end from TDO (R483). -/
def shiftIn (w : BitVec 10) (bits : List Bool) : BitVec 10 :=
  bits.foldl (fun x b => x >>> 1 ||| (if b then 0x200#10 else 0)) w

/-- A scan of the boundary-scan register: the levels captured leave, the bits shifted in are loaded; without bits nothing is
loaded. -/
def scanCells (s : State) (bits : List Bool) : State :=
  let s' := emit s (.tdo (pinLevels s))
  if bits.isEmpty then s'
  else { s' with jtag := { s'.jtag with scan := shiftIn (BitVec.ofNat 10 (pinLevels s)) bits } }

/-- The port is powered by the management rail (R481). -/
def tapUp (s : State) : Bool := mgmtRail s

/-- An instruction loaded that controls no pin: the sequence is no longer held. -/
def loadIr (s : State) (code : Nat) : State := { s with jtag := { s.jtag with ir := code, hold := none } }

/-- The step boundary at which the sequence is held (R484): after the step in progress, before step 8 at the latest; none once
step 8 is done. -/
def holdAt (s : State) : Option Nat :=
  let v := rd s oBOOT_STAGE 0
  if v < 4 then some 4
  else if v = 4 then some (if s.clock.phyOn then 6 else 4)
  else if v < 8 then some 7
  else none

/-- EXTEST, CLAMP or HIGHZ loaded below BOOT_STAGE 13: it takes control of the pins; a sequence that one of them holds already stays
where it is held (R484). -/
def takePins (s : State) (code : Nat) : State :=
  { s with jtag := { s.jtag with ir := code, control := true
                                 hold := match s.jtag.hold with
                                   | some h => some h
                                   | none => holdAt s } }

/-- The bypass register selected. -/
def bypassed (s : State) : State := emit s (.tdo 0)

/-- EXTEST: below BOOT_STAGE 13 the cells drive the pins and are scanned; else it acts as BYPASS (R483, R484). -/
def execExtest (s : State) (bits : List Bool := []) : Result :=
  .next (if !(tapUp s) then s
    else if rd s oBOOT_STAGE 0 < 13 then scanCells (takePins s 0) bits
    else bypassed (loadIr s 0))

/-- SAMPLE/PRELOAD: the pins are captured, the register is loaded with `bits`. -/
def execSamplePreload (bits : List Bool) (s : State) : Result :=
  .next (if tapUp s then scanCells (loadIr s 1) bits else s)

/-- CLAMP and HIGHZ select the bypass register, and below BOOT_STAGE 13 they take control of the pins (Table ELEC-6, R484). -/
def holdPins (s : State) (code : Nat) : State := bypassed (if rd s oBOOT_STAGE 0 < 13 then takePins s code else loadIr s code)

/-- IDCODE (R482). -/
def execIdcode (s : State) : Result := .next (if tapUp s then emit (loadIr s 2) (.tdo (idCode s)) else s)

/-- CLAMP. -/
def execClamp (s : State) : Result := .next (if tapUp s then holdPins s 3 else s)

/-- HIGHZ. -/
def execHighz (s : State) : Result := .next (if tapUp s then holdPins s 4 else s)

/-- BYPASS: 0xFF and every code of no other row (R481). -/
def execBypass (code : Nat) (s : State) : Result :=
  .next (if tapUp s ∧ 5 ≤ code then bypassed (loadIr s code) else s)

/-- TEST_LOGIC_RESET (R481, R484, R109): IDCODE is loaded; after a pin-control instruction a warm reset begins, the straps
sampled at its start; a package in a protective shutdown stays in it (R95). -/
def execTestLogicReset (clksel : Bool) (mgmtId : Nat) (s : State) : Result :=
  .next (if !(tapUp s) then s
    else
      let took := s.jtag.control
      let s := { s with jtag := { s.jtag with ir := 2, control := false, hold := none } }
      if took && s.power.good && !s.power.shutdown && !s.pins.resetLow then
        bootStart (sampleStraps (warmBody s 3) clksel mgmtId) 3
      else s)

end Sys2Proof.Machine
end

