-- ==== Sys2Proof/Machine/Lines.lean ====
section
/-! DEFINITION. DRAM lines, the Eddy as single writes reach it, scrubbing, refresh, and the FENCE operation (spec/08 R161 to
R178; spec/09 R184, R188; spec/19 R450, R458). -/

namespace Sys2Proof.Machine

open Sys2Proof

/-! ### Errors of DRAM lines (R175, R176, R458) -/

/-- An error that the code corrects: counted. -/
def countCe (s : State) (k n : Nat) : State := count32P s oECC_CE_COUNT (k + 1) n

/-- The physical channel that holds a row run. -/
def rowChannel (s : State) (line : Nat) : Nat := channelAt s (dramStack line) (dramOff line)

/-- Whether a row of a channel lies in the bank of another, of those that have 4 spare rows in common (Table REGR-4). Which rows of a
channel a bank holds no manual says (log 69). -/
def sameBank (line row : Nat) : Bool := dramStack row == dramStack line && Config.rowBank (rowOf row) == Config.rowBank (rowOf line)

/-- The spare rows of the bank of a line that are taken or about to be (Table REGR-4). -/
def bankRows (s : State) (line : Nat) : Nat :=
  let c := rowChannel s line
  (s.nv.repair.filter (fun r => match r with
    | .row l c' => c' == c && sameBank line l
    | _ => false)).length +
    ((s.regr.jobs ++ s.regr.deferred).filter (fun j => match j with
      | .row l => rowChannel s l == c && sameBank line l
      | _ => false)).length

/-- A move of the channel can follow: a spare pseudo-channel is free for it, or it is under way (R459). -/
def canMove (s : State) (k channel : Nat) : Bool :=
  (s.regr.jobs ++ s.regr.deferred).any (fun j => match j with
    | .move k' c' _ => k' == k && c' == channel
    | _ => false) || decide (movesOn s k < (idleChannels s k).length)

/-- The move of a pseudo-channel onto a spare begins, unless it is under way or no spare is free (R459, R460). -/
def startMove (s : State) (k channel : Nat) : State :=
  if (s.regr.jobs ++ s.regr.deferred).any (fun j => match j with
      | .move k' c' _ => k' == k && c' == channel
      | _ => false) || decide ((idleChannels s k).length ≤ movesOn s k) then s
  else startJob s (.move k channel 0)

/-- ACTION of the log entry of a row: repaired in place, a spare channel mapped, or none (Table REGR-3). -/
def rowAction (s : State) (line : Nat) : Nat :=
  if bankRows s line < 4 then 1 else if canMove s (dramStack line) (rowChannel s line) then 2 else 0

/-- A row repair started, unless one of that row is under way (R458); with no spare row left in its bank, a move of its
pseudo-channel (R459). -/
def startRow (s : State) (line : Nat) : State :=
  if s.regr.jobs.any (fun j => j == .row (rowOf line)) || s.regr.deferred.any (fun j => j == .row (rowOf line)) then s
  else if bankRows s line < 4 then startJob s (.row (rowOf line))
  else startMove s (dramStack line) (rowChannel s line)

/-- An uncorrectable error of a DRAM line: poisoned, counted, contained error DRAM_UE, its row repaired. One met on a line that is
poisoned already is neither counted nor raised again: R176 and Table REGR-2 speak of the error that poisons it, no more (DESIGN
CHOICE, log 69). -/
def dramUe (s : State) (line : Nat) : State :=
  if poisoned s line then s
  else
    let s := count32P (poisonLine s line) oECC_UE_COUNT (dramStack line + 1) 1
    startRow (contained s 0 0x10 0 line (rowAction s line)) line

/-- What a controller finds on reading a line. -/
def lineErr (s : State) (line : Nat) (err : LineErr) : State :=
  match err with
  | .clean => s
  | .corrected => countCe s (dramStack line) 1
  | .uncorrectable => dramUe s line

/-- A DRAM line that exists and can be accessed now: not in self-refresh, no repair holding it (Table CLK-5, R458). -/
def lineOpen (s : State) (line : Nat) : Bool :=
  space line == 0 && line % 256 == 0 && addressLaidOut line && decide (dramOff line + 256 ≤ stackBytes s (dramStack line)) &&
    s.power.compute && !(selfRefresh s (dramStack line)) && !(repairHolds s line 256)

/-- Operations whose chapter states a partial outcome for a poisoned line: GATHER and SCATTER (R349). -/
def toleratesPoison (opc : Nat) : Bool := opc == 0x58 || opc == 0x59

/-- A request of an operation for a line that the controllers may serve: return space reserved (R45), no line of its class outstanding
that its core asked for earlier (R182), and no URGENT operation's request to the same stack that could be served before it (R258). -/
def readFor (s : State) (op line : Nat) : Option LineRead :=
  match s.mem.reads.find? (fun r => r.op == op && r.line == line && r.reserved) with
  | some r =>
    if s.mem.reads.find? (fun x => x.core == r.core && x.urgent == r.urgent) = some r &&
        (r.urgent || !(s.mem.reads.any (fun x => x.urgent && x.reserved && dramStack x.line == dramStack line && lineOpen s x.line))) then
      some r
    else none
  | none => none

/-- A line that a controller has read lands in the space reserved in its operation's buffers; a poisoned one ends the operation; for
one that is over it is discarded (R36, R136, R165, R176). -/
def takeLine (s : State) (r : LineRead) : State :=
  match opOf? s r.op with
  | some o =>
    if o.phase = .dispatched ∨ o.phase = .parked then
      if readsPoison s r.line && !(toleratesPoison o.desc.opc) then
        endOpAt s o stMEM_ERROR (entryWhere o (fun x => overlaps x.1 x.2 r.line 256))
      else landLine s o r.line
    else s
  | none => s

/-- DRAM_LINE_READ (R35, R36, R45, R165, R175, R176, R182, R258): the line, overlaid with its Eddy entry, is returned, its credit with
it, and the core goes on; so do the cores of its die where the bridge had no credit left. -/
def execDramLineRead (op line : Nat) (err : LineErr) (s : State) : Result :=
  .next (match readFor s op line with
    | some r =>
      if lineOpen s line then
        let full := decide (bridgeCredits s (r.core / 64) = 0)
        let s := lineErr s line err
        let s := serveCore (takeLine { s with mem := { s.mem with reads := s.mem.reads.erase r } } r) r.core
        if full then (List.range 64).foldl (fun t i => askMore t (r.core / 64 * 64 + i)) s else s
      else s
    | none => s)

/-! ### The Eddy (R162 to R167) -/

/-- EDDY_WRITE (R35, R162, R163, R166): one write of a dispatched operation into its outputs, within one line, under a memory credit
of its core. -/
def execEddyWrite (op addr : Nat) (bytes : List Byte) (s : State) : Result :=
  .next (match opOf? s op with
    | some o =>
      match o.core with
      | some c =>
        let urgent := o.desc.cls == 0
        if o.phase == .dispatched && space addr == 0 && !bytes.isEmpty && decide (addr % 256 + bytes.length ≤ 256) &&
            o.outs.any (fun r => decide (r.1 ≤ addr ∧ addr + bytes.length ≤ r.1 + r.2)) && decide (0 < lineCredits s c urgent) then
          eddyPut (setOp s { o with wrote := true }) { addr := addr, bytes := bytes, op := op, core := some c, urgent := urgent }
        else s
      | none => s
    | none => s)

/-- The entries of a stack. -/
def entriesOn (s : State) (k : Nat) : List EddyEntry := tabGet [] s.mem.eddies k

/-- EDDY_AGE_EXPIRY (R163): the entry becomes due; its data stays (spec/08, "When things coincide"). -/
def execEddyAgeExpiry (k line : Nat) (s : State) : Result :=
  .next (if (entriesOn s k).any (fun e => e.line == line) then
      setEddy s k ((entriesOn s k).map (fun e => if e.line = line then { e with due := true } else e))
    else s)

/-- EDDY_DRAIN_DONE (R163, R164, R458): not while a repair holds the row; every due entry of the row run drains in one burst; `err` is what the read of a partial
entry's read-modify-write met. An uncorrectable line takes the masked bytes and is poisoned. -/
def execEddyDrainDone (k line : Nat) (err : LineErr) (s : State) : Result :=
  .next (match (entriesOn s k).find? (fun e => e.line == line && e.due) with
    | some e =>
      if selfRefresh s k || !s.power.compute || repairHolds s line 256 then s
      else
        let s := drainBurst s k e
        retryAll (if entryFull e then s else lineErr s line err)
    | none => s)

/-- SCRUB_PASS (R177, R175): corrected data written back, the corrections counted. -/
def execScrubPass (k : Nat) (corrected : List Nat) (s : State) : Result :=
  .next (if s.power.compute && stackUsable s k && !(selfRefresh s k) then countCe s k corrected.length else s)

/-- REFRESH (R178): at the rate REFRESH_MODE names; no byte changes. -/
def execRefresh (k : Nat) (s : State) : Result :=
  .next (if s.power.compute && stackFitted s k then storeRefresh s k else s)

/-! ### FENCE (R184, R188, R378) -/

/-- FENCE: the fence of an issued FENCE operation begins. -/
def execFence (op : Nat) (s : State) : Result :=
  .next (match opOf? s op with
    | some o => if weirRuns s && o.phase == .issued && o.desc.opc == 0x01 then setOp s { o with fencing := true } else s
    | none => s)

/-- A remote write that a fence covers will never land: the status it gives (R378). -/
def fenceLost (s : State) (o : Op) : Option Nat :=
  (s.fabric.lost.find? (fun l => l.part == o.part && l.flow == o.desc.flow && decide (l.op < o.id))).map (fun l => l.status)

/-- A remote write that a fence covers has not landed yet, or a FLAG that is not yet visible (R184, R194). -/
def fencePending (s : State) (o : Op) : Bool :=
  (s.fabric.msgs.filter (fun t => t.msg.mtype == mtWRITE || t.msg.mtype == mtFLAG) ++ s.fabric.unseen).any (fun t =>
    t.part == o.part && t.flow == o.desc.flow && decide (t.op < o.id))

/-- Whether the condition of the fence's scope is met: the operations it covers have released, each with a CHIP fence (R185),
and at SYSTEM scope their remote writes have landed, or one never will. -/
def fenceMet (s : State) (o : Op) : Bool :=
  (earlierInFlow s o).isEmpty && (o.desc.scope != 2 || (fenceLost s o).isSome || !(fencePending s o))

/-- FENCE_COMPLETE. -/
def execFenceComplete (op : Nat) (s : State) : Result :=
  .next (match opOf? s op with
    | some o =>
      if o.fencing && fenceMet s o then
        setOp s { o with phase := .executed, fencing := false, status := if o.desc.scope = 2 then (fenceLost s o).getD stOK else stOK }
      else s
    | none => s)

end Sys2Proof.Machine
end

