-- ==== Sys2Proof/Machine/Queues.lean ====
section
/-! DEFINITION. BAR0, intake queues, batches and completion queues (spec/17 R398 to R416, Tables HOST-3 to HOST-7). -/

namespace Sys2Proof.Machine

open Sys2Proof

/-! ### Access to BAR0 (R398, R418) -/

/-- Whether PCIe requests of a function reach the device: the function is on, its link up, the PCIe core clocked. -/
def busUp (s : State) (fn : Nat) : Bool := fnOn s fn && !s.clock.rootGated

/-- A request of the host to a function: done, or held while the PCIe core is gated and completed after the relock (R69). -/
def fromHost (s : State) (fn : Nat) (r : HostReq) (act : State → State) : State :=
  if fnOn s fn && s.clock.rootGated then holdHost s r else act s

/-- The partition whose registers a function reaches: bound, not being reset (R112). -/
def doorPart (s : State) (fn : Nat) : Option Nat :=
  match fnPart s fn with
  | some p => if busUp s fn && !((partOf s p).resetting) then some p else none
  | none => none

/-- IQ_COUNT and CQ_COUNT of a partition. -/
def iqCount (s : State) (p : Nat) : Nat := rangeCount (rd s oIQ_RANGE (p + 1))
def cqCount (s : State) (p : Nat) : Nat := rangeCount (rd s oCQ_RANGE (p + 1))

/-- Naturally aligned 32-bit and 64-bit accesses. -/
def accessOk (off size : Nat) : Bool := (size == 4 || size == 8) && off % size == 0

/-- A 64-bit register after a write of all or half of it. -/
def merge64 (old off size v : Nat) : Nat :=
  if size = 8 then v % 2 ^ 64
  else if off % 8 = 0 then old / 2 ^ 32 * 2 ^ 32 + v % 2 ^ 32
  else old % 2 ^ 32 + v % 2 ^ 32 * 2 ^ 32

/-- A ring's base register without its reserved bits. -/
def maskBase (w : Nat) : Nat := w / 4096 * 4096 + w % 32

/-! ### Doorbells of intake queues (R401 to R403) -/

/-- Entries from one ring position forward to another. -/
def ringDist (depth a b : Nat) : Nat := (b + depth - a) % depth

/-- Whether a doorbell value breaks R403. -/
def doorbellBreach (x : Iq) (tail : Nat) : Bool :=
  let depth := ringDepth x.base
  decide (depth ≤ tail) || decide (depth - 1 < ringDist depth x.head x.tail + ringDist depth x.tail tail) ||
    decide (16 ≤ x.log.length)

/-- A doorbell write reaches a queue: one batch logged, or OVERRUN. -/
def ringIq (x : Iq) (tail : Nat) : Iq :=
  if !x.enabled || !x.enable || x.overrun || tail = x.tail then x
  else if doorbellBreach x tail then { x with overrun := true, enabled := x.current.isSome }
  else { x with tail := tail, log := x.log ++ [ringDist (ringDepth x.base) x.tail tail] }

/-- Bytes that the host has written to its own memory. -/
def hostWrites (s : State) (fn : Nat) : List (Nat × Byte) → State
  | [] => s
  | (a, b) :: r => hostWrites (hostStore s fn a [b]) fn r

/-- A doorbell of function-local intake queue `i`, if the function has one. -/
def doorbellAt (fn i value : Nat) (s : State) : State :=
  match doorPart s fn with
  | some p =>
    if i < iqCount s p then setIq s (iqIndex s p i) (ringIq (iqOf s (iqIndex s p i)) (value % 65536)) else s
  | none => s

/-- IQ_DOORBELL (R401, R403) with what the host wrote to its memory before it (R187). -/
def execIqDoorbell (fn i value : Nat) (hostBytes : List (Nat × Byte)) (s : State) : Result :=
  .next (fromHost (hostWrites s fn hostBytes) fn (.iqDoorbell fn i value) (doorbellAt fn i value))

/-! ### Enabling and disabling (R400, R405, R410) -/

/-- Whether a queue may be enabled: its ring has a depth of Table HOST-4, its completion queue is enabled, no batch of its
former life is still being fetched. -/
def mayEnable (s : State) (p : Nat) (x : Iq) : Bool :=
  decide (4 ≤ ringLog x.base ∧ ringLog x.base ≤ 16) && decide (x.cq < cqCount s p) && (cqOf s (cqIndex s p x.cq)).enabled &&
    x.current.isNone

/-- A write of IQ_CTRL. -/
def writeIqCtrl (s : State) (p q ctrl : Nat) : State :=
  let x := { iqOf s q with admitLimit := field ctrl 31 16, cq := field ctrl 15 4, haltOnRefuse := ctrl.testBit 1 }
  let x := if ctrl.testBit 2 then { x with halted := false, haltCause := 0 } else x
  if ctrl.testBit 0 then
    if x.enable || !(mayEnable s p x) then setIq s q x
    else setIq s q { x with enable := true, enabled := true, head := 0, tail := 0, log := [], overrun := false, halted := false,
                            haltCause := 0, sinceHead := 0 }
  else setIq s q { x with enable := false, log := [], enabled := x.enabled && x.current.isSome }

/-- A write of IQ_CTRL of function-local queue `i`, if the function has one. -/
def iqCtrlAt (fn i ctrl : Nat) (s : State) : State :=
  match doorPart s fn with
  | some p => if i < iqCount s p then writeIqCtrl s p (iqIndex s p i) ctrl else s
  | none => s

/-- A write of IQ_CTRL of a function. -/
def iqCtrlWrite (s : State) (fn i ctrl : Nat) : State := fromHost s fn (.iqCtrl fn i ctrl) (iqCtrlAt fn i ctrl)

/-- IQ_ENABLE (R400): a write of IQ_CTRL with ENABLE 1. -/
def execIqEnable (fn i ctrl : Nat) (s : State) : Result := .next (if ctrl.testBit 0 then iqCtrlWrite s fn i ctrl else s)

/-- IQ_DISABLE (R405): a write of IQ_CTRL with ENABLE 0. -/
def execIqDisable (fn i ctrl : Nat) (s : State) : Result := .next (if ctrl.testBit 0 then s else iqCtrlWrite s fn i ctrl)

/-- RESUME (R410): a write of IQ_CTRL with RESUME 1. -/
def execResume (fn i ctrl : Nat) (s : State) : Result := .next (if ctrl.testBit 2 then iqCtrlWrite s fn i ctrl else s)

/-! ### Batches (R402 to R409, R227) -/

/-- Descriptor credits of a die in use: descriptors fetched and not admitted. -/
def creditsUsed (s : State) (die : Nat) : Nat :=
  (s.iqs.filter (fun x => queueDie x.1 == die)).foldl (fun a x => a + x.2.fetched.length) 0

/-- A descriptor credit is free for a queue: it holds fewer than 8, and the die has one of its 512 left for the queue's fetch
class, the last 32 for URGENT (Table HSK-2, R227). -/
def fetchCredit (s : State) (p q : Nat) : Bool :=
  decide ((iqOf s q).fetched.length < 8) && decide (creditsUsed s (queueDie q) < (if iqUrgent s p q then 512 else 480))

/-- The completion queue has an entry neither reserved nor holding an unconsumed record (R414). -/
def cqSpace (s : State) (k : Nat) : Bool :=
  (cqOf s k).enabled && decide ((cqOf s k).used + (cqOf s k).reserved < ringDepth (cqOf s k).base)

/-- The completion queue that an intake queue names is one of its partition's, and has such an entry (R414, R422). -/
def cqReady (s : State) (p : Nat) (x : Iq) : Bool := decide (x.cq < cqCount s p) && cqSpace s (cqIndex s p x.cq)

/-- Whether a queue can fetch now. -/
def canFetch (s : State) (q : Nat) : Bool :=
  match iqPart s q with
  | some p =>
    let x := iqOf s q
    !((partOf s p).resetting) && busUp s (partFn s p) &&
      (x.current.isSome || (x.enabled && x.enable && !x.overrun && !x.log.isEmpty)) && fetchCredit s p q &&
      cqReady s p x
  | none => false

/-- Another queue, of either die, has fetch class URGENT and can fetch (R227). -/
def urgentFirst (s : State) (q : Nat) : Bool :=
  s.iqs.any (fun x => x.1 != q && (match iqPart s x.1 with
    | some p => iqUrgent s p x.1
    | none => false) && canFetch s x.1)

/-- Table HOST-7: the status that refuses a batch of `n` descriptors, if a check fails. -/
def batchCheck (s : State) (p : Nat) (x : Iq) (n : Nat) : Option Nat :=
  if x.halted then some (if x.haltCause = 1 then stREFUSED_FULL else stREFUSED_CREDIT)
  else if x.admitLimit ≠ 0 ∧ x.admitLimit < x.opened + n then some stREFUSED_FULL
  else if rd s oCREDIT_RATE (p + 1) ≠ 0 ∧ (partOf s p).level < n * 1000000 then some stREFUSED_CREDIT
  else none

/-- The first logged batch begins: accepted or refused as a whole. An accepted one takes its `n` from the credit level whatever
CREDIT_RATE is; the level stops at 0 (R407; that it cannot fall below is a DESIGN CHOICE, log 62). -/
def beginBatch (s : State) (p q : Nat) : State :=
  let x := iqOf s q
  match x.log with
  | [] => s
  | n :: rest =>
    let x := { x with log := rest }
    match batchCheck s p x n with
    | none =>
      let s := setIq s q { x with current := some ⟨n, none⟩, opened := x.opened + n }
      setPart s p { partOf s p with level := (partOf s p).level - n * 1000000 }
    | some st =>
      let s := count32 s (if st = stREFUSED_FULL then oREFUSED_FULL_COUNT else oREFUSED_CREDIT_COUNT) (p + 1) 1
      let halts := x.haltOnRefuse && !x.halted
      setIq s q { x with current := some ⟨n, some st⟩, halted := x.halted || halts,
                         haltCause := if halts then (if st = stREFUSED_FULL then 1 else 2) else x.haltCause }

/-- HEAD written back where an address is set (R404). -/
def headBack (s : State) (q fn : Nat) : State :=
  let x := iqOf s q
  let s := setIq s q { x with sinceHead := 0 }
  if x.headAddr = 0 then s else hostStore s fn x.headAddr (leBytes 4 x.head)

/-- One descriptor of the batch in progress fetched: an entry reserved, the descriptor kept for admission, or its refusal
recorded; HEAD written back after the last one and after every 64. -/
def fetchOne (s : State) (p q : Nat) (b : Batch) : State :=
  let fn := partFn s p
  let x := iqOf s q
  let k := cqIndex s p x.cq
  let s := setCq s k { cqOf s k with reserved := (cqOf s k).reserved + 1 }
  let d := hostBytesAt s fn (ringAddr x.base + 64 * x.head) 64
  let last := decide (b.left ≤ 1)
  let x := { x with
    head := (x.head + 1) % ringDepth x.base, sinceHead := x.sinceHead + 1
    current := if last then none else some { b with left := b.left - 1 }
    enabled := if last then x.enabled && x.enable && !x.overrun else x.enabled
    fetched := if b.refused.isNone then x.fetched ++ [(k, d)] else x.fetched }
  let s := setIq s q x
  let s := match b.refused with
    | some st => postRecord s k fn (refusalRecord (decodeDesc d) st)
    | none => s
  if last || decide (64 ≤ x.sinceHead) then headBack s q fn else s

/-- Descriptors fetched while credits and entries last; `fuel` bounds their number. -/
def fetchLoop (p q : Nat) : Nat → State → State
  | 0, s => s
  | fuel + 1, s =>
    match (iqOf s q).current with
    | some b =>
      if fetchCredit s p q && cqReady s p (iqOf s q) then fetchLoop p q fuel (fetchOne s p q b) else s
    | none => s

/-- BATCH_FETCH (R402, R406, R407): the batch in progress goes on, or the first logged one begins. -/
def execBatchFetch (q : Nat) (s : State) : Result :=
  .next (match iqPart s q with
    | some p =>
      if weirRuns s && canFetch s q && (iqUrgent s p q || !(urgentFirst s q)) then
        let s := if (iqOf s q).current.isSome then s else beginBatch s p q
        fetchLoop p q (match (iqOf s q).current with
          | some b => b.left
          | none => 0) s
      else s
    | none => s)

/-! ### Completion queues (R413 to R416) -/

/-- CQ_DOORBELL (R414): a head within the records written frees the entries before it. -/
def headCq (c : Cq) (head : Nat) : Cq :=
  let depth := ringDepth c.base
  let n := ringDist depth c.head head
  if depth ≤ head ∨ !c.enabled then c
  else if n = 0 ∧ c.used = depth then { c with used := 0 }
  else if n ≤ c.used then { c with head := head, used := c.used - n }
  else c

/-- A doorbell of function-local completion queue `j`, if the function has one. -/
def headAt (fn j value : Nat) (s : State) : State :=
  match doorPart s fn with
  | some p => if j < cqCount s p then setCq s (cqIndex s p j) (headCq (cqOf s (cqIndex s p j)) (value % 65536)) else s
  | none => s

/-- CQ_DOORBELL. -/
def execCqDoorbell (fn j value : Nat) (s : State) : Result :=
  .next (fromHost s fn (.cqDoorbell fn j value) (headAt fn j value))

/-- An intake queue of the partition with ENABLE 1 (Table HOST-4), or one that still fetches, names the completion queue. -/
def cqNamed (s : State) (p j : Nat) : Bool :=
  (List.range (iqCount s p)).any (fun i =>
    let x := iqOf s (iqIndex s p i)
    (x.enable || x.enabled) && x.cq == j)

/-- A write of CQ_CTRL. -/
def writeCqCtrl (s : State) (p j ctrl : Nat) : State :=
  let k := cqIndex s p j
  let c := cqOf s k
  let set := { c with coalTime := field ctrl 31 24, coalCount := field ctrl 23 16, vector := field ctrl 15 5, irqEn := ctrl.testBit 1 }
  if ctrl.testBit 0 then
    if c.enabled ∨ ringLog c.base < 6 ∨ 16 < ringLog c.base then setCq s k set
    else setCq s k { set with enabled := true, phase := true, tail := 0, head := 0, used := 0, reserved := 0, unsignalled := 0,
                              timer := false }
  else if c.enabled && (decide (0 < c.reserved) || cqNamed s p j) then s
  else setCq s k { set with enabled := false, timer := false }

/-- A write of CQ_CTRL of function-local queue `j`, if the function has one. -/
def cqCtrlAt (fn j ctrl : Nat) (s : State) : State :=
  match doorPart s fn with
  | some p => if j < cqCount s p then writeCqCtrl s p j ctrl else s
  | none => s

/-- A write of CQ_CTRL of a function. -/
def cqCtrlWrite (s : State) (fn j ctrl : Nat) : State := fromHost s fn (.cqCtrl fn j ctrl) (cqCtrlAt fn j ctrl)

/-- CQ_ENABLE (R413): a write of CQ_CTRL with ENABLE 1. -/
def execCqEnable (fn j ctrl : Nat) (s : State) : Result := .next (if ctrl.testBit 0 then cqCtrlWrite s fn j ctrl else s)

/-- CQ_DISABLE (R416): a write of CQ_CTRL with ENABLE 0. -/
def execCqDisable (fn j ctrl : Nat) (s : State) : Result := .next (if ctrl.testBit 0 then s else cqCtrlWrite s fn j ctrl)

/-- COAL_TIME_EXPIRY (R415). -/
def execCoalTimeExpiry (q : Nat) (s : State) : Result :=
  .next (match cqPart s q with
    | some p => if (cqOf s q).timer && (cqOf s q).irqEn && (cqOf s q).enabled then cqSignal s q (partFn s p) else s
    | none => s)

/-! ### BAR0 registers without a row of their own (R398, Tables HOST-3 to HOST-5, STESTO-6) -/

/-- A write to a register of an intake queue: IQ_BASE and IQ_HEAD_ADDR while ENABLE is 0, IQ_CTRL. -/
def writeIqReg (s : State) (p i r size v : Nat) : State :=
  let q := iqIndex s p i
  let x := iqOf s q
  if r < 8 then (if x.enable then s else setIq s q { x with base := maskBase (merge64 x.base r size v) })
  else if r < 16 then (if x.enable then s else setIq s q { x with headAddr := merge64 x.headAddr r size v / 4 * 4 })
  else if r = 16 then writeIqCtrl s p q (v % 2 ^ 32)
  else s

/-- A write to a register of a completion queue: CQ_BASE while ENABLE is 0, CQ_CTRL. -/
def writeCqReg (s : State) (p j r size v : Nat) : State :=
  let k := cqIndex s p j
  let c := cqOf s k
  if r < 8 then (if c.enabled then s else setCq s k { c with base := maskBase (merge64 c.base r size v) })
  else if r = 8 then writeCqCtrl s p j (v % 2 ^ 32)
  else s

/-- The mailbox of an endpoint is usable (R445). -/
def boxUsable (s : State) (e : Nat) : Bool := busUp s (256 * e) && decide (rd s oBOOT_STAGE 0 = 13)

/-- Bytes of a list replaced from an offset. -/
def patch (b : List Byte) (off : Nat) (v : List Byte) : List Byte :=
  slice b 0 off ++ v ++ b.drop (off + v.length)

/-- A write to the mailbox of a PF: MB_IRQ, or bytes of a slot that the host owns. -/
def writeBoxReg (s : State) (e off size v : Nat) : State :=
  let x := boxOf s e
  if !(boxUsable s e) then s
  else if off = 0x51018 then setBox s e { x with irq := field v 15 15 * 32768 + field v 10 0 }
  else if 0x51800 ≤ off then
    let slot := (off - 0x51800) / 512
    if x.owned.testBit slot then s
    else setBox s e { x with frames := tabPut x.frames slot (patch (tabGet [] x.frames slot) (off % 512) (leBytes size v)) }
  else s

/-- A write to a register of BAR0 without a row of its own. -/
def bar0Write (fn off size value : Nat) (s : State) : State :=
  if 0x51000 ≤ off ∧ off < 0x52000 then (if fn % 256 = 0 then writeBoxReg s (fn / 256) off size value else s)
  else
    match doorPart s fn with
    | some p =>
      if 0x10000 ≤ off ∧ off < 0x30000 then
        let i := (off - 0x10000) / 32
        if i < iqCount s p then writeIqReg s p i (off % 32) size value else s
      else if 0x30000 ≤ off ∧ off < 0x50000 then
        let j := (off - 0x30000) / 32
        if j < cqCount s p then writeCqReg s p j (off % 32) size value else s
      else s
    | none => s

/-- BAR0_REGISTER_WRITE (R398, R400, R418). -/
def execBar0RegisterWrite (fn off size value : Nat) (s : State) : Result :=
  .next (if accessOk off size then fromHost s fn (.bar0 fn off size value) (bar0Write fn off size value) else s)

/-! ### What BAR0 reads as (Tables HOST-3 to HOST-6, R398, R418) -/

/-- IQ_CTRL, IQ_STATUS, CQ_CTRL and CQ_STATUS as numbers. -/
def iqCtrlWord (x : Iq) : Nat :=
  x.admitLimit * 65536 + x.cq * 16 + (if x.haltOnRefuse then 2 else 0) + (if x.enable then 1 else 0)
def iqStatusWord (x : Iq) (urgent : Bool) : Nat :=
  x.log.length * 2 ^ 24 + (if urgent then 2 ^ 23 else 0) + x.haltCause * 2 ^ 20 + (if x.halted then 2 ^ 19 else 0) +
    (if x.overrun then 2 ^ 18 else 0) + (if x.enabled then 2 ^ 17 else 0) + x.head % 65536
def cqCtrlWord (c : Cq) : Nat :=
  c.coalTime * 2 ^ 24 + c.coalCount * 65536 + c.vector * 32 + (if c.irqEn then 2 else 0) + (if c.enabled then 1 else 0)
def cqStatusWord (c : Cq) : Nat := (if c.enabled then 2 ^ 17 else 0) + (if c.phase then 65536 else 0) + c.tail % 65536

/-- FUNC_INFO of a bound function (Table HOST-6). -/
def funcInfo (s : State) (p : Nat) : Nat :=
  2 ^ 63 + p * 2 ^ 48 + cqCount s p * 2 ^ 32 + iqCount s p * 65536 + rd s oIQ_URGENT_COUNT (p + 1)

/-- The aligned 64 bits of BAR0 at an offset for a bound function; doorbells and reserved offsets read zero. -/
def bar0Reg (s : State) (p off : Nat) : Nat :=
  let i := (off - 0x10000) / 32
  let j := (off - 0x30000) / 32
  if 0x10000 ≤ off ∧ off < 0x30000 ∧ i < iqCount s p then
    let x := iqOf s (iqIndex s p i)
    match off % 32 with
    | 0 => x.base
    | 8 => x.headAddr
    | 16 => iqCtrlWord x + iqStatusWord x (iqUrgent s p (iqIndex s p i)) * 2 ^ 32
    | _ => x.opened % 2 ^ 32
  else if 0x30000 ≤ off ∧ off < 0x50000 ∧ j < cqCount s p then
    let c := cqOf s (cqIndex s p j)
    match off % 32 with
    | 0 => c.base
    | 8 => cqCtrlWord c + cqStatusWord c * 2 ^ 32
    | _ => 0
  else if off = 0x50000 then funcInfo s p
  else if off = 0x50008 then rd s oPART_ENERGY_UJ (p + 1)
  else 0

/-- The aligned 64 bits of a PF's mailbox at an offset (Table STESTO-6). -/
def boxReg (s : State) (e off : Nat) : Nat :=
  let x := boxOf s e
  if off = 0x51008 then x.owned + x.done * 16 + (if x.notifyPending then 256 else 0)
  else if off = 0x51018 then x.irq
  else if 0x51100 ≤ off ∧ off < 0x51300 then numAt x.notifyFrame (off - 0x51100) 8
  else if 0x51800 ≤ off then numAt (tabGet [] x.frames ((off - 0x51800) / 512)) (off % 512) 8
  else 0

/-- The half or the whole of an aligned 64-bit word that an access reads. -/
def readHalf (w off size : Nat) : Nat := if size = 8 then w else if off % 8 = 0 then w % 2 ^ 32 else w / 2 ^ 32

/-- What a read of BAR0 returns. -/
def bar0Read (s : State) (fn off size : Nat) : Nat :=
  if !(accessOk off size) then 0
  else
    let w := if 0x51000 ≤ off ∧ off < 0x52000 then (if fn % 256 = 0 ∧ boxUsable s (fn / 256) then boxReg s (fn / 256) (off / 8 * 8) else 0)
      else match fnPart s fn with
        | some p => bar0Reg s p (off / 8 * 8)
        | none => 0
    readHalf w off size

/-- What a read of BAR2 returns: the MSI-X table at 0, an entry of 16 bytes a vector, and the pending bits at half of the BAR
(Table HOST-2, the entries' layout by the PCIe base specification, log 58). -/
def bar2Read (s : State) (fn off size : Nat) : Nat :=
  let f := fnOf s fn
  let half := bar2Bytes fn / 2
  let v := off / 16
  let w :=
    if half ≤ off then leNat ((List.range 8).map (fun k => BitVec.ofNat 8
      (f.pending.foldl (fun a x => if x / 8 = off / 8 * 8 - half + k then a + 2 ^ (x % 8) else a) 0)))
    else if msixVectors fn ≤ v then 0
    else if off % 16 < 8 then (tabGet {} f.vectors v).addr % 2 ^ 64
    else (tabGet {} f.vectors v).data % 2 ^ 32 + (if (tabGet {} f.vectors v).masked then 2 ^ 32 else 0)
  if accessOk off size then readHalf w off size else 0

end Sys2Proof.Machine
end

