-- ==== Sys2Proof/Machine/Replies.lean ====
section
/-! DEFINITION. Stesto sessions as every command uses them: the reply to a request, kept replies, delayed replies, sessions
closed by the device (spec/18 R431 to R435). -/

namespace Sys2Proof.Machine

open Sys2Proof

/-- An accepted session by its SID. -/
def sessionOf (s : State) (sid : Nat) : Option Session := s.mgmt.sessions.find? (fun x => x.accepted && x.sid == sid)

/-- A session stored in place of the one with its SID. -/
def setSession (s : State) (x : Session) : State :=
  { s with mgmt := { s.mgmt with sessions := s.mgmt.sessions.map (fun y => if y.sid = x.sid then x else y) } }

/-- Sessions closed: those that satisfy a test are gone. -/
def dropSessions (s : State) (p : Session → Bool) : State :=
  { s with mgmt := { s.mgmt with sessions := s.mgmt.sessions.filter (fun x => !(p x)) } }

/-- A frame of the device in a session, numbered and sealed, handed to the session's path; answers the bytes too. -/
def sessionFrame (s : State) (x : Session) (dst : Src) (ftype txid : Nat) (payload : List Byte) : State × List Byte :=
  let b := sealFrame x.key ftype x.sid (x.txSeq + 1) txid payload
  (reply (setSession s { x with txSeq := x.txSeq + 1 }) dst b, b)

/-- The reply to a request: kept if the request is among the last 8 accepted (R434). -/
def answerReq (s : State) (dst : Src) (req : Req) (ftype : Nat) (payload : List Byte) : State :=
  match sessionOf s req.sid with
  | none => s
  | some x =>
    let r := sessionFrame s x dst ftype req.txid payload
    match sessionOf r.1 req.sid with
    | none => r.1
    | some y =>
      setSession r.1 { y with
        kept := y.kept.map (fun k => if k.1 = req.fseq then (k.1, r.2) else k)
        waiting := y.waiting.filter (fun f => f != req.fseq) }

/-- Where the replies of a session go when no datagram names the address: where it was opened from. -/
def sessionSrc (s : State) (sid : Nat) : Src :=
  match sessionOf s sid with
  | some x => x.src
  | none => .net 0 0

/-- What a write comes to: its RESULT at once, a reply that follows later, or a refusal of Table STESTO-3. -/
inductive WriteOutcome where
  | done (result : Nat)
  | later
  | refused (code : Nat)
deriving DecidableEq, Repr

abbrev errNO_OBJECT : Nat := 1
abbrev errACCESS_DENIED : Nat := 2
abbrev errOUT_OF_RANGE : Nat := 3
abbrev errNOT_READY : Nat := 4
abbrev errTYPE_MISMATCH : Nat := 5
abbrev errAUTH_FAILED : Nat := 6
abbrev errBUSY : Nat := 7

/-- DETAIL of an ERROR: BOOT_STAGE for NOT_READY, else 0 (R432). -/
def errDetail (s : State) (code : Nat) : Nat := if code = errNOT_READY then rd s oBOOT_STAGE 0 else 0

/-- The reply to a write by its outcome. -/
def answerWrite (s : State) (dst : Src) (req : Req) (index sub : Nat) (o : WriteOutcome) : State :=
  match o with
  | .done r => answerReq s dst req 0x13 (writeReplyPayload index sub r)
  | .refused c => answerReq s dst req 0x30 (errorPayload index sub c (errDetail s c))
  | .later =>
    match sessionOf s req.sid with
    | some x => setSession s { x with waiting := req.fseq :: x.waiting }
    | none => s

/-- The index and subindex whose write a delayed reply answers. -/
def delayedObj : Delayed → Nat × Nat
  | .partReset p => (oPART_RESET, p + 1)
  | .destroy p => (oPART_CTRL, p + 1)
  | .coreRetire c => (oCORE_RETIRE, c + 1)
  | .pcRetire k => (oPC_RETIRE, k + 1)

/-- A command that has completed: every reply that waited for it is sent with its RESULT (R433). -/
def finishDelayed (s : State) (d : Delayed) (result : Nat) : State :=
  let mine := s.mgmt.waiting.filter (fun w => w.1 == d)
  let s := { s with mgmt := { s.mgmt with waiting := s.mgmt.waiting.filter (fun w => w.1 != d) } }
  mine.foldl (fun t w => answerWrite t w.2.2 w.2.1 (delayedObj d).1 (delayedObj d).2 (.done result)) s

/-- A reply that waits for a command to complete. -/
def delay (s : State) (d : Delayed) (req : Req) (dst : Src) : State :=
  { s with mgmt := { s.mgmt with waiting := s.mgmt.waiting ++ [(d, req, dst)] } }

/-- Sessions that the device closes are told by a CLOSE (R431), and remembered until its CLOSE_REPLY: as many as can be open. -/
def closeSessions (s : State) (p : Session → Bool) : State :=
  let gone := s.mgmt.sessions.filter (fun x => p x && x.accepted)
  let s := gone.foldl (fun t x => sendNote t x.src (sealFrame x.key 0x07 x.sid (x.txSeq + 1) 0 [])) s
  let s := { s with mgmt := { s.mgmt with closing := (gone.map (fun x => (x.sid, x.key)) ++ s.mgmt.closing).take 12 } }
  dropSessions s p

/-- Whether a session came through the mailbox of an endpoint. -/
def boxSession (e : Nat) (x : Session) : Bool :=
  match x.src with
  | .mailbox e' _ => e' == e
  | .net _ _ => false

end Sys2Proof.Machine
end

