-- ==== Sys2Proof/Machine/Resets.lean ====
section
/-! DEFINITION. Partitions and cores: validity of a configuration, creation, restoration, partition reset, core reset, and the
resets of functions and endpoints (spec/05 R107, R108, R112 to R114; spec/17 R417, R424; spec/18 R445). -/

namespace Sys2Proof.Machine

open Sys2Proof

/-! ### A valid configuration (R417) -/

/-- Whether two queue ranges share a queue. -/
def rangesMeet (v w : Nat) : Bool :=
  decide (0 < rangeCount v ∧ 0 < rangeCount w ∧ rangeBase v < rangeBase w + rangeCount w ∧ rangeBase w < rangeBase v + rangeCount v)

/-- A queue range within the package. -/
def rangeOk (v : Nat) : Bool := decide (rangeBase v + rangeCount v ≤ 4096)

/-- Whether two partitions' configurations name a resource in common. -/
def configsMeet (s : State) (p r : Nat) : Bool :=
  partFn s p == partFn s r || rd s oPART_CORES (p + 1) &&& rd s oPART_CORES (r + 1) != 0 ||
    rd s oPART_DRAM_EXT (p + 1) &&& rd s oPART_DRAM_EXT (r + 1) != 0 ||
    rd s oPART_POOL_EXT (p + 1) &&& rd s oPART_POOL_EXT (r + 1) != 0 ||
    rangesMeet (rd s oIQ_RANGE (p + 1)) (rd s oIQ_RANGE (r + 1)) || rangesMeet (rd s oCQ_RANGE (p + 1)) (rd s oCQ_RANGE (r + 1))

/-- A function that exists: of a fitted endpoint, the PF or one of 127 VFs. -/
def fnExists (s : State) (fn : Nat) : Bool := epFitted s (fn / 256) && decide (fn % 256 ≤ 127)

/-- A DRAM extent within its stack's usable capacity; a Pool extent in a bank that is in use. -/
def extUsable (s : State) (x : Nat) : Bool := decide ((x % 96 + 1) * extentBytes ≤ stackBytes s (x / 96))
def poolExtUsable (s : State) (x : Nat) : Bool := !(bankRemoved s (x / 96) (x % 96 / 2))

/-- The configuration of a partition, `cores` in place of PART_CORES, is valid among the partitions that exist. -/
def configValid (s : State) (p cores : Nat) : Bool :=
  fnExists s (partFn s p) && cores % 2 ^ 128 != 0 && rangeOk (rd s oIQ_RANGE (p + 1)) && rangeOk (rd s oCQ_RANGE (p + 1)) &&
    (bitList (rd s oPART_DRAM_EXT (p + 1)) 768).all (extUsable s) &&
    (bitList (rd s oPART_POOL_EXT (p + 1)) 192).all (poolExtUsable s) &&
    (List.range 128).all (fun r => r == p || !(partExists s r) || !(configsMeet s p r))

/-- The cores of a persisted configuration that have not been retired without replacement (R107). -/
def coresLeft (s : State) (p : Nat) : List Nat := (partCores s p).filter (fun c => !(coreRetired s c))

/-- A set of cores as PART_CORES holds it. -/
def coreMask (cs : List Nat) : Nat := cs.foldl (fun w c => setBit w c true) 0

/-! ### Creation and restoration (R85, R107, R108, R408) -/

/-- Queues of a range set to zero (R424). -/
def zeroIqs (s : State) (v : Nat) : State :=
  { s with iqs := s.iqs.filter (fun x => !(decide (rangeBase v ≤ x.1 ∧ x.1 < rangeBase v + rangeCount v))) }
def zeroCqs (s : State) (v : Nat) : State :=
  { s with cqs := s.cqs.filter (fun x => !(decide (rangeBase v ≤ x.1 ∧ x.1 < rangeBase v + rangeCount v))) }

/-- A partition comes into being: PART_STATE active, credit level at CREDIT_BURST; nothing that a former owner has left in its queues
reaches it (R422). -/
def startPart (s : State) (p : Nat) : State :=
  let s := zeroCqs (zeroIqs s (rd s oIQ_RANGE (p + 1))) (rd s oCQ_RANGE (p + 1))
  setPart (wr s oPART_STATE (p + 1) 1) p { level := rd s oCREDIT_BURST (p + 1) * 1000000 }

/-- The counters that run from a partition's creation. -/
def sinceCreation : List Nat :=
  [oPART_ENERGY_UJ, oSPILL_COUNT, oFLAG_EXPIRED, oSPOOL_COPIES, oGATHER_FAULTS, oXPORT_REISSUES, oREFUSED_FULL_COUNT,
    oREFUSED_CREDIT_COUNT]

/-- PART_CTRL create: its counters start at 0 (R85). -/
def createPart (s : State) (p : Nat) : State := startPart (sinceCreation.foldl (fun t o => wr t o (p + 1) 0) s) p

/-- Nothing that the partition's configuration names belongs to a partition that exists (R419). -/
def ownsAlone (s : State) (p : Nat) : Bool := (List.range 128).all (fun r => r == p || !(partExists s r) || !(configsMeet s p r))

/-- A persisted partition restored, or marked in RESTORE_STATUS and BOOT_FAULT where none of its cores remain or its quota no longer
fits (R107), or where a partition restored before it owns something that it names (R419; log 35). -/
def restorePart (s : State) (p : Nat) : State :=
  if !((rd s oPART_FUNC (p + 1)).testBit 15) then s
  else
    let mask := coreMask (coresLeft s p)
    if mask ≠ 0 ∧ partDramMib s p * 2 ^ 20 ≤ dramBytes s ∧ ownsAlone s p then
      let s := if mask = rd s oPART_CORES (p + 1) then s else wrP s oPART_CORES (p + 1) mask
      (partCores s p).foldl zeroStore (startPart s p)
    else
      let s := wr s oRESTORE_STATUS 0 (setBit (rd s oRESTORE_STATUS 0) p true)
      bootFault s 8

/-- PARTITION_RESTORE (R105, R107, R108, step 13): what limited mode has stored takes effect, but for what fabric training applies;
every persisted partition; full mode. -/
def execPartitionRestore (s : State) : Result :=
  .next (if atStage s 10 then
      let s := (List.range 128).foldl restorePart (applyStaged s (fun i => !(trainingObj i)))
      let s := wr s oBOOT_TIME_MS 0 ((s.nowUs - s.regr.resetAt) / 1000 % 65536)
      stage { s with power := { s.power with fullMode := true } } 13
    else s)

/-! ### Partition reset (R112, R113, R424, Table BOOT-2) -/

/-- An operation of a partition that is reset (R112): one whose wavefront is in progress stops at its next tile boundary, or when the
stall timer expires; any other is discarded at once. -/
def stopOp (s : State) (o : Op) : State :=
  match o.core with
  | some c => if o.phase = .dispatched ∧ inWave s c then pendLoad s .partReset c else discardOp s o
  | none => discardOp s o

/-- Every admitted operation of a partition stopped, those dispatched first. -/
def stopOps (s : State) (p : Nat) : State :=
  let running := opIds s (fun o => o.part == p && o.phase == .dispatched)
  let others := opIds s (fun o => o.part == p && o.phase != .dispatched)
  forOps others stopOp (forOps running stopOp s)

/-- A partition reset begins: nothing more is fetched; its operations are stopped, unless a core of it is being mapped, which
finishes first. -/
def beginReset (s : State) (p : Nat) : State :=
  if rd s oPART_STATE (p + 1) ≠ 1 then s
  else
    let s := setPart (wr s oPART_STATE (p + 1) 2) p { partOf s p with resetting := true, discarded := 0 }
    if paused s p then s else stopOps s p

/-- An operation of the partition has not reached its tile boundary. -/
def stillRuns (s : State) (p : Nat) : Bool :=
  s.weir.ops.any (fun o => o.part == p && o.phase == .dispatched && (match o.core with
    | some c => (coreOf s c).wave
    | none => false))

/-- The tokens of a partition free. -/
def freeTokens (s : State) (p : Nat) : State :=
  { s with weir := { s.weir with counts := s.weir.counts.filter (fun x => !(tokenOf s p x.1))
                                 marks := s.weir.marks.filter (fun x => x.1 / 65536 != p) } }

/-- The contexts of a partition that are not closed. -/
def ctxsOf (s : State) (p : Nat) : List Nat :=
  (s.fabric.ctxs.filter (fun x => x.2.part == p && x.2.st != .closed)).map (fun x => x.1)

/-- What a partition reset leaves of a partition. Its transport contexts close now, at the reset's completion, so that remote data
lands until then: R112 does not say when they close (DESIGN CHOICE, log 62). -/
def clearPart (s : State) (p : Nat) : State :=
  let s := forOps (opIds s (fun o => o.part == p)) discardOp s
  let s := (ctxsOf s p).foldl ctxShut s
  let s := { s with fabric := { s.fabric with lost := s.fabric.lost.filter (fun l => l.part != p) }
                    outRecords := s.outRecords.filter (fun x => x.1.part != p) }
  let s := zeroCqs (zeroIqs s (rd s oIQ_RANGE (p + 1))) (rd s oCQ_RANGE (p + 1))
  let s := freeSpawn (freeTokens s p) p
  (partCores s p).foldl clearCore s

/-- The partition is gone: VALID of its PART_FUNC cleared (R417). -/
def endPart (s : State) (p : Nat) : State :=
  let s := wrP s oPART_FUNC (p + 1) (setBit (rd s oPART_FUNC (p + 1)) 15 false)
  { wr s oPART_STATE (p + 1) 0 with parts := tabDel s.parts p }

/-- PART_RESET_COMPLETE (R112, R113): its operations have stopped; reported in PART_DISCARD and in the reply; a destroyed partition then ends. -/
def execPartResetComplete (p : Nat) (s : State) : Result :=
  .next (if (partOf s p).resetting && !(paused s p) && !(stillRuns s p) then
      let s := clearPart s p
      let n := (partOf s p).discarded
      let gone := (partOf s p).destroying
      let s := wr s oPART_DISCARD (p + 1) (min max32 n)
      let s := if gone then endPart s p else startPart s p
      finishDelayed (finishDelayed s (.partReset p) n) (.destroy p) 0
    else s)

/-! ### Resets from the PCIe side (R112, R424, R445) -/

/-- Partitions bound to functions that satisfy a test. -/
def partsOn (s : State) (f : Nat → Bool) : List Nat := (List.range 128).filter (fun p => partExists s p && f (partFn s p))

/-- Reset of a PF: its mailbox sessions are closed, every slot returns to the host (R445). -/
def resetBox (s : State) (e : Nat) : State := setBox (dropSessions s (boxSession e)) e {}

/-- What the host has configured of the functions of an endpoint that satisfy a test is gone; Max_Payload_Size stays where `keep`
says so (log 58). -/
def resetFns (s : State) (f : Nat → Bool) (keep : Bool) : State :=
  { s with fns := s.fns.map (fun x => if f x.1 then (x.1, if keep then { payload := x.2.payload } else {}) else x) }

/-- The VFs of an endpoint disabled (R424): every partition bound to one of them is reset. -/
def clearVfs (s : State) (ep : Nat) : State :=
  let s := resetFns s (fun f => f / 256 == ep && f % 256 != 0) false
  let s := setFn s (256 * ep) { fnOf s (256 * ep) with vfs := 0 }
  (partsOn s (fun f => f / 256 == ep && f % 256 != 0)).foldl beginReset s

/-- A function reset (R112, R445); that of a PF clears its VF Enable too (log 58). -/
def flrNow (fn : Nat) (s : State) : State :=
  let s := if fn % 256 = 0 then clearVfs (resetBox s (fn / 256)) (fn / 256) else s
  (partsOn s (fun f => f == fn)).foldl beginReset (resetFns s (fun f => f == fn) true)

/-- FUNCTION_LEVEL_RESET: a request of the host like any other, held while the PCIe core is gated (R69). -/
def execFunctionLevelReset (fn : Nat) (s : State) : Result :=
  .next (if s.clock.rootGated then holdHost s (.flr fn) else flrNow fn s)

/-- PERST_ASSERT (R112): the endpoint's conventional reset, and the reset of every partition bound to it. -/
def execPerstAssert (ep : Nat) (s : State) : Result :=
  .next (if epFitted s ep then
      let s := resetFns (resetBox (setEp s ep { perst := true }) ep) (fun f => f / 256 == ep) false
      (partsOn s (fun f => f / 256 == ep)).foldl beginReset s
    else s)

/-- VF_ENABLE_CLEAR (R424), held while the PCIe core is gated (R69). -/
def execVfEnableClear (ep : Nat) (s : State) : Result :=
  .next (if s.clock.rootGated then holdHost s (.vfClear ep) else clearVfs s ep)

/-! ### Core reset (R114) -/

/-- The operations placed on a core taken back by the Weir. -/
def takeBackPlaced (s : State) (c : Nat) : State :=
  forOps (opIds s (fun o => decide (o.core = some c) && o.phase == .placed)) takeBack s

/-- The operations of a core in some phases end ABANDONED. -/
def abandonOps (s : State) (c : Nat) (f : OpPhase → Bool) : State :=
  forOps (opIds s (fun o => decide (o.core = some c) && f o.phase)) (fun t o => endOp t o stABANDONED) s

/-- A core's placed operations go back to the Weir, its executing and parked ones complete ABANDONED. -/
def abandonCore (s : State) (c : Nat) : State :=
  abandonOps (takeBackPlaced s c) c (fun f => f == .dispatched || f == .parked)

/-- CORE_RESET of a core (R114, R132 to R135): with a wavefront in progress the reset is a pending load, and the executing operation
ends once the wavefront completes or the stall timer expires. A partition reset that is pending there stays so. -/
def coreReset (s : State) (c : Nat) : State :=
  let x := coreOf s c
  if x.exec.isSome && inWave s c then
    let s := if x.load = some .partReset then s else pendLoad s .coreReset c
    abandonOps (takeBackPlaced s c) c (fun f => f == .parked)
  else clearCore (abandonCore s c) c

end Sys2Proof.Machine
end

