-- ==== Sys2Proof/Machine/Repair.lean ====
section
/-! DEFINITION. Errors and Regrowth (spec/19 R449 to R461), the fatal stop (R452), and firmware switches (R463). -/

namespace Sys2Proof.Machine

open Sys2Proof

/-! ### Cores (R454 to R456) -/

/-- The entry of the error log that a core's retirement has just written, remembered with the core. -/
def noteEntry (s : State) (cause c : Nat) : State :=
  match openEntry s cause c with
  | some e => setCore s c { coreOf s c with logged := e.sub }
  | none => s

/-- An entry of ERR_LOG that tells of the retirement of a core: SCOPE, CAUSE and LOCATION (Table REGR-3). -/
def tellsOf (b : List Byte) (c : Nat) : Bool :=
  numAt b 13 1 == 1 && (numAt b 14 2 == 0x20 || numAt b 14 2 == 0x13) && numAt b 16 4 == c

/-- ACTION of the log entry of a core's retirement set to 3, which is a change of the entry; nothing where the retirement has no
entry, or a later one has overwritten it (R441, R456). -/
def setAction (s : State) (c : Nat) : State :=
  let sub := (coreOf s c).logged
  let b := rdBytes s oERR_LOG sub
  if tellsOf b c && numAt b 30 1 != 3 then
    let b' := b.take 30 ++ leBytes 1 3 ++ b.drop 31
    notify (wrBytesP s oERR_LOG sub b') 6 oERR_LOG sub (entryHead b')
  else s

/-- A core whose repair is over serves again, or is out of use: nothing on it, nothing pending, its credits free (R37): its writes
that still wait for Eddy entries hold none any more. -/
def settleCore (s : State) (c : Nat) : State :=
  setCore { s with mem := { s.mem with
    reads := s.mem.reads.filter (fun r => r.core != c)
    eddyWait := s.mem.eddyWait.map (fun w => if w.core = some c then { w with core := none } else w) } } c {}

/-- The reset of a partition that a mapping of one of its cores held up goes on once none of them is being mapped (R112, R455). -/
def resumeReset (s : State) (c : Nat) : State :=
  match corePart s c with
  | some p => if (partOf s p).resetting && !(paused s p) then stopOps s p else s
  | none => s

/-- A core retired without replacement (R456): its bit leaves PART_CORES; the loss of a partition's last core resets it. -/
def retireWithout (s : State) (c : Nat) : State :=
  let s := settleCore (setAction (addRepair s (.coreRetired c)) c) c
  let s := match corePart s c with
    | some p =>
      let s := resumeReset s c
      let s := wrP s oPART_CORES (p + 1) (setBit (rd s oPART_CORES (p + 1)) c false)
      if (partCores s p).isEmpty then beginReset s p else s
    | none => s
  finishDelayed s (.coreRetire c) 0

/-- The mapping of a retired core begins: the partition that owns it pauses, which is counted (R455); without a spare left on the die, none follows. -/
def beginMapping (s : State) (c : Nat) : State :=
  if spareCount s (c / 64) ≤ mappingsOn s (c / 64) then retireWithout s c
  else
    let s := setCore s c { mapping := true, logged := (coreOf s c).logged }
    startJob (if (corePart s c).isSome then count32 s oREGR_PAUSES 0 1 else s) (.core c)

/-- A logical core that runs: neither retired without replacement nor being mapped. -/
def coreRuns (s : State) (c : Nat) : Bool := decide (c < 128) && s.power.compute && !(coreRetired s c) && !(coreOf s c).mapping

/-- ACTION of the log entry of a core's retirement: 2 where a spare is free. -/
def coreAction (s : State) (c : Nat) : Nat := if spareCount s (c / 64) ≤ mappingsOn s (c / 64) then 3 else 2

/-- CORE_CHECK (R454): unplanned retirement. -/
def execCoreCheck (c : Nat) (s : State) : Result :=
  .next (if coreRuns s c then
      let s := noteEntry (contained s 1 0x20 c 0 (coreAction s c)) 0x20 c
      beginMapping (abandonCore (setCore s c { coreOf s c with mapping := true }) c) c
    else s)

/-- A planned retirement: nothing new is placed on the core (R454). -/
def planRetire (s : State) (c : Nat) : State :=
  let s := setCore s c { coreOf s c with retiring := true }
  forOps (opIds s (fun o => decide (o.core = some c) && o.phase == .placed)) takeBack s

/-- PLANNED_RETIREMENT_PROCEED (R454): the core's last operation has released. -/
def execPlannedRetirementProceed (c : Nat) (s : State) : Result :=
  .next (if (coreOf s c).retiring && (onCore s c (fun _ => true)).isEmpty then beginMapping s c else s)

/-- The spares that fail their self test are recorded in turn; the first that passes is answered (R455). -/
def passSpare (failed : List Nat) (q : Nat) : Nat → State → State × Option Nat
  | 0, s => (s, none)
  | fuel + 1, s =>
    match spareChoice s q with
    | none => (s, none)
    | some ph => if failed.contains ph then passSpare failed q fuel (addRepair s (.badSpare ph)) else (s, some ph)

/-- A repair job that is over. -/
def endJob (s : State) (j : RegrJob) : State := { s with regr := { s.regr with jobs := s.regr.jobs.filter (fun x => x != j) } }

/-- SPARE_MAPPING_DONE (R455, R456) with the physical spares that fail their self test. -/
def execSpareMappingDone (c : Nat) (failedSpares : List Nat) (s : State) : Result :=
  .next (if s.regr.jobs.contains (.core c) then
      let r := passSpare failedSpares (homeQuad c) 4 (endJob s (.core c))
      match r.2 with
      | some ph =>
        let s := blankStore (settleCore (addRepair r.1 (.core c ph)) c) c
        finishDelayed (resumeReset s c) (.coreRetire c) 0
      | none => retireWithout r.1 c
    else s)

/-! ### Pool banks and rows (R457, R458) -/

/-- A repair of the bank runs or waits. -/
def bankBusy (s : State) (d b : Nat) : Bool :=
  (s.regr.jobs ++ s.regr.deferred).any (fun j => match j with
    | .bank d' b' _ => d' == d && b' == b
    | _ => false)

/-- A Pool bank's copy to a spare begins, or POOL_DEGRADED is set (R457). -/
def startBank (s : State) (d b : Nat) : State :=
  if bankBusy s d b then s
  else
    match bankSpares s d with
    | sp :: _ => startJob s (.bank d b sp)
    | [] => wr s oPOOL_DEGRADED (d + 1) 1

/-- POOL_UE (Table REGR-2 POOL_UE and STORE_UE): the line is poisoned; a Pool bank is replaced. -/
def execPoolUe (line : Nat) (s : State) : Result :=
  .next (if line % 256 ≠ 0 ∨ !s.power.compute ∨ !(addressLaidOut line) ∨ poisoned s line then s
    else if space line = 1 then
      let d := poolDie line
      let s := contained (poisonLine s line) 0 0x11 0 line (if (bankSpares s d).isEmpty then 0 else 2)
      startBank s d (poolOff line / 2 ^ 21)
    else if space line = 2 then contained (poisonLine s line) 0 0x12 0 line 0
    else s)

/-- POOL_BANK_COPY_DONE (R457): the accesses that waited go on. -/
def execPoolBankCopyDone (die bank : Nat) (s : State) : Result :=
  .next (match s.regr.jobs.find? (fun j => match j with
      | .bank d b _ => d == die && b == bank
      | _ => false) with
    | some (.bank d b sp) => serveCores (addRepair (endJob s (.bank d b sp)) (.bank d b sp))
    | _ => s)

/-- DRAM_ROW_REPAIR_DONE (R458). -/
def execDramRowRepairDone (line : Nat) (s : State) : Result :=
  .next (if s.regr.jobs.contains (.row (rowOf line)) then
      let k := dramStack line + 1
      let s := addRepair (endJob s (.row (rowOf line))) (.row (rowOf line) (rowChannel s line))
      wr s oROW_SPARE_FREE k (rd s oROW_SPARE_FREE k - 1)
    else s)

/-- CE_LIMIT (R449, R453): logged as corrected; the part is repaired. -/
def execCeLimit (part : Part) (s : State) : Result :=
  .next (if !s.power.compute then s
    else
      match part with
      | .core c =>
        if coreRuns s c then
          let s := noteEntry (logError s 0 1 0x13 c 0 (coreAction s c)) 0x13 c
          if (coreOf s c).retiring then s else planRetire s c
        else s
      | .bank d b =>
        if d < 2 ∧ b < 48 then
          startBank (logError s 0 4 0x13 (48 * d + b) 0 (if (bankSpares s d).isEmpty then 0 else 2)) d b
        else s
      | .row line => if space line = 0 then startRow (logError s 0 5 0x13 0 (rowOf line) (rowAction s line)) line else s)

/-! ### Pseudo-channels (R459, R460) -/

/-- The row repairs of a channel that has moved are no longer needed (R459). -/
def dropRows (s : State) (k channel : Nat) : State :=
  let keep := fun (j : RegrJob) => match j with
    | .row line => !(dramStack line == k && rowChannel s line == channel)
    | _ => true
  { s with regr := { s.regr with jobs := s.regr.jobs.filter keep, deferred := s.regr.deferred.filter keep } }

/-- The move of a channel that runs. -/
def moveOf (s : State) (k channel : Nat) : Option RegrJob :=
  s.regr.jobs.find? (fun j => match j with
    | .move k' c' _ => k' == k && c' == channel
    | _ => false)

/-- A channel in service on a usable stack, which a retraining may find failing. -/
def channelServes (s : State) (k channel : Nat) : Bool :=
  s.power.compute && stackUsable s k && (rotation s k).contains channel

/-- The moved channel's runs are on a spare, the lines of it that could not be read poisoned (R459). -/
def moveDone (s : State) (k channel : Nat) (unreadable : List Nat) : State :=
  match idleChannels s k with
  | sp :: _ =>
    let lines := (unreadable.map lineOf).filter (fun l => space l == 0 && dramStack l == k && rowChannel s l == channel)
    let s := addRepair (dropRows s k channel) (.channel k channel sp)
    lines.foldl poisonLine (storeChannels s k)
  | [] => s

/-- PSEUDO_CHANNEL_MOVE_DONE (R459): a move that a row repair without a spare row has begun, or, `retrained`, the move of a channel
that has failed a retraining, of whose beginning the table has no row (log 69). -/
def execPseudoChannelMoveDone (k channel : Nat) (unreadable : List Nat) (s : State) (retrained : Bool := false) : Result :=
  .next (match moveOf s k channel with
    | some j => moveDone (endJob s j) k channel unreadable
    | none =>
      if retrained && channelServes s k channel && decide (movesOn s k < (idleChannels s k).length) && !s.mgmt.silent then
        moveDone s k channel unreadable
      else s)

/-- A partition owns one of the three extents at the top of a stack's window (R460). -/
def topOwned (s : State) (k : Nat) : Bool :=
  let top := 96 * k + stackBytes s k / extentBytes
  (List.range 128).any (fun p => partExists s p && [1, 2, 3].any (fun i => (rd s oPART_DRAM_EXT (p + 1)).testBit (top - i)))

/-- A re-lay of the stack runs or waits. -/
def relaying (s : State) (k : Nat) : Bool :=
  (s.regr.jobs ++ s.regr.deferred).any (fun j => match j with
    | .relay k' _ => k' == k
    | _ => false)

/-- PC_RELAY_DONE (R460, R159): the channel is out of the rotation; the reply gives the new DRAM_BYTES in MiB. -/
def execPcRelayDone (k : Nat) (s : State) : Result :=
  .next (match s.regr.jobs.find? (fun j => match j with
      | .relay k' _ => k' == k
      | _ => false) with
    | some (.relay k' c) =>
      let s := addRepair (endJob s (.relay k' c)) (.channelRetired k c)
      let s := if rd s oBOOT_STAGE 0 < 10 then s else storeChannels s k
      finishDelayed s (.pcRetire k) (dramBytes s / 2 ^ 20)
    | _ => s)

/-! ### Spawn table and fatal errors (R449, R452) -/

/-- SPAWN_UE: the owning partition is reset. -/
def execSpawnUe (p : Nat) (s : State) : Result :=
  .next (if partExists s p then beginReset (contained s 8 0x40 p 0 4) p else s)

/-- FATAL_STOP (R452): DEPART, AER on each endpoint, the entry logged and committed, the rails off; ALERT_N stays asserted. -/
def execFatalStop (cause : Nat) (s : State) : Result :=
  .next (if s.power.compute ∧ 0x50 ≤ cause ∧ cause ≤ 0x52 then
      let s := departAll s
      let s := ((List.range 2).filter (fun e => epFitted s e)).foldl (fun t e => emit t (.aer e)) s
      let s := commit (logError (count32P s oFATAL_COUNT 0 1) 2 11 cause 0 0 5)
      let s := loseCompute s
      { s with power := { s.power with shutdown := true, fatal := true, lowTimer := false, highTimer := false } }
    else s)

/-! ### Firmware (R462 to R464) -/

/-- The inactive bank: its number, whether it is valid, its blocks. -/
def otherBank (s : State) : Nat := 1 - s.fw.active
def otherValid (s : State) : Bool := if s.fw.active = 0 then s.fw.valid1 else s.fw.valid0
def otherBlocks (s : State) : Tab (List Byte) := if s.fw.active = 0 then s.fw.blocks1 else s.fw.blocks0

/-- Blocks and validity of the inactive bank stored. -/
def setOther (s : State) (blocks : Tab (List Byte)) (valid : Bool) : State :=
  if s.fw.active = 0 then { s with fw := { s.fw with blocks1 := blocks, valid1 := valid } }
  else { s with fw := { s.fw with blocks0 := blocks, valid0 := valid } }

/-- FW_BLOCK (R462): a block of the inactive bank, which is no longer valid as a whole. -/
def putBlock (s : State) (b : List Byte) : State :=
  wr (setOther s (tabPut (otherBlocks s) (rd s oFW_BLOCK_SEL 0) b) false) oFW_STATE 0 1

/-- FW_COMMIT (R462): whether the inactive bank passes. -/
def bankPasses (s : State) : Bool :=
  Config.imageVerifies (otherBlocks s) && decide (rd s oFW_ROLLBACK_MIN 0 ≤ Config.imageRollback (otherBlocks s))

/-- The inactive bank marked valid or invalid. -/
def markBank (s : State) (ok : Bool) : State := wr (setOther s (otherBlocks s) ok) oFW_STATE 0 (if ok then 2 else 0)

/-- A repair of Table REGR-4 runs (R464). -/
def repairRuns (s : State) : Bool := !s.regr.jobs.isEmpty || (List.range 16).any (fun n => portCode s n == 3)

/-- The management controller restarts: every session is gone, Stesto is silent (R463). -/
def restartMgmt (s : State) : State :=
  let s := dropSessions s (fun _ => true)
  { s with mgmt := { s.mgmt with closing := [], waiting := [], silent := true } }

/-- A repair that was put off begins. -/
def startDeferred (s : State) (j : RegrJob) : State :=
  match j with
  | .lane n lane => if portUp s n && !((portOf s n).spare) then startLane s n lane else s
  | _ => { s with regr := { s.regr with jobs := s.regr.jobs ++ [j] } }

/-- The management controller is back: repairs that were put off begin (R463). -/
def mgmtBack (s : State) : State :=
  s.regr.deferred.foldl startDeferred { s with mgmt := { s.mgmt with silent := false }, regr := { s.regr with deferred := [] } }

/-- A switch of the firmware has failed: FW_STATE REVERTED, FW_REVERT logged (R463). -/
def revertFw (s : State) : State := logError (wr s oFW_STATE 0 4) 0 10 0x61 0 0 0

/-- FIRMWARE_READY (R463): after a switch FW_BOOT_BANK becomes the new bank; after a watchdog restart nothing changes. -/
def execFirmwareReady (s : State) : Result :=
  .next (if !s.mgmt.silent then s
    else if rd s oFW_STATE 0 = 3 then
      let new := otherBank s
      let s := wrP { s with fw := { s.fw with active := new } } oFW_BOOT_BANK 0 new
      mgmtBack (wr s oFW_STATE 0 (if otherValid s then 2 else 0))
    else mgmtBack s)

/-- FW_REVERT (R463): the old bank runs again. -/
def execFwRevert (s : State) : Result :=
  .next (if s.mgmt.silent ∧ rd s oFW_STATE 0 = 3 then revertFw (mgmtBack s) else s)

/-- MGMT_WATCHDOG (R463): management restarts from FW_BOOT_BANK; a switch that was under way has failed. -/
def execMgmtWatchdog (s : State) : Result :=
  .next (if s.power.good then
      let s := contained s 10 0x60 0 0 0
      let s := if rd s oFW_STATE 0 = 3 then revertFw s else s
      restartMgmt { s with fw := { s.fw with active := rd s oFW_BOOT_BANK 0 } }
    else s)

end Sys2Proof.Machine
end

