-- ==== Sys2Proof/Machine/Objects.lean ====
section
/-! DEFINITION. The dictionary as a Stesto client meets it: what every object reads as (spec/18 R446 and the object tables of
all chapters), who may read and write it (R104, R105, R438, R440), which values it accepts, and what a write does. -/

namespace Sys2Proof.Machine

open Sys2Proof

/-! ### What an object reads as -/

/-- MGMT_LL_ADDR: fe80:: with the modified EUI-64 of MGMT_MAC (R427); both addresses are written first byte first. -/
def linkLocal (s : State) : List Byte :=
  let mac := leBytes 6 (rd s oMGMT_MAC 0)
  [0xfe, 0x80, 0, 0, 0, 0, 0, 0, mac.getD 0 0 ^^^ 2, mac.getD 1 0, mac.getD 2 0, 0xff, 0xfe, mac.getD 3 0, mac.getD 4 0,
    mac.getD 5 0]

/-- The code of CTX_STATE. -/
def ctxCode : CtxSt → Nat
  | .closed => 0
  | .pendingOpen => 1
  | .opened => 2
  | .failed => 3
  | .closedByPeer => 4

/-- CTX_STATE of a context (Table FAB-9). -/
def ctxWord (s : State) (x : Nat) : Nat :=
  let c := ctxOf s x
  c.peerChip * 2 ^ 22 + c.part * 2 ^ 15 + c.peerCtx * 8 + ctxCode c.st

/-- The transport context of an entry of CTX_STATE. -/
def ctxIndex (index sub : Nat) : Nat := (index - 0x6100) * 128 + (sub - 1)

/-- FW_BANK_VERSION: empty for an invalid bank. -/
def bankVersion (s : State) (b : Nat) : List Byte :=
  if b = 0 then (if s.fw.valid0 then Config.imageVersion s.fw.blocks0 else [])
  else (if s.fw.valid1 then Config.imageVersion s.fw.blocks1 else [])

/-- The version of the running firmware. -/
def activeVersion (s : State) : List Byte := Config.imageVersion (if s.fw.active = 0 then s.fw.blocks0 else s.fw.blocks1)

/-- Objects that step 9 of Table BOOT-1 produces: before it they read their Default (R104). -/
def step9Obj (index : Nat) : Bool := index == oCORE_SPARE_FREE || index == oPOOL_SPARE_FREE || index == oREPAIR_MAP_COUNT

/-- CORE_PLACE as it reads: before step 9 its Default, the placement of the assembly, which knows no repair (R104; that the Default
is this placement is DEDUCED from "per assembly", log 62). -/
def placeRead (s : State) (c : Nat) : Nat :=
  if rd s oBOOT_STAGE 0 < 9 then corePlace { s with nv := { s.nv with repair := [] } } c else corePlace s c

/-- Numeric objects whose value follows from the rest of State. -/
def derivedNum (s : State) (index sub : Nat) : Option Nat :=
  let i := sub - 1
  if step9Obj index ∧ rd s oBOOT_STAGE 0 < 9 then none
  else if index = oSTACK_MAP then some (stackMapOf (variantOf s))
  else if index = oIOD_MAP then some (iodMapOf (variantOf s))
  else if index = oDRAM_BYTES then some (dramBytes s)
  else if index = oCORE_PLACE ∧ sub ≠ 0 then some (placeRead s i)
  else if index = oPLEVEL_EFF then some (effLevel s i)
  else if index = oPLEVEL_CAUSE then some (levelCause s i)
  else if index = oPOWER_ENV then some (powerEnv s)
  else if index = oQUAD_THERM then some (thermCode (quadTherm s i))
  else if index = oSTACK_BW_CAP_PCT then some (bwCap s i)
  else if index = oSTACK_PC_ACTIVE then some (pcActive s i)
  else if index = oPART_DRAM_MIB then some (partDramMib s i)
  else if 0x6100 ≤ index ∧ index ≤ 0x611F then some (ctxWord s (ctxIndex index sub))
  else if index = oCOLL_GROUP_STATE then some (collState s i)
  else if index = oSPAWN_LIVE then some (spawnLive s i)
  else if index = oSPOOL_FREE then some (spoolFree s i)
  else if index = oMGMT_LL_ADDR then some (leNat (linkLocal s))
  else if index = oSESSION_OPEN_COUNT then some (s.mgmt.sessions.filter (fun x => x.accepted)).length
  else if index = oCORE_SPARE_FREE then some (spareCount s i - mappingsOn s i)
  else if index = oPOOL_SPARE_FREE then some (bankSpares s i).length
  else if index = oREPAIR_MAP_COUNT then some s.nv.repair.length
  else if index = oFW_BANK_ACTIVE then some s.fw.active
  else none

/-- Strings and variable-length values: stored, derived, or the Default of their table. -/
def blobOf (s : State) (index sub : Nat) : List Byte :=
  if index = oFW_ACTIVE then activeVersion s
  else if index = oFW_BANK_VERSION then bankVersion s (sub - 1)
  else
    match tabGet? s.blobs (objKey index sub) with
    | some b => b
    | none =>
      if index = oVENDOR then [0x41, 0x76, 0x65, 0x72, 0x6d, 0x69, 0x66]
      else if index = oPRODUCT then
        [0x4c, 0x61, 0x72, 0x61, 0x6e, 0x74, 0x65, 0x6c, 0x6c, 0x65, 0x20, 0x4e, 0x6f, 0x6b, 0x65, 0x6f, 0x64]
      else if index = oERR_LOG then List.replicate 32 0
      else []

/-- The bytes of an object's value (R446), a value accepted in limited mode among them (R105); a command object reads zero
(Table STESTO-4). -/
def objBytes (s : State) (r : ObjRow) (index sub : Nat) : List Byte :=
  if r.access = .cmd then List.replicate r.size 0
  else if r.varLen then blobOf (persistedView s) index sub
  else leBytes r.size ((derivedNum s index sub).getD (rd (persistedView s) index sub))

/-! ### Existence, role, scope, mode -/

/-- Objects of ports 8 to 15 on a package without IOD1 (R18). -/
def absentObj (s : State) (index sub : Nat) : Bool :=
  !(twoX s) && (index == oPORT_STATE || index == oPORT_REPLAYS || index == oLINK_RESET) && decide (8 < sub)

/-- The row of an object that is present. -/
def presentObj (s : State) (index sub : Nat) : Option ObjRow := if absentObj s index sub then none else objRow? index sub

/-- A session bound by its scope (R440). -/
def isScoped (x : Session) : Bool := x.scope != 0 && decide (x.role < 3)

/-- A partition within a session's scope. -/
def inScope (x : Session) (p : Nat) : Bool := !(isScoped x) || x.scope.testBit p

/-- The partition whose flows hold a flow. -/
def flowPart (s : State) (f : Nat) : Option Nat := (List.range 128).find? (fun p => flowOf s p f)

/-- A context in a session's scope: one in use by a partition of it. -/
def ctxInScope (s : State) (x : Session) (c : Nat) : Bool :=
  !(isScoped x) || ((ctxOf s c).st != .closed && x.scope.testBit (ctxOf s c).part)

/-- Fields of CTX_OPEN (Table FAB-9). -/
def openCtx (v : Nat) : Nat := field v 11 0
def openChip (v : Nat) : Nat := field v 21 12
def openPeer (v : Nat) : Nat := field v 33 22
def openPart (v : Nat) : Nat := field v 40 34

/-- Whether a session's scope permits a write (R440). -/
def writeScope (s : State) (x : Session) (r : ObjRow) (index sub v : Nat) : Bool :=
  if !(isScoped x) then true
  else if r.perPart then inScope x (objPart index sub)
  else if index = oCANCEL_OP then (match flowPart s (field v 41 32) with
    | some p => inScope x p
    | none => false)
  else if index = oCANCEL_FLOW then (match flowPart s (field v 9 0) with
    | some p => inScope x p
    | none => false)
  else if index = oCTX_OPEN then
    inScope x (openPart v) && ((ctxOf s (openCtx v)).st == .closed || ctxInScope s x (openCtx v))
  else if index = oCTX_CLOSE then ctxInScope s x (field v 11 0)
  else false

/-- The role a write needs (Table STESTO-4, R438); 4 where no role may write. -/
def writeRole (r : ObjRow) : Nat :=
  match r.access with
  | .ro => 4
  | .rw => 2
  | .rwm => 3
  | .wo => 3
  | .cmd => r.role

/-- Whether the device takes a write in its present mode (R104, R105). -/
def writeMode (s : State) (r : ObjRow) (index : Nat) : Bool :=
  !(limited s) || decide (0x1000 ≤ index ∧ index < 0x2000) || decide (0x7000 ≤ index ∧ index < 0x8000) ||
    decide (0x8000 ≤ index ∧ index < 0x9000) ||
    (decide (0x3000 ≤ index ∧ index < 0x7000) && (r.access == .rw || r.access == .rwm) && r.persist)

/-- The answer to a READ: value bytes, or the code of an ERROR. -/
def readObject (s : State) (x : Session) (index sub : Nat) : Option ObjRow × Nat :=
  match presentObj s index sub with
  | none => (none, errNO_OBJECT)
  | some r =>
    if r.access = .wo then (none, errACCESS_DENIED)
    else if r.perPart && !(inScope x (objPart index sub)) then (none, errACCESS_DENIED)
    else (some r, 0)

/-! ### Types and accepted values -/

/-- The length of a value matches its type. -/
def typeOk (r : ObjRow) (index n : Nat) : Bool :=
  if index = oFW_BLOCK then n == 32768
  else if r.typ = 8 then decide (n ≤ 64)
  else if index = oCOLL_GROUP_MEMBERS then n % 2 == 0
  else n == r.size

/-- UTF-8: `n` continuation bytes still to come, the next within bounds. -/
def utf8Rest : Nat → Nat → Nat → List Byte → Bool
  | 0, _, _, [] => true
  | _ + 1, _, _, [] => false
  | 0, _, _, b :: r =>
    let v := b.toNat
    if v < 0x80 then utf8Rest 0 0 0 r
    else if 0xC2 ≤ v ∧ v ≤ 0xDF then utf8Rest 1 0x80 0xBF r
    else if v = 0xE0 then utf8Rest 2 0xA0 0xBF r
    else if v = 0xED then utf8Rest 2 0x80 0x9F r
    else if 0xE1 ≤ v ∧ v ≤ 0xEF then utf8Rest 2 0x80 0xBF r
    else if v = 0xF0 then utf8Rest 3 0x90 0xBF r
    else if 0xF1 ≤ v ∧ v ≤ 0xF3 then utf8Rest 3 0x80 0xBF r
    else if v = 0xF4 then utf8Rest 3 0x80 0x8F r
    else false
  | n + 1, lo, hi, b :: r => decide (lo ≤ b.toNat ∧ b.toNat ≤ hi) && utf8Rest n 0x80 0xBF r

/-- A well-formed UTF-8 string. -/
def utf8Ok (b : List Byte) : Bool := utf8Rest 0 0 0 b

/-- Objects whose accepted values are one range of numbers: index, lowest, highest. -/
def plainRanges : List (Nat × Nat × Nat) := [
  (oPLEVEL_REQ, 0, 7), (oARRAY_STALL_LIMIT_US, 50, 10000), (oPREC_DEFAULT, 1, 3), (oPREC_LOCK, 0, 3),
  (oEDDY_AGE_NS, 100, 100000), (oSCRUB_PERIOD_H, 1, 168), (oSPILL_TARGET, 0, 2), (oFLAG_HOLD_LIMIT_US, 100, 1000000),
  (oPARK_LIMIT_US, 100, 100000), (oSLOT_QUOTA, 1, 3968), (oURGENT_QUOTA, 0, 128), (oXPORT_TIMEOUT_US, 200, 100000),
  (oXPORT_RETRIES, 1, 8), (oCTX_CREDITS, 4, 64), (oCOLL_TIMEOUT_US, 1000, 1000000), (oPACE_GRANT_US, 1000, 20000),
  (oPACE_CAP_US, 0, 500000), (oIQ_URGENT_COUNT, 0, 4), (oCREDIT_BURST, 1, 65536), (oPLCA_NODE_COUNT, 2, 32),
  (oPLCA_TO_TIMER, 16, 255), (oSESSION_IDLE_S, 10, 3600), (oNOTIFY_RETRIES, 0, 15), (oLOCKOUT_S, 10, 3600),
  (oREGR_CE_LIMIT, 10, 100000), (oFW_BLOCK_SEL, 0, 511)]

/-- The implemented bits of an object with reserved bits (R9); all bits of its size where it has none. -/
def objMask (r : ObjRow) (index : Nat) : Nat :=
  if 0x3100 ≤ index ∧ index ≤ 0x317F then 2 ^ 60 - 1
  else if index = oCHIP_ID then 0x3FF
  else if 0x6010 ≤ index ∧ index ≤ 0x6017 then 0xCF0F
  else if index = oCOLL_GROUP_CFG then 0xFFFFFF7F
  else if index = oSPILL_PEER then 0x0FFF03FF
  else if index = oPART_FUNC then 0x81FF
  else if index = oIQ_RANGE ∨ index = oCQ_RANGE then 0x1FFF0FFF
  else if index = oKEY_ROLE then 3
  else 2 ^ (8 * r.size) - 1

/-- Two ranges of numbers that share one. -/
def spansMeet (a n b m : Nat) : Bool := decide (0 < n ∧ 0 < m ∧ a < b + m ∧ b < a + n)

/-- A partition's range of numbers given by a base and a count object, if one of the two is replaced. -/
def spanWith (s : State) (base count index p v : Nat) : Nat × Nat :=
  (if index = base then v else rd s base (p + 1), if index = count then v else rd s count (p + 1))

/-- A partition's range overlaps no other partition's. -/
def spanFree (s : State) (base count index p v unit : Nat) : Bool :=
  let w := spanWith s base count index p v
  (List.range 128).all (fun r => r == p ||
    !(spansMeet w.1 (w.2 * unit) (rd s base (r + 1)) (rd s count (r + 1) * unit)))

/-- Pool extents of a die that no partition owns, PART_POOL_EXT of partition `p` taken as `w`; those of banks removed from the Pool do
not count (R102). -/
def poolUnowned (s : State) (d p w : Nat) : Nat :=
  ((List.range 96).filter (fun x => poolExtUsable s (96 * d + x) && !((List.range 128).any (fun r =>
    (if r = p then w else rd s oPART_POOL_EXT (r + 1)).testBit (96 * d + x))))).length

/-- The sum over the partitions of an object, partition `p`'s taken as `v`. -/
def sumParts (s : State) (o p v : Nat) : Nat :=
  (List.range 128).foldl (fun a r => a + (if r = p then v else rd s o (r + 1))) 0

/-- Some core of a set lies on a die. -/
def coresOn (cores d : Nat) : Bool := cores / 2 ^ (64 * d) % 2 ^ 64 != 0

/-- Pool scratch of a die in KiB: that of the partitions that own cores on it (R174), partition `p` with these cores and this
scratch. -/
def scratchKib (s : State) (d p cores kib : Nat) : Nat :=
  (List.range 128).foldl (fun a r =>
    a + (if coresOn (if r = p then cores else rd s oPART_CORES (r + 1)) d then
      (if r = p then kib else rd s oPOOL_SCRATCH_KIB (r + 1)) else 0)) 0

/-- At most 65,536 KiB of Pool scratch on each die (R174). -/
def scratchBound (s : State) (p cores kib : Nat) : Bool := [0, 1].all (fun d => decide (scratchKib s d p cores kib ≤ 65536))

/-- The unowned Pool of each die holds its scratch too (R421): 96 extents of 1 MiB a die. -/
def scratchFits (s : State) (p ext kib : Nat) : Bool :=
  let cores := rd s oPART_CORES (p + 1)
  scratchBound s p cores kib &&
    [0, 1].all (fun d => decide (scratchKib s d p cores kib ≤ poolUnowned s d p ext * 1024))

/-- The objects that say what a partition owns (Table HOST-8). -/
def ownsObj (index : Nat) : Bool :=
  index == oPART_FUNC || index == oPART_CORES || index == oPART_DRAM_EXT || index == oPART_POOL_EXT || index == oIQ_RANGE ||
    index == oCQ_RANGE

/-- A partition that exists, or that VALID = 1 of its PART_FUNC makes exist from the next start on (R107). -/
def holdsOwn (s : State) (p : Nat) : Bool := partExists s p || (rd s oPART_FUNC (p + 1)).testBit 15

/-- A write to such an object of an existing or persisted partition names nothing that another such partition owns (R105, R419,
log 35). -/
def ownFree (s : State) (index p v : Nat) : Bool :=
  let t := wr s index (p + 1) v
  !(ownsObj index) || !(holdsOwn t p) || (List.range 128).all (fun r => r == p || !(holdsOwn t r) || !(configsMeet t p r))

/-- A Spawn page pool: aligned, in SPACE 0 or 1, all of it within the partition (R313). -/
def spoolOk (s : State) (p base pages : Nat) : Bool :=
  base % 65536 == 0 && decide (space base ≤ 1) && within s p base (65536 * pages)

/-- A member list (R380): 2 to 1024 chips, no repeat, this chip among them. -/
def membersOk (s : State) (b : List Byte) : Bool :=
  let ms := membersIn b
  decide (2 ≤ ms.length ∧ ms.length ≤ 1024) && ms.all (fun m => decide (m < 1024)) && !(hasRepeat ms) &&
    ms.contains (rd s oCHIP_ID 0 % 1024)

/-- Another key slot is a maintainer's. -/
def otherMaintainer (s : State) (slot : Nat) : Bool :=
  (List.range 8).any (fun i => i + 1 != slot && rd s oKEY_ROLE (i + 1) == 3)

/-- A value of the right type lies among an object's accepted values, whatever other partitions own. -/
def inRange (s : State) (r : ObjRow) (index sub v : Nat) (b : List Byte) : Bool :=
  let p := sub - 1
  match plainRanges.find? (fun x => x.1 == index) with
  | some x => decide (x.2.1 ≤ v ∧ v ≤ x.2.2)
  | none =>
    if index = oPOWER_ENV then decide ((envRange (variantOf s)).1 ≤ v ∧ v ≤ (envRange (variantOf s)).2)
    else if index = oSTACK_WARM_C then decide (70 ≤ v ∧ v ≤ 85 ∧ v + 5 ≤ rd s oSTACK_HOT_C 0)
    else if index = oSTACK_HOT_C then decide (80 ≤ v ∧ v ≤ 95 ∧ rd s oSTACK_WARM_C 0 + 5 ≤ v)
    else if index = oPOOL_SCRATCH_KIB then scratchFits s p (rd s oPART_POOL_EXT sub) v
    else if index = oPART_POOL_EXT then scratchFits s p v (rd s oPOOL_SCRATCH_KIB sub)
    else if index = oPART_CORES then scratchBound s p v (rd s oPOOL_SCRATCH_KIB sub)
    else if index = oDRAM_SCRATCH_MIB then decide (v ≤ partDramMib s p)
    else if index = oPART_DRAM_EXT then decide (rd s oDRAM_SCRATCH_MIB sub ≤ partDramMib (wr s index sub v) p)
    else if index = oSPILL_HOST_BASE ∨ index = oSPILL_HOST_BYTES ∨ index = oSPILL_PEER_BYTES then v % 4096 == 0
    else if index = oTOKEN_BASE ∨ index = oTOKEN_COUNT then
      let w := spanWith s oTOKEN_BASE oTOKEN_COUNT index p v
      decide (1 ≤ w.1 ∧ w.1 + w.2 ≤ 65536 ∧ rd s oTOKEN_COUNTING sub ≤ w.2) && spanFree s oTOKEN_BASE oTOKEN_COUNT index p v 1
    else if index = oTOKEN_COUNTING then decide (v ≤ rd s oTOKEN_COUNT sub)
    else if index = oFLOW_BASE ∨ index = oFLOW_COUNT then
      let w := spanWith s oFLOW_BASE oFLOW_COUNT index p v
      decide (w.1 + w.2 ≤ 1024) && spanFree s oFLOW_BASE oFLOW_COUNT index p v 1
    else if index = oSPAWN_BASE ∨ index = oSPAWN_COUNT then
      let w := spanWith s oSPAWN_BASE oSPAWN_COUNT index p v
      decide (w.1 + w.2 ≤ 16384) && spanFree s oSPAWN_BASE oSPAWN_COUNT index p v 1
    else if index = oSPOOL_BASE ∨ index = oSPOOL_PAGES then
      let w := spanWith s oSPOOL_BASE oSPOOL_PAGES index p v
      decide (sumParts s oSPOOL_PAGES p w.2 ≤ 1048576) && spoolOk s p w.1 w.2 && spanFree s oSPOOL_BASE oSPOOL_PAGES index p v 65536
    else if index = oIQ_RANGE ∨ index = oCQ_RANGE then decide (rangeBase v + rangeCount v ≤ 4096)
    else if index = oPART_FUNC then decide (v % 256 ≤ 127) && (twoX s || !(v.testBit 8))
    else if index = oPORT_GROUP ∨ index = oDATELINE then twoX s || decide (v < 256)
    else if index = oCOLL_GROUP_MEMBERS then membersOk s b
    else if index = oKEY_ROLE then v % 4 == 3 || rd s oKEY_ROLE sub != 3 || otherMaintainer s sub
    else if r.typ = 8 then utf8Ok b
    else true

/-- Whether a value of the right type lies among an object's accepted values (Table STESTO-3, OUT_OF_RANGE), by the persisted
values of the other objects (R105). -/
def valueOk (s : State) (r : ObjRow) (index sub v : Nat) (b : List Byte) : Bool :=
  inRange (persistedView s) r index sub v b && ownFree (persistedView s) index (sub - 1) v

/-! ### Refusals for the present state (R423; spec/11 and spec/14, objects) -/

/-- A partition has admitted operations; it has live branches. -/
def hasOps (s : State) (p : Nat) : Bool := s.weir.ops.any (fun o => o.part == p)
def hasBranches (s : State) (p : Nat) : Bool := decide (0 < spawnLive s p)

/-- The present state lets a value be written. -/
def stateOk (s : State) (index sub : Nat) : Bool :=
  let p := sub - 1
  if index = oPART_FUNC ∨ index = oPART_CORES ∨ index = oPART_DRAM_EXT ∨ index = oPART_POOL_EXT ∨ index = oIQ_RANGE ∨
      index = oCQ_RANGE ∨ index = oIQ_URGENT_COUNT then
    !(partExists s p && (hasOps s p || hasBranches s p))
  else if oTOKEN_BASE ≤ index ∧ index ≤ oURGENT_QUOTA then !(hasOps s p)
  else if index = oSPAWN_BASE ∨ index = oSPAWN_COUNT ∨ index = oSPOOL_BASE ∨ index = oSPOOL_PAGES then !(hasBranches s p)
  else true

/-! ### What a write does -/

/-- What the device does once the reply to a write has been sent. -/
inductive After where
  | nothing
  | warmReset
  | switchFw
  | closeWriter
deriving DecidableEq, Repr

/-- A write carried out: the state, the reply, what follows the reply. -/
structure Wrote where
  st : State
  out : WriteOutcome
  after : After := .nothing

/-- A write refused. -/
def refuse (s : State) (code : Nat) : Wrote := { st := s, out := .refused code }

/-- A write that limited mode keeps for the next start (R105). -/
def staysStaged (s : State) (index : Nat) : Bool := limited s && decide (0x3000 ≤ index ∧ index < 0x7000)

/-- A value accepted in limited mode: part of the persisted dictionary, acting on nothing yet (R105, R448). -/
def stageValue (s : State) (r : ObjRow) (index sub v : Nat) (b : List Byte) : State :=
  if r.varLen then
    if blobOf (persistedView s) index sub = b then s
    else { s with stagedBlobs := tabPut s.stagedBlobs (objKey index sub) b, nv := { s.nv with dirty := true } }
  else if rd (persistedView s) index sub = v then s
  else { s with staged := tabPut s.staged (objKey index sub) v, nv := { s.nv with dirty := true } }

/-- A value stored, in place of one that still waits for a start; a persisted object that changes waits for a commit (R448). -/
def storeValue (s : State) (r : ObjRow) (index sub v : Nat) (b : List Byte) : State :=
  let key := objKey index sub
  let t := { s with staged := tabDel s.staged key, stagedBlobs := tabDel s.stagedBlobs key }
  if r.varLen then
    if blobOf s index sub = b ∧ blobOf (persistedView s) index sub = b then t
    else if r.persist then wrBytesP t index sub b else wrBytes t index sub b
  else if rd s index sub = v ∧ rd (persistedView s) index sub = v then t
  else if r.persist then wrP t index sub v
  else wr t index sub v

/-- Sessions opened with a key slot, other than the writer's, closed (spec/18, "When things coincide"). -/
def closeSlot (s : State) (slot sid : Nat) : State := closeSessions s (fun x => x.slot == slot && x.sid != sid)

/-- A partition's pages outside its pool have no count. -/
def trimPool (s : State) (p lo n : Nat) : State :=
  { s with spawn := { s.spawn with refs := s.spawn.refs.filter (fun g =>
      !(decide (lo ≤ g.1 ∧ g.1 < lo + n)) || inPool s p g.1) } }

/-- COLL_GROUP_CFG written: the group is whole again, and what its former life has received counts no more (R380, R387). -/
def renewGroup (s : State) (g : Nat) : State :=
  wr { s with fabric := { s.fabric with ready := s.fabric.ready.filter (fun x => x.1 != g) } } oCOLL_GROUP_STATE (g + 1) 0

/-- A queue of the package within a range. -/
def inQueues (v q : Nat) : Bool := decide (rangeBase v ≤ q ∧ q < rangeBase v + rangeCount v)

/-- An entry reserved in a completion queue returned. -/
def unreserve (s : State) (k : Nat) : State := setCq s k { cqOf s k with reserved := (cqOf s k).reserved - 1 }

/-- The intake queues that leave a partition with a change of its IQ_RANGE: registers, log and fetched descriptors are gone, the
entries reserved for those are free (R422). -/
def leaveIqs (s : State) (old new : Nat) : State :=
  let gone := s.iqs.filter (fun x => inQueues old x.1 && !(inQueues new x.1))
  let s := (gone.flatMap (fun x => x.2.fetched.map (fun d => d.1))).foldl unreserve s
  { s with iqs := s.iqs.filter (fun x => !(inQueues old x.1) || inQueues new x.1) }

/-- The completion queues that leave it with a change of its CQ_RANGE; a fetched descriptor whose entry lies in one of them is gone
too (R422). -/
def leaveCqs (s : State) (old new : Nat) : State :=
  let left := fun k => inQueues old k && !(inQueues new k)
  { s with
    cqs := s.cqs.filter (fun x => !(left x.1))
    iqs := s.iqs.map (fun x =>
      let keep := x.2.fetched.filter (fun d => !(left d.1))
      (x.1, { x.2 with fetched := keep, opened := x.2.opened - (x.2.fetched.length - keep.length) })) }

/-- A value that has passed every check takes effect, or waits for the next start. -/
def takeValue (s : State) (x : Session) (r : ObjRow) (index sub v : Nat) (b : List Byte) : Wrote :=
  let t := storeValue s r index sub v b
  if staysStaged s index then { st := stageValue s r index sub v b, out := .done 0 }
  else if index = oPLEVEL_REQ then { st := demandChanged t, out := .done 0 }
  else if index = oCOLL_GROUP_CFG then { st := renewGroup t (sub - 1), out := .done 0 }
  else if index = oSPOOL_BASE ∨ index = oSPOOL_PAGES then
    { st := trimPool t (sub - 1) (poolLo s (sub - 1)) (poolPages s (sub - 1)), out := .done 0 }
  else if index = oKEY_MATERIAL then
    { st := closeSlot t sub x.sid, out := .done 0, after := if x.slot = sub then .closeWriter else .nothing }
  else if index = oFW_BLOCK then { st := putBlock s b, out := .done 0 }
  else if index = oIQ_RANGE then { st := if partExists s (sub - 1) then leaveIqs t (rd s oIQ_RANGE sub) v else t, out := .done 0 }
  else if index = oCQ_RANGE then { st := if partExists s (sub - 1) then leaveCqs t (rd s oCQ_RANGE sub) v else t, out := .done 0 }
  else if index = oPLCA_NODE_COUNT then { st := sendBeacons t, out := .done 0 }
  else { st := t, out := .done 0 }

/-- A write to an object that holds a value: type, accepted values, present state. -/
def writeValue (s : State) (x : Session) (r : ObjRow) (index sub : Nat) (b : List Byte) : Wrote :=
  let v := if r.varLen then 0 else leNat b &&& objMask r index
  if !(typeOk r index b.length) then refuse s errTYPE_MISMATCH
  else if !(valueOk s r index sub v b) then refuse s errOUT_OF_RANGE
  else if !(stateOk s index sub) then refuse s errNOT_READY
  else takeValue s x r index sub v b

/-! ### Command objects -/

/-- WARM_RESET (R111). -/
def cmdWarmReset (s : State) (v : Nat) : Wrote :=
  if v = 0xA5A5 then { st := s, out := .done 0, after := .warmReset } else refuse s errOUT_OF_RANGE

/-- PART_RESET (R112, R113): the reply follows the reset. -/
def cmdPartReset (s : State) (p v : Nat) (req : Req) (dst : Src) : Wrote :=
  if v ≠ 1 ∨ !(partExists s p) then refuse s errOUT_OF_RANGE
  else { st := delay (beginReset s p) (.partReset p) req dst, out := .later }

/-- CORE_RESET (R114). -/
def cmdCoreReset (s : State) (c v : Nat) : Wrote :=
  if v ≠ 1 then refuse s errOUT_OF_RANGE else { st := if s.power.compute then coreReset s c else s, out := .done 0 }

/-- LINK_RESET (R115). -/
def cmdLinkReset (s : State) (n v : Nat) : Wrote :=
  if v ≠ 1 then refuse s errOUT_OF_RANGE else { st := if trainsPort s n then linkReset s n else s, out := .done 0 }

/-- CANCEL_OP and CANCEL_FLOW (R251). Table WEIR-6 names a figure for RESULT, the number matched, for CANCEL_OP only; that of
CANCEL_FLOW is 0, so that it tells nothing of the slots a flow holds (R263; DESIGN CHOICE, log 70). -/
def cmdCancelOp (s : State) (v : Nat) : Wrote :=
  let r := cancelAll s (fun o => o.desc.flow == field v 41 32 && o.desc.opid == field v 31 0)
  { st := r.1, out := .done r.2 }
def cmdCancelFlow (s : State) (v : Nat) : Wrote :=
  { st := (cancelAll s (fun o => o.desc.flow == field v 9 0)).1, out := .done 0 }

/-- A context that CTX_OPEN may take for a partition: not in use, or failed or closed by the peer with that partition. -/
def ctxUsable (s : State) (c p : Nat) : Bool :=
  (ctxOf s c).st == .closed || (((ctxOf s c).st == .failed || (ctxOf s c).st == .closedByPeer) && (ctxOf s c).part == p)

/-- CTX_OPEN (R365). -/
def cmdCtxOpen (s : State) (v : Nat) : Wrote :=
  if partExists s (openPart v) && ctxUsable s (openCtx v) (openPart v) then
    { st := ctxOpen s (openCtx v) (openChip v) (openPeer v) (openPart v), out := .done 0 }
  else refuse s errOUT_OF_RANGE

/-- CTX_CLOSE (R393). -/
def cmdCtxClose (s : State) (v : Nat) : Wrote :=
  let c := field v 11 0
  if s.weir.ops.any (opNames s c) then refuse s errNOT_READY
  else { st := if (ctxOf s c).st = .closed then s else ctxShut s c, out := .done 0 }

/-- PART_CTRL (R417). -/
def cmdPartCtrl (s : State) (p v : Nat) (req : Req) (dst : Src) : Wrote :=
  if v = 1 then
    if !(partExists s p) && (rd s oPART_FUNC (p + 1)).testBit 15 && configValid s p (rd s oPART_CORES (p + 1)) &&
        (partCores s p).all (fun c => !(coreRetired s c)) then { st := createPart s p, out := .done 0 }
    else refuse s errOUT_OF_RANGE
  else if v = 2 then
    if partExists s p then
      let t := beginReset s p
      { st := delay (setPart t p { partOf t p with destroying := true }) (.destroy p) req dst, out := .later }
    else { st := wrP s oPART_FUNC (p + 1) (setBit (rd s oPART_FUNC (p + 1)) 15 false), out := .done 0 }
  else refuse s errOUT_OF_RANGE

/-- CORE_RETIRE (R454): the reply follows the pause. Limited mode takes it too (R104): without compute power the core runs nothing
and its mapping begins at once (log 62). -/
def cmdCoreRetire (s : State) (c v : Nat) (req : Req) (dst : Src) : Wrote :=
  if v ≠ 1 ∨ coreRetired s c then refuse s errOUT_OF_RANGE
  else if (coreOf s c).mapping || (coreOf s c).retiring then refuse s errNOT_READY
  else { st := delay (planRetire s c) (.coreRetire c) req dst, out := .later }

/-- A stack in which a channel can be retired: fitted, and not set aside by its training. -/
def retiresChannels (s : State) (k : Nat) : Bool := stackFitted s k && (decide (rd s oBOOT_STAGE 0 < 10) || stackUsable s k)

/-- PC_RETIRE (R460): the channel that now serves place `v` of the rotation, a spare if one has taken it over (R158, log 69), unless it
has been retired already; the reply follows the re-lay. -/
def cmdPcRetire (s : State) (k v : Nat) (req : Req) (dst : Src) : Wrote :=
  if 32 ≤ v ∨ s.nv.repair.contains (.channelRetired k (channelIn s.nv.repair k v)) ∨ !(retiresChannels s k) then
    refuse s errOUT_OF_RANGE
  else if topOwned s k || relaying s k then refuse s errNOT_READY
  else { st := delay (startJob s (.relay k (channelIn s.nv.repair k v))) (.pcRetire k) req dst, out := .later }

/-- ERR_LOG_CLEAR (R453, Table REGR-6). -/
def cmdErrLogClear (s : State) (v : Nat) : Wrote :=
  if v ≠ 1 then refuse s errOUT_OF_RANGE
  else
    let t := { s with blobs := s.blobs.filter (fun e => e.1 / 256 != oERR_LOG), regr := { s.regr with openEntries := [] } }
    { st := wrP t oERR_LOG_NEXT 0 1, out := .done 0 }

/-- FW_COMMIT (R462). -/
def cmdFwCommit (s : State) (v : Nat) : Wrote :=
  if v ≠ 1 then refuse s errOUT_OF_RANGE
  else if bankPasses s then { st := markBank s true, out := .done 0 }
  else refuse (markBank s false) errOUT_OF_RANGE

/-- FW_ACTIVATE (R463, R464). -/
def cmdFwActivate (s : State) (v : Nat) : Wrote :=
  if v ≠ 1 then refuse s errOUT_OF_RANGE
  else if repairRuns s || !(otherValid s) then refuse s errNOT_READY
  else { st := s, out := .done 0, after := .switchFw }

/-- SVC_DEPART (R465). -/
def cmdSvcDepart (s : State) (v : Nat) : Wrote :=
  if v ≠ 0xD5D5 then refuse s errOUT_OF_RANGE
  else if !s.weir.ops.isEmpty || s.fabric.ctxs.any (fun c => c.2.st == .opened || c.2.st == .pendingOpen) then
    refuse s errNOT_READY
  else
    let t := wr (departAll s) oSVC_STATE 0 1
    { st := { t with fabric := { t.fabric with joined := false } }, out := .done 0 }

/-- SESSION_KILL (Table STESTO-9). -/
def cmdSessionKill (s : State) (x : Session) (v : Nat) : Wrote :=
  if v = 0xFFFF then { st := closeSessions s (fun y => y.sid != x.sid), out := .done 0 }
  else if v = x.sid then { st := s, out := .done 0, after := .closeWriter }
  else if (sessionOf s v).isSome then { st := closeSessions s (fun y => y.sid == v), out := .done 0 }
  else refuse s errOUT_OF_RANGE

/-- A write to a command object. -/
def runCommand (s : State) (x : Session) (r : ObjRow) (index sub : Nat) (b : List Byte) (req : Req) (dst : Src) : Wrote :=
  let v := leNat b
  let i := sub - 1
  if !(typeOk r index b.length) then refuse s errTYPE_MISMATCH
  else if index = oWARM_RESET then cmdWarmReset s v
  else if index = oPART_RESET then cmdPartReset s i v req dst
  else if index = oCORE_RESET then cmdCoreReset s i v
  else if index = oLINK_RESET then cmdLinkReset s i v
  else if index = oCANCEL_OP then cmdCancelOp s v
  else if index = oCANCEL_FLOW then cmdCancelFlow s v
  else if index = oCTX_OPEN then cmdCtxOpen s v
  else if index = oCTX_CLOSE then cmdCtxClose s v
  else if index = oPART_CTRL then cmdPartCtrl s i v req dst
  else if index = oCORE_RETIRE then cmdCoreRetire s i v req dst
  else if index = oPC_RETIRE then cmdPcRetire s i v req dst
  else if index = oERR_LOG_CLEAR then cmdErrLogClear s v
  else if index = oFW_COMMIT then cmdFwCommit s v
  else if index = oFW_ACTIVATE then cmdFwActivate s v
  else if index = oSVC_DEPART then cmdSvcDepart s v
  else cmdSessionKill s x v

/-- A whole value written by a session: object, access, role, scope, mode, then the object's own rules. -/
def writeObject (s : State) (x : Session) (index sub : Nat) (b : List Byte) (req : Req) (dst : Src) : Wrote :=
  match presentObj s index sub with
  | none => refuse s errNO_OBJECT
  | some r =>
    if x.role < writeRole r then refuse s errACCESS_DENIED
    else if !(writeScope s x r index sub (leNat b)) then refuse s errACCESS_DENIED
    else if !(writeMode s r index) then refuse s errNOT_READY
    else if r.access = .cmd then runCommand s x r index sub b req dst
    else writeValue s x r index sub b

/-! ### Requests (R434) -/

/-- What follows a reply. -/
def follow (s : State) (sid : Nat) : After → State
  | .nothing => s
  | .warmReset =>
    if s.power.shutdown then { s with power := { s.power with held := some 2 } } else bootStart (warmBody s 2) 2
  | .switchFw => restartMgmt (wr (closeSessions s (fun _ => true)) oFW_STATE 0 3)
  | .closeWriter => closeSessions s (fun x => x.sid == sid)

/-- A write executed and answered. -/
def performWrite (s : State) (x : Session) (index sub : Nat) (b : List Byte) (req : Req) (dst : Src) : State :=
  let w := writeObject s x index sub b req dst
  follow (answerWrite w.st dst req index sub w.out) req.sid w.after

/-- A request of a session by its FSEQ: a new one is accepted and executed, one of the last 8 draws its kept reply, any other
is discarded and counted. -/
def request (s : State) (x : Session) (dst : Src) (fseq : Nat) (run : State → Session → State) : State :=
  if x.rxHigh < fseq then
    let y := { x with rxHigh := fseq, kept := ((fseq, []) :: x.kept).take 8 }
    run (setSession s y) y
  else
    match x.kept.find? (fun k => k.1 == fseq) with
    | some k => if k.2.isEmpty then s else reply s dst k.2
    | none => count32 s oREPLAY_DROPS 0 1

/-- Frames dropped without a reply (R430). -/
def dropFrame (s : State) : State := count32 s oFRAME_DROPS 0 1

/-- The source that a lockout counts: an address, or the mailbox of a PF (R437, R444). -/
def lockSource : Src → Src
  | .net a _ => .net a 0
  | .mailbox e _ => .mailbox e 0

/-- Whether a frame from a source reaches the management controller at all: the port is up, or the mailbox is usable; the
source is not locked out (R437). -/
def heard (s : State) (src : Src) : Bool :=
  (match src with
    | .net _ _ => stestoUp s
    | .mailbox e _ => boxUsable s e && !s.mgmt.silent) && !(s.mgmt.locked.contains (lockSource src))

/-- A write that has a row of its own: an authenticated WRITE frame of a session, with the whole value. -/
def writeRow (s : State) (req : Req) (index sub : Nat) (b : List Byte) : State :=
  match sessionOf s req.sid with
  | none => dropFrame s
  | some x =>
    if heard s x.src then
      request s x x.src req.fseq (fun t y =>
        performWrite (setSession t { y with staged := none }) { y with staged := none } index sub b req x.src)
    else s

end Sys2Proof.Machine
end

