-- ==== Sys2Proof/Machine/Stesto.lean ====
section
/-! DEFINITION. Stesto frames received: discovery, sessions, reads and writes, notifications, the mailbox, the network
address, commits (spec/18 R427 to R448). -/

namespace Sys2Proof.Machine

open Sys2Proof

/-! ### Frames and sources (R430, R437) -/

/-- Payload lengths of the services a client may use (Table STESTO-2). -/
def clientPayload (ftype n : Nat) : Bool :=
  match ftype with
  | 0x01 => n == 0
  | 0x03 => n == 20
  | 0x05 => n == 32
  | 0x07 => n == 0
  | 0x08 => n == 0
  | 0x10 => n == 8
  | 0x12 => decide (8 ≤ n)
  | 0x21 => n == 0
  | _ => false

/-- A frame without a session: sent with SID 0 and FSEQ 0. -/
def plainReply (s : State) (src : Src) (ftype sid txid : Nat) (payload : List Byte) : State :=
  reply s src (frameBytes ftype sid 0 txid payload)

/-- An ERROR about no object. -/
def plainError (s : State) (src : Src) (sid txid code : Nat) : State :=
  plainReply s src 0x30 sid txid (errorPayload 0 0 code 0)

/-- AUTH_FAILED answers to a source within the last 60 s. -/
def recentFails (s : State) (src : Src) : Nat :=
  (s.mgmt.fails.filter (fun f => f.1 == lockSource src && decide (s.nowUs ≤ f.2 + 60000000))).length

/-- An AUTH_FAILED answer: counted; the eighth within 60 s locks the source out (R437). -/
def authFailed (s : State) (src : Src) (sid txid : Nat) : State :=
  let s := count32P (plainError s src sid txid errAUTH_FAILED) oAUTH_FAILS 0 1
  let s := { s with mgmt := { s.mgmt with fails := (lockSource src, s.nowUs) :: s.mgmt.fails } }
  if recentFails s src < 8 then s
  else { s with mgmt := { s.mgmt with fails := s.mgmt.fails.filter (fun f => f.1 != lockSource src)
                                      locked := lockSource src :: s.mgmt.locked } }

/-! ### Discovery and opening (R431, R435, R436) -/

/-- DISCOVER_REPLY. -/
def discoverPayload (s : State) : List Byte :=
  leBytes 8 (rd s oDEVICE_SERIAL 0) ++ leBytes 1 (variantOf s) ++ leBytes 1 (rd s oBOOT_STAGE 0) ++
    leBytes 1 (rd s oPLCA_NODE_ID 0) ++ leBytes 1 (if limited s then 1 else 0) ++ leBytes 4 0

/-- A challenge that is still valid (R436). -/
def challengeLives (s : State) (x : Session) : Bool := decide (s.nowUs ≤ x.openedUs + 1000000)

/-- Sessions in use on a path: the field network or the mailbox. -/
def sessionsOn (s : State) (box : Bool) : Nat :=
  (s.mgmt.sessions.filter (fun x => (x.accepted || challengeLives s x) && (match x.src with
    | .mailbox _ _ => box
    | .net _ _ => !box))).length

/-- A session is free on a source's path: 8 over the network, 4 through the mailbox (R435). -/
def sessionFree (s : State) : Src → Bool
  | .net _ _ => decide (sessionsOn s false < 8)
  | .mailbox _ _ => decide (sessionsOn s true < 4)

/-- The first SID from `n` on that names no session. -/
def freshSid (s : State) : Nat → Nat → Nat
  | 0, n => n
  | fuel + 1, n =>
    if s.mgmt.sessions.any (fun x => x.sid == n) || s.mgmt.closing.any (fun x => x.1 == n) then freshSid s fuel (n % 65534 + 1)
    else n

/-- A slot that is enabled for a role (Table STESTO-3, AUTH_FAILED). -/
def slotAllows (s : State) (slot role : Nat) : Bool :=
  decide (1 ≤ slot ∧ slot ≤ 8 ∧ 1 ≤ role ∧ role ≤ 3 ∧ role ≤ rd s oKEY_ROLE slot)

/-- SESSION_OPEN: refused, or challenged under a new SID. -/
def openSession (s : State) (src : Src) (f : Frame) : State :=
  let slot := numAt f.payload 0 1
  let role := numAt f.payload 1 1
  if !(slotAllows s slot role) then authFailed s src 0 f.txid
  else if !(sessionFree s src) then plainError s src 0 f.txid errBUSY
  else
    let sid := freshSid s (s.mgmt.sessions.length + s.mgmt.closing.length + 1) s.mgmt.nextSid
    let nd := slice (Config.nonce s.mgmt.nonces) 0 16
    let x : Session := { sid := sid, src := src, openedUs := s.nowUs, slot := slot, role := role, mask := numAt f.payload 2 2,
                         nc := slice f.payload 4 16, nd := nd }
    let s := { s with mgmt := { s.mgmt with sessions := s.mgmt.sessions ++ [x], nextSid := sid % 65534 + 1,
                                            nonces := s.mgmt.nonces + 1 } }
    plainReply s src 0x04 0 f.txid (leBytes 2 sid ++ nd)

/-- The ASCII texts of R436. -/
def proveText : List Byte := [0x73, 0x74, 0x65, 0x73, 0x74, 0x6f, 0x2d, 0x70, 0x72, 0x6f, 0x76, 0x65]
def sessionText : List Byte := [0x73, 0x74, 0x65, 0x73, 0x74, 0x6f, 0x2d, 0x73, 0x65, 0x73, 0x73, 0x69, 0x6f, 0x6e]

/-- The key of a slot. -/
def slotKey (s : State) (slot : Nat) : List Byte := leBytes 32 (rd s oKEY_MATERIAL slot)

/-- The proof that a session's client must give, and the session key (R436). -/
def proofOf (s : State) (x : Session) : List Byte :=
  hmac (slotKey s x.slot) (proveText ++ x.nc ++ x.nd ++ leBytes 1 x.role ++ leBytes 2 x.sid)
def sessionKey (s : State) (x : Session) : List Byte :=
  hmac (slotKey s x.slot) (sessionText ++ x.nc ++ x.nd ++ leBytes 2 x.sid)

/-- A session accepted: its key, its scope, its use counted. The PROVE is its first request, and SESSION_ACCEPT the reply kept for
it (R434). -/
def acceptSession (s : State) (src : Src) (x : Session) (fseq txid : Nat) : State :=
  let y := { x with accepted := true, key := sessionKey s x, scope := rd s oKEY_SCOPE x.slot, nc := [], nd := []
                    rxHigh := fseq, kept := [(fseq, [])] }
  answerReq (setSession (count32 s oKEY_USES x.slot 1) y) src ⟨x.sid, fseq, txid⟩ 0x06 []

/-- SESSION_PROVE for a challenge. -/
def proveSession (s : State) (src : Src) (x : Session) (f : Frame) : State :=
  if !(challengeLives s x) then plainError (dropSessions s (fun y => y.sid == x.sid)) src x.sid f.txid errBUSY
  else if slotAllows s x.slot x.role ∧ f.payload = proofOf s x then acceptSession s src x f.fseq f.txid
  else authFailed (dropSessions s (fun y => y.sid == x.sid)) src x.sid f.txid

/-! ### Services in a session (R431 to R434, R439) -/

/-- A READ answered: READ_REPLY with what fits, or ERROR. -/
def doRead (p : List Byte) (txid : Nat) (fseq : Nat) (dst : Src) (s : State) (x : Session) : State :=
  let index := numAt p 0 2
  let sub := numAt p 2 1
  let off := numAt p 4 2
  let req : Req := ⟨x.sid, fseq, txid⟩
  let same := match x.staged with
    | some g => g.index == index && g.sub == sub
    | none => true
  let s := if same then s else setSession s { x with staged := none }
  match readObject s x index sub with
  | (none, code) => answerReq s dst req 0x30 (errorPayload index sub code 0)
  | (some r, _) =>
    let b := objBytes s r index sub
    if b.length < off then answerReq s dst req 0x30 (errorPayload index sub errTYPE_MISMATCH 0)
    else
      let most := if numAt p 6 2 = 0 then 472 else min 472 (numAt p 6 2)
      answerReq s dst req 0x11 (leBytes 2 index ++ leBytes 1 sub ++ leBytes 1 r.typ ++ leBytes 2 off ++ leBytes 2 b.length ++
        (b.drop off).take most)

/-- What refuses a part of a value before its end is known; 0 where nothing does. -/
def partRefusal (s : State) (x : Session) (index sub total : Nat) : Nat :=
  match presentObj s index sub with
  | none => errNO_OBJECT
  | some r =>
    if x.role < writeRole r then errACCESS_DENIED
    else if isScoped x && r.perPart && !(inScope x (objPart index sub)) then errACCESS_DENIED
    else if !(writeMode s r index) then errNOT_READY
    else if !(typeOk r index total) then errTYPE_MISMATCH
    else 0

/-- The parts that a new part follows: those staged, none where it starts a value, nothing where it breaks the order (R439). -/
def partBefore (x : Session) (index sub off total : Nat) : Option (List Byte) :=
  if off = 0 then some []
  else
    match x.staged with
    | some g => if g.index = index ∧ g.sub = sub ∧ g.total = total ∧ g.bytes.length = off then some g.bytes else none
    | none => none

/-- A WRITE: the whole value, or one part of it. -/
def doWrite (p : List Byte) (txid : Nat) (fseq : Nat) (dst : Src) (s : State) (x : Session) : State :=
  let index := numAt p 0 2
  let sub := numAt p 2 1
  let off := numAt p 4 2
  let total := numAt p 6 2
  let part := p.drop 8
  let req : Req := ⟨x.sid, fseq, txid⟩
  let kept := match x.staged with
    | some g => if g.index = index ∧ g.sub = sub then some g else none
    | none => none
  let x := { x with staged := kept }
  let s := setSession s x
  if off = 0 ∧ part.length = total then
    let x := { x with staged := none }
    performWrite (setSession s x) x index sub part req dst
  else
    match partRefusal s x index sub total, partBefore x index sub off total with
    | 0, some b =>
      if total < off + part.length then answerWrite s dst req index sub (.refused errTYPE_MISMATCH)
      else if off + part.length = total then
        let x := { x with staged := none }
        performWrite (setSession s x) x index sub (b ++ part) req dst
      else
        let x := { x with staged := some ⟨index, sub, total, b ++ part⟩ }
        answerWrite (setSession s x) dst req index sub (.done (off + part.length))
    | 0, none => answerWrite s dst req index sub (.refused errTYPE_MISMATCH)
    | code, _ => answerWrite s dst req index sub (.refused code)

/-- A CLOSE of the client: CLOSE_REPLY, and the session is gone. -/
def doClose (txid : Nat) (dst : Src) (s : State) (x : Session) : State :=
  dropSessions (sessionFrame s x dst 0x08 txid []).1 (fun y => y.sid == x.sid)

/-- A NOTIFY_ACK: the notification with its TXID is no longer waited for (R441). -/
def doAck (txid : Nat) (s : State) (x : Session) : State :=
  setSession s { x with notes := x.notes.filter (fun n => n.txid != txid) }

/-- A frame of an open session whose MAC has verified. -/
def inSession (s : State) (src : Src) (x : Session) (f : Frame) : State :=
  match f.ftype with
  | 0x07 => request s x src f.fseq (doClose f.txid src)
  | 0x10 => request s x src f.fseq (doRead f.payload f.txid f.fseq src)
  | 0x12 => request s x src f.fseq (doWrite f.payload f.txid f.fseq src)
  | 0x21 => doAck f.txid s x
  | _ => s

/-- A frame with a session and a trailer: of an open session, the CLOSE_REPLY of one that the device closed, or dropped. -/
def sealedFrame (s : State) (src : Src) (f : Frame) : State :=
  match sessionOf s f.sid with
  | some x => if f.mac = frameMac x.key f.covered then inSession s src x f else dropFrame s
  | none =>
    match s.mgmt.closing.find? (fun x => x.1 == f.sid) with
    | some x =>
      if f.ftype = 0x08 ∧ f.mac = frameMac x.2 f.covered then
        { s with mgmt := { s.mgmt with closing := s.mgmt.closing.filter (fun y => y.1 != f.sid) } }
      else dropFrame s
    | none => dropFrame s

/-- A PROVE of a session that is accepted: its kept reply again where the FSEQ is kept, counted where it is lower, and nothing where
it is higher, since such a session is proved (R434; log 27). -/
def provedAgain (s : State) (src : Src) (x : Session) (fseq : Nat) : State :=
  if x.rxHigh < fseq then s else request s x src fseq (fun t _ => t)

/-- A frame of a service and path. -/
def serve (s : State) (src : Src) (f : Frame) : State :=
  match f.ftype with
  | 0x01 => if f.sid = 0 then plainReply s src 0x02 0 f.txid (discoverPayload s) else dropFrame s
  | 0x03 => if f.sid = 0 then openSession s src f else dropFrame s
  | 0x05 =>
    match s.mgmt.sessions.find? (fun x => x.sid == f.sid) with
    | some x => if x.accepted then provedAgain s src x f.fseq else proveSession s src x f
    | none => dropFrame s
  | _ => if f.sid = 0 then dropFrame s else sealedFrame s src f

/-- A datagram received as the service `t`: unheard, malformed (R430), another service's, or served. -/
def receiveFrame (s : State) (src : Src) (t : Nat) (b : List Byte) : State :=
  let f := parseFrame b
  if !(heard s src) then s
  else if !(frameWellFormed b) || !(clientPayload f.ftype f.payload.length) then dropFrame s
  else if f.ftype ≠ t then s
  else serve s src f

/-! ### The commands -/

/-- DISCOVER. -/
def execDiscover (src : Src) (frame : List Byte) (s : State) : Result := .next (receiveFrame s src 0x01 frame)

/-- SESSION_OPEN (R436). -/
def execSessionOpen (src : Src) (frame : List Byte) (s : State) : Result := .next (receiveFrame s src 0x03 frame)

/-- SESSION_PROVE (R436). -/
def execSessionProve (src : Src) (frame : List Byte) (s : State) : Result := .next (receiveFrame s src 0x05 frame)

/-- CLOSE of a client. -/
def execStestoClose (src : Src) (frame : List Byte) (s : State) : Result := .next (receiveFrame s src 0x07 frame)

/-- CLOSE_REPLY of a client. -/
def execCloseReply (src : Src) (frame : List Byte) (s : State) : Result := .next (receiveFrame s src 0x08 frame)

/-- READ. -/
def execStestoRead (src : Src) (frame : List Byte) (s : State) : Result := .next (receiveFrame s src 0x10 frame)

/-- WRITE (R439). -/
def execStestoWrite (src : Src) (frame : List Byte) (s : State) : Result := .next (receiveFrame s src 0x12 frame)

/-- NOTIFY_ACK (R441). -/
def execNotifyAck (src : Src) (frame : List Byte) (s : State) : Result := .next (receiveFrame s src 0x21 frame)

/-- NOTIFY_RETRANSMIT (R441): a notification that has been sent goes again under the next FSEQ, at most NOTIFY_RETRIES times. -/
def execNotifyRetransmit (sid txid : Nat) (s : State) : Result :=
  .next (match sessionOf s sid with
    | some x =>
      match x.notes.find? (fun n => n.txid == txid && n.sent) with
      | some n =>
        if n.tries < rd s oNOTIFY_RETRIES 0 then
          let m : Note := { n with tries := n.tries + 1 }
          let r := offerNote s { x with notes := x.notes.map (fun k => if k.txid = txid then m else k) } m
          setSession r.2 r.1
        else s
      | none => s
    | none => s)

/-- SESSION_IDLE_EXPIRY (R435): not while the session waits for a command's reply. -/
def execSessionIdleExpiry (sid : Nat) (s : State) : Result :=
  .next (match sessionOf s sid with
    | some x => if x.waiting.isEmpty then closeSessions s (fun y => y.sid == sid) else s
    | none => s)

/-- LOCKOUT_EXPIRY (R437). -/
def execLockoutExpiry (src : Src) (s : State) : Result :=
  .next { s with mgmt := { s.mgmt with locked := s.mgmt.locked.filter (fun x => x != lockSource src) } }

/-- NEIGHBOUR_SOLICITATION (R427): answered for the link-local address. -/
def execNeighbourSolicitation (src : Src) (target : List Byte) (s : State) : Result :=
  .next (if stestoUp s ∧ target = linkLocal s then emit s (.advert src target) else s)

/-- ICMPV6_ECHO (R427). -/
def execIcmpv6Echo (src : Src) (data : List Byte) (s : State) : Result :=
  .next (if stestoUp s then emit s (.echo src data) else s)

/-- DUPLICATE_ADDRESS_DETECTION (R427): a conflict sets DAD_FAIL and silences the port; success clears it. -/
def execDuplicateAddressDetection (conflict : Bool) (s : State) : Result :=
  .next (if s.power.good && s.clock.phyOn && !s.pins.resetLow && !s.mgmt.silent then
      let s := wr (emit s .probe) oMGMT_LINK 0 (setBit (rd s oMGMT_LINK 0) 1 conflict)
      { s with mgmt := { s.mgmt with addressOk := !conflict } }
    else s)

/-! ### The mailbox (R444, R445) -/

/-- The frame in a mailbox slot, cut to the length its header gives. -/
def boxFrame (b : List Byte) : List Byte :=
  let f := parseFrame b
  b.take (16 + f.len + (if hasTrailer f then 16 else 0))

/-- A frame submitted in a slot that the host owns is executed; one given with the command is written to the slot first. -/
def submitAt (ep value : Nat) (frame : List Byte) (s : State) : State :=
  let slot := value % 4
  let x := boxOf s ep
  if !(boxUsable s ep) || x.owned.testBit slot then s
  else
    let b := if frame.isEmpty then boxFrame (tabGet [] x.frames slot) else frame
    let s := setBox s ep { x with
      owned := setBit x.owned slot true, done := setBit x.done slot false
      frames := if frame.isEmpty then x.frames else tabPut x.frames slot frame }
    receiveFrame s (.mailbox ep slot) (parseFrame b).ftype b

/-- MB_SUBMIT. -/
def execMbSubmit (ep value : Nat) (frame : List Byte) (s : State) : Result :=
  .next (fromHost s (256 * ep) (.mbSubmit ep value frame) (submitAt ep value frame))

/-- Bits of a number cleared where a mask has them set. -/
def clearMask (w m : Nat) : Nat := w - (w &&& m)

/-- Slots returned to the host. -/
def releaseAt (ep value : Nat) (s : State) : State :=
  let x := boxOf s ep
  if boxUsable s ep then setBox s ep { x with owned := clearMask x.owned (value % 16), done := clearMask x.done (value % 16) }
  else s

/-- MB_RELEASE. -/
def execMbRelease (ep value : Nat) (s : State) : Result :=
  .next (fromHost s (256 * ep) (.mbRelease ep value) (releaseAt ep value))

/-- The first thing waiting for a notification slot that can still be sent takes it (R442, R444). -/
def nextItem (e : Nat) : List BoxItem → State → State
  | [], s => setBox s e { boxOf s e with notifyPending := false, queue := [] }
  | .frame b :: r, s => placeNote (setBox s e { boxOf s e with queue := r }) e b
  | .note sid txid :: r, s =>
    match sessionOf s sid with
    | some x =>
      match x.notes.find? (fun n => n.txid == txid) with
      | some n =>
        let f := formNote x n
        placeNote (setSession (setBox s e { boxOf s e with queue := r }) f.1) e f.2
      | none => nextItem e r s
    | none => nextItem e r s

/-- The notification slot freed: the next notification takes it. -/
def notifyFreeAt (ep value : Nat) (s : State) : State :=
  if boxUsable s ep && value.testBit 0 then nextItem ep (boxOf s ep).queue s else s

/-- MB_NOTIFY_FREE. -/
def execMbNotifyFree (ep value : Nat) (s : State) : Result :=
  .next (fromHost s (256 * ep) (.mbNotifyFree ep value) (notifyFreeAt ep value))

/-! ### Commits (R448) -/

/-- PERSIST_COMMIT. -/
def execPersistCommit (s : State) : Result := .next (if s.power.good && s.nv.dirty then commit s else s)

end Sys2Proof.Machine
end

