-- ==== Sys2Proof/Machine/ObjectRows.lean ====
section
/-! DEFINITION. Object writes with a row of their own: each is an authenticated WRITE frame of a session with the whole value
(log 9), carried out by the one path of every write (Objects.lean). -/

namespace Sys2Proof.Machine

open Sys2Proof

/-- A number as the bytes of an object of `n` bytes; one that does not fit is no value of the object's type. -/
def numBytes (n v : Nat) : List Byte := if v < 256 ^ n then leBytes n v else leBytes (n + 1) v

/-- WARM_RESET (R111). -/
def execWarmReset (req : Req) (value : Nat) (s : State) : Result := .next (writeRow s req oWARM_RESET 0 (numBytes 2 value))

/-- PART_RESET of partition `p` (R112). -/
def execPartReset (req : Req) (p value : Nat) (s : State) : Result :=
  .next (writeRow s req oPART_RESET (p + 1) (numBytes 1 value))

/-- CORE_RESET of core `c` (R114). -/
def execCoreReset (req : Req) (c value : Nat) (s : State) : Result :=
  .next (writeRow s req oCORE_RESET (c + 1) (numBytes 1 value))

/-- LINK_RESET of a fabric port (R115). -/
def execLinkReset (req : Req) (port value : Nat) (s : State) : Result :=
  .next (writeRow s req oLINK_RESET (port + 1) (numBytes 1 value))

/-- PLEVEL_REQ of a quadrant (R58). -/
def execPlevelReqWrite (req : Req) (q value : Nat) (s : State) : Result :=
  .next (writeRow s req oPLEVEL_REQ (q + 1) (numBytes 1 value))

/-- POWER_ENV (R76). -/
def execPowerEnvWrite (req : Req) (value : Nat) (s : State) : Result :=
  .next (writeRow s req oPOWER_ENV 0 (numBytes 2 value))

/-- STACK_WARM_C or STACK_HOT_C (R87). -/
def execStackThresholdWrite (req : Req) (hot : Bool) (value : Nat) (s : State) : Result :=
  .next (writeRow s req (if hot then oSTACK_HOT_C else oSTACK_WARM_C) 0 (numBytes 1 value))

/-- ARRAY_STALL_LIMIT_US (R138). -/
def execArrayStallLimitWrite (req : Req) (value : Nat) (s : State) : Result :=
  .next (writeRow s req oARRAY_STALL_LIMIT_US 0 (numBytes 4 value))

/-- CANCEL_OP (R251). -/
def execCancelOp (req : Req) (value : Nat) (s : State) : Result := .next (writeRow s req oCANCEL_OP 0 (numBytes 8 value))

/-- CANCEL_FLOW (R251). -/
def execCancelFlow (req : Req) (value : Nat) (s : State) : Result := .next (writeRow s req oCANCEL_FLOW 0 (numBytes 2 value))

/-- PARK_LIMIT_US (R250). -/
def execParkLimitWrite (req : Req) (value : Nat) (s : State) : Result :=
  .next (writeRow s req oPARK_LIMIT_US 0 (numBytes 4 value))

/-- PREC_LOCK of a partition (R153). -/
def execPrecLockWrite (req : Req) (p value : Nat) (s : State) : Result :=
  .next (writeRow s req oPREC_LOCK (p + 1) (numBytes 1 value))

/-- EDDY_AGE_NS (R167). -/
def execEddyAgeWrite (req : Req) (value : Nat) (s : State) : Result :=
  .next (writeRow s req oEDDY_AGE_NS 0 (numBytes 4 value))

/-- FLAG_HOLD_LIMIT_US (R195). -/
def execFlagHoldLimitWrite (req : Req) (value : Nat) (s : State) : Result :=
  .next (writeRow s req oFLAG_HOLD_LIMIT_US 0 (numBytes 4 value))

/-- CTX_OPEN (R365). -/
def execCtxOpen (req : Req) (value : Nat) (s : State) : Result := .next (writeRow s req oCTX_OPEN 0 (numBytes 8 value))

/-- CTX_CLOSE (R393). -/
def execCtxClose (req : Req) (value : Nat) (s : State) : Result := .next (writeRow s req oCTX_CLOSE 0 (numBytes 2 value))

/-- COLL_GROUP_CFG of a group (R387, Table FAB-9). -/
def execCollGroupCfgWrite (req : Req) (group value : Nat) (s : State) : Result :=
  .next (writeRow s req oCOLL_GROUP_CFG (group + 1) (numBytes 4 value))

/-- CHIP_ID (R105, Table FAB-9). -/
def execChipIdWrite (req : Req) (value : Nat) (s : State) : Result := .next (writeRow s req oCHIP_ID 0 (numBytes 2 value))

/-- PART_CTRL 1 (R417). -/
def execPartCtrlCreate (req : Req) (p : Nat) (s : State) : Result := .next (writeRow s req oPART_CTRL (p + 1) [1])

/-- PART_CTRL 2 (R417). -/
def execPartCtrlDestroy (req : Req) (p : Nat) (s : State) : Result := .next (writeRow s req oPART_CTRL (p + 1) [2])

/-- SESSION_KILL (Table STESTO-9). -/
def execSessionKill (req : Req) (value : Nat) (s : State) : Result := .next (writeRow s req oSESSION_KILL 0 (numBytes 2 value))

/-- KEY_MATERIAL of a slot (Table STESTO-9). -/
def execKeyMaterialWrite (req : Req) (slot : Nat) (key : List Byte) (s : State) : Result :=
  .next (writeRow s req oKEY_MATERIAL slot key)

/-- CORE_RETIRE of a core (R454). -/
def execCoreRetire (req : Req) (c value : Nat) (s : State) : Result :=
  .next (writeRow s req oCORE_RETIRE (c + 1) (numBytes 1 value))

/-- PC_RETIRE of a stack (R460). -/
def execPcRetire (req : Req) (k value : Nat) (s : State) : Result :=
  .next (writeRow s req oPC_RETIRE (k + 1) (numBytes 1 value))

/-- ERR_LOG_CLEAR (R453). -/
def execErrLogClear (req : Req) (value : Nat) (s : State) : Result :=
  .next (writeRow s req oERR_LOG_CLEAR 0 (numBytes 1 value))

/-- FW_BLOCK (R462). -/
def execFwBlock (req : Req) (block : List Byte) (s : State) : Result := .next (writeRow s req oFW_BLOCK 0 block)

/-- FW_COMMIT (R462). -/
def execFwCommit (req : Req) (value : Nat) (s : State) : Result := .next (writeRow s req oFW_COMMIT 0 (numBytes 1 value))

/-- FW_ACTIVATE (R463, R464). -/
def execFwActivate (req : Req) (value : Nat) (s : State) : Result := .next (writeRow s req oFW_ACTIVATE 0 (numBytes 1 value))

/-- SVC_DEPART (R465). -/
def execSvcDepart (req : Req) (value : Nat) (s : State) : Result := .next (writeRow s req oSVC_DEPART 0 (numBytes 2 value))

end Sys2Proof.Machine
end

