-- ==== Sys2Proof/Machine/Relock.lean ====
section
/-! DEFINITION. The end of a gap of the root loop: what the host asked and what the device owed it while the PCIe core was gated
(spec/03 R66, R69; spec/02 R43). -/

namespace Sys2Proof.Machine

open Sys2Proof

/-- The link of a function's endpoint is up: one that has gone down in the gap has taken its requests with it. -/
def linked (s : State) (fn : Nat) : Bool := (epOf s (fn / 256)).linkUp

/-- A request of the host that was held, carried out (R69). -/
def perform (s : State) : HostReq → State
  | .config fn req => if linked s fn then configNow s fn req else s
  | .flr fn => if linked s fn then flrNow fn s else s
  | .vfClear ep => if linked s (256 * ep) then clearVfs s ep else s
  | .iqDoorbell fn i value => doorbellAt fn i value s
  | .iqCtrl fn i ctrl => iqCtrlAt fn i ctrl s
  | .cqDoorbell fn j value => headAt fn j value s
  | .cqCtrl fn j ctrl => cqCtrlAt fn j ctrl s
  | .bar0 fn off size value => bar0Write fn off size value s
  | .mbSubmit ep value frame => submitAt ep value frame s
  | .mbRelease ep value => releaseAt ep value s
  | .mbNotifyFree ep value => notifyFreeAt ep value s

/-- Every held request, in the order in which it came. -/
def performHeld (s : State) : State := s.hostHeld.foldl perform { s with hostHeld := [] }

/-- The completion records that waited for the PCIe core, in the order in which they became ready (R43, R413). -/
def sendRecords (s : State) : State :=
  s.outRecords.foldl (fun t x => deliver t x.1 x.2) { s with outRecords := [] }

/-- The MSI-X vectors that waited for it. -/
def sendVectors (s : State) : State := (s.fns.map (fun x => x.1)).foldl flushMsix s

/-- The cores whose writes have waited in the controllers' FIFOs ask for more. -/
def askWaiting (cores : List Nat) (s : State) : State := cores.eraseDups.foldl askMore s

/-- ROOT_RELOCK (R66, R69): the domains run again, the records and vectors that waited are sent, the requests that waited are
completed, the flags and reads that waited go on. -/
def execRootRelock (s : State) : Result :=
  .next (if s.clock.rootGated ∧ !s.clock.rootFailed then
      performHeld (flagsOn (sendVectors (sendRecords (askWaiting (s.mem.eddyWait.filterMap (fun w => w.core)) (rootRelocked s)))))
    else s)

end Sys2Proof.Machine
end

