-- ==== Sys2Proof/Machine/Dispatch.lean ====
section
/-! DEFINITION. Which meaning each command has: one arm for each constructor of `Instr`. -/

namespace Sys2Proof.Machine

open Sys2Proof

def exec (i : Instr) (s : State) : Host.Outcome State Fault Refusal :=
  match i with
  | .powerGoodRise clksel mgmtId => Sys2Proof.Machine.execPowerGoodRise clksel mgmtId s
  | .coldReset => Sys2Proof.Machine.execColdReset s
  | .v48Under mv => Sys2Proof.Machine.execV48Under mv s
  | .v48Low mv => Sys2Proof.Machine.execV48Low mv s
  | .v48LowTimeout => Sys2Proof.Machine.execV48LowTimeout s
  | .v48High mv => Sys2Proof.Machine.execV48High mv s
  | .v48HighTimeout => Sys2Proof.Machine.execV48HighTimeout s
  | .v48Over mv => Sys2Proof.Machine.execV48Over mv s
  | .shutdownRestart => Sys2Proof.Machine.execShutdownRestart s
  | .crystalOscillation => Sys2Proof.Machine.execCrystalOscillation s
  | .referenceQualified => Sys2Proof.Machine.execReferenceQualified s
  | .refFault => Sys2Proof.Machine.execRefFault s
  | .loopsLocked => Sys2Proof.Machine.execLoopsLocked s
  | .computeRailsInRegulation => Sys2Proof.Machine.execComputeRailsInRegulation s
  | .builtInSelfTest failedCores failedBanks => Sys2Proof.Machine.execBuiltInSelfTest failedCores failedBanks s
  | .dramTraining failed => Sys2Proof.Machine.execDramTraining failed s
  | .pcieLinkTraining ep width rateMt flit => Sys2Proof.Machine.execPcieLinkTraining ep width rateMt flit s
  | .fabricTraining port => Sys2Proof.Machine.execFabricTraining port s
  | .partitionRestore => Sys2Proof.Machine.execPartitionRestore s
  | .configRequest fn req => Sys2Proof.Machine.execConfigRequest fn s req
  | .resetNAssert => Sys2Proof.Machine.execResetNAssert s
  | .resetNDeassert clksel mgmtId => Sys2Proof.Machine.execResetNDeassert clksel mgmtId s
  | .warmReset req value => Sys2Proof.Machine.execWarmReset req value s
  | .partReset req p value => Sys2Proof.Machine.execPartReset req p value s
  | .partResetComplete p => Sys2Proof.Machine.execPartResetComplete p s
  | .functionLevelReset fn => Sys2Proof.Machine.execFunctionLevelReset fn s
  | .perstAssert ep => Sys2Proof.Machine.execPerstAssert ep s
  | .vfEnableClear ep => Sys2Proof.Machine.execVfEnableClear ep s
  | .coreReset req c value => Sys2Proof.Machine.execCoreReset req c value s
  | .linkReset req port value => Sys2Proof.Machine.execLinkReset req port value s
  | .lossOfLockRoot => Sys2Proof.Machine.execLossOfLockRoot s
  | .lossOfLockMemory die => Sys2Proof.Machine.execLossOfLockMemory die s
  | .refLost stopped => Sys2Proof.Machine.execRefLost s stopped
  | .rootRelock => Sys2Proof.Machine.execRootRelock s
  | .rootRelockFail => Sys2Proof.Machine.execRootRelockFail s
  | .memRelock die => Sys2Proof.Machine.execMemRelock die s
  | .memRelockFail die => Sys2Proof.Machine.execMemRelockFail die s
  | .plevelReqWrite req q value => Sys2Proof.Machine.execPlevelReqWrite req q value s
  | .sequencerStepUp q => Sys2Proof.Machine.execSequencerStepUp q s
  | .railRampDone q => Sys2Proof.Machine.execRailRampDone q s
  | .railSettleEnd q => Sys2Proof.Machine.execRailSettleEnd q s
  | .sequencerStepDown q => Sys2Proof.Machine.execSequencerStepDown q s
  | .stepDownWaitEnd q => Sys2Proof.Machine.execStepDownWaitEnd q s
  | .powerEnvWrite req value => Sys2Proof.Machine.execPowerEnvWrite req value s
  | .envPeriodEnd mw => Sys2Proof.Machine.execEnvPeriodEnd mw s
  | .envFastRaise mw => Sys2Proof.Machine.execEnvFastRaise mw s
  | .powerMeasurementUpdate mv mw => Sys2Proof.Machine.execPowerMeasurementUpdate mv mw s
  | .energyMeterUpdate pkgUj quads shared => Sys2Proof.Machine.execEnergyMeterUpdate pkgUj quads shared s
  | .baskSample quads piles => Sys2Proof.Machine.execBaskSample quads piles s
  | .thermalStateExit stack k => Sys2Proof.Machine.execThermalStateExit stack k s
  | .stackThresholdWrite req hot value => Sys2Proof.Machine.execStackThresholdWrite req hot value s
  | .replicaMeasurement rates => Sys2Proof.Machine.execReplicaMeasurement rates s
  | .iqDoorbell fn k value hostBytes => Sys2Proof.Machine.execIqDoorbell fn k value hostBytes s
  | .batchFetch q => Sys2Proof.Machine.execBatchFetch q s
  | .iqEnable fn k ctrl => Sys2Proof.Machine.execIqEnable fn k ctrl s
  | .iqDisable fn k ctrl => Sys2Proof.Machine.execIqDisable fn k ctrl s
  | .resume fn k ctrl => Sys2Proof.Machine.execResume fn k ctrl s
  | .cqDoorbell fn j value => Sys2Proof.Machine.execCqDoorbell fn j value s
  | .cqEnable fn j ctrl => Sys2Proof.Machine.execCqEnable fn j ctrl s
  | .cqDisable fn j ctrl => Sys2Proof.Machine.execCqDisable fn j ctrl s
  | .coalTimeExpiry q => Sys2Proof.Machine.execCoalTimeExpiry q s
  | .bar0RegisterWrite fn off size value => Sys2Proof.Machine.execBar0RegisterWrite fn off size value s
  | .admitOp q => Sys2Proof.Machine.execAdmitOp q s
  | .issue op => Sys2Proof.Machine.execIssue op s
  | .place op => Sys2Proof.Machine.execPlace op s
  | .dispatch op => Sys2Proof.Machine.execDispatch op s
  | .wavefrontComplete c => Sys2Proof.Machine.execWavefrontComplete c s
  | .stallTimerExpiry c waves => Sys2Proof.Machine.execStallTimerExpiry c s waves
  | .arrayStallLimitWrite req value => Sys2Proof.Machine.execArrayStallLimitWrite req value s
  | .preempt op => Sys2Proof.Machine.execPreempt op s
  | .parkRunnable op => Sys2Proof.Machine.execParkRunnable op s
  | .resumeParked c => Sys2Proof.Machine.execResumeParked c s
  | .parkLimitExpiry op => Sys2Proof.Machine.execParkLimitExpiry op s
  | .release op m => Sys2Proof.Machine.execRelease op m s
  | .cancelOp req value => Sys2Proof.Machine.execCancelOp req value s
  | .cancelFlow req value => Sys2Proof.Machine.execCancelFlow req value s
  | .parkLimitWrite req value => Sys2Proof.Machine.execParkLimitWrite req value s
  | .precLockWrite req p value => Sys2Proof.Machine.execPrecLockWrite req p value s
  | .readReturn op addr => Sys2Proof.Machine.execReadReturn op addr s
  | .dramLineRead op line err => Sys2Proof.Machine.execDramLineRead op line err s
  | .eddyWrite op addr bytes => Sys2Proof.Machine.execEddyWrite op addr bytes s
  | .eddyAgeExpiry k line => Sys2Proof.Machine.execEddyAgeExpiry k line s
  | .eddyDrainDone k line err => Sys2Proof.Machine.execEddyDrainDone k line err s
  | .eddyAgeWrite req value => Sys2Proof.Machine.execEddyAgeWrite req value s
  | .scrubPass k corrected => Sys2Proof.Machine.execScrubPass k corrected s
  | .refresh k => Sys2Proof.Machine.execRefresh k s
  | .fenceComplete op => Sys2Proof.Machine.execFenceComplete op s
  | .flagHoldExpiry ctx xseq => Sys2Proof.Machine.execFlagHoldExpiry ctx xseq s
  | .flagHoldLimitWrite req value => Sys2Proof.Machine.execFlagHoldLimitWrite req value s
  | .fence op => Sys2Proof.Machine.execFence op s
  | .copy op => Sys2Proof.Machine.execCopy op s
  | .matmul op => Sys2Proof.Machine.execMatmul op s
  | .matmulT op => Sys2Proof.Machine.execMatmulT op s
  | .attn op => Sys2Proof.Machine.execAttn op s
  | .attnScore op => Sys2Proof.Machine.execAttnScore op s
  | .attnSoftmax op => Sys2Proof.Machine.execAttnSoftmax op s
  | .attnMerge op => Sys2Proof.Machine.execAttnMerge op s
  | .attnNorm op => Sys2Proof.Machine.execAttnNorm op s
  | .kvAppend op => Sys2Proof.Machine.execKvAppend op s
  | .recCell op => Sys2Proof.Machine.execRecCell op s
  | .recScan op => Sys2Proof.Machine.execRecScan op s
  | .scanCarry op => Sys2Proof.Machine.execScanCarry op s
  | .branchNew op => Sys2Proof.Machine.execBranchNew op s
  | .fork op => Sys2Proof.Machine.execFork op s
  | .forkRetire op => Sys2Proof.Machine.execForkRetire op s
  | .prune op => Sys2Proof.Machine.execPrune op s
  | .select op => Sys2Proof.Machine.execSelect op s
  | .pageAlloc op => Sys2Proof.Machine.execPageAlloc op s
  | .pageDrop op => Sys2Proof.Machine.execPageDrop op s
  | .conv op => Sys2Proof.Machine.execConv op s
  | .s2d op => Sys2Proof.Machine.execS2d op s
  | .d2s op => Sys2Proof.Machine.execD2s op s
  | .pool op => Sys2Proof.Machine.execPool op s
  | .boxDecode op => Sys2Proof.Machine.execBoxDecode op s
  | .nms op => Sys2Proof.Machine.execNms op s
  | .sort op => Sys2Proof.Machine.execSort op s
  | .gather op => Sys2Proof.Machine.execGather op s
  | .scatter op => Sys2Proof.Machine.execScatter op s
  | .put op => Sys2Proof.Machine.execPut op s
  | .putFlag op => Sys2Proof.Machine.execPutFlag op s
  | .allReduce op => Sys2Proof.Machine.execAllReduce op s
  | .reduceScatter op => Sys2Proof.Machine.execReduceScatter op s
  | .allGather op => Sys2Proof.Machine.execAllGather op s
  | .barrier op => Sys2Proof.Machine.execBarrier op s
  | .ringPass op => Sys2Proof.Machine.execRingPass op s
  | .dataFlitReceive port flit => Sys2Proof.Machine.execDataFlitReceive port flit s
  | .holdFlit port flit => Sys2Proof.Machine.execHoldFlit port s flit
  | .replayLimit port lane => Sys2Proof.Machine.execReplayLimit port s lane
  | .laneRepairDone port received => Sys2Proof.Machine.execLaneRepairDone port s received
  | .portDown port => Sys2Proof.Machine.execPortDown port s
  | .portRetrain port => Sys2Proof.Machine.execPortRetrain port s
  | .holdFlitSend port => Sys2Proof.Machine.execHoldFlitSend port s
  | .idleFlitSend port => Sys2Proof.Machine.execIdleFlitSend port s
  | .holdSeriesEnd capped => Sys2Proof.Machine.execHoldSeriesEnd s capped
  | .holdMessageSend port => Sys2Proof.Machine.execHoldMessageSend port s
  | .writeMsg m => Sys2Proof.Machine.execWriteMsg m s
  | .flagMsg m => Sys2Proof.Machine.execFlagMsg m s
  | .readReq m => Sys2Proof.Machine.execReadReq m s
  | .readResp m => Sys2Proof.Machine.execReadResp m s
  | .ack m => Sys2Proof.Machine.execAck m s
  | .nack m => Sys2Proof.Machine.execNack m s
  | .flagAck m => Sys2Proof.Machine.execFlagAck m s
  | .ready m => Sys2Proof.Machine.execReady m s
  | .segment m => Sys2Proof.Machine.execSegment m s
  | .mismatch m => Sys2Proof.Machine.execMismatch m s
  | .openMsg m => Sys2Proof.Machine.execOpenMsg m s
  | .closeMsg m => Sys2Proof.Machine.execCloseMsg m s
  | .holdMsg m => Sys2Proof.Machine.execHoldMsg m s
  | .pace m => Sys2Proof.Machine.execPace m s
  | .depart m port vc => Sys2Proof.Machine.execDepart m port s vc
  | .join m port vc => Sys2Proof.Machine.execJoin m port s vc
  | .xportTimeoutExpiry ctx xseq => Sys2Proof.Machine.execXportTimeoutExpiry ctx xseq s
  | .collTimeoutExpiry op => Sys2Proof.Machine.execCollTimeoutExpiry op s
  | .paceSend group => Sys2Proof.Machine.execPaceSend group s
  | .openResend ctx => Sys2Proof.Machine.execOpenResend ctx s
  | .ctxOpen req value => Sys2Proof.Machine.execCtxOpen req value s
  | .ctxClose req value => Sys2Proof.Machine.execCtxClose req value s
  | .collGroupCfgWrite req group value => Sys2Proof.Machine.execCollGroupCfgWrite req group value s
  | .chipIdWrite req value => Sys2Proof.Machine.execChipIdWrite req value s
  | .partCtrlCreate req p => Sys2Proof.Machine.execPartCtrlCreate req p s
  | .partCtrlDestroy req p => Sys2Proof.Machine.execPartCtrlDestroy req p s
  | .discover src frame => Sys2Proof.Machine.execDiscover src frame s
  | .sessionOpen src frame => Sys2Proof.Machine.execSessionOpen src frame s
  | .sessionProve src frame => Sys2Proof.Machine.execSessionProve src frame s
  | .stestoClose src frame => Sys2Proof.Machine.execStestoClose src frame s
  | .closeReply src frame => Sys2Proof.Machine.execCloseReply src frame s
  | .stestoRead src frame => Sys2Proof.Machine.execStestoRead src frame s
  | .stestoWrite src frame => Sys2Proof.Machine.execStestoWrite src frame s
  | .notifyAck src frame => Sys2Proof.Machine.execNotifyAck src frame s
  | .notifyRetransmit sid txid => Sys2Proof.Machine.execNotifyRetransmit sid txid s
  | .sessionIdleExpiry sid => Sys2Proof.Machine.execSessionIdleExpiry sid s
  | .lockoutExpiry src => Sys2Proof.Machine.execLockoutExpiry src s
  | .sessionKill req value => Sys2Proof.Machine.execSessionKill req value s
  | .keyMaterialWrite req slot key => Sys2Proof.Machine.execKeyMaterialWrite req slot key s
  | .neighbourSolicitation src target => Sys2Proof.Machine.execNeighbourSolicitation src target s
  | .icmpv6Echo src data => Sys2Proof.Machine.execIcmpv6Echo src data s
  | .duplicateAddressDetection conflict => Sys2Proof.Machine.execDuplicateAddressDetection conflict s
  | .mbSubmit ep value frame => Sys2Proof.Machine.execMbSubmit ep value frame s
  | .mbRelease ep value => Sys2Proof.Machine.execMbRelease ep value s
  | .mbNotifyFree ep value => Sys2Proof.Machine.execMbNotifyFree ep value s
  | .persistCommit => Sys2Proof.Machine.execPersistCommit s
  | .coreCheck c => Sys2Proof.Machine.execCoreCheck c s
  | .ceLimit part => Sys2Proof.Machine.execCeLimit part s
  | .coreRetire req c value => Sys2Proof.Machine.execCoreRetire req c value s
  | .plannedRetirementProceed c => Sys2Proof.Machine.execPlannedRetirementProceed c s
  | .spareMappingDone c failedSpares => Sys2Proof.Machine.execSpareMappingDone c failedSpares s
  | .poolBankCopyDone die bank => Sys2Proof.Machine.execPoolBankCopyDone die bank s
  | .dramRowRepairDone line => Sys2Proof.Machine.execDramRowRepairDone line s
  | .pseudoChannelMoveDone k channel unreadable retrained => Sys2Proof.Machine.execPseudoChannelMoveDone k channel unreadable s retrained
  | .pcRetire req k value => Sys2Proof.Machine.execPcRetire req k value s
  | .pcRelayDone k => Sys2Proof.Machine.execPcRelayDone k s
  | .spawnUe p => Sys2Proof.Machine.execSpawnUe p s
  | .fatalStop cause => Sys2Proof.Machine.execFatalStop cause s
  | .errLogClear req value => Sys2Proof.Machine.execErrLogClear req value s
  | .fwBlock req block => Sys2Proof.Machine.execFwBlock req block s
  | .fwCommit req value => Sys2Proof.Machine.execFwCommit req value s
  | .fwActivate req value => Sys2Proof.Machine.execFwActivate req value s
  | .firmwareReady => Sys2Proof.Machine.execFirmwareReady s
  | .fwRevert => Sys2Proof.Machine.execFwRevert s
  | .mgmtWatchdog => Sys2Proof.Machine.execMgmtWatchdog s
  | .svcDepart req value => Sys2Proof.Machine.execSvcDepart req value s
  | .extest bits => Sys2Proof.Machine.execExtest s bits
  | .samplePreload bits => Sys2Proof.Machine.execSamplePreload bits s
  | .idcode => Sys2Proof.Machine.execIdcode s
  | .clamp => Sys2Proof.Machine.execClamp s
  | .highz => Sys2Proof.Machine.execHighz s
  | .bypass code => Sys2Proof.Machine.execBypass code s
  | .testLogicReset clksel mgmtId => Sys2Proof.Machine.execTestLogicReset clksel mgmtId s
  | .v48Normal mv => Sys2Proof.Machine.execV48Normal mv s
  | .loopLockFailure => Sys2Proof.Machine.execLoopLockFailure s
  | .railFailure => Sys2Proof.Machine.execRailFailure s
  | .perstDeassert ep => Sys2Proof.Machine.execPerstDeassert ep s
  | .pcieLinkLoss ep => Sys2Proof.Machine.execPcieLinkLoss ep s
  | .idleFlit port flit => Sys2Proof.Machine.execIdleFlit port flit s
  | .poolUe line => Sys2Proof.Machine.execPoolUe line s

end Sys2Proof.Machine
end

