-- ==== Sys2Proof/Machine/Tick.lean ====
section
/-! DEFINITION. What a microsecond does on an empty queue (log 3): time passes, partition credit levels rise (R408), a
pulse of ALERT_N ends, a pseudo-channel move goes on to its next run (R459). Every other time-driven effect is a command of the table. -/

namespace Sys2Proof.Machine

open Sys2Proof

/-- A partition's credit level after a microsecond, in millionths of a descriptor: the rate is in descriptors a second,
the level rises no further than CREDIT_BURST (R408). -/
def creditTick (s : State) (p : Nat) (r : PartRec) : PartRec :=
  { r with level := min (rd s oCREDIT_BURST (p + 1) * 1000000) (r.level + rd s oCREDIT_RATE (p + 1)) }

/-- The credit levels of a table of partitions after a microsecond. -/
def creditTicks (s : State) : Tab PartRec → Tab PartRec
  | [] => []
  | (p, r) :: t => (p, creditTick s p r) :: creditTicks s t

/-- The move of a pseudo-channel after a microsecond, the most that the copy of one run takes: the next run (Table REGR-4, R459). -/
def nextRun : RegrJob → RegrJob
  | .move k c run => .move k c (min channelRuns (run + 1))
  | j => j

/-- A microsecond on an empty queue. -/
def tick (s : State) : State :=
  { s with nowUs := s.nowUs + 1, parts := creditTicks s s.parts, power := { s.power with alertPulse := false }
           regr := { s.regr with jobs := s.regr.jobs.map nextRun } }

end Sys2Proof.Machine
end

