-- ==== Sys2Proof/Safety.lean ====
section
/-! DEFINITION. The terms statements are made in: what a command leaves as it was, what a notification and a reply change, what
a request must be to be carried out, and the forms of State that every step keeps. -/

namespace Sys2Proof.Machine

open Sys2Proof

/-! ### Frames -/

/-- Numeric objects other than those of the listed keys hold what they held. -/
def SameObjs (ks : List Nat) (s t : State) : Prop := ∀ k, k ∉ ks → tabGet? t.dict k = tabGet? s.dict k

/-- A session without what a notification changes (R441, R442). -/
def Session.still (x : Session) : Session := { x with txSeq := 0, notes := [], nextTx := 0, lost := 0 }

/-- A mailbox without its notification slot (R444). -/
def Mailbox.still (x : Mailbox) : Mailbox := { x with notifyPending := false, notifyFrame := [], queue := [] }

/-- A function without its pending MSI-X vectors (R415). -/
def FnRec.still (x : FnRec) : FnRec := { x with pending := [] }

/-- The functions are what they were, but for vectors that have become pending. -/
def FnsKept (s t : State) : Prop := ∀ f, (fnOf t f).still = (fnOf s f).still

/-- From `s` to `t` nothing changes but numeric objects of the listed keys, NOTIFY_LOST, and what notifications change: the
notes and the frame numbers of sessions, the notification slots of mailboxes, MSI-X vectors left pending, what is emitted. -/
structure Told (ks : List Nat) (s t : State) : Prop where
  rest : t = { s with
    dict := t.dict, mgmt := { s.mgmt with sessions := t.mgmt.sessions, boxes := t.mgmt.boxes }, fns := t.fns, out := t.out }
  objs : SameObjs (objKey oNOTIFY_LOST 0 :: ks) s t
  sessions : t.mgmt.sessions.map Session.still = s.mgmt.sessions.map Session.still
  boxes : ∀ e, (boxOf t e).still = (boxOf s e).still
  fns : FnsKept s t
  out : ∃ l, t.out = l ++ s.out

/-- The same where persisted objects among them await a commit, too (R448). -/
def ToldP (ks : List Nat) (s t : State) : Prop := Told ks { s with nv := { s.nv with dirty := t.nv.dirty } } t

/-- A cause of ALERT_N holds, and the device asserts the pin where nothing has taken it from its causes (R470, R484). -/
def Alerts (t : State) : Prop := alertCause t = true ∧ (mgmtRail t = true → pinsTaken t = false → alertN t = true)

/-! ### Operations -/

/-- The operations are the same by number and order, and every operation but one keeps its fields. -/
def OthersKept (id : Nat) (s t : State) : Prop :=
  t.weir.ops.map (fun o => o.id) = s.weir.ops.map (fun o => o.id) ∧ ∀ i, i ≠ id → opOf? t i = opOf? s i

/-- An operation has left for release with a status. -/
def EndedWith (t : State) (id st : Nat) : Prop := ∃ o, opOf? t id = some o ∧ o.phase = .ended ∧ o.status = st

/-! ### Tokens (R229, R230, R237, R238) -/

/-- What a counting token holds once one has been added and its waiters have been served. -/
def countLeft (s : State) (tok : Nat) : Nat :=
  let n := min 65535 (tabGet 0 s.weir.counts tok + 1)
  n - min n (s.weir.ops.filter (wantsCount tok)).length

/-- The waits of an operation after one has been added to a counting token: the waiters with fewer than the count before them are
served. -/
def waitsCounted (s : State) (tok : Nat) (x : Op) : List Wait :=
  if wantsCount tok x && decide ((s.weir.ops.filter (fun y => wantsCount tok y && decide (y.id < x.id))).length <
      min 65535 (tabGet 0 s.weir.counts tok + 1)) then
    x.waits.map (fun w => if w.counting && w.token == tok then { w with satisfied := true } else w)
  else x.waits

/-- The waits of an operation after a producer of an event token, `o`, has released with a status. -/
def waitsSignalled (s : State) (o : Op) (st : Nat) (x : Op) : List Wait :=
  let left := s.weir.ops.any (fun y => y.id != o.id && y.part == o.part && y.desc.signal == o.desc.signal && decide (y.id < x.id))
  if x.part = o.part ∧ o.id < x.id then
    x.waits.map (fun w =>
      if w.counting || w.token != o.desc.signal || w.satisfied then w
      else { w with satisfied := !left
                    failed := w.failed || (!(succeeded st) && o.desc.flow == x.desc.flow && !w.tolerant) })
  else x.waits

/-- One has been added to a counting token from `s` to `t`, and nothing happened to another token. -/
structure Counted (s t : State) (tok : Nat) : Prop where
  waits : ∀ x ∈ s.weir.ops, ∀ y, opOf? t x.id = some y → y.waits = waitsCounted s tok x
  count : tabGet 0 t.weir.counts tok = countLeft s tok
  others : ∀ k, k ≠ tok → tabGet 0 t.weir.counts k = tabGet 0 s.weir.counts k

/-- The token of an operation that releases with a status has been signalled, if its partition may use it; nothing happened to
another token, and every operation left keeps its phase and descriptor. -/
structure Signals (s t : State) (o : Op) (st : Nat) : Prop where
  kept : ∀ x ∈ s.weir.ops, x.id ≠ o.id → ∃ y, opOf? t x.id = some y ∧ y.phase = x.phase ∧ y.desc = x.desc
  none : tokenOf s o.part o.desc.signal = false → ∀ x ∈ s.weir.ops, ∀ y, opOf? t x.id = some y → y.waits = x.waits
  counts : tokenCounts s o.part o.desc.signal = true → Counted s t o.desc.signal
  event : tokenOf s o.part o.desc.signal = true → tokenCounts s o.part o.desc.signal = false →
    (∀ x ∈ s.weir.ops, ∀ y, opOf? t x.id = some y → y.waits = waitsSignalled s o st x) ∧
      (succeeded st = false → o.desc.flow ∈ tabGet [] t.weir.marks (65536 * o.part + o.desc.signal)) ∧
      ∀ k, k ≠ 65536 * o.part + o.desc.signal → tabGet [] t.weir.marks k = tabGet [] s.weir.marks k
  uncounted : tokenCounts s o.part o.desc.signal = false → t.weir.counts = s.weir.counts
  unmarked : succeeded st = true ∨ tokenOf s o.part o.desc.signal = false ∨ tokenCounts s o.part o.desc.signal = true →
    t.weir.marks = s.weir.marks

/-! ### The Spawn table (R314, R318 to R323, R328, R330) -/

/-- The creations, and the new pages, among changes of the table. -/
def creations (acts : List SpawnAct) : Nat :=
  (acts.filter (fun x => match x with
    | .create _ _ _ => true
    | _ => false)).length
def allotments (acts : List SpawnAct) : Nat :=
  (acts.filter (fun x => match x with
    | .newPage _ => true
    | _ => false)).length

/-- `g` is free number `i` of a table, counted from `lo` on. -/
def FreeNumber {α : Type} (t : Tab α) (lo i g : Nat) : Prop :=
  lo ≤ g ∧ tabGet? t g = none ∧ ((List.range' lo (g - lo)).filter (fun x => (tabGet? t x).isNone)).length = i

/-- A commit has been made from `s` to `t`: branches not removed stay, removed ones are gone, each creation has the lowest number
then free, each new page the lowest then free with a count of 1, every other page's count has its net change; the numbers and map
words stand where they go (unless a later part of the commit covers the place), and no other byte of device memory has changed,
but in pages that returned to the pool. -/
structure Committed (s t : State) (p : Nat) (acts : List SpawnAct) : Prop where
  kept : ∀ b r, tabGet? s.spawn.branches b = some r → .remove b ∉ acts → tabGet? t.spawn.branches b = some r
  removed : ∀ A B, acts = A ++ B → creations B = 0 → ∀ b, .remove b ∈ B → tabGet? t.spawn.branches b = none
  created : ∀ A B num map e, acts = A ++ .create num map e :: B → (∀ b, .remove b ∉ A) →
    ∃ b, FreeNumber s.spawn.branches (rd s oSPAWN_BASE (p + 1)) (creations A) b ∧
      (.remove b ∉ B → tabGet? t.spawn.branches b = some ⟨p, map, e⟩) ∧
      (space num < 3 → space (num + 3) = space num →
        (commitWrites B).any (fun w => overlaps w.1 w.2 num 4) = false →
        (∀ g ∈ touchedPages acts, refsOf t g = 0 → overlaps (g * 65536) 65536 num 4 = false) → readBytes t num 4 = leBytes 4 b)
  counts : ∀ g, refsOf s g ≠ 0 → refsOf t g = ((refsOf s g : Int) + netRef acts g).toNat
  paged : ∀ A B a, acts = A ++ .newPage a :: B →
    ∃ g, FreeNumber s.spawn.refs (rd s oSPOOL_BASE (p + 1) / 65536) (allotments A) g ∧ (netRef acts g = 0 → refsOf t g = 1) ∧
      (space a < 3 → space (a + 7) = space a → (commitWrites B).any (fun w => overlaps w.1 w.2 a 8) = false →
        (∀ k ∈ touchedPages acts, refsOf t k = 0 → overlaps (k * 65536) 65536 a 8 = false) →
        readBytes t a 8 = leBytes 8 (g * 65536 + 3))
  cleared : ∀ A B a, acts = A ++ .clearEntry a :: B → space a < 3 → space (a + 7) = space a →
    (commitWrites B).any (fun w => overlaps w.1 w.2 a 8) = false →
    (∀ k ∈ touchedPages acts, refsOf t k = 0 → overlaps (k * 65536) 65536 a 8 = false) → readBytes t a 8 = leBytes 8 0
  frame : ∀ a, space a < 3 → (commitWrites acts).any (fun w => overlaps w.1 w.2 a 1) = false →
    (∀ g ∈ touchedPages acts, refsOf t g = 0 → overlaps (g * 65536) 65536 a 1 = false) → readByte t a = readByte s a

/-! ### Operands that come in -/

/-- No operation that writes what it reads has rows in the Rill of the core it executes on: rows that reading on would make leave
first (log 60). -/
def RowsSettled (s : State) : Prop :=
  ∀ c v, executingOn s c = some v → readsAhead v = true ∨ (coreOf s c).arrays.rill = []

/-- An operation without what asking for operands changes in it. -/
def Op.asks (o : Op) : Op := { o with requests := [], due := [], asked := 0, landed := [], tiles := 0 }

/-- Cores have gone on asking for operands: every operation has its number and fields, but for what it has asked for and what has
come in; of memory only the list of line requests changes, of cores only what their arrays hold. -/
structure AskedOn (s t : State) : Prop where
  ids : t.weir.ops.map (fun o => o.id) = s.weir.ops.map (fun o => o.id)
  ops : ∀ i, (opOf? t i).map Op.asks = (opOf? s i).map Op.asks
  cores : ∀ c, coreOf t c = { coreOf s c with arrays := (coreOf t c).arrays }
  rest : t = { s with weir := { s.weir with ops := t.weir.ops }, cores := t.cores, mem := { s.mem with reads := t.mem.reads } }

/-! ### Requests of a session -/

/-- A session without what a request and its reply change (R433, R434, R439). -/
def Session.core (x : Session) : Session :=
  { x with rxHigh := 0, txSeq := 0, kept := [], waiting := [], staged := none }

/-- A mailbox without its slots (R444). -/
def Mailbox.core (x : Mailbox) : Mailbox := { x with owned := 0, done := 0, frames := [] }

/-- A request that the device carries out (R430, R434, R437): its session is open, its frame is heard, its FSEQ is new. -/
structure Authentic (s : State) (req : Req) (x : Session) : Prop where
  session : sessionOf s req.sid = some x
  heard : heard s x.src = true
  fresh : x.rxHigh < req.fseq

/-- From `s` to `t` nothing changes but numeric objects of the listed keys and what the reply to a request changes: its session,
the mailbox slot it came through, an MSI-X vector left pending, what is emitted. -/
structure Replied (req : Req) (x : Session) (ks : List Nat) (s t : State) : Prop where
  rest : t = { s with
    dict := t.dict, mgmt := { s.mgmt with sessions := t.mgmt.sessions, boxes := t.mgmt.boxes }, fns := t.fns, out := t.out }
  objs : SameObjs ks s t
  session : ∃ y, sessionOf t req.sid = some y ∧ y.core = x.core ∧ y.rxHigh = req.fseq
  others : t.mgmt.sessions.filter (fun y => y.sid != req.sid) = s.mgmt.sessions.filter (fun y => y.sid != req.sid)
  boxes : ∀ e, (boxOf t e).core = (boxOf s e).core
  fns : FnsKept s t
  out : ∃ l, t.out = l ++ s.out

/-- The reply to a request that a session keeps (R434): a sealed frame of a type with a payload. -/
def KeepsReply (t : State) (req : Req) (key : List Byte) (ftype : Nat) (payload : List Byte) : Prop :=
  ∃ y n, sessionOf t req.sid = some y ∧ (req.fseq, sealFrame key ftype req.sid n req.txid payload) ∈ y.kept

/-- A WRITE_REPLY with a RESULT, and an ERROR (R433, Table STESTO-3). -/
def SaysDone (t : State) (req : Req) (key : List Byte) (index sub result : Nat) : Prop :=
  KeepsReply t req key 0x13 (writeReplyPayload index sub result)
def SaysError (t : State) (req : Req) (key : List Byte) (index sub code detail : Nat) : Prop :=
  KeepsReply t req key 0x30 (errorPayload index sub code detail)

/-- A frame has been answered to its source: by a datagram, with nothing else changed, or in its mailbox slot, which returns to
the host with DONE set (R428, R444). -/
def Answers (s t : State) (src : Src) (b : List Byte) : Prop :=
  match src with
  | .net _ _ => t = { s with out := .frame src b :: s.out }
  | .mailbox e slot => tabGet? (boxOf t e).frames slot = some b ∧ (boxOf t e).done.testBit slot = true ∧
      (boxOf t e).owned.testBit slot = false ∧ (∀ d, d ≠ e → boxOf t d = boxOf s d) ∧ FnsKept s t ∧
      t = { s with mgmt := { s.mgmt with boxes := t.mgmt.boxes }, fns := t.fns, out := t.out }

/-- A well-formed frame of a service from a source that is heard (R430, R437). -/
structure Framed (s : State) (src : Src) (b : List Byte) (ftype : Nat) : Prop where
  heard : heard s src = true
  formed : frameWellFormed b = true
  service : (parseFrame b).ftype = ftype
  payload : clientPayload ftype (parseFrame b).payload.length = true

/-- A well-formed frame of a service in an open session, its MAC right (R430, R434). -/
structure Sealed (s : State) (src : Src) (b : List Byte) (ftype : Nat) (x : Session) : Prop where
  framed : Framed s src b ftype
  session : sessionOf s (parseFrame b).sid = some x
  sid : (parseFrame b).sid ≠ 0
  mac : (parseFrame b).mac = frameMac x.key (parseFrame b).covered

/-! ### Messages (spec/16) -/

/-- A message has been handed to the fabric: it has left by a port, is delivered internally, stands in a port's boundary FIFO, or
waits for a port (R43, R373). -/
def Leaves (t : State) (m : Msg) : Prop :=
  (∃ port vc, Emit.msg port vc m ∈ t.out) ∨ Emit.internal m ∈ t.out ∨
    (∃ n, ∃ f ∈ (portOf t n).fifo, f.last = some m) ∨ ∃ w ∈ t.fabric.stuck, w.msg = m

/-- A sequenced message received on an open context whose XSEQ is new and lies in the window (R370). -/
structure Fresh (s : State) (m : Msg) (x : Nat) : Prop where
  ctx : inCtx s m = some x
  new : received (ctxOf s x) m.xseq = false
  window : inWindow (ctxOf s x) m.xseq = true

/-- An ACK with the credits it returns has gone to the peer of a context (R369). -/
def Acked (s t : State) (x credits : Nat) : Prop :=
  ∃ a, Leaves t a ∧ a.mtype = mtACK ∧ a.dstChip = (ctxOf s x).peerChip ∧ a.dstCtx = (ctxOf s x).peerCtx ∧ a.aux = credits

/-- Messages of a type and TAG that the device sends on a context follow those unacknowledged before. -/
def Sends (s t : State) (x mtype tag : Nat) (data : List (List Byte)) : Prop :=
  ∃ l, t.fabric.msgs = s.fabric.msgs ++ l ∧ l.map (fun e => e.msg.data) = data ∧
    ∀ e ∈ l, e.ctx = x ∧ e.msg.mtype = mtype ∧ e.msg.tag = tag ∧ e.msg.dstChip = (ctxOf s x).peerChip ∧
      e.msg.dstCtx = (ctxOf s x).peerCtx

/-- The data of step `k` of a collective have been sent as its SEGMENTs, numbered in order (R382, R384). -/
def SendsStep (s t : State) (o : Op) (c : CollRun) (k : Nat) : Prop :=
  let r := (collMembers s c.group).length
  let i := collRank s c.group
  ∃ l, t.fabric.msgs = s.fabric.msgs ++ l ∧ l.map (fun e => e.msg.data) = dataParts (stepData s o c r i k) ∧
    ∀ j e, l[j]? = some e → e.op = o.id ∧ e.ctx = collOut s o c ∧ e.msg.mtype = mtSEGMENT ∧ e.msg.tag = c.collId ∧
      e.msg.aux = txStep o.desc.opc r i k + 65536 * j ∧ e.msg.dstChip = (ctxOf s (collOut s o c)).peerChip

/-- A collective that has seen its READY has begun: its first step sent, where the data for it are its own (R384, R385). -/
def FirstStep (s t : State) (op : Nat) (o : Op) (c : CollRun) : Prop :=
  if maySend o.desc.opc (collRank s c.group) 0 0 then
    SendsStep s t o c 0 ∧ opOf? t op = some { o with coll := some { c with readyGot := true, sent := 1 } }
  else t.fabric.msgs = s.fabric.msgs ∧ opOf? t op = some { o with coll := some { c with readyGot := true } }

/-- A collective has worked its step `c.done` with data `b` received, and has sent the next step where that step's data let it
(R383 to R385). -/
def NextStep (s t : State) (op : Nat) (o : Op) (c : CollRun) (b : List Byte) : Prop :=
  let r := (collMembers s c.group).length
  let i := collRank s c.group
  let w := stepWork s o c r i c.done b
  let d := { c with done := c.done + 1, chunks := tabPut c.chunks w.1 w.2, segs := [] }
  if c.sent < collSends o.desc.opc r ∧ maySend o.desc.opc i c.sent (c.done + 1) = true then
    SendsStep s t o d c.sent ∧ opOf? t op = some { o with coll := some { d with sent := c.sent + 1 } }
  else t.fabric.msgs = s.fabric.msgs ∧ opOf? t op = some { o with coll := some d }

/-- An operation has not failed already (R371). -/
def unfailed (o : Op) : Bool := !(o.phase == .ended && !(succeeded o.status))

/-! ### The loss of the compute rails (R94, Table BOOT-2) -/

/-- The compute side is gone: rails, queues, operations, cores, partitions' and functions' records, what waited for the host,
Spawn table, contexts, repairs in progress; memory contents are unspecified, poison, host memory and the counts of free values stay. -/
structure ComputeGone (s t : State) : Prop where
  rails : t.power.compute = false ∧ t.power.control = false ∧ t.power.fullMode = false
  queues : t.iqs = [] ∧ t.cqs = [] ∧ t.parts = [] ∧ t.fns = [] ∧ t.hostHeld = [] ∧ t.outRecords = []
  work : t.weir = { nextOp := s.weir.nextOp } ∧ t.cores = [] ∧ t.spawn = {} ∧ t.fabric.ctxs = [] ∧ t.fabric.msgs = []
  repairs : t.regr.jobs = [] ∧ t.regr.deferred = []
  memory : t.mem = { s.mem with cells := [], fills := [], eddies := [], eddyWait := [], reads := [], epoch := s.mem.epoch + 1 }
  links : ∀ e, (epOf t e).linkUp = false

/-! ### Partition resets (R112) -/

/-- The reset of each active partition whose function satisfies a test has begun: of its operations only dispatched ones remain, on a
core with a wavefront in progress or a load pending. No other partition is touched. -/
structure PartsReset (f : Nat → Prop) (s t : State) : Prop where
  begun : ∀ p, p < 128 → rd s oPART_STATE (p + 1) = 1 → f (partFn s p) →
    rd t oPART_STATE (p + 1) = 2 ∧ (partOf t p).resetting = true ∧ (paused s p = false → ∀ o ∈ t.weir.ops, o.part = p →
      o.phase = .dispatched ∧ ∃ c, o.core = some c ∧ ((coreOf s c).wave = true ∨ (coreOf s c).load ≠ none))
  others : ∀ p, p < 128 → ¬(rd s oPART_STATE (p + 1) = 1 ∧ f (partFn s p)) →
    rd t oPART_STATE (p + 1) = rd s oPART_STATE (p + 1) ∧ partOf t p = partOf s p ∧
      t.weir.ops.filter (fun o => o.part == p) = s.weir.ops.filter (fun o => o.part == p)
  numbers : t.weir.nextOp = s.weir.nextOp

/-! ### Forms that every step keeps -/

/-- Admission numbers rise along the list of operations and lie below the next one; each operation belongs to one of the 128
partitions and each collective to one of the 16 groups. -/
def opsOk (w : Weir) : Bool :=
  ascending (w.ops.map (fun o => o.id)) &&
    w.ops.all (fun o => decide (o.id < w.nextOp ∧ o.part < 128) && o.coll.all (fun r => decide (r.group < 16)))

/-- Branches and page counts are listed by rising number (R313, R314). -/
def spawnOk (w : Spawn) : Bool := tabSorted w.branches && tabSorted w.refs

/-- Each Eddy holds entries of its own stack's DRAM lines, no line twice, their masked bytes by rising offset within the line;
a write that waits for an entry lies within one line of DRAM. -/
def eddiesOk (m : Mem) : Bool :=
  m.eddies.all (fun x => !(hasRepeat (x.2.map (fun e => e.line))) &&
    x.2.all (fun e => space e.line == 0 && e.line % 256 == 0 && dramStack e.line == x.1 && tabSorted e.bytes &&
      e.bytes.all (fun b => decide (b.1 < 256)))) &&
    m.eddyWait.all (fun w => space w.addr == 0 && decide (w.addr % 256 + w.bytes.length ≤ 256))

/-- The two persisted copies hold persisted objects only (R106, R448). -/
def copiesOk (n : Nv) : Bool :=
  n.copyA.nums.all (fun e => keyPersists e.1) && n.copyB.nums.all (fun e => keyPersists e.1) &&
    n.copyA.blobs.all (fun e => keyPersists e.1) && n.copyB.blobs.all (fun e => keyPersists e.1)

/-- What limited mode keeps for the next start: by rising key, values of 0x3000 to 0x6FFF only (R105). -/
def stagedOk (s : State) : Bool :=
  let keyOk := fun k => decide (objKey 0x3000 0 ≤ k ∧ k < objKey 0x7000 0)
  tabSorted s.staged && tabSorted s.stagedBlobs && s.staged.all (fun e => keyOk e.1) && s.stagedBlobs.all (fun e => keyOk e.1)

/-! ### Operators (spec/10, R199 to R221) -/

/-- An element of a format is a number: neither NaN nor NaR. -/
def isNumber (fmt w : Nat) : Bool :=
  if fmt ≤ 3 then !(isNan (loadElem fmt w)) else decide (ldecode (logOfFmt fmt) w ≠ .nar)

/-- A signed mantissa in units of 2^q. -/
def inUnits (neg : Bool) (m : Nat) (x q : Int) : Int := (if neg then -1 else 1) * (m * 2 ^ (x - q).toNat : Nat)

/-- One number of a format lies strictly below another by value (R345): INT8 as integers, binary formats as the values they denote,
log codes ±2^(m / 2^f) and ZERO as 0. -/
def BelowBy (fmt a b : Nat) : Prop :=
  if fmt = 3 then int8Of a < int8Of b
  else if fmt < 3 then
    match loadElem fmt a, loadElem fmt b with
    | .fin n m x, .fin n' m' x' => inUnits n m x (min x x') < inUnits n' m' x' (min x x')
    | .inf n, .inf n' => n = true ∧ n' = false
    | .inf n, .fin _ _ _ => n = true
    | .fin _ _ _, .inf n' => n' = false
    | _, _ => False
  else
    match ldecode (logOfFmt fmt) a, ldecode (logOfFmt fmt) b with
    | .val n m, .val n' m' => if n = n' then (if n then m' < m else m < m') else n = true
    | .val n _, .zero => n = true
    | .zero, .val n' _ => n' = false
    | _, _ => False

/-- Pool pages of a partition that words of a page map name, counted for one page (R321, R328). -/
def namedTimes (s : State) (p g : Nat) (ws : List Nat) : Nat :=
  (ws.filter (fun w => w % 4 == 3 && w / 65536 == g && inPool s p g)).length


/-- The byte that writes made in order leave at an address: the last one that covers it. -/
def lastWrite : List (Nat × List Byte) → Nat → Option Byte
  | [], _ => none
  | w :: r, a =>
    match lastWrite r a with
    | some b => some b
    | none => if w.1 ≤ a then w.2[a - w.1]? else none

/-- The counters of the stacks' read-modify-writes (R164). -/
def rmwKeys : List Nat := (List.range 8).map (fun k => objKey oEDDY_RMW_COUNT (k + 1))

/-- From `s` to `t` the writes of an operation of partition `p` are made, and nothing else is: each device address reads as the
last write that covers it, every other as before; host memory changes in the function of the partition only, and only where a
write to SPACE 3 says so. Beside memory only the counters of read-modify-writes, the list of operations and what the cores' arrays
hold may differ. -/
structure Stored (s t : State) (p : Nat) (ws : List (Nat × List Byte)) : Prop where
  device : ∀ a, space a < 3 → readByte t a = (lastWrite ws a).getD (readByte s a)
  host : (∀ w ∈ ws, w.1 % 2 ^ 60 + w.2.length ≤ 2 ^ 60) → ∀ f a, a < 2 ^ 60 → hostByte t f a =
    if f = partFn s p then (lastWrite ws (3 * 2 ^ 60 + a)).getD (hostByte s f a) else hostByte s f a
  objs : SameObjs rmwKeys s t
  cores : ∀ c, coreOf t c = { coreOf s c with arrays := (coreOf t c).arrays }
  rest : t = { s with dict := t.dict, weir := { s.weir with ops := t.weir.ops }, cores := t.cores, mem := { s.mem with
    cells := t.mem.cells, host := t.mem.host, poison := t.mem.poison, eddies := t.mem.eddies, eddyWait := t.mem.eddyWait
    free := t.mem.free } }

/-- The operation whose data effect has taken place, with what the effect says of it (R151, R221) and what it has itself written
among the bytes it reads (R180). -/
def Op.afterEff (o : Op) (landed : Tab Byte) (e : Eff) : Op :=
  { o with dataDone := true, wrote := true, tile := o.tiles - 1, status := effStatus e, partialOut := e.partialOut,
           faultEntry := e.faultEntry, faultIndex := e.faultIndex, faultGroup := e.faultGroup, faultCount := e.faultCount,
           commits := e.acts, outs := o.outs ++ e.outs, landed := landed }

/-- The writes of the units of an effect in order, each unit read on the state its forerunners left (R180, R208). -/
def unitWrites {U : Type} (eff : State → Op → U → Eff) : List U → State → Op → List (Nat × List Byte)
  | [], _, _ => []
  | u :: r, s, o =>
    let ws := (eff s o u).writes
    ws ++ unitWrites eff r (storeAll s o.part o.id ws) (seeWrites o ws)

/-- The groups of a GATHER or SCATTER in the order in which they are worked, each with its lanes as they stand on what the groups
before it wrote: entry, group, lanes (R347, R350). -/
def workedGroups : List (Nat × List Nat × Nat) → State → Op → List (Nat × Nat × List Lane)
  | [], _, _ => []
  | (i, e, g) :: r, s, o =>
    let ls := lanesOf s o e g
    (i, g, ls) :: workedGroups r (storeAll s o.part o.id (groupWrite ls)) (seeWrites o (groupWrite ls))

/-- The command of an operator of one OPC carries out its effect, unit by unit, on an operation that is ready for it: a poisoned
line of an input ends it MEM_ERROR, unless the operator deals with poison itself; a unit whose status ends the operation ends it
so; otherwise the units' writes are stored and the operation waits for its last tile to complete. An operation that is not ready
is left as it is. -/
structure RunsAs {U : Type} (c : Nat → Instr) (opc : Nat) (own : Bool) (units : Op → List U) (eff : State → Op → U → Eff) :
    Prop where
  idle : ∀ (s : State) (op : Nat) (o : Op), opOf? s op = some o → opReady s o opc = false → Machine.exec (c op) s = .next s
  poison : ∀ (s : State) (op : Nat) (o : Op), opOf? s op = some o → opReady s o opc = true → own = false →
    o.ins.any (fun r => touchesPoison s r.1 r.2) = true →
    ∃ t, Machine.exec (c op) s = .next t ∧ EndedWith t op stMEM_ERROR ∧ OthersKept op s t
  ends : ∀ (s : State) (op : Nat) (o : Op), opOf? s op = some o → opReady s o opc = true →
    (own || !(o.ins.any (fun r => touchesPoison s r.1 r.2))) = true →
    let x := runUnits eff (units o) s o {}
    effEnds x.2.2 = true → ∃ t, Machine.exec (c op) s = .next t ∧ EndedWith t op x.2.2.status ∧ OthersKept op s t
  stores : ∀ (s : State) (op : Nat) (o : Op), opOf? s op = some o → opReady s o opc = true →
    (own || !(o.ins.any (fun r => touchesPoison s r.1 r.2))) = true → s.mem.wf = true → eddiesOk s.mem = true →
    opsOk s.weir = true →
    let x := runUnits eff (units o) s o {}
    effEnds x.2.2 = false → ∃ t, Machine.exec (c op) s = .next t ∧ Stored s t o.part (unitWrites eff (units o) s o) ∧
      opOf? t op = some (o.afterEff x.2.1.landed x.2.2) ∧ OthersKept op s t

/-- What only rises: admission numbers, nonces drawn, free values drawn, resets of memory, time; and the repair map, which only
grows. -/
structure Onward (s t : State) : Prop where
  ops : s.weir.nextOp ≤ t.weir.nextOp
  nonces : s.mgmt.nonces ≤ t.mgmt.nonces
  free : s.mem.free ≤ t.mem.free
  epoch : s.mem.epoch ≤ t.mem.epoch
  time : s.nowUs ≤ t.nowUs
  repair : s.nv.repair <+: t.nv.repair

end Sys2Proof.Machine
end

