-- ==== Sys2Proof/Certificates/Slice0/Obligations.lean ====
section
/-! DEFINITION. The statements for the provers, each a proposition about the machine. -/

open Sys2Proof Sys2Proof.Machine

/-- For every command c, queue rest and state s: a step of s with c at the front of its queue is exec c on s with the rest as
its queue. The queue is the model's (log 1). -/
def Obligations.StepRunsFront : Prop :=
  ∀ (c : Instr) (rest : List Instr) (s : State),
    step { s with pending := c :: rest } = exec c { s with pending := rest }

/-- On an empty queue a step answers a next state (log 3, the model's choice of a tick): nowUs rises by one; the credit level
of each partition listed rises by CREDIT_RATE millionths of a descriptor, no further than CREDIT_BURST descriptors; the pulse
of ALERT_N ends; a pseudo-channel being moved goes on to its next run (log 69); nothing else changes, and no partition gains
or loses a record. -/
def Obligations.IdleStepIsOneMicrosecond : Prop :=
  ∀ s : State, s.pending = [] → ∃ t, step s = .next t ∧ t.nowUs = s.nowUs + 1 ∧
    (∀ p r, tabGet? s.parts p = some r → tabGet? t.parts p = some { r with
      level := min (rd s oCREDIT_BURST (p + 1) * 1000000) (r.level + rd s oCREDIT_RATE (p + 1)) }) ∧
    t.parts.map (fun e => e.1) = s.parts.map (fun e => e.1) ∧
    t = { s with nowUs := t.nowUs, parts := t.parts, power := { s.power with alertPulse := false }
                 regr := { s.regr with jobs := t.regr.jobs } } ∧
    t.regr.jobs = s.regr.jobs.map nextRun ∧ (∀ k ch run, nextRun (.move k ch run) = .move k ch (min channelRuns (run + 1))) ∧
    ∀ j ∈ s.regr.jobs, (∀ k ch run, j ≠ .move k ch run) → nextRun j = j

/-- State.reset has no command waiting, no operation, no intake or completion queue, no partition record, no session, no value
that waits for a start, nothing held for the host; its memory lists nothing and has the canonical form, its Eddies included;
its operations, intake queues and Spawn table are in order; its persisted copies hold persisted objects only; power good,
compute power and full mode are off; BOOT_STAGE, BOOT_FAULT and PWR_STATUS read 0 (the objects' Defaults). -/
def Obligations.ResetIsEmptyAndWellFormed : Prop :=
  State.reset.pending = [] ∧ State.reset.weir.ops = [] ∧ State.reset.iqs = [] ∧ State.reset.cqs = [] ∧
    State.reset.parts = [] ∧ State.reset.fns = [] ∧ State.reset.mgmt.sessions = [] ∧ State.reset.staged = [] ∧
    State.reset.hostHeld = [] ∧ State.reset.outRecords = [] ∧ State.reset.mem.cells = [] ∧ State.reset.mem.wf = true ∧
    eddiesOk State.reset.mem = true ∧ opsOk State.reset.weir = true ∧ tabSorted State.reset.iqs = true ∧
    spawnOk State.reset.spawn = true ∧ copiesOk State.reset.nv = true ∧ stagedOk State.reset = true ∧ State.reset.power.good = false ∧
    State.reset.power.compute = false ∧ State.reset.power.fullMode = false ∧ rd State.reset oBOOT_STAGE 0 = 0 ∧ rd State.reset oBOOT_FAULT 0 = 0 ∧
    rd State.reset oPWR_STATUS 0 = 0

/-- For every state whose memory has the canonical form (addresses strictly rising in the listings of bytes, of host bytes, of
poisoned lines and of Eddies; no byte listed that its address would read as unlisted) and whose Eddies are in order (each
entry a DRAM line of its own stack, no line twice, its bytes within the line by rising offset; each waiting write within one
line), if a step answers a next state then that state's memory and Eddies have the form too. The form is the model's (log 4).
-/
def Obligations.StepKeepsMemoryForm : Prop :=
  ∀ s t : State, s.mem.wf = true → eddiesOk s.mem = true → step s = .next t →
    t.mem.wf = true ∧ eddiesOk t.mem = true

/-- For every state whose admitted operations are listed by strictly rising admission number, all below the next number to
give, each of one of the 128 partitions and each collective of one of the 16 groups, whose intake queues, branches and page
counts are listed by rising number, whose two persisted copies hold persisted objects only, and where the values that limited
mode keeps for the next start are of 0x3000 to 0x6FFF only, if a step answers a next state then all of this holds of it too:
admission numbers are never reused, the order of admission, on which flows rest, is never disturbed, a start never loads an
object that is not persisted, and no other object waits for one. -/
def Obligations.StepKeepsOrderAndCopies : Prop :=
  ∀ s t : State, opsOk s.weir = true → tabSorted s.iqs = true → spawnOk s.spawn = true → copiesOk s.nv = true → stagedOk s = true →
    step s = .next t → opsOk t.weir = true ∧ tabSorted t.iqs = true ∧ spawnOk t.spawn = true ∧ copiesOk t.nv = true ∧ stagedOk t = true

/-- If a step answers a next state, then the next admission number, the count of device nonces drawn, the count of free values
drawn, the count of memory losses and the time are no lower than before, and the repair map is the old one with entries added
at its end: no nonce is drawn twice and no repair is ever forgotten, whatever the command, a cold reset included. -/
def Obligations.StepOnlyMovesOnward : Prop :=
  ∀ s t : State, step s = .next t → Onward s t

/-- While power good is high: at 36 V to below 40 V bit 0 (V48_LOW) of PWR_STATUS is set, bit 1 clear, ALERT_N is asserted
(where the test port does not hold the pin) and the 10 ms limit runs; above 60 V to 63 V bit 1 (V48_HIGH) is set, bit 0 clear,
ALERT_N is asserted and the 1 ms limit runs; at 40 V to 60 V both bits are clear and neither limit runs. The other bits of
PWR_STATUS keep their values; nothing else changes but the input level and what notifications change. -/
def Obligations.InputVoltageBands : Prop :=
  ∀ (s : State) (mv : Nat), s.power.good = true →
    (36000 ≤ mv → mv < 40000 → ∃ t, exec (.v48Low mv) s = .next t ∧
      (rd t oPWR_STATUS 0).testBit 0 = true ∧ (rd t oPWR_STATUS 0).testBit 1 = false ∧
      (∀ i, 2 ≤ i → (rd t oPWR_STATUS 0).testBit i = (rd s oPWR_STATUS 0).testBit i) ∧ Alerts t ∧
      Told [objKey oPWR_STATUS 0]
        { s with pins := { s.pins with v48Mv := mv }, power := { s.power with lowTimer := true, highTimer := false } } t) ∧
    (60000 < mv → mv ≤ 63000 → ∃ t, exec (.v48High mv) s = .next t ∧
      (rd t oPWR_STATUS 0).testBit 0 = false ∧ (rd t oPWR_STATUS 0).testBit 1 = true ∧
      (∀ i, 2 ≤ i → (rd t oPWR_STATUS 0).testBit i = (rd s oPWR_STATUS 0).testBit i) ∧ Alerts t ∧
      Told [objKey oPWR_STATUS 0]
        { s with pins := { s.pins with v48Mv := mv }, power := { s.power with highTimer := true, lowTimer := false } } t) ∧
    (40000 ≤ mv → mv ≤ 60000 → ∃ t, exec (.v48Normal mv) s = .next t ∧
      (rd t oPWR_STATUS 0).testBit 0 = false ∧ (rd t oPWR_STATUS 0).testBit 1 = false ∧
      (∀ i, 2 ≤ i → (rd t oPWR_STATUS 0).testBit i = (rd s oPWR_STATUS 0).testBit i) ∧
      Told [objKey oPWR_STATUS 0]
        { s with pins := { s.pins with v48Mv := mv }, power := { s.power with highTimer := false, lowTimer := false } } t)

/-- While power good is high and no shutdown is in force: V48_UNDER at 30 V to below 36 V and V48_LOW_TIMEOUT while the 10 ms
limit runs shut the package down with SHUTDOWN_CAUSE 3; V48_OVER above 63 V and V48_HIGH_TIMEOUT while the 1 ms limit runs,
with SHUTDOWN_CAUSE 4. SHUTDOWN_COUNT rises by one (saturating), bit 2 of PWR_STATUS is set, the compute rails, queues,
operations, partitions' records, Spawn table, contexts and memory contents are lost (ComputeGone), power good stays, and
objects outside those named and those the compute side produces keep their values: the lock and fallback bits of CLK_STATUS
and the replica objects too (log 62, the model's choice); poisoned lines stay poisoned (log 4, the model's reading of R450).
-/
def Obligations.VoltageShutsThePackageDown : Prop :=
  ∀ s : State, s.power.good = true → s.power.shutdown = false →
    let shut := fun (c : Instr) (cause : Nat) => ∃ t, exec c s = .next t ∧ t.power.shutdown = true ∧ t.power.good = true ∧
      rd t oSHUTDOWN_CAUSE 0 = cause ∧ rd t oSHUTDOWN_COUNT 0 = satAdd max32 (rd s oSHUTDOWN_COUNT 0) 1 ∧
      (rd t oPWR_STATUS 0).testBit 2 = true ∧ ComputeGone s t ∧
      ∀ o sub, sub < 256 → computeObj o = false → o ≠ oSHUTDOWN_CAUSE → o ≠ oSHUTDOWN_COUNT → o ≠ oPWR_STATUS →
        o ≠ oNOTIFY_LOST → rd t o sub = rd s o sub
    (∀ mv, 30000 ≤ mv → mv < 36000 → shut (.v48Under mv) 3) ∧ (∀ mv, 63000 < mv → shut (.v48Over mv) 4) ∧
      (s.power.lowTimer = true → shut .v48LowTimeout 3) ∧ (s.power.highTimer = true → shut .v48HighTimeout 4)

/-- COLD_RESET (the management rail is lost): power good, every queue, operation, session and table and every object but those
fused or given by the assembly is as in State.reset; kept are those objects, the persisted copies, the repair map, the spare
lanes and the boot count, both firmware banks, host memory, PERSTn_N and RESET_N, and the model's counters; the contents of
every on-package memory are unspecified (a new epoch) and no line is poisoned (log 4). What counts as fused or given by the
assembly is the model's reading (log 2). The queue of commands is not the package's and stays. -/
def Obligations.ColdResetKeepsOnlyThePersisted : Prop :=
  ∀ s : State, ∃ t, exec .coldReset s = .next t ∧ t.pending = s.pending ∧
    t.dict = s.dict.filter (fun e => fusedObj (e.1 / 256)) ∧ t.blobs = s.blobs.filter (fun e => fusedObj (e.1 / 256)) ∧ t.power = {} ∧
    t.clock = {} ∧ t.therm = {} ∧ t.iqs = [] ∧ t.cqs = [] ∧ t.parts = [] ∧ t.fns = [] ∧ t.hostHeld = [] ∧ t.outRecords = [] ∧ t.staged = [] ∧
    t.stagedBlobs = [] ∧ t.weir.ops = [] ∧ t.cores = [] ∧
    t.spawn = {} ∧ t.fabric = {} ∧ t.regr = {} ∧ t.jtag = {} ∧ t.mgmt.sessions = [] ∧
    t.nv.copyA = s.nv.copyA ∧ t.nv.copyB = s.nv.copyB ∧ t.nv.repair = s.nv.repair ∧ t.nv.lanes = s.nv.lanes ∧
    t.nv.bootNo = s.nv.bootNo ∧ t.fw = { s.fw with active := 0 } ∧ t.pins = { s.pins with v48Mv := 0 } ∧
    (∀ e, (epOf t e).perst = (epOf s e).perst ∧ (epOf t e).linkUp = false) ∧
    (∀ l, poisoned t l = false) ∧ (∀ fn a, hostByte t fn a = hostByte s fn a) ∧
    (∀ a, readByte t a = Config.unwrittenByte (s.mem.epoch + 1) a) ∧
    (∀ o sub, sub < 256 → fusedObj o = false → rd t o sub = objDefault o sub) ∧
    (∀ o sub, sub < 256 → fusedObj o = true → rd t o sub = rd s o sub)

/-- POWER_GOOD_RISE with power good low and RESET_N high samples the straps into STRAPS, CLK_MODE and PLCA_NODE_ID, and step 4
follows: BOOT_STAGE 4, RESET_CAUSE 0. RESET_N_ASSERT with power good high and no shutdown loses the compute side, closes every
session and returns BOOT_STAGE to its Default, power good staying; after a shutdown it only records the request, with cause 1.
RESET_N_DEASSERT with power good and no shutdown samples the straps and step 4 follows. SHUTDOWN_RESTART with a held request,
the package cool, V48_IN within 40 to 60 V and RESET_N high runs step 4 with the held cause. The persisted copies are taken to
hold persisted objects only, which every step keeps. In each of the starts BOOT_STAGE reads 4 and the power-on count rises by
one. -/
def Obligations.ResetPinAndPowerGood : Prop :=
  ∀ (s : State) (clk : Bool) (id : Nat), id < 32 → copiesOk s.nv = true →
    let straps := fun t : State => rd t oSTRAPS 0 = id + (if clk then 32 else 0) ∧ rd t oCLK_MODE 0 = (if clk then 1 else 0) ∧
      rd t oPLCA_NODE_ID 0 = id
    let starts := fun (t : State) (cause : Nat) => rd t oBOOT_STAGE 0 = 4 ∧ rd t oRESET_CAUSE 0 = cause ∧
      t.power.good = true ∧ t.nv.bootNo = (s.nv.bootNo + 1) % 2 ^ 32 ∧ t.power.fullMode = false
    (s.power.good = false → s.power.fullMode = false → s.pins.resetLow = false →
      ∃ t, exec (.powerGoodRise clk id) s = .next t ∧ straps t ∧ starts t 0 ∧ t.mem = s.mem ∧ t.weir = s.weir) ∧
    (s.power.good = true → s.power.shutdown = false → s.pins.resetLow = false →
      ∃ t, exec .resetNAssert s = .next t ∧ t.pins.resetLow = true ∧ t.power.good = true ∧ t.power.bootCause = 1 ∧
        t.mgmt.sessions = [] ∧ rd t oBOOT_STAGE 0 = 0 ∧ ComputeGone s t) ∧
    (s.power.good = true → s.power.shutdown = true → s.pins.resetLow = false →
      exec .resetNAssert s = .next { s with pins := { s.pins with resetLow := true }, power := { s.power with held := some 1 } }) ∧
    (s.power.good = true → s.power.shutdown = false → s.power.fullMode = false → s.pins.resetLow = true →
      ∃ t, exec (.resetNDeassert clk id) s = .next t ∧ straps t ∧ starts t s.power.bootCause ∧ t.pins.resetLow = false ∧
        t.mem = s.mem) ∧
    (∀ cause, s.power.held = some cause → s.power.shutdown = true → s.power.good = true → packageCool s = true →
      40000 ≤ s.pins.v48Mv → s.pins.v48Mv ≤ 60000 → s.pins.resetLow = false →
      ∃ t, exec .shutdownRestart s = .next t ∧ starts t cause ∧ t.power.shutdown = false ∧ t.power.held = none ∧
        ComputeGone s t)

/-- CRYSTAL_OSCILLATION sets bit 1 of CLK_STATUS and clocks the management port; where it was not clocked yet, node 0 begins
to send beacons for PLCA_NODE_COUNT nodes (log 69). Where the sequence stands at the step before (and the test port does not
hold it): REFERENCE_QUALIFIED, in CLKSEL mode or with the crystal running, sets bit 2 and BOOT_STAGE 6; REF_FAULT sets bit 6
and halts the sequence with ALERT_N asserted; LOOPS_LOCKED sets bits 3, 4 and 5, clears bit 8 and sets BOOT_STAGE 7;
LOOP_LOCK_FAILURE sets bit 0 of BOOT_FAULT and halts; COMPUTE_RAILS_IN_REGULATION brings every quadrant up at P7 with the P7
rail and divisor, turns envelope and Bask on and sets BOOT_STAGE 8; RAIL_FAILURE sets bit 1 of BOOT_FAULT and halts. A step
that halts leaves BOOT_STAGE. Nothing else changes but what notifications change. -/
def Obligations.PowerOnSteps : Prop :=
  ∀ s : State,
    let clk := fun (t : State) (i : Nat) => (rd t oCLK_STATUS 0).testBit i
    let fails := fun (c : Instr) (bit : Nat) => ∃ t, exec c s = .next t ∧ (rd t oBOOT_FAULT 0).testBit bit = true ∧
      Alerts t ∧ SameObjs [objKey oBOOT_FAULT 0] s t ∧
      t = { s with dict := t.dict, power := { s.power with halted := true } }
    (∃ t, exec .crystalOscillation s = .next t ∧ clk t 1 = true ∧ (∀ i, i ≠ 1 → clk t i = clk s i) ∧
      (s.clock.phyOn = false → s.power.good = true → rd s oPLCA_NODE_ID 0 = 0 →
        t.out.head? = some (.beacons (rd s oPLCA_NODE_COUNT 0))) ∧
      Told [objKey oCLK_STATUS 0] { s with clock := { s.clock with phyOn := true } } t) ∧
    (atStage s 4 = true → mayReach s 6 = true → (rd s oCLK_MODE 0 = 1 ∨ clk s 1 = true) →
      ∃ t, exec .referenceQualified s = .next t ∧ clk t 2 = true ∧ (∀ i, i ≠ 2 → clk t i = clk s i) ∧
        rd t oBOOT_STAGE 0 = 6 ∧ Told [objKey oCLK_STATUS 0, objKey oBOOT_STAGE 0] s t) ∧
    (atStage s 4 = true → mayReach s 6 = true → ∃ t, exec .refFault s = .next t ∧ clk t 6 = true ∧
      (∀ i, i ≠ 6 → clk t i = clk s i) ∧ Alerts t ∧ rd t oBOOT_STAGE 0 = 4 ∧
      Told [objKey oCLK_STATUS 0] { s with power := { s.power with halted := true } } t) ∧
    (atStage s 6 = true → mayReach s 7 = true → ∃ t, exec .loopsLocked s = .next t ∧
      clk t 3 = true ∧ clk t 4 = true ∧ clk t 5 = true ∧ clk t 8 = false ∧
      (∀ i, i ∉ [3, 4, 5, 8] → clk t i = clk s i) ∧
      rd t oBOOT_STAGE 0 = 7 ∧ Told [objKey oCLK_STATUS 0, objKey oBOOT_STAGE 0] s t) ∧
    (atStage s 6 = true → mayReach s 7 = true → fails .loopLockFailure 0) ∧
    (atStage s 7 = true → mayReach s 8 = true → fails .railFailure 1) ∧
    (atStage s 7 = true → mayReach s 8 = true → ∃ t, exec .computeRailsInRegulation s = .next t ∧
      (∀ q, q < 8 → seqOf t q = { level := 7, phase := .idle, railMv := 550 }) ∧
      (∀ q, 8 ≤ q → seqOf t q = seqOf s q) ∧
      (∀ q, q < 8 → rd t oMC_DIVISOR (q + 1) = if stackFitted s q then 6 else 0) ∧ rd t oBOOT_STAGE 0 = 8 ∧
      Told (objKey oBOOT_STAGE 0 :: (List.range 8).flatMap (fun q => [objKey oMC_DIVISOR (q + 1), objKey oREFRESH_MODE (q + 1)]))
        { s with
          power := { s.power with compute := true, control := true }
          clock := { s.clock with seqs := t.clock.seqs } } t)

/-- BUILT_IN_SELF_TEST at stage 8 sets BOOT_STAGE 9; afterwards every logical core is retired without replacement or runs on a
physical core that did not fail; a core whose physical core passed stays where it was; BIST_CORE (bit 2 of BOOT_FAULT) is set
if a core was retired. A Pool bank in use whose physical bank passed stays where it was; one whose physical bank failed is
then in a spare bank that passed, or it is removed from the Pool with BIST_POOL (bit 3) set. The repair map only gains entries
(what fails is recorded there, log 52). DRAM_TRAINING at stage 9 sets BOOT_STAGE 10: an unfitted stack has no active channel;
a stack on which nothing trains is set aside (0 active) with bit 5; on any other stack each failed channel is out of use,
STACK_PC_ACTIVE is 34 less the channels out of use and the idle spares, STACK_SPARE_FREE the idle spares, and bit 4 is set
where fewer than 32 are active, whenever they were retired (log 62); every fabric port of the package begins to train. Nothing
else changes but what notifications change. -/
def Obligations.SelfTestAndTraining : Prop :=
  ∀ s : State,
    (∀ cores banks, atStage s 8 = true → ∃ t, exec (.builtInSelfTest cores banks) s = .next t ∧ rd t oBOOT_STAGE 0 = 9 ∧
      (∀ c, c < 128 → coreRetired t c = true ∨ physOf t c ∉ cores) ∧
      (∀ c, c < 128 → coreRetired s c = false → physOf s c ∉ cores → coreRetired t c = false ∧ physOf t c = physOf s c) ∧
      (∀ c, c < 128 → coreRetired s c = false → coreRetired t c = true → (rd t oBOOT_FAULT 0).testBit 2 = true) ∧
      (∀ d b, d < 2 → b < 48 → bankRemoved s d b = false →
        let place := fun u : State => 50 * d + bankIn u.nv.repair d b b
        (place s ∉ banks → bankRemoved t d b = false ∧ place t = place s) ∧
        (place s ∈ banks → (bankRemoved t d b = false ∧ place t ∉ banks) ∨
          (bankRemoved t d b = true ∧ (rd t oBOOT_FAULT 0).testBit 3 = true))) ∧
      s.nv.repair <+: t.nv.repair ∧
      Told [objKey oBOOT_STAGE 0, objKey oBOOT_FAULT 0] { s with nv := { s.nv with repair := t.nv.repair } } t) ∧
    (∀ failed, atStage s 9 = true → ∃ t, exec (.dramTraining failed) s = .next t ∧ rd t oBOOT_STAGE 0 = 10 ∧
      (∀ k, k < 8 →
        if stackFitted s k = false then rd t oSTACK_PC_ACTIVE (k + 1) = 0
        else if (List.range 34).all (fun c => failed.contains (k, c) || (deadChannels s k).contains c) = true then
          rd t oSTACK_PC_ACTIVE (k + 1) = 0 ∧ (rd t oBOOT_FAULT 0).testBit 5 = true
        else (∀ c, c < 34 → (k, c) ∈ failed → c ∈ deadChannels t k) ∧
          rd t oSTACK_PC_ACTIVE (k + 1) = 34 - (deadChannels t k).length - (idleChannels t k).length ∧
          rd t oSTACK_SPARE_FREE (k + 1) = (idleChannels t k).length ∧
          (rd t oSTACK_PC_ACTIVE (k + 1) < 32 → (rd t oBOOT_FAULT 0).testBit 4 = true)) ∧
      (∀ n, n < portCount s → portCode t n = 1) ∧ s.nv.repair <+: t.nv.repair ∧
      Told ([objKey oBOOT_STAGE 0, objKey oBOOT_FAULT 0] ++ (List.range 8).flatMap (fun k =>
          [objKey oSTACK_PC_ACTIVE (k + 1), objKey oSTACK_SPARE_FREE (k + 1)]) ++
          (List.range 16).map (fun n => objKey oPORT_STATE (n + 1)))
        { s with nv := { s.nv with repair := t.nv.repair } } t)

/-- PARTITION_RESTORE at stage 10 completes: the values that limited mode has accepted take effect, but for those that fabric
training applies (log 67), and full mode begins with BOOT_STAGE 13. A partition whose PART_FUNC holds VALID, that has a core
not retired without replacement, whose DRAM quota fits within DRAM_BYTES and whose resources no partition restored before it
owns (R419), is active afterwards: PART_CORES holds the cores it has left, its credit level is CREDIT_BURST, nothing of it is
being reset, the store of its cores reads zero (log 52, the model's choice), its queues are as after reset (R422), its bit in
RESTORE_STATUS stays. Any other one with VALID keeps its PART_STATE and has its bit in RESTORE_STATUS set, with
PARTITION_RESTORE (bit 8) in BOOT_FAULT. A partition without VALID keeps its PART_STATE, its cores and its bit. Operations,
every other queue, branches, the fabric and host memory do not change. -/
def Obligations.PartitionsRestored : Prop :=
  ∀ s : State, atStage s 10 = true →
    let u := applyStaged s (fun i => !(trainingObj i))
    let inside := fun (o q p : Nat) => rangeBase (rd u o (p + 1)) ≤ q ∧ q < rangeBase (rd u o (p + 1)) + rangeCount (rd u o (p + 1))
    let meets := fun (t : State) (p r : Nat) => partFn u p = partFn u r ∨
      rd u oPART_CORES (p + 1) &&& rd (if r < p then t else u) oPART_CORES (r + 1) ≠ 0 ∨
      rd u oPART_DRAM_EXT (p + 1) &&& rd u oPART_DRAM_EXT (r + 1) ≠ 0 ∨
      rd u oPART_POOL_EXT (p + 1) &&& rd u oPART_POOL_EXT (r + 1) ≠ 0 ∨
      (∃ q, inside oIQ_RANGE q p ∧ inside oIQ_RANGE q r) ∨ ∃ q, inside oCQ_RANGE q p ∧ inside oCQ_RANGE q r
    let fits := fun (t : State) (p : Nat) => coresLeft u p ≠ [] ∧ partDramMib u p * 2 ^ 20 ≤ dramBytes u ∧
      ∀ r, r < 128 → r ≠ p → partExists (if r < p then t else u) r = true → ¬meets t p r
    ∃ t, exec .partitionRestore s = .next t ∧ t.power = { s.power with fullMode := true } ∧ rd t oBOOT_STAGE 0 = 13 ∧
      (∀ p, p < 128 →
        if (rd u oPART_FUNC (p + 1)).testBit 15 = false then
          rd t oPART_STATE (p + 1) = rd u oPART_STATE (p + 1) ∧ rd t oPART_CORES (p + 1) = rd u oPART_CORES (p + 1) ∧
            (rd t oRESTORE_STATUS 0).testBit p = (rd u oRESTORE_STATUS 0).testBit p
        else (¬fits t p → rd t oPART_STATE (p + 1) = rd u oPART_STATE (p + 1) ∧ (rd t oRESTORE_STATUS 0).testBit p = true ∧
            (rd t oBOOT_FAULT 0).testBit 8 = true) ∧
          (fits t p → rd t oPART_STATE (p + 1) = 1 ∧ rd t oPART_CORES (p + 1) = coreMask (coresLeft u p) ∧
            partOf t p = { level := rd u oCREDIT_BURST (p + 1) * 1000000 } ∧
            (rd t oRESTORE_STATUS 0).testBit p = (rd u oRESTORE_STATUS 0).testBit p ∧
            (∀ q, inside oIQ_RANGE q p → iqOf t q = {}) ∧ (∀ q, inside oCQ_RANGE q p → cqOf t q = {}) ∧
            ∀ c ∈ coresLeft u p, ∀ a, coreBase c ≤ a → a < coreBase c + 0x600000 → readByte t a = 0)) ∧
      (∀ q, (∀ p, p < 128 → (rd u oPART_FUNC (p + 1)).testBit 15 = true → fits t p → ¬inside oIQ_RANGE q p) →
        iqOf t q = iqOf s q) ∧
      (∀ q, (∀ p, p < 128 → (rd u oPART_FUNC (p + 1)).testBit 15 = true → fits t p → ¬inside oCQ_RANGE q p) →
        cqOf t q = cqOf s q) ∧
      t.weir = s.weir ∧ t.fabric = s.fabric ∧ t.spawn = s.spawn ∧ t.mem.host = s.mem.host ∧
      t.staged = s.staged.filter (fun e => trainingObj (e.1 / 256))

/-- A configuration request to a function of an endpoint whose link is up and whose PCIe core is clocked is answered: with
Request Retry Status while BOOT_STAGE is not 13, the answer being all that changes; normally where it reads 13, the function
taking what the request configures and no other function changing. A read changes nothing but the answer, which holds the
vendor and Device ID, the class code, a BAR with its type bits, or of function 0 the serial number. A BAR takes a base address
to its size, Max_Payload_Size and the MSI-X enable, mask and vectors take what is written; the power state is that of function
0, and NumVFs its own while no VF is enabled. Where these stand, which request reaches what, and that a request is read as one
operand, is the model's (log 58, PRESUMED). While the PCIe core is gated the request is held for the relock (log 56). -/
def Obligations.ConfigurationRetriedUntilStep13 : Prop :=
  ∀ (s : State) (fn : Nat) (req : CfgReq), (epOf s (fn / 256)).linkUp = true → fn % 256 ≤ 127 →
    (s.clock.rootGated = true →
      exec (.configRequest fn req) s = .next { s with hostHeld := s.hostHeld ++ [.config fn req] }) ∧
    (s.clock.rootGated = false → rd s oBOOT_STAGE 0 ≠ 13 →
      exec (.configRequest fn req) s = .next { s with out := .config fn false :: s.out }) ∧
    (s.clock.rootGated = false → rd s oBOOT_STAGE 0 = 13 →
      (∀ reg, exec (.configRequest fn (.read reg)) s = .next { s with out := .config fn true (cfgRead s fn reg) :: s.out }) ∧
      cfgRead s fn 0 = (if fn % 256 = 0 then 0x4E0D else 0x4E0E) * 65536 + rd s oPCI_IDS 0 % 65536 ∧
      cfgRead s fn 8 / 256 = 0x120000 ∧
      cfgRead s fn 0x10 + 2 ^ 32 * cfgRead s fn 0x14 = (fnOf s fn).bar0 % 2 ^ 64 + 4 ∧
      cfgRead s fn 0x18 + 2 ^ 32 * cfgRead s fn 0x1C = (fnOf s fn).bar2 % 2 ^ 64 + 4 ∧
      exec (.configRequest fn .serial) s = .next { s with
        out := .config fn true (if fn % 256 = 0 then rd s oDEVICE_SERIAL 0 else 0) :: s.out } ∧
      ∃ t data, exec (.configRequest fn req) s = .next t ∧ t.out.head? = some (.config fn true data) ∧
        (∀ f, f ≠ fn → fnOf t f = fnOf s f) ∧ t = { s with fns := t.fns, out := t.out } ∧
        (∀ base, req = .bar 0 base → fnOf t fn = { fnOf s fn with bar0 := base % 2 ^ 64 / 0x80000 * 0x80000 }) ∧
        (∀ base, req = .bar 2 base → fnOf t fn = { fnOf s fn with
          bar2 := base % 2 ^ 64 / (if fn % 256 = 0 then 0x10000 else 0x1000) * (if fn % 256 = 0 then 0x10000 else 0x1000) }) ∧
        (∀ bytes, req = .payload bytes → fnOf t fn = { fnOf s fn with payload := bytes }) ∧
        (∀ on mask, req = .msix on mask → fnOf t fn = { fnOf s fn with
          msixEnable := on, msixMask := mask, pending := (fnOf t fn).pending }) ∧
        (∀ v addr word masked, req = .vector v addr word masked → fnOn s fn = true → v < msixVectors fn →
          fnOf t fn = { fnOf s fn with
            vectors := tabPut (fnOf s fn).vectors v { addr := addr, data := word, masked := masked }
            pending := (fnOf t fn).pending }) ∧
        (∀ d3, req = .power d3 → fn % 256 = 0 → fnOf t fn = { fnOf s fn with d3 := d3 }) ∧
        (∀ n, req = .vfs n → fn % 256 = 0 → n ≤ 127 → (fnOf s fn).vfs = 0 → fnOf t fn = { fnOf s fn with vfs := n }))

/-- Where an endpoint can train (fitted, step 8 done, PERSTn_N high, the PCIe core clocked), PCIE_LINK_TRAINING in Flit mode
at width 16, 8 or 4 and 2.5 to 64 GT/s brings its link up at that width and rate, and without Flit mode leaves everything as
it is; PCIE_LINK_LOSS takes an up link down and BOOT_STAGE stays; PERST_DEASSERT releases PERSTn_N of a fitted endpoint. The
other endpoint and everything else keep their values. -/
def Obligations.PcieLinkUpAndDown : Prop :=
  ∀ (s : State) (ep : Nat),
    (∀ width rate, epTrains s ep = true → width ∈ [16, 8, 4] → 2500 ≤ rate → rate ≤ 64000 →
      ∃ t, exec (.pcieLinkTraining ep width rate true) s = .next t ∧
        epOf t ep = { epOf s ep with linkUp := true, width := width, rateMt := rate } ∧
        (∀ e, e ≠ ep → epOf t e = epOf s e) ∧ t = { s with eps := t.eps }) ∧
    (∀ width rate, exec (.pcieLinkTraining ep width rate false) s = .next s) ∧
    ((epOf s ep).linkUp = true → ∃ t, exec (.pcieLinkLoss ep) s = .next t ∧
      epOf t ep = { epOf s ep with linkUp := false, width := 0, rateMt := 0 } ∧
      (∀ e, e ≠ ep → epOf t e = epOf s e) ∧ t = { s with eps := t.eps } ∧ rd t oBOOT_STAGE 0 = rd s oBOOT_STAGE 0) ∧
    (epFitted s ep = true → ∃ t, exec (.perstDeassert ep) s = .next t ∧ (epOf t ep).perst = false ∧
      (epOf t ep).linkUp = (epOf s ep).linkUp ∧ (∀ e, e ≠ ep → epOf t e = epOf s e) ∧ t = { s with eps := t.eps })

/-- PERST_ASSERT of a fitted endpoint takes its link down, forgets what the host configured of its functions, closes the
Stesto sessions of its mailbox, returns every slot to the host, and begins the reset of each active partition bound to the
endpoint. FUNCTION_LEVEL_RESET begins the reset of each active partition bound to the function and forgets its configuration
but for Max_Payload_Size; that of a PF does the same to the mailbox and clears VF Enable (log 58, the model's reading).
VF_ENABLE_CLEAR does so for each partition bound to a VF of the endpoint and disables the VFs. While the PCIe core is gated
these two are held for the relock (R69). A reset that begins sets PART_STATE 2; of the partition's operations only dispatched
ones remain, on a core with a wavefront in progress or a load pending (unless a core of the partition is being mapped, which
finishes first); every other partition keeps its state and its operations. The operations are taken to be listed by admission
number, which every step keeps. -/
def Obligations.ResetsFromThePcieSide : Prop :=
  ∀ s : State, opsOk s.weir = true →
    (∀ ep, epFitted s ep = true → ∃ t, exec (.perstAssert ep) s = .next t ∧ (epOf t ep).perst = true ∧
      (epOf t ep).linkUp = false ∧ (∀ e, e ≠ ep → epOf t e = epOf s e) ∧ boxOf t ep = {} ∧
      (∀ f, fnOf t f = if f / 256 = ep then {} else fnOf s f) ∧
      t.mgmt.sessions = s.mgmt.sessions.filter (fun x => !(boxSession ep x)) ∧
      PartsReset (fun f => f / 256 = ep) s t) ∧
    (s.clock.rootGated = true → (∀ fn, exec (.functionLevelReset fn) s = .next { s with hostHeld := s.hostHeld ++ [.flr fn] }) ∧
      ∀ ep, exec (.vfEnableClear ep) s = .next { s with hostHeld := s.hostHeld ++ [.vfClear ep] }) ∧
    (s.clock.rootGated = false → ∀ fn, ∃ t, exec (.functionLevelReset fn) s = .next t ∧ t.eps = s.eps ∧
      fnOf t fn = { payload := (fnOf s fn).payload } ∧
      (fn % 256 = 0 → boxOf t (fn / 256) = {} ∧ t.mgmt.sessions = s.mgmt.sessions.filter (fun x => !(boxSession (fn / 256) x))) ∧
      (fn % 256 ≠ 0 → t.mgmt = s.mgmt) ∧
      PartsReset (fun f => f = fn ∨ (fn % 256 = 0 ∧ f / 256 = fn / 256 ∧ f % 256 ≠ 0)) s t) ∧
    (s.clock.rootGated = false → ∀ ep, ∃ t, exec (.vfEnableClear ep) s = .next t ∧ t.eps = s.eps ∧ t.mgmt = s.mgmt ∧
      fnOf t (256 * ep) = { fnOf s (256 * ep) with vfs := 0 } ∧
      (∀ f, f ≠ 256 * ep → fnOf t f = if f / 256 = ep then {} else fnOf s f) ∧
      PartsReset (fun f => f / 256 = ep ∧ f % 256 ≠ 0) s t)

/-- LOSS_OF_LOCK_ROOT with the root loop locked clears bit 3 and sets bit 8 of CLK_STATUS, counts in LOSS_COUNT 1, gates the
root-fed domains, gates every trained fabric port (PORT_STATE 4) and puts every fitted stack in self-refresh (REFRESH_MODE 2).
LOSS_OF_LOCK_MEMORY of a die with its loop locked clears bit 4 or 5, sets bit 9, counts in LOSS_COUNT 2 or 3, starts the
relock of that die and puts its fitted stacks in self-refresh. REF_LOST with the reference qualified sets bit 7; where the
crystal is the reference (CLK_MODE 0) and has stopped, power being good, whether or not the reference was qualified or lost
before, it clears bit 1, the management port loses its clock, and ALERT_N is asserted. The other bits of CLK_STATUS, REF_QUAL
among them (log 62, the model's choice), and everything not named keep their values but for what notifications change. -/
def Obligations.LossOfLockAndReference : Prop :=
  ∀ s : State,
    let clk := fun (t : State) (i : Nat) => (rd t oCLK_STATUS 0).testBit i
    (clk s 3 = true → ∃ t, exec .lossOfLockRoot s = .next t ∧ clk t 3 = false ∧ clk t 8 = true ∧
      (∀ i, i ≠ 3 → i ≠ 8 → clk t i = clk s i) ∧ rd t oLOSS_COUNT 1 = satAdd max32 (rd s oLOSS_COUNT 1) 1 ∧
      (∀ n, portTrained s n = true → n < 16 → portCode t n = 4) ∧
      (∀ n, n < 16 → portTrained s n = false → portCode t n = portCode s n) ∧
      (∀ k, k < 8 → stackFitted s k = true → rd t oREFRESH_MODE (k + 1) = 2) ∧
      Told ([objKey oCLK_STATUS 0, objKey oLOSS_COUNT 1] ++ (List.range 16).map (fun n => objKey oPORT_STATE (n + 1)) ++
          (List.range 8).map (fun k => objKey oREFRESH_MODE (k + 1)))
        { s with
          clock := { s.clock with rootGated := true }
          fabric := { s.fabric with ports := t.fabric.ports, holdCapped := t.fabric.holdCapped } } t) ∧
    (∀ die, die < 2 → clk s (4 + die) = true → ∃ t, exec (.lossOfLockMemory die) s = .next t ∧
      clk t (4 + die) = false ∧ clk t 9 = true ∧ (∀ i, i ≠ 4 + die → i ≠ 9 → clk t i = clk s i) ∧
      rd t oLOSS_COUNT (2 + die) = satAdd max32 (rd s oLOSS_COUNT (2 + die)) 1 ∧
      (∀ k, k < 8 → k / 4 = die → stackFitted s k = true → rd t oREFRESH_MODE (k + 1) = 2) ∧
      Told ([objKey oCLK_STATUS 0, objKey oLOSS_COUNT (2 + die)] ++ (List.range 8).map (fun k => objKey oREFRESH_MODE (k + 1)))
        { s with clock := { s.clock with
            relock0 := s.clock.relock0 || die == 0, relock1 := s.clock.relock1 || die == 1 } } t) ∧
    (∀ stopped : Bool,
      let stops := stopped && (rd s oCLK_MODE 0 == 0) && s.power.good
      ∃ t, exec (.refLost stopped) s = .next t ∧ clk t 7 = (clk s 7 || clk s 2) ∧
        (∀ i, i ≠ 7 → i ≠ 1 → clk t i = clk s i) ∧ clk t 1 = (clk s 1 && !stops) ∧ (stops = true → Alerts t) ∧
        Told [objKey oCLK_STATUS 0] { s with clock := { s.clock with phyOn := s.clock.phyOn && !stops } } t)

/-- ROOT_RELOCK while the root-fed domains are gated and the attempts have not failed, no chip error raised and no failure of
a loop standing unraised: bit 3 is set, bits 8 and 7 are clear, the domains run, every gated port is back in the state it had,
each stack's REFRESH_MODE is what its own state asks for, with compute powered each quadrant's divisor is that of its
effective level, no record waits any more; where no PUT waits for its next message and no write for an Eddy, operations, cores
and on-package memory are as they were, but that every line request that waited has return space reserved, and where no record
waited the queues are too. Then the requests of the host that were held are carried out in their order, after the records (log
56, DEDUCED: R69 gives no order). That a loop which locks ends REF_LOST (bit 7) is log 51 (DEDUCED). MEM_RELOCK of a die whose
loop is being relocked and has not failed: its bit 4 or 5 is set, bit 7 is clear, the relock is over, bit 9 clears once
neither die relocks, and its fitted stacks leave self-refresh unless something else holds them there. -/
def Obligations.RelockRestoresService : Prop :=
  ∀ s : State, s.power.chipError = false → s.clock.rootNoted = false → s.clock.noted0 = false → s.clock.noted1 = false →
    let clk := fun (t : State) (i : Nat) => (rd t oCLK_STATUS 0).testBit i
    (s.clock.rootGated = true → s.clock.rootFailed = false →
      ∃ t, exec .rootRelock s = .next (s.hostHeld.foldl perform t) ∧ t.hostHeld = [] ∧ t.outRecords = [] ∧
        clk t 3 = true ∧ clk t 8 = false ∧ clk t 7 = false ∧
        (∀ i, i ∉ [3, 7, 8] → clk t i = clk s i) ∧ t.clock.rootGated = false ∧ t.power = s.power ∧
        (∀ n, n < 16 → portCode s n = 4 → portCode t n = (portOf s n).before % 8) ∧
        (∀ k, k < 8 → stackFitted s k = true → rd t oREFRESH_MODE (k + 1) =
          if (if k < 4 then s.clock.relock0 else s.clock.relock1) then 2 else if stackOwn s k = .normal then 0 else 1) ∧
        (s.power.compute = true → ∀ q, q < 8 → rd t oMC_DIVISOR (q + 1) =
          if stackFitted s q then divisorOf (effLevel s q) else 0) ∧
        t.weir.ops.map (fun o => o.id) = s.weir.ops.map (fun o => o.id) ∧
        ((∀ o ∈ s.weir.ops, o.putting = false) → s.mem.eddyWait = [] → t.weir = s.weir ∧ t.cores = s.cores ∧
          t.mem = { s.mem with host := t.mem.host, reads := s.mem.reads.map (fun r => { r with reserved := true }) } ∧
          (s.outRecords = [] → t.mem.host = s.mem.host ∧ t.iqs = s.iqs ∧ t.cqs = s.cqs))) ∧
    (∀ die, die < 2 → relocking s die = true → relockFailed s die = false →
      ∃ t, exec (.memRelock die) s = .next t ∧ clk t (4 + die) = true ∧ clk t 7 = false ∧ relocking t die = false ∧
        clk t 9 = (clk s 9 && relocking s (1 - die)) ∧ (∀ i, i ∉ [4 + die, 7, 9] → clk t i = clk s i) ∧
        (∀ k, k < 8 → k / 4 = die → stackFitted s k = true → s.clock.rootGated = false →
          rd t oREFRESH_MODE (k + 1) = if stackOwn s k = .normal then 0 else 1) ∧
        Told (objKey oCLK_STATUS 0 :: (List.range 8).map (fun k => objKey oREFRESH_MODE (k + 1)))
          { s with clock := { s.clock with
              relock0 := s.clock.relock0 && die != 0, relock1 := s.clock.relock1 && die != 1 } } t)

/-- ROOT_RELOCK_FAIL while gated, and MEM_RELOCK_FAIL of either die being relocked, of a loop that has not failed yet, no
other failure standing unraised: with REF_LOST set and another loop still being relocked it raises nothing yet; else
CONTAINED_COUNT rises by one (saturating) and ALERT_N is pulsed, also after an earlier chip error, and from then on the device
is in limited mode with dispatch stopped and every fitted stack in self-refresh. After the first such error with the root-fed
domains running every admitted operation has ended MEM_ERROR, none is lost and none added; with them gated operations and
memory stand as they are and end MEM_ERROR at ROOT_RELOCK; after a second error they stand as they are. MEM_RELOCK of either
die, the reference back with it, raises the failure of the other die that stood unraised. When the one error is raised is log
51 (DEDUCED). The operations are taken to be listed by admission number. -/
def Obligations.RelockFailureIsAChipError : Prop :=
  ∀ s : State, opsOk s.weir = true → s.clock.rootNoted = false →
    let lost := (rd s oCLK_STATUS 0).testBit 7
    let runs := fun die => relocking s die && !(relockFailed s die)
    let noted := fun (u : State) die => if die = 0 then u.clock.noted0 else u.clock.noted1
    let raised := fun t : State => t.power.alertPulse = true ∧ Alerts t ∧
      rd t oCONTAINED_COUNT 0 = satAdd max32 (rd s oCONTAINED_COUNT 0) 1
    let chip := fun t : State => raised t ∧ t.power.chipError = true ∧ t.power.fullMode = false ∧
      ∀ k, k < 8 → stackFitted s k = true → rd t oREFRESH_MODE (k + 1) = 2
    let allEnd := fun t : State => t.weir.ops.map (fun o => o.id) = s.weir.ops.map (fun o => o.id) ∧
      ∀ o ∈ t.weir.ops, o.phase = .ended ∧ o.status = stMEM_ERROR
    (s.clock.rootGated = true → s.clock.rootFailed = false →
      (lost = true → (runs 0 || runs 1) = true → exec .rootRelockFail s = .next { s with
        clock := { s.clock with rootFailed := true, rootNoted := true } }) ∧
      (s.clock.noted0 = false → s.clock.noted1 = false → (lost && (runs 0 || runs 1)) = false →
        ∃ t, exec .rootRelockFail s = .next t ∧ raised t ∧ (s.power.chipError = false → chip t) ∧
          t.weir = s.weir ∧ t.mem = s.mem ∧ t.clock = { s.clock with rootFailed := true } ∧ t.fabric = s.fabric)) ∧
    (∀ die, die < 2 → runs die = true →
      let others := (s.clock.rootGated && !s.clock.rootFailed) || runs (1 - die)
      (lost = true → others = true → ∃ t, exec (.memRelockFail die) s = .next t ∧ relockFailed t die = true ∧
        noted t die = true ∧ (∀ d, d < 2 → d ≠ die → noted t d = noted s d ∧ relockFailed t d = relockFailed s d) ∧
        t = { s with clock := { s.clock with failed0 := t.clock.failed0, failed1 := t.clock.failed1
                                             noted0 := t.clock.noted0, noted1 := t.clock.noted1 } }) ∧
      (s.clock.noted0 = false → s.clock.noted1 = false → (lost && others) = false →
        ∃ t, exec (.memRelockFail die) s = .next t ∧ raised t ∧ relockFailed t die = true ∧ noted t die = false ∧
          (s.power.chipError = false → chip t) ∧
          (s.power.chipError = false → s.clock.rootGated = false → allEnd t) ∧
          (s.power.chipError = true ∨ s.clock.rootGated = true → t.weir = s.weir ∧ t.mem = s.mem))) ∧
    (∀ die, die < 2 → runs die = true → noted s (1 - die) = true → noted s die = false → s.power.chipError = false →
      ∃ t, exec (.memRelock die) s = .next t ∧ raised t ∧ t.power.chipError = true ∧ noted t (1 - die) = false ∧
        relocking t die = false) ∧
    (s.clock.rootGated = true → s.clock.rootFailed = false → s.power.chipError = true → s.clock.noted0 = false →
      s.clock.noted1 = false → ∃ t, exec .rootRelock s = .next (s.hostHeld.foldl perform t) ∧ allEnd t)

/-- With compute powered and the root-fed domains running, an idle quadrant above its effective level begins an up step by its
rail (SEQUENCER_STEP_UP), and one below it a down step by its divisor (SEQUENCER_STEP_DOWN). RAIL_RAMP_DONE ends a ramp: after
an up ramp the rail is that of the next level and settles; after a down ramp the level is one lower in performance with its
rail, and waits; after a ramp back the rail is that of the level it never left. RAIL_SETTLE_END ends an up step: level and
divisor change. STEP_DOWN_WAIT_END ends a down step. Only that quadrant's sequencer, and where named its MC_DIVISOR (0 without
a stack), change. -/
def Obligations.SequencerStepsOneLevel : Prop :=
  ∀ (s : State) (q : Nat), seqRuns s q = true →
    let only := fun (ks : List Nat) (t : State) => (∀ r, r ≠ q → seqOf t r = seqOf s r) ∧ SameObjs ks s t ∧
      t = { s with dict := t.dict, clock := { s.clock with seqs := t.clock.seqs } }
    let x := seqOf s q
    let div := fun l : Nat => if stackFitted s q then divisorOf l else 0
    (x.phase = .idle → effLevel s q < x.level → ∃ t, exec (.sequencerStepUp q) s = .next t ∧
      seqOf t q = { x with phase := .rampUp } ∧ only [] t) ∧
    (x.phase = .idle → x.level < effLevel s q → ∃ t, exec (.sequencerStepDown q) s = .next t ∧
      seqOf t q = { x with phase := .rampDown } ∧ rd t oMC_DIVISOR (q + 1) = div (x.level + 1) ∧
      only [objKey oMC_DIVISOR (q + 1)] t) ∧
    (x.phase = .rampUp → ∃ t, exec (.railRampDone q) s = .next t ∧
      seqOf t q = { x with phase := .settle, railMv := railOf (x.level - 1) } ∧ only [] t) ∧
    (x.phase = .rampDown → ∃ t, exec (.railRampDone q) s = .next t ∧
      seqOf t q = { level := x.level + 1, phase := .wait, railMv := railOf (x.level + 1) } ∧ only [] t) ∧
    (x.phase = .rampBack → ∃ t, exec (.railRampDone q) s = .next t ∧
      seqOf t q = { x with phase := .idle, railMv := railOf x.level } ∧ only [] t) ∧
    (x.phase = .settle → ∃ t, exec (.railSettleEnd q) s = .next t ∧
      seqOf t q = { x with phase := .idle, level := x.level - 1 } ∧ rd t oMC_DIVISOR (q + 1) = div (x.level - 1) ∧
      only [objKey oMC_DIVISOR (q + 1)] t) ∧
    (x.phase = .wait → ∃ t, exec (.stepDownWaitEnd q) s = .next t ∧ seqOf t q = { x with phase := .idle } ∧ only [] t)

/-- With the envelope in action: ENV_PERIOD_END with an average above POWER_ENV raises ENV_DEMAND by one, no further than 7,
and starts the count of low periods again; below 0.95 POWER_ENV it counts a low period, and the tenth in a row lowers the
demand by one, no further than 0, and starts the count again (log 62, the model's choice: R78 is silent); in between it starts
the count again. ENV_FAST_RAISE with an average above 1.1 POWER_ENV raises the demand by one, no further than 7. Beside these
only sequencers that turn back and THROTTLED of executing operations may change: no other object, no other field of an
operation, no level or rail of a quadrant. -/
def Obligations.EnvelopeDemandMoves : Prop :=
  ∀ (s : State) (mw : Nat), envActs s = true →
    let env := powerEnv s * 1000
    let d := rd s oENV_DEMAND 0
    let frame := fun (low : Nat) (t : State) => SameObjs [objKey oENV_DEMAND 0] s t ∧
      t.weir.ops.map (fun o => { o with throttled := false }) = s.weir.ops.map (fun o => { o with throttled := false }) ∧
      (∀ q, (seqOf t q).level = (seqOf s q).level ∧ (seqOf t q).railMv = (seqOf s q).railMv) ∧
      t = { s with
        dict := t.dict
        power := { s.power with lowPeriods := low }
        clock := { s.clock with seqs := t.clock.seqs }
        weir := { s.weir with ops := t.weir.ops } }
    (∃ t, exec (.envPeriodEnd mw) s = .next t ∧
      (env < mw → rd t oENV_DEMAND 0 = min 7 (d + 1) ∧ frame 0 t) ∧
      (mw ≤ env → mw * 100 < env * 95 → s.power.lowPeriods < 9 →
        rd t oENV_DEMAND 0 = d ∧ frame (s.power.lowPeriods + 1) t) ∧
      (mw ≤ env → mw * 100 < env * 95 → 9 ≤ s.power.lowPeriods → rd t oENV_DEMAND 0 = d - 1 ∧ frame 0 t) ∧
      (mw ≤ env → env * 95 ≤ mw * 100 → rd t oENV_DEMAND 0 = d ∧ frame 0 t)) ∧
    (powerEnv s * 1100 < mw → ∃ t, exec (.envFastRaise mw) s = .next t ∧ rd t oENV_DEMAND 0 = min 7 (d + 1) ∧
      frame s.power.lowPeriods t)

/-- With power good: POWER_MEASUREMENT_UPDATE stores V48_MV and PKG_POWER_MW. ENERGY_METER_UPDATE adds what the package meter
gained to PKG_ENERGY_UJ. A core rail's energy is shared over its cores by handshakes, idle ones included, and a core's share
goes to the partition that owns it and within it to each operation by the handshakes it ran; a stack's, Pool's or link's
energy goes to its users by bytes or accesses. Each share is taken in whole µJ, the rest of it left unattributed (log 66, the
model's choice: R83 says in proportion). PART_ENERGY_UJ of each existing partition and the energy of each admitted operation
rise by the sums of their shares, and UNATTR_ENERGY_UJ is then PKG_ENERGY_UJ less the sum of the partition meters. With
compute powered, REPLICA_MEASUREMENT stores the eight rates and their least. Nothing else changes. The operations are taken to
be listed by admission number. -/
def Obligations.MetersAndMeasurements : Prop :=
  ∀ s : State,
    (∀ mv mw, s.power.good = true → ∃ t, exec (.powerMeasurementUpdate mv mw) s = .next t ∧ rd t oV48_MV 0 = mv ∧
      rd t oPKG_POWER_MW 0 = mw ∧ SameObjs [objKey oV48_MV 0, objKey oPKG_POWER_MW 0] s t ∧ t = { s with dict := t.dict }) ∧
    (∀ (pkgUj : Nat) (quads : List QuadUse) (shared : List SharedUse), s.power.good = true → opsOk s.weir = true →
      let cores := quads.flatMap (fun q => q.cores.map (fun c => (q.uj, quadShakes q.cores, c)))
      let users := shared.flatMap (fun u => u.users.map (fun x =>
        (x.1, x.2.1, shareUj u.uj x.2.2 (u.users.map (fun y => y.2.2)).sum)))
      let partGain := fun p => ((cores.filter (fun x => corePart s x.2.2.core == some p)).map (fun x =>
          shareUj x.1 (coreShakes x.2.2) x.2.1)).sum + ((users.filter (fun x => x.1 == p)).map (fun x => x.2.2)).sum
      let opGain := fun id => (((cores.filter (fun x => (corePart s x.2.2.core).isSome)).flatMap (fun x =>
          (x.2.2.ran.filter (fun r => r.1 == id)).map (fun r => shareUj x.1 r.2 x.2.1))).sum) +
        ((users.filter (fun x => x.2.1 == some id)).map (fun x => x.2.2)).sum
      ∃ t, exec (.energyMeterUpdate pkgUj quads shared) s = .next t ∧
        rd t oPKG_ENERGY_UJ 0 = rd s oPKG_ENERGY_UJ 0 + pkgUj ∧
        (∀ p, p < 128 → partExists s p = true → rd t oPART_ENERGY_UJ (p + 1) = rd s oPART_ENERGY_UJ (p + 1) + partGain p) ∧
        (∀ p, p < 128 → partExists s p = false → rd t oPART_ENERGY_UJ (p + 1) = rd s oPART_ENERGY_UJ (p + 1)) ∧
        rd t oUNATTR_ENERGY_UJ 0 = rd t oPKG_ENERGY_UJ 0 - partEnergy t ∧
        t.weir.ops = s.weir.ops.map (fun o => { o with energyUj := o.energyUj + opGain o.id }) ∧
        SameObjs ([objKey oPKG_ENERGY_UJ 0, objKey oUNATTR_ENERGY_UJ 0] ++
          (List.range 128).map (fun p => objKey oPART_ENERGY_UJ (p + 1))) s t ∧
        t = { s with dict := t.dict, weir := { s.weir with ops := t.weir.ops } }) ∧
    (∀ rates, s.power.compute = true → rates.length = 8 → ∃ t, exec (.replicaMeasurement rates) s = .next t ∧
      (∀ i, i < 8 → rd t oREPLICA_RATE (i + 1) = rates.getD i 0) ∧ (∀ r ∈ rates, rd t oREPLICA_MIN 0 ≤ r) ∧
      rd t oREPLICA_MIN 0 ∈ rates ∧
      SameObjs (objKey oREPLICA_MIN 0 :: (List.range 8).map (fun i => objKey oREPLICA_RATE (i + 1))) s t ∧
      t = { s with dict := t.dict })

/-- BASK_SAMPLE with power good, for each quadrant and each fitted stack with readings: its temperature is the highest good
reading (of those beside a failed sensor, log 62); a sensor that fails makes its own state HOT and sets its BASK_FAULT bit,
which is clear otherwise; with none failed it is HOT from the HOT threshold on, else stays HOT if it was, else WARM from the
WARM threshold on, else stays. One without readings keeps its state. With compute powered, no shutdown in force and a fitted
stack (or else a quadrant) at its TRIP temperature, a protective shutdown follows, cause 1 for a stack, 2 for a compute die,
the stack's where both trip (log 62). THERMAL_STATE_EXIT of a quadrant or stack 3 °C or more below the threshold of its state,
none of its sensors failed, takes HOT to WARM and WARM to NORMAL, one state at a time (log 54); every other own state, power,
memory and every object but REFRESH_MODE and NOTIFY_LOST stay. -/
def Obligations.ThermalStatesEnteredAndLeft : Prop :=
  ∀ s : State, s.power.good = true →
    let own := fun (t : State) (stack : Bool) (i : Nat) => if stack then stackOwn t i else quadOwn t i
    let fault := fun (stack : Bool) (i : Nat) => if stack then 8 + i else i
    let temp := fun (stack : Bool) => if stack then oSTACK_TEMP else oQUAD_TEMP
    (∀ quads piles : List (List (Option Int)), ∃ t, exec (.baskSample quads piles) s = .next t ∧ t.power.good = true ∧
      (∀ stack i, i < 8 → (stack = true → stackFitted s i = true) →
        let r := (if stack then piles else quads).getD i []
        (r = [] → own t stack i = own s stack i) ∧
        (r ≠ [] → (rd t oBASK_FAULT 0).testBit (fault stack i) = r.any (fun x => !(sensorOk x)) ∧
          (∀ h, highest r = some h → rd t (temp stack) (i + 1) = (h % 2 ^ 32).toNat) ∧
          (r.any (fun x => !(sensorOk x)) = true → own t stack i = .hot) ∧
          (∀ h, r.any (fun x => !(sensorOk x)) = false → highest r = some h →
            own t stack i = if hotAt s stack ≤ h then .hot else if own s stack i = .hot then .hot
              else if warmAt s stack ≤ h then .warm else own s stack i))) ∧
      (s.power.compute = true → s.power.shutdown = false →
        (∃ k, k < 8 ∧ stackFitted s k = true ∧ trips true (piles.getD k []) = true) →
        t.power.shutdown = true ∧ rd t oSHUTDOWN_CAUSE 0 = 1) ∧
      (s.power.compute = true → s.power.shutdown = false →
        (∀ k, k < 8 → stackFitted s k = true → trips true (piles.getD k []) = false) →
        (∃ q, q < 8 ∧ trips false (quads.getD q []) = true) → t.power.shutdown = true ∧ rd t oSHUTDOWN_CAUSE 0 = 2)) ∧
    (∀ stack i, i < 8 → own s stack i ≠ .normal → (rd s oBASK_FAULT 0).testBit (fault stack i) = false →
      tempOf (rd s (temp stack) (i + 1)) ≤ (if own s stack i = .hot then hotAt s stack else warmAt s stack) - 30 →
      ∃ t, exec (.thermalStateExit stack i) s = .next t ∧
        own t stack i = (if own s stack i = .hot then .warm else .normal) ∧
        (∀ b j, (b, j) ≠ (stack, i) → own t b j = own s b j) ∧ t.power = s.power ∧ t.mem = s.mem ∧
        SameObjs (objKey oNOTIFY_LOST 0 :: (List.range 8).map (fun k => objKey oREFRESH_MODE (k + 1))) s t)

/-- A doorbell write to intake queue i of a bound function (its partition not being reset): while the queue is enabled and not
overrun, one that names the current tail changes nothing; one whose tail lies outside the ring, leaves more descriptors than
the ring holds or makes a seventeenth batch sets OVERRUN and clears ENABLED, at once or, with a batch in progress, at its end,
the log and the tail staying; any other makes its value the tail and logs a batch of the distance from the old tail. A queue
that is disabled or overrun ignores it. Other queues are unchanged. What the host wrote to its memory before the doorbell (an
operand of the command, log 8) is then what that memory reads, the last write of an address standing; its other bytes and
everything else are unchanged. While the PCIe core is gated the doorbell of a function that is on is held, whatever its value,
the writes visible, and carried out after the relock. -/
def Obligations.DoorbellLogsOneBatch : Prop :=
  ∀ (s : State) (fn i value p : Nat) (w : List (Nat × Byte)),
    let visible := fun t : State =>
      (∀ before e after, w = before ++ e :: after → (∀ x ∈ after, x.1 % 2 ^ 60 ≠ e.1 % 2 ^ 60) → hostByte t fn e.1 = e.2) ∧
      (∀ f a, (∀ e ∈ w, fn * 2 ^ 60 + e.1 % 2 ^ 60 ≠ f * 2 ^ 60 + a % 2 ^ 60) → hostByte t f a = hostByte s f a)
    (fnOn s fn = true → s.clock.rootGated = true → ∃ t, exec (.iqDoorbell fn i value w) s = .next t ∧ visible t ∧
      t.hostHeld = s.hostHeld ++ [.iqDoorbell fn i value] ∧
      t = { s with hostHeld := t.hostHeld, mem := { s.mem with host := t.mem.host } }) ∧
    (doorPart s fn = some p → i < iqCount s p →
    let q := iqIndex s p i
    let x := iqOf s q
    let tail := value % 65536
    let depth := ringDepth x.base
    let ahead := ringDist depth x.head x.tail + ringDist depth x.tail tail
    let open_ := x.enabled = true ∧ x.enable = true ∧ x.overrun = false
    ∃ t, exec (.iqDoorbell fn i value w) s = .next t ∧ visible t ∧
      (¬open_ ∨ tail = x.tail → iqOf t q = x) ∧
      (open_ → tail ≠ x.tail → depth ≤ tail ∨ depth ≤ ahead ∨ 16 ≤ x.log.length →
        iqOf t q = { x with overrun := true, enabled := x.current.isSome }) ∧
      (open_ → tail ≠ x.tail → tail < depth → ahead < depth → x.log.length < 16 →
        iqOf t q = { x with tail := tail, log := x.log ++ [ringDist depth x.tail tail] }) ∧
      (∀ r, r ≠ q → iqOf t r = iqOf s r) ∧
      t = { s with iqs := t.iqs, mem := { s.mem with host := t.mem.host } })

/-- A write of IQ_CTRL of a function's queue sets ADMIT_LIMIT, CQ and HALT_ON_REFUSE. With ENABLE 1 on a disabled queue whose
ring and completion queue allow it, the queue is enabled with head, tail and log empty, OVERRUN, HALTED and HALT_CAUSE clear;
where they do not allow it, ENABLED keeps its value. With ENABLE 0 the log is empty, ENABLE is clear, the batch in progress
and the fetched descriptors stay, and ENABLED is clear unless a batch is in progress. With RESUME 1 HALTED and HALT_CAUSE are
clear. That the other fields are stored while the queue is enabled, that HALT_CAUSE is cleared by ENABLE, and that a batch
still in fetch keeps a queue from being enabled is log 50 (DEDUCED). Other queues and everything else are unchanged. -/
def Obligations.IntakeQueueControl : Prop :=
  ∀ (s : State) (fn i ctrl p : Nat), doorPart s fn = some p → i < iqCount s p →
    let q := iqIndex s p i
    let x := iqOf s q
    let set := { x with admitLimit := field ctrl 31 16, cq := field ctrl 15 4, haltOnRefuse := ctrl.testBit 1 }
    let only := fun t : State => (∀ r, r ≠ q → iqOf t r = iqOf s r) ∧ t = { s with iqs := t.iqs } ∧
      (iqOf t q).admitLimit = field ctrl 31 16 ∧ (iqOf t q).cq = field ctrl 15 4 ∧ (iqOf t q).haltOnRefuse = ctrl.testBit 1 ∧
      (iqOf t q).fetched = x.fetched ∧ (iqOf t q).current = x.current ∧ (iqOf t q).opened = x.opened
    (ctrl.testBit 0 = true → ∃ t, exec (.iqEnable fn i ctrl) s = .next t ∧ only t ∧
      (x.enable = false → mayEnable s p set = true → iqOf t q = { set with
        enable := true, enabled := true, head := 0, tail := 0, log := [], overrun := false, halted := false, haltCause := 0,
        sinceHead := 0 }) ∧
      (x.enable = true ∨ mayEnable s p set = false → (iqOf t q).enable = x.enable ∧ (iqOf t q).enabled = x.enabled ∧
        (iqOf t q).log = x.log)) ∧
    (ctrl.testBit 0 = false → ∃ t, exec (.iqDisable fn i ctrl) s = .next t ∧ only t ∧ (iqOf t q).enable = false ∧
      (iqOf t q).log = [] ∧ (iqOf t q).enabled = (x.enabled && x.current.isSome)) ∧
    (ctrl.testBit 2 = true → ∃ t, exec (.resume fn i ctrl) s = .next t ∧ only t ∧ (iqOf t q).halted = false ∧
      (iqOf t q).haltCause = 0)

/-- BATCH_FETCH of an enabled queue whose oldest logged batch has n descriptors, no batch in progress, a descriptor credit
free (8 a queue; 512 a die, 32 of them for URGENT), a free entry in the completion queue it names, the PCIe core clocked, and
no other queue of URGENT class able to fetch unless it is one. Not halted, within ADMIT_LIMIT and with CREDIT_RATE 0 or n
descriptors of credit, the batch is accepted: OPEN rises by n, the partition's credit level falls by n descriptors (no further
than 0: log 62, the model's choice), and between 1 and n descriptors are fetched at HEAD, which moves on by as many, each with
the completion queue that holds its entry; without a HEAD write-back address they are the bytes that host memory holds.
Otherwise it is refused: OPEN, the level and the fetched descriptors stay, the refusal is counted in REFUSED_FULL_COUNT or
REFUSED_CREDIT_COUNT, and with HALT_ON_REFUSE the queue is halted. Operations, cores and device memory do not change. The
table of queues is taken to be in its sorted form. -/
def Obligations.BatchAcceptedOrRefusedWhole : Prop :=
  ∀ (s : State) (q p n : Nat) (rest : List Nat), iqPart s q = some p → s.power.fullMode = true → s.power.chipError = false →
    (partOf s p).resetting = false → fnOn s (partFn s p) = true → s.clock.rootGated = false → tabSorted s.iqs = true →
    let x := iqOf s q
    let k := cqIndex s p x.cq
    x.enabled = true → x.enable = true → x.overrun = false → x.current = none → x.log = n :: rest → 1 ≤ n →
    x.fetched.length < 8 → creditsUsed s (queueDie q) < (if iqUrgent s p q then 512 else 480) →
    x.cq < cqCount s p → (cqOf s k).enabled = true → (cqOf s k).used + (cqOf s k).reserved < ringDepth (cqOf s k).base →
    (iqUrgent s p q = true ∨ urgentFirst s q = false) →
    let frame := fun t : State => t.weir = s.weir ∧ t.cores = s.cores ∧ t.mem = { s.mem with host := t.mem.host } ∧
      (iqOf t q).log = rest
    (x.halted = false → (x.admitLimit = 0 ∨ x.opened + n ≤ x.admitLimit) →
      (rd s oCREDIT_RATE (p + 1) = 0 ∨ n * 1000000 ≤ (partOf s p).level) →
      ∃ t m, exec (.batchFetch q) s = .next t ∧ frame t ∧ 1 ≤ m ∧ m ≤ n ∧ (iqOf t q).opened = x.opened + n ∧
        (partOf t p).level = (partOf s p).level - n * 1000000 ∧ (iqOf t q).head = (x.head + m) % ringDepth x.base ∧
        (iqOf t q).fetched.length = x.fetched.length + m ∧ (cqOf t k).reserved = (cqOf s k).reserved + m ∧
        (x.headAddr = 0 → x.head < ringDepth x.base → (iqOf t q).fetched = x.fetched ++ (List.range m).map (fun j =>
          (k, hostBytesAt s (partFn s p) (ringAddr x.base + 64 * ((x.head + j) % ringDepth x.base)) 64)))) ∧
    (∀ st, batchCheck s p x n = some st → ∃ t, exec (.batchFetch q) s = .next t ∧ frame t ∧
      (iqOf t q).opened = x.opened ∧ (iqOf t q).fetched = x.fetched ∧ (partOf t p).level = (partOf s p).level ∧
      (st = stREFUSED_FULL → rd t oREFUSED_FULL_COUNT (p + 1) = satAdd max32 (rd s oREFUSED_FULL_COUNT (p + 1)) 1) ∧
      (st = stREFUSED_CREDIT → rd t oREFUSED_CREDIT_COUNT (p + 1) = satAdd max32 (rd s oREFUSED_CREDIT_COUNT (p + 1)) 1) ∧
      (x.haltOnRefuse = true → (iqOf t q).halted = true))

/-- For completion queue j of a bound function: CQ_ENABLE (ENABLE 1) on a disabled queue with a ring of 64 to 65,536 entries
enables it empty, tail 0, PHASE 1. CQ_DISABLE (ENABLE 0) on a queue with a reserved entry, or named by an intake queue with
ENABLE 1 or still fetching, changes nothing; otherwise the queue is disabled. CQ_DOORBELL with a head within the records
written frees the entries before it, a full ring rung at its own head all of them (log 50). COAL_TIME_EXPIRY of an enabled
queue whose timer runs signals to the function of the partition that owns it and stops the timer: its MSI-X vector is sent, is
left pending while masked or while the PCIe core is gated, and is not sent while MSI-X is off or the function has no such
vector (log 58, PRESUMED). Other queues and everything else are unchanged. -/
def Obligations.CompletionQueueControl : Prop :=
  ∀ (s : State) (fn j p : Nat), doorPart s fn = some p → j < cqCount s p →
    let k := cqIndex s p j
    let c := cqOf s k
    let only := fun t : State => (∀ r, r ≠ k → cqOf t r = cqOf s r) ∧ t = { s with cqs := t.cqs }
    (∀ ctrl : Nat, ctrl.testBit 0 = true → c.enabled = false → 6 ≤ ringLog c.base → ringLog c.base ≤ 16 →
      ∃ t, exec (.cqEnable fn j ctrl) s = .next t ∧ only t ∧ (cqOf t k).enabled = true ∧ (cqOf t k).phase = true ∧
        (cqOf t k).tail = 0 ∧ (cqOf t k).head = 0 ∧ (cqOf t k).used = 0 ∧ (cqOf t k).reserved = 0 ∧
        (cqOf t k).base = c.base ∧ (cqOf t k).vector = field ctrl 15 5 ∧ (cqOf t k).irqEn = ctrl.testBit 1 ∧
        (cqOf t k).coalTime = field ctrl 31 24 ∧ (cqOf t k).coalCount = field ctrl 23 16) ∧
    (∀ ctrl : Nat, ctrl.testBit 0 = false → c.enabled = true → (0 < c.reserved ∨ cqNamed s p j = true) →
      exec (.cqDisable fn j ctrl) s = .next s) ∧
    (∀ ctrl : Nat, ctrl.testBit 0 = false → c.reserved = 0 → cqNamed s p j = false →
      ∃ t, exec (.cqDisable fn j ctrl) s = .next t ∧ only t ∧ (cqOf t k).enabled = false) ∧
    (∀ value, c.enabled = true → value % 65536 < ringDepth c.base →
      let n := ringDist (ringDepth c.base) c.head (value % 65536)
      ∃ t, exec (.cqDoorbell fn j value) s = .next t ∧ only t ∧
        (n = 0 → c.used = ringDepth c.base → cqOf t k = { c with used := 0 }) ∧
        (n ≤ c.used → ¬(n = 0 ∧ c.used = ringDepth c.base) →
          cqOf t k = { c with head := value % 65536, used := c.used - n }) ∧
        (c.used < n → cqOf t k = c)) ∧
    (∀ o, cqPart s k = some o → c.enabled = true → c.irqEn = true → c.timer = true →
      let f := partFn s o
      let sends := (fnOf s f).msixEnable = true ∧ c.vector < msixVectors f
      let held := s.clock.rootGated = true ∨ vectorMasked (fnOf s f) c.vector = true
      ∃ t, exec (.coalTimeExpiry k) s = .next t ∧
        (sends → ¬held → t.out = .msix f c.vector :: s.out ∧ t.fns = s.fns) ∧
        (sends → held → t.out = s.out ∧ c.vector ∈ (fnOf t f).pending ∧ FnsKept s t) ∧
        (¬sends → t.out = s.out ∧ t.fns = s.fns) ∧
        cqOf t k = { c with unsignalled := 0, timer := false } ∧ (∀ r, r ≠ k → cqOf t r = cqOf s r) ∧
        t = { s with cqs := t.cqs, out := t.out, fns := t.fns })

/-- A 64-bit or 32-bit write of a bound function's IQ_BASE or IQ_HEAD_ADDR stores it, or the half written (reserved bits
clear), while ENABLE of that queue is 0 and changes nothing while it is 1; of CQ_BASE likewise while the queue is disabled. A
write of IQ_CTRL does what IQ_ENABLE or IQ_DISABLE do with its value. A write of MB_IRQ by a PF whose mailbox is usable stores
enable and vector. Nothing changes by a write of a read-only register, of a reserved offset, of a queue at or beyond IQ_COUNT
or CQ_COUNT, of a mailbox by a VF, by any write of the queues' registers of a function that is not bound or whose partition is
being reset, or by an access that is not aligned or not of 4 or 8 bytes. While the PCIe core is gated a write of a function
that is on is held for the relock. Other queues and everything else are unchanged. (The doorbells of BAR0 are commands of
their own.) -/
def Obligations.Bar0RegisterWrites : Prop :=
  ∀ (s : State) (fn i v : Nat), i < 4096 →
    let write := fun off size => exec (.bar0RegisterWrite fn off size v) s
    let iqAt := 0x10000 + 32 * i
    let cqAt := 0x30000 + 32 * i
    let low := fun old : Nat => old / 2 ^ 32 * 2 ^ 32 + v % 2 ^ 32
    let high := fun old : Nat => old % 2 ^ 32 + v % 2 ^ 32 * 2 ^ 32
    (∀ p, doorPart s fn = some p → i < iqCount s p → (iqOf s (iqIndex s p i)).enable = false →
      let q := iqIndex s p i
      let x := iqOf s q
      let base := fun w : Nat => Host.Outcome.next (setIq s q { x with base := w / 4096 * 4096 + w % 32 })
      let headAddr := fun w : Nat => Host.Outcome.next (setIq s q { x with headAddr := w / 4 * 4 })
      write iqAt 8 = base (v % 2 ^ 64) ∧ write iqAt 4 = base (low x.base) ∧ write (iqAt + 4) 4 = base (high x.base) ∧
        write (iqAt + 8) 8 = headAddr (v % 2 ^ 64) ∧ write (iqAt + 8) 4 = headAddr (low x.headAddr) ∧
        write (iqAt + 12) 4 = headAddr (high x.headAddr)) ∧
    (∀ p r size, doorPart s fn = some p → i < iqCount s p → (iqOf s (iqIndex s p i)).enable = true → r < 16 →
      write (iqAt + r) size = .next s) ∧
    (∀ p, doorPart s fn = some p → i < cqCount s p → (cqOf s (cqIndex s p i)).enabled = false →
      let k := cqIndex s p i
      let c := cqOf s k
      let base := fun w : Nat => Host.Outcome.next (setCq s k { c with base := w / 4096 * 4096 + w % 32 })
      write cqAt 8 = base (v % 2 ^ 64) ∧ write cqAt 4 = base (low c.base) ∧ write (cqAt + 4) 4 = base (high c.base)) ∧
    (∀ p r size, doorPart s fn = some p → i < cqCount s p → (cqOf s (cqIndex s p i)).enabled = true → r < 8 →
      write (cqAt + r) size = .next s) ∧
    (s.clock.rootGated = false → ∀ size, size = 4 ∨ size = 8 → write (iqAt + 16) size =
      exec (if v.testBit 0 then .iqEnable fn i (v % 2 ^ 32) else .iqDisable fn i (v % 2 ^ 32)) s) ∧
    (fn % 256 = 0 → boxUsable s (fn / 256) = true → ∃ t, write 0x51018 8 = .next t ∧
      boxOf t (fn / 256) = { boxOf s (fn / 256) with irq := field v 15 15 * 32768 + field v 10 0 } ∧
      (∀ e, e ≠ fn / 256 → boxOf t e = boxOf s e) ∧ t = { s with mgmt := { s.mgmt with boxes := t.mgmt.boxes } }) ∧
    (∀ off size, s.clock.rootGated = false → (0x10000 ≤ off ∧ off < 0x30000 ∧ 20 ≤ off % 32) ∨
      (0x30000 ≤ off ∧ off < 0x50000 ∧ 12 ≤ off % 32) ∨ (0x50000 ≤ off ∧ off < 0x51000) ∨ 0x52000 ≤ off ∨
      (0x51000 ≤ off ∧ off < 0x51800 ∧ off ≠ 0x51018) ∨ (fn % 256 ≠ 0 ∧ 0x51000 ≤ off ∧ off < 0x52000) →
      write off size = .next s) ∧
    (∀ p r size, doorPart s fn = some p → r < 32 → (iqCount s p ≤ i → write (iqAt + r) size = .next s) ∧
      (cqCount s p ≤ i → write (cqAt + r) size = .next s)) ∧
    (∀ off size, s.clock.rootGated = false → doorPart s fn = none → off < 0x51000 → write off size = .next s) ∧
    (∀ off size, accessOk off size = true → fnOn s fn = true → s.clock.rootGated = true →
      write off size = .next { s with hostHeld := s.hostHeld ++ [.bar0 fn off size v] }) ∧
    (∀ off size, accessOk off size = false → write off size = .next s)

/-- ADMIT of a queue with a fetched descriptor, in full mode without a chip error, its partition not being reset: where the
die of the queue holds fewer than 2048 operations, and for one not URGENT fewer than 1984 such, and its partition fewer of its
kind than URGENT_QUOTA or SLOT_QUOTA allows, the descriptor leaves the queue and a new operation with the next admission
number stands at the end of the list, waiting, with the descriptor's fields, its partition, its queue and the completion queue
that holds its entry. Of each token it names: a counting one is satisfied where the count exceeds the number of earlier
operations that wait on it, and the count falls by all it serves; an event token is satisfied where no earlier unreleased
operation of the partition signals it, and passes on the failure of a released producer of its flow unless tolerated (log 59,
the model's reading for one released before). Other counts do not change, nor any other operation but in which of its
counting-token waits are satisfied, nor memory, objects, cores and other queues. Where a slot is lacking nothing changes. -/
def Obligations.AdmissionInOrder : Prop :=
  ∀ (s : State) (q p k : Nat) (b : List Byte) (rest : List (Nat × List Byte)), (iqOf s q).fetched = (k, b) :: rest →
    iqPart s q = some p → s.power.fullMode = true → s.power.chipError = false → (partOf s p).resetting = false →
    let d := decodeDesc b
    let urgent := d.cls == 0
    let count := fun f : Op → Bool => (s.weir.ops.filter f).length
    let room := count (fun o => queueDie o.queue == queueDie q) < 2048 ∧
      (urgent = false → count (fun o => queueDie o.queue == queueDie q && o.desc.cls != 0) < 1984) ∧
      (urgent = false → count (fun o => o.part == p && o.desc.cls != 0) < rd s oSLOT_QUOTA (p + 1)) ∧
      (urgent = true → count (fun o => o.part == p && o.desc.cls == 0) < rd s oURGENT_QUOTA (p + 1))
    (room → ∃ t o, exec (.admitOp q) s = .next t ∧ iqOf t q = { iqOf s q with fetched := rest } ∧
      (∀ r, r ≠ q → iqOf t r = iqOf s r) ∧ t.weir.nextOp = s.weir.nextOp + 1 ∧ t.weir.ops.getLast? = some o ∧
      t.weir.ops.map (fun x => { x with waits := [] }) =
        s.weir.ops.map (fun x => { x with waits := [] }) ++ [{ o with waits := [] }] ∧
      o.id = s.weir.nextOp ∧ o.part = p ∧ o.queue = q ∧ o.cq = k ∧ o.desc = d ∧ o.phase = .waiting ∧
      o.core = none ∧ o.coll = none ∧
      (∀ i tok, d.waits[i]? = some tok → tokenOf s p tok = true →
        let tol := d.tol.testBit i
        let n := tabGet 0 s.weir.counts tok
        let before := count (wantsCount tok)
        (tokenCounts s p tok = true → ⟨tok, true, decide (before < n), tol, false⟩ ∈ o.waits ∧
          tabGet 0 t.weir.counts tok = n - min n (before + 1)) ∧
        (tokenCounts s p tok = false → ⟨tok, false, !(s.weir.ops.any (fun x => x.part == p && x.desc.signal == tok &&
          decide (x.id < s.weir.nextOp))), tol, (tabGet [] s.weir.marks (65536 * p + tok)).contains d.flow && !tol⟩ ∈ o.waits)) ∧
      (∀ tok, ¬(tok ∈ d.waits ∧ tokenCounts s p tok = true) → tabGet 0 t.weir.counts tok = tabGet 0 s.weir.counts tok) ∧
      t = { s with iqs := t.iqs, weir := { s.weir with
        ops := t.weir.ops, nextOp := t.weir.nextOp, counts := t.weir.counts } }) ∧
    (¬room → exec (.admitOp q) s = .next s)

/-- ISSUE of a waiting operation whose tokens are satisfied and that awaits nothing, the Weir and its partition at work: if a
producer's failure reached it, it ends CANCELLED, before any check (log 38); otherwise, with the memory that its checks read
accessible: if its OPC is unknown, it ends with status 0x40; else if it names a flow or token that its partition may not, it
ends ACCESS_DENIED; in general, if the checks give a status other than 0 it ends with that status and the entry they name; if
they give 0 it is issued with the bounds, pointer sets and pieces they fixed; and where they still need bytes of a peer it
goes on waiting, these asked for (log 63). Every other operation keeps its place and its fields, and, the operation being on
no core yet, memory keeps every byte. -/
def Obligations.IssueFailuresInOrder : Prop :=
  ∀ (s : State) (op : Nat) (o : Op), opOf? s op = some o → weirRuns s = true → partRuns s o.part = true →
    o.phase = .waiting → waitsMet o = true → o.requests = [] →
    let failed := o.waits.any (fun w => w.failed)
    (failed = true ∨ issueHeld s o = false) →
    ∃ t, exec (.issue op) s = .next t ∧ OthersKept op s t ∧ (o.core = none → t.mem = { s.mem with reads := t.mem.reads }) ∧ t.iqs = s.iqs ∧
      (failed = true → EndedWith t op stCANCELLED) ∧
      (failed = false → opcKnown o.desc.opc = false → EndedWith t op 0x40) ∧
      (failed = false → opcKnown o.desc.opc = true → namesOk s o.part o.desc = false → EndedWith t op stACCESS_DENIED) ∧
      (failed = false → (checkIssue s o).1 ≠ 0 → (checkIssue s o).1 ≠ stNEED → EndedWith t op (checkIssue s o).1 ∧
        ∃ y, opOf? t op = some y ∧ y.faultEntry = (checkIssue s o).2.1) ∧
      (failed = false → (checkIssue s o).1 = stNEED → ∃ y, opOf? t op = some y ∧ y.phase = .waiting ∧ y.desc = o.desc ∧
        y.requests.map (fun r => (r.addr, r.len)) =
          (checkIssue s o).2.2.requests.flatMap (fun x => cutPiece 4096 (x.addr, x.len))) ∧
      (failed = false → (checkIssue s o).1 = 0 →
        opOf? t op = some { (checkIssue s o).2.2 with phase := .issued } ∧ (checkIssue s o).2.2.desc = o.desc ∧
        (o.desc.opc ≠ 0x01 → extentsOk o.desc (boundsWord s o.part o.desc).1 = true ∧
          (checkIssue s o).2.2.entries.length = o.desc.lcount))

/-- PLACE of an issued operation that takes a core and that no other operation outranks: if it is not URGENT or a candidate
core executes nothing, and there is a candidate, it is placed on one of its candidates (an URGENT one that waited for a core,
on one that executes nothing), its working set spread over core store, Pool, DRAM and spill window without remainder (over
core store alone unless SPILL_OK), its DRAM share over stacks from the core's home stack on (log 64), SPILLED noted where
anything lies outside core store. An URGENT operation with no idle candidate is placed on the victim's core (chosen by R240
within the group of R244: log 40), where its program load becomes pending and, with a wavefront in progress, the stall timer
starts; with no victim it waits for a core. Every other operation keeps its fields in the first case and all but its save
slot, whose context may move to its context area, in the second; memory keeps every byte. -/
def Obligations.PlacementWithinTheCandidates : Prop :=
  ∀ (s : State) (op : Nat) (o : Op), opOf? s op = some o → weirRuns s = true → wantsCore s o = true →
    outranked s o (candidates s o) = false →
    let idle := (candidates s o).any (fun c => (coreOf s c).exec.isNone)
    let fits := fun y : Op => y.wsCore + y.wsPool + y.wsDram + y.wsSpill = opSet s o ∧
      (o.desc.spillOk = false → y.wsCore = opSet s o) ∧ (y.spilled = true ↔ 0 < y.wsPool + y.wsDram + y.wsSpill) ∧
      ∀ c, y.core = some c → y.scratch = scratchShares s o.part c y.wsDram
    (o.desc.cls ≠ 0 ∨ idle = true → candidates s o ≠ [] → (o.coreWait = true → idle = true) → ∃ t y c,
      exec (.place op) s = .next t ∧ opOf? t op = some y ∧ y.phase = .placed ∧ y.core = some c ∧ c ∈ candidates s o ∧
      (o.coreWait = true → (coreOf s c).exec = none) ∧ y.coreWait = false ∧ y.desc = o.desc ∧ fits y ∧
      OthersKept op s t ∧ t = { s with weir := { s.weir with ops := t.weir.ops, rotation := t.weir.rotation } }) ∧
    (o.desc.cls = 0 → idle = false → chooseVictim s o (candidates s o) = none →
      exec (.place op) s = .next (setOp s { o with coreWait := true })) ∧
    (o.desc.cls = 0 → idle = false → ∀ c, chooseVictim s o (candidates s o) = some c → ∃ t y, exec (.place op) s = .next t ∧
      opOf? t op = some y ∧ y.phase = .placed ∧ y.core = some c ∧ c ∈ candidates s o ∧ fits y ∧
      (coreOf t c).load = some (.preempt op) ∧ (coreOf t c).exec = (coreOf s c).exec ∧
      (coreOf t c).wave = inWave s c ∧ (coreOf t c).arrays.shadow = none ∧
      (inWave s c = true → (coreOf s c).stall = none → (coreOf t c).stall = some (rd s oARRAY_STALL_LIMIT_US 0)) ∧
      t.weir.ops.map (fun x => x.id) = s.weir.ops.map (fun x => x.id) ∧
      (∀ i, i ≠ op → (opOf? t i).map (fun x => { x with slot := none, context := none }) =
        (opOf? s i).map (fun x => { x with slot := none, context := none })) ∧
      t.mem = s.mem ∧ t.dict = s.dict)

/-- DISPATCH of an operation placed on a core that executes nothing, with no parked operation to resume first, none of a
higher class placed there and no URGENT operation waiting for the core (unless it is one): a Spawn operation whose reservation
cannot be made ends with the status that says so; otherwise an operation with a remote operand whose context has closed or
failed ends with that status, the lock noted in either; otherwise it is dispatched with the precision in force (the lock, else
PREC, else the default), noted as overridden where the lock is set, its program is loaded and its core executes it with no
load pending, its host operands are requested, in order, in pieces of at most 4096 bytes, as many as the link to the I/O die
has credits for, and line reads of its own are sent, no more than its core holds credits for of DRAM lines, Pool lines and the
bridge; without remote operands the fabric does not change. Other operations and the contents of memory do not change in this
case. -/
def Obligations.DispatchTakesTheArrays : Prop :=
  ∀ (s : State) (op c : Nat) (o : Op), opOf? s op = some o → o.core = some c → weirRuns s = true →
    partRuns s o.part = true → o.phase = .placed → (coreOf s c).exec = none → resumesFirst s c o.desc.cls = false →
    placedAhead s c o.desc.cls = false → (o.desc.cls = 0 ∨ urgentWaits s c = false) →
    let locked := decide (rd s oPREC_LOCK (o.part + 1) ≠ 0)
    let urgent := o.desc.cls == 0
    let some_ := fun (l : List LineRead) (f : LineRead → Bool) => (l.filter f).length
    (isSpawn o.desc.opc = true → reserveStatus s o ≠ 0 → ∃ t, exec (.dispatch op) s = .next t ∧
      EndedWith t op (reserveStatus s o) ∧ (∃ y, opOf? t op = some y ∧ y.precOverridden = locked) ∧ OthersKept op s t) ∧
    (isSpawn o.desc.opc = false → remoteNow s o ≠ 0 → ∃ t, exec (.dispatch op) s = .next t ∧
      EndedWith t op (remoteNow s o) ∧ (∃ y, opOf? t op = some y ∧ y.precOverridden = locked) ∧ OthersKept op s t) ∧
    ((isSpawn o.desc.opc = true → reserveStatus s o = 0) → remoteNow s o = 0 → ∃ t y l, exec (.dispatch op) s = .next t ∧
      opOf? t op = some y ∧ y.phase = .dispatched ∧ y.core = some c ∧ y.desc = o.desc ∧ y.ins = o.ins ∧ y.outs = o.outs ∧
      (rd s oPREC_LOCK (o.part + 1) ≠ 0 → y.precision = rd s oPREC_LOCK (o.part + 1) ∧ y.precOverridden = true) ∧
      (rd s oPREC_LOCK (o.part + 1) = 0 → y.precOverridden = false ∧
        y.precision = if o.desc.prec ≠ 0 then o.desc.prec else rd s oPREC_DEFAULT (o.part + 1)) ∧
      (coreOf t c).exec = some op ∧ (coreOf t c).load = none ∧ (coreOf t c).arrays.program = some (programOf o y.precision) ∧
      (∀ k, k ≠ c → coreOf t k = coreOf s k) ∧ (∀ r ∈ hostRequests s o, r ∈ y.requests ++ y.due ∧ r.len ≤ 4096) ∧
      (∀ r rest, y.due = r :: rest → linkCredits t (c / 64) < linkTransfers r.len) ∧
      (remotePieces s o = [] → y.requests ++ y.due = hostRequests s o ∧ t.fabric = s.fabric ∧ t.out = s.out) ∧
      t.mem = { s.mem with reads := s.mem.reads ++ l } ∧ (∀ r ∈ l, r.op = op ∧ r.core = c ∧ r.urgent = urgent) ∧
      some_ l (fun r => space r.line == 0) ≤ lineCredits s c urgent ∧ some_ l (fun r => space r.line == 1) ≤ poolCredits s c ∧
      some_ l (fun r => crosses c r.line) ≤ bridgeCredits s (c / 64) ∧ OthersKept op s t ∧ t.dict = s.dict)

/-- WAVEFRONT_COMPLETE on a core whose wavefront is in progress: a core reset that is pending abandons the operation, in its
last tile too, and leaves the core without operation, slots, arrays and tags. Otherwise, once the operation's data effect has
taken place and it may finish, it is executed and the arrays are free; in its last tile before that it goes on (that the data
effect is one step and Executed waits for it is log 6, the model's choice); in an earlier tile a cancelled operation ends
CANCELLED_PARTIAL and the arrays are free; one that is not, and whose tile can end, passes to its next tile, a new wavefront
in progress unless a load is pending, the stall timer stopped, its outputs begun (of an operator whose rows do not leave tile
by tile nothing else changes then; of GATHER and SCATTER another statement speaks). STALL_TIMER_EXPIRY with a wavefront in
progress and a program load pending ends the executing operation ABANDONED, counts the wavefronts in progress in
CORE_ABANDONS, and the operation whose load was pending, if it is placed there, the Weir and its partition work and nothing
stops it, executes on the core. The list of operations is taken in its canonical form. -/
def Obligations.TileBoundaries : Prop :=
  ∀ (s : State) (c : Nat) (o : Op), opsOk s.weir = true → executingOn s c = some o → o.core = some c →
    (inWave s c = true → (coreOf s c).load = some .coreReset → ∃ t, exec (.wavefrontComplete c) s = .next t ∧
      EndedWith t o.id stABANDONED ∧ OthersKept o.id s t ∧ coreOf t c =
        { retiring := (coreOf s c).retiring, mapping := (coreOf s c).mapping, logged := (coreOf s c).logged }) ∧
    (inWave s c = true → o.dataDone = true → mayFinish s o = true → (coreOf s c).load ≠ some .coreReset →
      ∃ t, exec (.wavefrontComplete c) s = .next t ∧ opOf? t o.id = some { o with phase := .executed, tile := o.tiles } ∧
        (coreOf t c).exec = none ∧ (coreOf t c).wave = false ∧ OthersKept o.id s t ∧
        t.mem = s.mem ∧ t.dict = s.dict) ∧
    (inWave s c = true → o.dataDone = false → o.tiles ≤ o.tile + 1 → (coreOf s c).load ≠ some .coreReset →
      exec (.wavefrontComplete c) s = .next s) ∧
    (inWave s c = true → o.dataDone = false → o.tile + 1 < o.tiles → o.cancel = true → (coreOf s c).load ≠ some .coreReset →
      ∃ t, exec (.wavefrontComplete c) s = .next t ∧ EndedWith t o.id stCANCELLED_PARTIAL ∧ (coreOf t c).exec = none ∧
        OthersKept o.id s t) ∧
    (inWave s c = true → o.dataDone = false → o.tile + 1 < o.tiles → o.cancel = false → tileStalls s o c = false →
      ((coreOf s c).load = none ∨ ∃ u, (coreOf s c).load = some (.preempt u)) → o.desc.opc ≠ 0x58 → o.desc.opc ≠ 0x59 →
      ∃ t y, exec (.wavefrontComplete c) s = .next t ∧ opOf? t o.id = some y ∧ y.tile = o.tile + 1 ∧ y.phase = o.phase ∧
        y.desc = o.desc ∧ (coreOf t c).exec = some o.id ∧ (coreOf t c).arrays.position = o.tile + 1 ∧
        (coreOf t c).wave = (coreOf s c).load.isNone ∧ (coreOf t c).stall = none ∧
        OthersKept o.id s t ∧ (streamsRows o.desc.opc = false →
          y = { o with tile := o.tile + 1, wrote := o.wrote || !o.outs.isEmpty } ∧ t.mem = s.mem ∧ t.dict = s.dict)) ∧
    (inWave s c = true → o.dataDone = false → o.tile + 1 < o.tiles → o.cancel = false → tileStalls s o c = true →
      (coreOf s c).load ≠ some .coreReset → exec (.wavefrontComplete c) s = .next s) ∧
    (inWave s c = false → exec (.wavefrontComplete c) s = .next s) ∧
    (∀ u y limit waves, (coreOf s c).wave = true → (coreOf s c).load = some (.preempt u) → (coreOf s c).stall = some limit →
      u ≠ o.id → opOf? s u = some y → ∃ t, exec (.stallTimerExpiry c waves) s = .next t ∧ EndedWith t o.id stABANDONED ∧
        rd t oCORE_ABANDONS (c + 1) = satAdd max32 (rd s oCORE_ABANDONS (c + 1)) (max 1 waves) ∧
        t.weir.ops.map (fun x => x.id) = s.weir.ops.map (fun x => x.id) ∧
        (y.phase = .placed → weirRuns s = true → partRuns s y.part = true → isSpawn y.desc.opc = false →
          (∀ r, remotePieces r y = []) →
          (coreOf t c).exec = some u ∧ ∃ z, opOf? t u = some z ∧ z.phase = .dispatched))

/-- PREEMPT at a tile boundary, the URGENT operation's load pending, its partition at work and a save slot free: the executing
operation parks in a free slot (the lowest, the model's choice: log 70), the slot's place 0x5F_0000 + slot × 0x2000 holding
its accumulators, program, position, Rill state and tile, with PREEMPTS one higher and the park limit in force, runnable at
once if no request is outstanding; the URGENT operation (without remote operands) executes. PARK_RUNNABLE of a parked
operation that awaits nothing makes it runnable. RESUME_PARKED on a core that executes nothing, no URGENT operation waiting
for it, gives the arrays with the saved context to the oldest-parked runnable operation that no placed one of a higher class
goes before, and frees its slot; what it still has to read is asked for. (Stated for no PUT waiting to go on, and for an
operation that writes nothing it reads, so that its saved rows need not leave first: log 60.) PARK_LIMIT_EXPIRY of a parked
operation that is not runnable ends it TIMEOUT. (For operations that are no collective; a collective also moves on.) -/
def Obligations.ParkingAndResuming : Prop :=
  ∀ s : State,
    (∀ op c (u v : Op), opOf? s op = some u → u.core = some c → executingOn s c = some v → v.id ≠ op →
      weirRuns s = true → partRuns s u.part = true → u.phase = .placed → (coreOf s c).load = some (.preempt op) →
      (coreOf s c).wave = false → (coreOf s c).slots.length < 8 → isSpawn u.desc.opc = false → remotePieces s u = [] →
      ∃ t y, exec (.preempt op) s = .next t ∧ opOf? t v.id = some y ∧ y.phase = .parked ∧ y.preempts = v.preempts + 1 ∧
        y.slot = some (lowestSlot s c) ∧ tabGet? (coreOf t c).slots (lowestSlot s c) =
          some { op := v.id, addr := 0x5F0000 + 0x2000 * lowestSlot s c, saved := contextOf (coreOf s c) v } ∧
        y.parkLimit = rd s oPARK_LIMIT_US 0 ∧ y.requests = v.requests ∧ y.due = v.due ∧ y.landed = v.landed ∧
        (v.coll = none → y.runnable = !(awaits s v)) ∧ (coreOf t c).exec = some op ∧
        (∃ z, opOf? t op = some z ∧ z.phase = .dispatched) ∧
        t.weir.ops.map (fun x => x.id) = s.weir.ops.map (fun x => x.id) ∧ t.mem = { s.mem with reads := t.mem.reads } ∧
        t.dict = s.dict) ∧
    (∀ op (o : Op), opOf? s op = some o → o.phase = .parked → awaits s o = false → o.coll = none →
      ∃ t, exec (.parkRunnable op) s = .next t ∧ opOf? t op = some { o with runnable := true } ∧ OthersKept op s t ∧
        t = { s with weir := { s.weir with ops := t.weir.ops } }) ∧
    (∀ c (o : Op), opsOk s.weir = true → oldestRunnable s c = some o → o.coll = none → weirRuns s = true →
      (coreOf s c).exec = none → urgentWaits s c = false → s.weir.ops.all (fun x => !x.putting) = true →
      (usesArrays o.desc.opc = true → readsAhead o = true) →
      ∃ t y, exec (.resumeParked c) s = .next t ∧ opOf? t o.id = some y ∧
        { y with asked := 0, requests := [], due := [], landed := [], tiles := 0 } =
          { o with phase := .dispatched, slot := none, context := none, runnable := false, asked := 0, requests := []
                   due := [], landed := [], tiles := 0, throttled := o.throttled || heldBelow s (quadOf s c) } ∧
        y.requests ++ y.due = o.requests ++ o.due ∧ o.asked ≤ y.asked ∧
        (coreOf t c).exec = some o.id ∧ (coreOf t c).wave = true ∧
        (∀ v, slotSaved s c o.slot = some v → (coreOf t c).arrays.acc = v.acc ∧ (coreOf t c).arrays.program = v.program ∧
          (coreOf t c).arrays.position = v.position ∧ (coreOf t c).arrays.rill = v.rill) ∧
        (∀ i, o.slot = some i → tabSorted (coreOf s c).slots = true → tabGet? (coreOf t c).slots i = none) ∧
        OthersKept o.id s t ∧ t.mem = { s.mem with reads := t.mem.reads } ∧ t.dict = s.dict) ∧
    (∀ op (o : Op), opOf? s op = some o → o.phase = .parked → o.runnable = false →
      ∃ t, exec (.parkLimitExpiry op) s = .next t ∧ EndedWith t op stTIMEOUT ∧ OthersKept op s t)

/-- RELEASE of an executed or ended operation, no earlier one of its flow unreleased, compute powered, its partition not being
reset. Where its fence can complete (no write of it waiting for an Eddy entry, none of its entries in a stack in self-refresh
or a row under repair, nothing its commit writes held; after a chip error always): it leaves the list, all others stay; no
Eddy holds a write of it any more (unless a chip error stands); SPILL_COUNT rises by one if it spilled. Its token, if the
partition may use it, is signalled: a counting token gains one, no further than 65,535, and its count goes to its waiters in
admission order; of an event token the later waiters are satisfied unless another producer before them is left, and a failure
passes to those of its flow that do not tolerate it, and is marked. A Spawn operation's commit, made where every branch and
page it needs is still there, creates branches at the lowest free numbers, removes branches, gives pages and changes their
counts, and writes numbers and map words; otherwise the Spawn table stays, the record says why, and no address reads otherwise
than before. With the PCIe core clocked OPEN of its queue falls by one and, where the completion queue of its entry is
enabled, the 32 bytes at that queue's tail are the record with the queue's PHASE; while it is gated the record waits behind
those before it. An operation that never resolved its precision carries PREC_OVERRIDDEN as the lock stands (log 70, the
model's choice). Where the fence cannot complete nothing changes. Operations, Eddies, memory and Spawn tables are taken in
their canonical forms; memory is spoken of where no write waits for an Eddy entry. -/
def Obligations.ReleaseDrainsSignalsAndReports : Prop :=
  ∀ (s : State) (op : Nat) (o : Op) (m : Measured), opOf? s op = some o → (o.phase = .executed ∨ o.phase = .ended) →
    (∀ x ∈ s.weir.ops, x.part = o.part → x.desc.flow = o.desc.flow → ¬(x.id < o.id)) → s.power.compute = true →
    (partOf s o.part).resetting = false → opsOk s.weir = true → s.mem.wf = true → eddiesOk s.mem = true →
    let loc := ringAddr (cqOf s o.cq).base + 32 * (cqOf s o.cq).tail
    let commits := o.phase = .executed ∧ o.status = stOK ∧ o.commits ≠ []
    let can := s.mem.eddyWait.all (fun w => w.op != op) = true ∧ (commits → ∀ w ∈ commitWrites o.commits, memHeld s w = false) ∧
      ∀ k, ∀ e ∈ tabGet [] s.mem.eddies k, op ∈ e.writers → selfRefresh s k = false ∧ repairHolds s e.line 256 = false
    let st := if commits then commitStatus s o.part o.commits else o.status
    let y := { o with status := st, precOverridden :=
      if o.precision = 0 then decide (rd s oPREC_LOCK (o.part + 1) ≠ 0) else o.precOverridden }
    (can ∨ s.power.chipError = true → ∃ t, exec (.release op m) s = .next t ∧ opOf? t op = none ∧
      t.weir.ops.map (fun x => x.id) = (s.weir.ops.map (fun x => x.id)).filter (fun i => i != op) ∧
      (s.power.chipError = false → ∀ d, ∀ e ∈ tabGet [] t.mem.eddies d, op ∉ e.writers) ∧
      (o.spilled = true → rd t oSPILL_COUNT (o.part + 1) = satAdd max32 (rd s oSPILL_COUNT (o.part + 1)) 1) ∧
      Signals s t o st ∧
      (commits → st = stOK → s.mem.eddyWait = [] → spawnOk s.spawn = true →
        Committed s t o.part o.commits) ∧
      (¬(commits ∧ st = stOK) → t.spawn = s.spawn ∧ (s.mem.eddyWait = [] → ∀ a, readByte t a = readByte s a)) ∧
      (s.clock.rootGated = false → (iqOf t o.queue).opened = (iqOf s o.queue).opened - 1 ∧
        ((cqOf s o.cq).enabled = true → loc + 32 ≤ 2 ^ 60 →
          hostBytesAt t (partFn s o.part) loc 32 = recordBytes (releaseRecord y m (cqOf s o.cq).phase))) ∧
      (s.clock.rootGated = true → t.outRecords = s.outRecords ++ [(y, m)] ∧ t.iqs = s.iqs ∧ t.cqs = s.cqs)) ∧
    (¬can → s.power.chipError = false → exec (.release op m) s = .next s)

/-- READ_RETURN of an outstanding host request, the domains running: its bytes land at their addresses in the operation's
buffers, the request is gone, and further host reads and lines are asked for; where none awaits the data nothing changes.
DRAM_LINE_READ of an accessible line that a dispatched or parked operation has asked for, return space reserved, no line its
core asked for earlier in the class outstanding and no URGENT request of the stack before it: the request is answered,
requests behind it of lines at hand come in and further ones are asked for, and a line not poisoned and free of error lands as
a read returns it, Eddy bytes included; a corrected error also raises ECC_CE_COUNT of the stack; an uncorrectable one poisons
the line, raises ECC_UE_COUNT and CONTAINED_COUNT and, unless the operation is GATHER or SCATTER or a write of the whole line
waits, ends it MEM_ERROR, as a line poisoned before does; without such a request nothing changes. Every other byte that stands
in a buffer is what it was or what memory holds, and memory keeps every byte. (Stated where no operation that writes what it
reads has rows in the Rill: log 60.) SCRUB_PASS of a stack not in self-refresh counts the errors it corrected and changes
nothing else; REFRESH brings REFRESH_MODE of a fitted stack up to date (0 normal, 1 a warm or hot stack, 2 self-refresh) and
changes nothing else. -/
def Obligations.DataLandsInTheBuffers : Prop :=
  (∀ (s : State) (op a : Nat) (o : Op) (r : Request), opOf? s op = some o →
    o.requests.find? (fun x => !x.remote && x.addr == a) = some r → s.clock.rootGated = false → RowsSettled s →
    ∃ t y, exec (.readReturn op a) s = .next t ∧ AskedOn s t ∧ opOf? t op = some y ∧
      y.requests ++ y.due = o.requests.filter (fun x => x != r) ++ o.due ∧
      (∀ i, i < r.len → (∀ j l, lineAt o.ins j = some l → ¬(l ≤ r.addr + i ∧ r.addr + i < l + 256)) →
        tabGet? y.landed (r.addr + i) = some (hostByte s (partFn s o.part) (r.addr + i))) ∧
      (∀ b, (b < r.addr ∨ r.addr + r.len ≤ b) → tabGet? y.landed b = tabGet? o.landed b ∨
        tabGet? y.landed b = some (readByte s b)) ∧
      (∀ c, o.core ≠ some c → coreOf t c = coreOf s c)) ∧
  (∀ (s : State) (op a : Nat) (o : Op), opOf? s op = some o → o.requests.find? (fun x => !x.remote && x.addr == a) = none →
    exec (.readReturn op a) s = .next s) ∧
  (∀ (s : State) (op line : Nat) (err : LineErr), readFor s op line = none → exec (.dramLineRead op line err) s = .next s) ∧
  (∀ (s : State) (op line : Nat) (o : Op) (r : LineRead), opOf? s op = some o → (o.phase = .dispatched ∨ o.phase = .parked) →
    lineOpen s line = true → readFor s op line = some r → RowsSettled s →
    let ce := objKey oECC_CE_COUNT (dramStack line + 1)
    let dram := fun l : List LineRead => l.filter (fun x => space x.line == 0)
    let asks := fun t : State => ∃ l, dram t.mem.reads = dram (s.mem.reads.erase r) ++ l ∧
      ∀ x ∈ l, x.core / 64 = r.core / 64 ∧ (0 < bridgeCredits s (r.core / 64) → x.core = r.core)
    let lands := fun (t : State) => ∃ y, opOf? t op = some y ∧
      (∀ i, i < 256 → tabGet? y.landed (line + i) = some (readByte s (line + i))) ∧
      (∀ b, (b < line ∨ line + 256 ≤ b) → tabGet? y.landed b = tabGet? o.landed b ∨ tabGet? y.landed b = some (readByte s b))
    let others := fun t : State => t.weir.ops.map (fun x => x.id) = s.weir.ops.map (fun x => x.id) ∧
      ∀ i, i ≠ op → (opOf? t i).map Op.asks = (opOf? s i).map Op.asks
    (poisoned s line = false → ∃ t, exec (.dramLineRead op line .clean) s = .next t ∧ lands t ∧ asks t ∧ AskedOn s t) ∧
    (poisoned s line = false → ∃ t, exec (.dramLineRead op line .corrected) s = .next t ∧ lands t ∧ asks t ∧
      rd t oECC_CE_COUNT (dramStack line + 1) = satAdd max32 (rd s oECC_CE_COUNT (dramStack line + 1)) 1 ∧ SameObjs [ce] s t ∧
      AskedOn { s with dict := t.dict, nv := { s.nv with dirty := true } } t) ∧
    (poisoned s line = false → opsOk s.weir = true → ∃ t, exec (.dramLineRead op line .uncorrectable) s = .next t ∧
      poisoned t line = true ∧ rd t oECC_UE_COUNT (dramStack line + 1) = satAdd max32 (rd s oECC_UE_COUNT (dramStack line + 1)) 1 ∧
      rd t oCONTAINED_COUNT 0 = satAdd max32 (rd s oCONTAINED_COUNT 0) 1 ∧ t.power.alertPulse = true ∧ others t ∧
      (toleratesPoison o.desc.opc = false → lineWaits s line = false → EndedWith t op stMEM_ERROR) ∧
      (toleratesPoison o.desc.opc = true → asks t ∧ (opOf? t op).map Op.asks = some o.asks)) ∧
    (poisoned s line = true → toleratesPoison o.desc.opc = false → lineWaits s line = false →
      ∃ t, exec (.dramLineRead op line .clean) s = .next t ∧ EndedWith t op stMEM_ERROR ∧ others t)) ∧
  (∀ (s : State) (k : Nat) (l : List Nat), s.power.compute = true → stackUsable s k = true → selfRefresh s k = false →
    ∃ t, exec (.scrubPass k l) s = .next t ∧
      rd t oECC_CE_COUNT (k + 1) = satAdd max32 (rd s oECC_CE_COUNT (k + 1)) l.length ∧
      SameObjs [objKey oECC_CE_COUNT (k + 1)] s t ∧ t = { s with dict := t.dict, nv := { s.nv with dirty := true } }) ∧
  (∀ (s : State) (k : Nat), s.power.compute = true → stackFitted s k = true →
    ∃ t, exec (.refresh k) s = .next t ∧ SameObjs [objKey oREFRESH_MODE (k + 1)] s t ∧ t = { s with dict := t.dict } ∧
      (selfRefresh s k = true → rd t oREFRESH_MODE (k + 1) = 2) ∧
      (selfRefresh s k = false → stackOwn s k = .normal → rd t oREFRESH_MODE (k + 1) = 0) ∧
      (selfRefresh s k = false → stackOwn s k ≠ .normal → rd t oREFRESH_MODE (k + 1) = 1))

/-- EDDY_WRITE of a dispatched operation within one line of DRAM and within its outputs, its core holding a memory credit:
every read of a written byte then returns it, every other address reads as before, and the operation has written. With the
controllers clocked, no write of the line waiting, and an entry of the line or fewer than 64 in the stack's Eddy, it enters,
an entry whose mask is full is due, and one of a whole line clears the line's poison; otherwise it waits behind the writes
that wait, poison staying, and where all 64 entries are occupied the oldest is due. EDDY_AGE_EXPIRY makes the entry of a line
due and changes no byte. EDDY_DRAIN_DONE of a due entry, the stack not in self-refresh and no repair holding the line (else
nothing happens): every address reads as before, each partial entry of its row run that was due counts one read-modify-write,
and, with no write waiting, the due entries of the row run leave the Eddy and an uncorrectable error met by a partial entry's
read leaves the line poisoned. Memory and Eddies are taken in their canonical forms, and the last for operations whose rows in
the Rill lie apart from what they read (log 60). -/
def Obligations.EddyHoldsWritesUntilTheyDrain : Prop :=
  (∀ (s : State) (op a c : Nat) (b : List Byte) (o : Op), opOf? s op = some o → o.core = some c → o.phase = .dispatched →
    space a = 0 → b ≠ [] → a % 256 + b.length ≤ 256 →
    o.outs.any (fun r => decide (r.1 ≤ a ∧ a + b.length ≤ r.1 + r.2)) = true → 0 < lineCredits s c (o.desc.cls == 0) →
    s.mem.wf = true → eddiesOk s.mem = true →
    let k := dramStack a
    let has := (entriesOn s k).any (fun e => e.line == lineOf a)
    let behind := s.clock.rootGated || s.mem.eddyWait.any (fun w => lineOf w.addr == lineOf a)
    ∃ t, exec (.eddyWrite op a b) s = .next t ∧
      t = { s with weir := { s.weir with ops := t.weir.ops }, mem := { s.mem with
        eddies := t.mem.eddies, eddyWait := t.mem.eddyWait, poison := t.mem.poison } } ∧
      opOf? t op = some { o with wrote := true } ∧ OthersKept op s t ∧
      (∀ i, i < b.length → readByte t (a + i) = b.getD i 0) ∧
      (∀ c, (c < a ∨ a + b.length ≤ c) → readByte t c = readByte s c) ∧
      (∀ l, l ≠ lineOf a → poisoned t l = poisoned s l) ∧
      (behind = false → (has = true ∨ (entriesOn s k).length < 64) → t.mem.eddyWait = s.mem.eddyWait ∧
        poisoned t (lineOf a) = (poisoned s (lineOf a) && b.length != 256) ∧
        (∀ e, eddyEntry? t (lineOf a) = some e → e.bytes.length = 256 → e.due = true)) ∧
      (behind = true ∨ (has = false ∧ 64 ≤ (entriesOn s k).length) → t.mem.poison = s.mem.poison ∧
        t.mem.eddyWait = s.mem.eddyWait ++ [{ addr := a, bytes := b, op := op, core := some c, urgent := o.desc.cls == 0 }]) ∧
      (behind = false → has = false → 64 ≤ (entriesOn s k).length → ∃ e, (entriesOn t k).head? = some e ∧ e.due = true)) ∧
  (∀ (s : State) (k line : Nat), (entriesOn s k).any (fun e => e.line == line) = true →
    ∃ t, exec (.eddyAgeExpiry k line) s = .next t ∧ (∀ a, readByte t a = readByte s a) ∧
      (∀ e ∈ entriesOn t k, e.line = line → e.due = true) ∧
      (entriesOn t k).map (fun e => { e with due := true }) = (entriesOn s k).map (fun e => { e with due := true }) ∧
      t = { s with mem := { s.mem with eddies := t.mem.eddies } }) ∧
  (∀ (s : State) (k line : Nat) (e : EddyEntry) (err : LineErr), s.mem.wf = true → eddiesOk s.mem = true →
    (entriesOn s k).find? (fun x => x.line == line && x.due) = some e → s.power.compute = true →
    let held := selfRefresh s k || repairHolds s line 256
    let burst := (entriesOn s k).filter (fun x => x.due && rowOf x.line == rowOf line)
    (held = true → exec (.eddyDrainDone k line err) s = .next s) ∧
    (held = false → RowsSettled s → rd s oEDDY_RMW_COUNT (k + 1) < 2 ^ 64 →
      ∃ t, exec (.eddyDrainDone k line err) s = .next t ∧ (∀ a, readByte t a = readByte s a) ∧
        rd t oEDDY_RMW_COUNT (k + 1) =
          (rd s oEDDY_RMW_COUNT (k + 1) + (burst.filter (fun x => !(entryFull x))).length) % 2 ^ 64 ∧
        t.weir.ops.map Op.asks = s.weir.ops.map Op.asks ∧
        (s.mem.eddyWait = [] → t.weir = s.weir ∧
          entriesOn t k = (entriesOn s k).filter (fun x => !(x.due && rowOf x.line == rowOf line)) ∧
          (∀ j, j ≠ k → entriesOn t j = entriesOn s j) ∧
          (err = .uncorrectable → entryFull e = false → poisoned t line = true))))

/-- FENCE of an issued FENCE operation, the Weir at work, begins its fence. FENCE_COMPLETE of a fence under way: while an
operation admitted before it in its flow has not released, nothing changes; once none has, the fence is executed with status
OK at CORE or CHIP scope. At SYSTEM scope it waits on while a remote write of an earlier operation of the flow has not landed,
or a FLAG acknowledged is not yet visible, and is then executed: with the status of a remote write that will never land, else
with OK. No other operation and nothing else changes. -/
def Obligations.FencesCompleteInScope : Prop :=
  (∀ (s : State) (op : Nat) (o : Op), opOf? s op = some o → weirRuns s = true → o.phase = .issued → o.desc.opc = 0x01 →
    ∃ t, exec (.fence op) s = .next t ∧ opOf? t op = some { o with fencing := true } ∧ OthersKept op s t ∧
      t = { s with weir := { s.weir with ops := t.weir.ops } }) ∧
  (∀ (s : State) (op : Nat) (o : Op), opOf? s op = some o → o.fencing = true →
    let done := fun st => ∃ t, exec (.fenceComplete op) s = .next t ∧ OthersKept op s t ∧
      opOf? t op = some { o with phase := .executed, fencing := false, status := st } ∧
      t = { s with weir := { s.weir with ops := t.weir.ops } }
    let covered := fun m : TxMsg => m.part = o.part ∧ m.flow = o.desc.flow ∧ m.op < o.id
    let late := (∃ m ∈ s.fabric.msgs, covered m ∧ (m.msg.mtype = mtWRITE ∨ m.msg.mtype = mtFLAG)) ∨
      ∃ m ∈ s.fabric.unseen, covered m
    let gone := fun l : LostWrite => l.part = o.part ∧ l.flow = o.desc.flow ∧ l.op < o.id
    (earlierInFlow s o ≠ [] → exec (.fenceComplete op) s = .next s) ∧
    (earlierInFlow s o = [] → o.desc.scope ≠ 2 → done stOK) ∧
    (earlierInFlow s o = [] → o.desc.scope = 2 → (∀ l ∈ s.fabric.lost, ¬gone l) → late →
      exec (.fenceComplete op) s = .next s) ∧
    (earlierInFlow s o = [] → o.desc.scope = 2 → (∀ l ∈ s.fabric.lost, ¬gone l) → ¬late → done stOK) ∧
    (earlierInFlow s o = [] → o.desc.scope = 2 → ∀ l before after, s.fabric.lost = before ++ l :: after →
      (∀ x ∈ before, ¬gone x) → gone l → done l.status))

/-- For each operator of Tables OPS-2, ATT-1, REC-1, SPAWN-1 and IMG-1 but MATMUL, MATMUL_T, CONV, KV_APPEND, GATHER and
SCATTER: on a ready operation (dispatched, operands landed, memory accessible) a poisoned input ends it MEM_ERROR; the effect
is worked in one step (log 6) unit by unit, each on what the units before it wrote; a unit's BOUNDS_INVALID, ACCESS_DENIED,
MEM_ERROR or chapter status ends the operation; otherwise exactly its writes are made, and status, fault fields and changes to
commit stay until release. One that is not ready is left as it is (log 7). MATMUL, MATMUL_T and CONV: a poisoned input
likewise; else the tiles left run in the arrays of its core and memory reads as they leave it; at the first tile, the Rill
empty, no device byte outside its outputs changes. REC_CELL, one step in WIDE mode: h (and c) by the gate formulas of its
tail, from inputs and R = U·h, to STATE_OUT and with OUT_ALL to P2. REC_SCAN, FULL and WIDE without OUT_ALL: one step a·h + b,
two (a0·a1)·h + (a1·b0 + b1). SCAN_CARRY of one entry, WIDE: the carry to P1, A·k + B to STATE_OUT. Spawn, the numbers
well-formed and named once: BRANCH_NEW zeroes a map and creates its branch; FORK and FORK_RETIRE copy the parent's map N
times, create N children and add N references to each pool page it names, FORK_RETIRE dropping its own and removing the
parent; PRUNE, and SELECT of those not chosen, drop and remove; PAGE_ALLOC and PAGE_DROP allot or clear the entries named; a
branch not live is 0x45. -/
def Obligations.OperatorsStoreTheirEffect : Prop :=
  RunsAs .copy 0x02 false (rowUnits 16) effCopy ∧
  RunsAs .attn 0x20 false attnUnits effAttn ∧
  RunsAs .attnScore 0x21 false attnUnits effAttn ∧
  RunsAs .attnSoftmax 0x22 false attnUnits effAttn ∧
  RunsAs .attnMerge 0x23 false attnUnits effAttn ∧
  RunsAs .attnNorm 0x24 false attnUnits effAttn ∧
  RunsAs .recCell 0x30 false entriesOf effRec ∧
  RunsAs .recScan 0x31 false entriesOf effRec ∧
  RunsAs .scanCarry 0x32 false (fun _ => [()]) effScanCarry ∧
  RunsAs .branchNew 0x40 false entriesOf effSpawn ∧
  RunsAs .fork 0x41 false entriesOf effSpawn ∧
  RunsAs .prune 0x42 false entriesOf effSpawn ∧
  RunsAs .select 0x43 false entriesOf effSpawn ∧
  RunsAs .pageAlloc 0x44 false entriesOf effSpawn ∧
  RunsAs .pageDrop 0x45 false entriesOf effSpawn ∧
  RunsAs .forkRetire 0x46 false entriesOf effSpawn ∧
  RunsAs .s2d 0x51 false entriesOf effImage ∧
  RunsAs .d2s 0x52 false entriesOf effImage ∧
  RunsAs .pool 0x53 false entriesOf effImage ∧
  RunsAs .boxDecode 0x54 false entriesOf effImage ∧
  RunsAs .nms 0x55 false entriesOf effImage ∧
  RunsAs .sort 0x56 false entriesOf effImage ∧
  (∀ (c : Nat → Instr) (opc : Nat), (c = .matmul ∧ opc = 0x10) ∨ (c = .matmulT ∧ opc = 0x11) ∨ (c = .conv ∧ opc = 0x50) →
    ∀ (s : State) (op k : Nat) (o : Op), opOf? s op = some o → o.core = some k →
    let poison := o.ins.any (fun r => touchesPoison s r.1 r.2)
    let y := streamRest k s o
    (opReady s o opc = false → exec (c op) s = .next s) ∧
    (opReady s o opc = true → poison = true → ∃ t, exec (c op) s = .next t ∧ EndedWith t op stMEM_ERROR ∧ OthersKept op s t) ∧
    (opReady s o opc = true → poison = false → s.mem.wf = true → eddiesOk s.mem = true → opsOk s.weir = true →
      ∃ t, exec (c op) s = .next t ∧ OthersKept op s t ∧ SameObjs rmwKeys s t ∧
        t.mem = { y.1.mem with free := t.mem.free } ∧ (∀ a, readByte t a = readByte y.1 a) ∧
        opOf? t op = some (Op.afterEff { o with nar := y.2.nar } y.2.landed { nar := y.2.nar }) ∧
        (o.tile = 0 → (coreOf s k).arrays.rill = [] → ∀ a, space a < 3 →
          (opc ≠ 0x50 → ∀ e ∈ o.entries, ∀ r, r < o.m →
            let row := ptr e 2 + r * pitchOf (boundN o.desc.cap) o.desc.fmt2
            a < row ∨ row + o.n * elemBytes o.desc.fmt2 ≤ a) →
          (opc = 0x50 → ∀ x ∈ entriesOf o, ∀ u v,
            let i := imgParams (o.blocks.getD x.1 [])
            u < outH i o.m → v < outW i o.n → let px := pixAt (outLay o.desc i x.2) u v
            a < px ∨ px + i.cOut * elemBytes o.desc.fmt2 ≤ a) → readByte t a = readByte s a))) ∧
  (∀ (s : State) (o : Op) (idx : Nat) (e : List Nat),
    let ld := opByte s o
    let d := o.desc
    let blk := o.blocks.getD idx []
    let a := recParams blk
    let lf := logOfPrec o.precision
    let ks := kSlice o.precision
    let w := (effRec s o (idx, e)).writes
    let f32s := fun vs : List FVal => vs.flatMap (fun v => leBytes 4 (fencode f32 v))
    let kept := fun r c => (rowVals ((stateRows d o.m o.n blk).getD r (zeroRow false 0))).getD c fzero
    let cols := fun f : Nat → FVal => (List.range o.n).map f
    (d.opc = 0x30 → o.k = 1 → a.lg = false → 0x80 ≤ d.tail → d.tail ≤ 0x82 → ∀ r, r < o.m →
      ∃ rg : Nat → Nat → FVal, (∀ i c, i < gateCount d.tail → c < o.n → ∃ tile, rg i c =
        accumulate lf ks d.seed tile r c o.n (fun j => if j < o.n then linToLog lf (kept r j) else .zero)
          (fun j => matLog ld lf (ptr e 1 + i * boundN d.cap * pitchOf (boundN d.cap) d.fmt1) (boundN d.cap) d.fmt1 j c)
          (ceilDiv o.n ks) 0 fzero) ∧
        let x := fun i c => matElem ld (ptr e 0) (gateCount d.tail * boundN d.cap) d.fmt0 r (i * o.n + c)
        let sg := fun i c => rillSigmoid (fadd (x i c) (rg i c))
        let th := fun i c => rillTanh (fadd (x i c) (rg i c))
        let mix := fun z h cc => fadd (fmul z h) (fmul (fsub fone z) cc)
        let c' := fun c => fadd (fmul (sg 1 c) (kept r (o.n + c))) (fmul (sg 0 c) (th 2 c))
        let h := fun c => if d.tail = 0x80 then
            mix (sg 0 c) (kept r c) (rillTanh (fadd (x 2 c) (fmul (sg 1 c) (rg 2 c))))
          else if d.tail = 0x81 then fmul (sg 3 c) (rillTanh (c' c)) else mix (sg 0 c) (kept r c) (th 1 c)
        (stRowAt d false a.stateOut r, f32s (cols h ++ if d.tail = 0x81 then cols c' else [])) ∈ w ∧
        (a.outAll = true → (ptr e 2 + r * pitchOf (boundN d.cap) d.fmt2, (rowBytes d.fmt2 (cols h)).1) ∈ w)) ∧
    (d.opc = 0x31 → a.scanMode = 0 → a.lg = false → a.outAll = false →
      let x := fun t c => matElem ld (ptr e 0) (boundN d.cap) d.fmt0 t c
      let y := fun t c => matElem ld (ptr e 1) (boundN d.cap) d.fmt1 t c
      let av := fun t c => if d.tail = 0x83 then rillSigmoid (x t c) else x t c
      let bv := fun t c => if d.tail = 0x83 then fmul (fsub fone (av t c)) (y t c) else y t c
      (o.m = 1 → (a.stateOut, f32s (cols (fun c => fadd (fmul (av 0 c) (kept 0 c)) (bv 0 c)))) ∈ w) ∧
      (o.m = 2 → (a.stateOut, f32s (cols (fun c => fadd (fmul (fmul (av 0 c) (av 1 c)) (kept 0 c))
        (fadd (fmul (av 1 c) (bv 0 c)) (bv 1 c))))) ∈ w)) ∧
    (d.opc = 0x32 → o.entries = [e] → idx = 0 → a.lg = false →
      let second := ptr e 0 + pitchOf (boundN d.cap) 0
      overlaps (ptr e 1) (4 * o.n) (ptr e 0) (4 * o.n) = false → overlaps (ptr e 1) (4 * o.n) second (4 * o.n) = false →
      let v := (effScanCarry s o ()).writes
      let k := fun c => (rowVals ((stateRows d 1 o.n blk).headD (zeroRow false 0))).getD c fzero
      (ptr e 1, f32s (cols k)) ∈ v ∧ (a.stateOut, f32s (cols (fun c =>
        fadd (fmul (f32Of (wordAt ld (ptr e 0 + 4 * c) 4)) (k c)) (f32Of (wordAt ld (second + 4 * c) 4))))) ∈ v)) ∧
  (∀ (s : State) (o : Op) (i : Nat) (e : List Nat),
    let ld := opByte s o
    let p := o.part
    let f := effSpawn s o (i, e)
    let named := namedBy ld o i
    let first := wordAt ld (ptr e 0) 4
    let list := words32 ld (ptr e 0) o.n
    let js := words32 ld (ptr e 1) o.n
    let refs := fun g x => match branchOf? s p x with
      | some b => namedTimes s p g (mapWords s b)
      | none => 0
    let dead := fun xs : List Nat => ∃ x ∈ xs, branchOf? s p x = none
    let drops := fun xs : List Nat => creations f.acts = 0 ∧ (∀ x ∈ xs, .remove x ∈ f.acts) ∧
      (∀ x, .remove x ∈ f.acts → x ∈ xs) ∧ ∀ g, netRef f.acts g = -((xs.map (refs g)).foldl (· + ·) 0 : Nat)
    numbersOk named = true → hasRepeat named = false →
    (o.desc.opc = 0x40 → f = { writes := [(ptr e 0, List.replicate (8 * o.n) 0)], acts := [.create (ptr e 2) (ptr e 0) o.n] }) ∧
    (o.desc.opc = 0x41 ∨ o.desc.opc = 0x46 → (branchOf? s p first = none → f.status = 0x45) ∧
      ∀ b, branchOf? s p first = some b → let size := roundUp (8 * b.e) 64
        within s p (ptr e 1) (o.n * size) = true → touchesPoison s b.mapAddr (8 * b.e) = false →
        f.status = 0 ∧ f.writes = (List.range o.n).map (fun j => (ptr e 1 + j * size, (mapWords s b).flatMap (leBytes 8))) ∧
        .need first ∈ f.acts ∧ creations f.acts = o.n ∧
        (∀ j, j < o.n → .create (ptr e 2 + 4 * j) (ptr e 1 + j * size) b.e ∈ f.acts) ∧
        (∀ x, .remove x ∈ f.acts ↔ o.desc.opc = 0x46 ∧ x = first) ∧
        ∀ g, netRef f.acts g = (refs g first : Int) * (o.n - if o.desc.opc = 0x46 then 1 else 0)) ∧
    (o.desc.opc = 0x42 → (dead list → f.status = 0x45) ∧
      (¬dead list → list.any (mapPoisoned s p) = false → f.status = 0 ∧ f.writes = [] ∧ drops list)) ∧
    (o.desc.opc = 0x43 → (dead list → f.status = 0x45) ∧
      let order := sortOrder false ((List.range o.n).map (fun i =>
        sortKey o.desc.fmt1 (elemAt ld (ptr e 1 + i * elemBytes o.desc.fmt1) o.desc.fmt1)))
      let out := (order.drop o.m).map (fun i => list.getD i 0)
      (¬dead list → out.any (mapPoisoned s p) = false → f.status = 0 ∧ drops out ∧ ∀ x ∈ list, .need x ∈ f.acts)) ∧
    (o.desc.opc = 0x44 ∨ o.desc.opc = 0x45 → (branchOf? s p first = none → f.status = 0x45) ∧
      ∀ b, branchOf? s p first = some b → (js.any (fun j => decide (b.e ≤ j)) = true → f.status = 0x42) ∧
        (js.any (fun j => decide (b.e ≤ j)) = false → js.any (fun j => touchesPoison s (b.mapAddr + 8 * j) 8) = false →
          let word := fun j => memNum s p (b.mapAddr + 8 * j) 8
          (o.desc.opc = 0x44 → js.any (fun j => word j % 2 == 1) = true → f.status = 0x42) ∧
          (o.desc.opc = 0x44 → js.any (fun j => word j % 2 == 1) = false → f.status = 0 ∧
            f.acts = .need first :: js.eraseDups.map (fun j => .newPage (b.mapAddr + 8 * j))) ∧
          (o.desc.opc = 0x45 → f.status = 0 ∧ (∀ j ∈ js, word j % 2 = 1 → .clearEntry (b.mapAddr + 8 * j) ∈ f.acts) ∧
            ∀ g, netRef f.acts g = -(namedTimes s p g (js.eraseDups.map word) : Int)))))

/-- KV_APPEND on an operation ready for it, the pages and map entries it writes accessible: a poisoned input ends it
MEM_ERROR; where the pool lacks a page for a copy it needs, it ends with status 0x44, and where a page to copy is poisoned,
MEM_ERROR; with no page shared it stores its slots and keeps the status, and no other byte of memory changes; with copies
SPOOL_COPIES rises by their number. GATHER and SCATTER on an operation ready for them, from its next group on: with no lane in
fault, or GFP 0, each group of lanes is written as one masked write in order, the first lane in fault of all is named,
GATHER_FAULTS of the partition is raised by the lanes in fault, and the status is OK, NAR_PRODUCED or PARTIAL_FAULT; under GFP
1 the first group with a fault ends it MEM_ERROR with entry, group and lane named, only the groups before it written, PARTIAL
saying whether any was. The end of a tile works one group so. Other operations do not change. Memory, Eddies and the list of
operations are taken in their canonical forms. -/
def Obligations.AppendGatherAndScatter : Prop :=
  (∀ (s : State) (op : Nat) (o : Op), opOf? s op = some o → opReady s o 0x28 = true → appendHeld s (appendTargets s o) = false →
    let poison := o.ins.any (fun r => touchesPoison s r.1 r.2)
    let plan := cowPlan s o.part (appendTargets s o)
    (poison = true → ∃ t, exec (.kvAppend op) s = .next t ∧ EndedWith t op stMEM_ERROR ∧ OthersKept op s t) ∧
    (poison = false → plan = none → ∃ t, exec (.kvAppend op) s = .next t ∧ EndedWith t op 0x44 ∧ OthersKept op s t) ∧
    (∀ u copies, poison = false → plan = some (u, copies) → copies.any (copyPoisoned s o) = true →
      ∃ t, exec (.kvAppend op) s = .next t ∧ EndedWith t op stMEM_ERROR ∧ OthersKept op s t) ∧
    (∀ u copies, poison = false → plan = some (u, copies) → copies.any (copyPoisoned s o) = false →
      ∃ t y, exec (.kvAppend op) s = .next t ∧ opOf? t op = some y ∧ y.dataDone = true ∧ OthersKept op s t ∧
        rd t oSPOOL_COPIES (o.part + 1) = rd s oSPOOL_COPIES (o.part + 1) + copies.length) ∧
    (∀ u, poison = false → plan = some (u, []) → s.mem.wf = true → eddiesOk s.mem = true → opsOk s.weir = true →
      let z := { o with outs := o.entries.flatMap (fun e => appendSlots o.desc o.m o.n o.k (pageNow s o e)) }
      let x := runUnits effAppend (entriesOf o) s z {}
      ∃ t, exec (.kvAppend op) s = .next t ∧ Stored s t o.part (unitWrites effAppend (entriesOf o) s z) ∧
        opOf? t op = some (z.afterEff x.2.1.landed x.2.2) ∧ OthersKept op s t)) ∧
  (∀ (c : Nat → Instr) (opc : Nat), (c = .gather ∧ opc = 0x58) ∨ (c = .scatter ∧ opc = 0x59) →
    ∀ (s : State) (op : Nat) (o : Op), opsOk s.weir = true → opOf? s op = some o → s.mem.wf = true → eddiesOk s.mem = true →
    let gs := workedGroups ((gatherGroups o).drop o.tile) s o
    let lanes := gs.flatMap (fun g => g.2.2)
    let faults := fun l : List Lane => (l.filter (fun x => x.fault)).length
    let names := fun (y : Op) (g : Nat × Nat × List Lane) =>
      y.faultEntry = g.1 ∧ y.faultGroup = g.2.1 ∧ y.faultIndex = g.2.2.findIdx (fun l => l.fault)
    let counted := fun (t : State) (n : Nat) =>
      rd t oGATHER_FAULTS (o.part + 1) = satAdd max32 (rd s oGATHER_FAULTS (o.part + 1)) n
    (opReady s o opc = true → o.desc.gfp = false ∨ faults lanes = 0 → ∃ t y, exec (c op) s = .next t ∧ counted t (faults lanes) ∧
      Stored s { t with dict := s.dict } o.part (gs.flatMap (fun g => groupWrite g.2.2)) ∧
      SameObjs (objKey oGATHER_FAULTS (o.part + 1) :: rmwKeys) s t ∧ OthersKept op s t ∧ opOf? t op = some y ∧
      y.dataDone = true ∧ y.desc = o.desc ∧ y.faultCount = o.faultCount + faults lanes ∧
      (0 < y.faultCount → y.status = stPARTIAL_FAULT) ∧
      (∀ before g after, o.faultCount = 0 → gs = before ++ g :: after → (∀ x ∈ before, faults x.2.2 = 0) → 0 < faults g.2.2 →
        names y g) ∧
      (y.faultCount = 0 → y.status =
        if o.nar || gs.any (fun g => (standing g.2.2).any (fun l => l.nar)) then stNAR_PRODUCED else stOK)) ∧
    (∀ before g after, opReady s o opc = true → o.desc.gfp = true → gs = before ++ g :: after →
      (∀ x ∈ before, faults x.2.2 = 0) → 0 < faults g.2.2 →
      ∃ t y, exec (c op) s = .next t ∧ counted t (faults g.2.2) ∧ OthersKept op s t ∧ opOf? t op = some y ∧ y.phase = .ended ∧
        y.status = stMEM_ERROR ∧ (o.faultCount = 0 → names y g) ∧ y.faultCount = o.faultCount + faults g.2.2 ∧
        y.partialOut = (o.wrote || before.any (fun x => !(groupWrite x.2.2).isEmpty)) ∧
        ((∀ k, o.core = some k → (coreOf s k).load ≠ some .coreReset) → ∀ a, space a < 3 → readByte t a =
          (lastWrite (before.flatMap (fun x => groupWrite x.2.2)) a).getD (readByte s a))) ∧
    (∀ k x, o.desc.opc = opc → executingOn s k = some o → o.core = some k → inWave s k = true → (coreOf s k).load = none →
      (coreOf s k).stall = none → o.dataDone = false → o.cancel = false → o.tile + 1 < o.tiles → memoryOpen s o = true →
      (gatherGroups o)[o.tile]? = some x →
      let ls := lanesOf s o x.2.1 x.2.2
      (o.desc.gfp = false ∨ faults ls = 0 → ∃ t y, exec (.wavefrontComplete k) s = .next t ∧ counted t (faults ls) ∧
        Stored s { t with dict := s.dict } o.part (groupWrite ls) ∧ OthersKept op s t ∧ opOf? t op = some y ∧
        y.tile = o.tile + 1 ∧ y.desc = o.desc ∧ y.phase = o.phase ∧ y.faultCount = o.faultCount + faults ls ∧
        (o.faultCount = 0 → 0 < faults ls → names y (x.1, x.2.2, ls))) ∧
      (o.desc.gfp = true → 0 < faults ls → ∃ t, exec (.wavefrontComplete k) s = .next t ∧ counted t (faults ls) ∧
        EndedWith t op stMEM_ERROR ∧ OthersKept op s t)))

/-- COPY, one entry, its destination in device memory and apart from its source: each element is the source's converted,
binary32 bit for bit, every other device byte stays. MATMUL and MATMUL_T of operations that differ in OPC only: a wavefront
leaves the same accumulators from the same ones where the weight (k, c) of one is the weight (c, k) of the other, and a Rill
row then stores the same. ATTN_NORM stores A × RECIP(l), or +0.0 where l is 0 (the unit of the reciprocal is log 70, the
model's choice); ATTN_SOFTMAX e^(x − max) × RECIP(sum), or +0.0 where every score is −∞; ATTN_MERGE the merged m, l and A.
ATTN_SCORE stores TAIL_SCALE × q·k for a key in the row's key set, −∞ for another. ATTN (MODE FULL) normalises the merge, from
the empty state on, of each visited block with a key of the row: m the largest score, l the sum of the probabilities, A their
products with the values. S2D and D2S store each output channel from the input element that R339 and R340 name, ZERO where it
is absent; POOL the mean or the maximum of the present positions; BOX_DECODE the decoded and clipped corners (these where no
output lies on an input). NMS writes the count, the kept positions in rank order and fill: each kept one a number not below
SCORE_MIN, none suppressed by an earlier kept one, no other left out before MAX_OUT unless a kept one suppresses it. -/
def Obligations.CopyAndTransposedWeights : Prop :=
  (∀ (s : State) (op : Nat) (o : Op) (e : List Nat), opOf? s op = some o → opReady s o 0x02 = true → o.entries = [e] →
    o.ins.any (fun r => touchesPoison s r.1 r.2) = false → s.mem.wf = true → eddiesOk s.mem = true → opsOk s.weir = true →
    o.n ≤ boundN o.desc.cap → space (ptr e 1 + o.m * pitchOf (boundN o.desc.cap) o.desc.fmt1) < 3 →
    let src := fun r c => ptr e 0 + r * pitchOf (boundN o.desc.cap) o.desc.fmt0 + c * elemBytes o.desc.fmt0
    let dst := fun r c => ptr e 1 + r * pitchOf (boundN o.desc.cap) o.desc.fmt1 + c * elemBytes o.desc.fmt1
    (∀ i r, i < o.m → r < o.m → dst i o.n ≤ src r 0 ∨ src r o.n ≤ dst i 0) →
    ∃ t, exec (.copy op) s = .next t ∧
      (∀ r c, r < o.m → c < o.n → elemAt (readByte t) (dst r c) o.desc.fmt1 =
        (copyElem o.desc.fmt0 o.desc.fmt1 (elemAt (opByte s o) (src r c) o.desc.fmt0)).1 % 256 ^ elemBytes o.desc.fmt1) ∧
      (o.desc.fmt0 = 0 → o.desc.fmt1 = 0 → ∀ r c j, r < o.m → c < o.n → j < 4 →
        readByte t (dst r c + j) = opByte s o (src r c + j)) ∧
      (∀ a, space a < 3 → (∀ r, r < o.m → a < dst r 0 ∨ dst r o.n ≤ a) → readByte t a = readByte s a) ∧
      (∃ y, opOf? t op = some y ∧ y.dataDone = true ∧ (y.status = stOK ∨ y.status = stNAR_PRODUCED)) ∧ OthersKept op s t) ∧
  (∀ (ld ld' : Nat → Byte) (o : Op) (t : Nat) (acc : Tab W32), o.desc.opc = 0x10 →
    let d := o.desc
    let o' := { o with desc := { d with opc := 0x11 } }
    let w := wavefrontAt o t
    let l := logOfPrec o.precision
    let after := fun (b : Nat → Byte) (x : Op) => accumulated l d.seed (matmulWave b x t) (planeOf l (matmulWave b x t)) acc
    (∀ r k, r < o.m → k < o.k → matLog ld' l (ptr w.e 0) (boundK d.cap) d.fmt0 r k =
      matLog ld l (ptr w.e 0) (boundK d.cap) d.fmt0 r k) →
    (∀ k c, k < o.k → c < o.n → matLog ld' l (ptr w.e 1) (boundK d.cap) d.fmt1 c k =
      matLog ld l (ptr w.e 1) (boundN d.cap) d.fmt1 k c) →
    after ld' o' = after ld o ∧
    ∀ x : RillRow, x.tile = t → (∀ r c, r < o.m → c < o.n → matElem ld' (ptr w.e 3) (boundN d.cap) d.fmt3 r c =
      matElem ld (ptr w.e 3) (boundN d.cap) d.fmt3 r c) → rillEff ld' o' x = rillEff ld o x) ∧
  (∀ (s : State) (o : Op) (idx : Nat) (e rs : List Nat) (r : Nat), r ∈ rs → r < o.m →
    let ld := opByte s o
    let d := o.desc
    let w := (effAttn s o (idx, e, rs)).writes
    let row := fun (i cap fmt : Nat) (vs : List FVal) => (ptr e i + r * pitchOf cap fmt, (rowBytes fmt vs).1)
    let ks := fun f : Nat → FVal => (List.range o.k).map f
    let rec_ := fun i => ptr e i + boundM d.cap * pitchOf (boundK d.cap) 0 + 8 * r
    let m := fun i => f32Of (wordAt ld (rec_ i) 4)
    let l := fun i => f32Of (wordAt ld (rec_ i + 4) 4)
    let av := fun i c => f32Of (wordAt ld (ptr e i + r * pitchOf (boundK d.cap) 0 + 4 * c) 4)
    let a := attnParams (o.blocks.getD idx [])
    let held := o.pages.getD idx []
    let q := queryRow ld o a e r
    let isScore := fun (j : Nat) (v : FVal) => (attends a o.n r j = false → v = .inf true) ∧
      (attends a o.n r j = true → ∃ tile, v = fmul (f32Of d.tailScale) (dotRows o.precision d.seed tile r (j % 32) o.k q
        ((blockKeys ld o a held (j / 32)).getD (j % 32) [])))
    (d.opc = 0x24 → row 1 (boundK d.cap) d.fmt1 (ks (fun c => if isZero (l 0) then fzero else fmul (av 0 c) (rillRecip (l 0)))) ∈ w) ∧
    (d.opc = 0x22 → o.n ≠ 0 →
      let x := fun c => matElem ld (ptr e 0) (boundN d.cap) d.fmt0 r c
      let top := ((List.range o.n).map x).foldl fmax (.inf true)
      let ex := fun c => rillExp (fsub (x c) top)
      row 1 (boundN d.cap) d.fmt1 ((List.range o.n).map (fun c => if top = .inf true then fzero
        else fmul (ex c) (rillRecip (((List.range o.n).map ex).foldl fadd fzero)))) ∈ w) ∧
    (d.opc = 0x23 →
      let top := fmax (m 0) (m 1)
      let f := fun i => rillExp (fsub (m i) top)
      let mix := fun u v => if top = .inf true then fzero else fadd (fmul (f 0) u) (fmul (f 1) v)
      row 2 (boundK d.cap) 0 (ks (fun c => mix (av 0 c) (av 1 c))) ∈ w ∧
        (rec_ 2, leBytes 4 (fencode f32 top) ++ leBytes 4 (fencode f32 (mix (l 0) (l 1)))) ∈ w) ∧
    (d.opc = 0x21 → o.n ≠ 0 → ∃ vs : List FVal, vs.length = o.n ∧ row 2 (boundN d.cap) d.fmt2 vs ∈ w ∧
      ∀ j v, vs[j]? = some v → isScore j v) ∧
    (d.opc = 0x20 → a.mode = 0 → ∃ (sc : Nat → FVal) (tile : Nat → Nat → Nat), (∀ j, isScore j (sc j)) ∧
      let t := logOfPrec o.precision
      let size := kSlice o.precision
      let block := fun b =>
        let ss := (List.range 32).map (fun i => sc (32 * b + i))
        let ps := ss.map (fun x => linToLog t (rillExp (fsub x (ss.foldl fmax (.inf true)))))
        ({ m := ss.foldl fmax (.inf true), l := (ps.map (logToLin t)).foldl fadd fzero
           a := ks (fun c => accumulate t size d.seed (tile b c) r c 32 (fun i => ps.getD i .zero) (blockVal ld o held b c)
             (32 / size) 0 fzero) } : RowState)
      let has := fun b => (List.range 32).any (fun i => attends a o.n r (32 * b + i))
      row 2 (boundK d.cap) d.fmt2 (normRow (((visited a o.m o.n (r / 64)).filter has).foldl (fun st b => mergeRow st (block b))
        { a := List.replicate o.k fzero })) ∈ w)) ∧
  (∀ (s : State) (o : Op) (idx : Nat) (e : List Nat),
    let ld := opByte s o
    let d := o.desc
    let a := imgParams (o.blocks.getD idx [])
    let w := (effImage s o (idx, e)).writes
    let dims := outDims d a o.m o.n o.k
    let b0 := elemBytes d.fmt0
    let clear := ∀ x ∈ w, ∀ y z, y < o.m → z < o.n → overlaps x.1 x.2.length (pixAt (inLay d a e) y z) (o.k * b0) = false
    let src := fun y z ch => elemAt ld (pixAt (inLay d a e) y z + ch * b0) d.fmt0
    let out := fun y z (f : Nat → Nat) => (pixAt (outLay d a e) y z, (List.range dims.2.2).flatMap (fun ch => leBytes (elemBytes d.fmt1) (f ch)))
    (clear → ∀ y z, y < dims.1 → z < dims.2.1 →
      (d.opc = 0x51 → out y z (fun ch =>
        let iy := a.factor * y + ch / o.k / a.factor
        let ix := a.factor * z + ch / o.k % a.factor
        if iy < o.m ∧ ix < o.n then (copyElem d.fmt0 d.fmt1 (src iy ix (ch % o.k))).1 else zeroOf d.fmt1) ∈ w) ∧
      (d.opc = 0x52 → out y z (fun ch => (copyElem d.fmt0 d.fmt1 (src (y / a.factor) (z / a.factor)
        ((y % a.factor * a.factor + z % a.factor) * dims.2.2 + ch))).1) ∈ w) ∧
      (d.opc = 0x53 → ∀ c0, c0 < o.k → c0 % 64 = 0 → (pixAt (outLay d a e) y z + c0 * elemBytes d.fmt1,
        (rowBytes d.fmt1 ((List.range (min 64 (o.k - c0))).map (fun c =>
          match ((List.range (a.kh * a.kw)).filterMap (tapPixel a o.m o.n y z)).map (fun x =>
            loadElem d.fmt0 (src x.1 x.2 (c0 + c))) with
          | [] => fzero
          | v :: vs => if a.avg then fmul (vs.foldl fadd v) (fdiv fone (fofInt (vs.length + 1))) else vs.foldl fmax v))).1) ∈ w)) ∧
    (d.opc = 0x54 → (∀ x ∈ w, overlaps x.1 x.2.length (ptr e 0) (16 * o.m) = false ∧
        overlaps x.1 x.2.length (ptr e 1) (4 * elemBytes d.fmt1 * o.m) = false) → ∀ r, r < o.m →
      let an := fun i => f32Of (wordAt ld (ptr e 0 + 16 * r + 4 * i) 4)
      let dl := fun i => loadElem d.fmt1 (elemAt ld (ptr e 1 + (4 * r + i) * elemBytes d.fmt1) d.fmt1)
      let mid := fun i => fadd (an i) (fmul (fmul (dl i) (f32Of a.varXy)) (an (i + 2)))
      let half := fun i => fmul (.fin false 1 (-1)) (fmul (an (i + 2)) (rillExp (fmin (fmul (dl (i + 2)) (f32Of a.varWh)) (f32Of a.whClamp))))
      let clip := fun i v => if a.clip then fmin (fmax v fzero) (f32Of (if i = 0 then a.imgW else a.imgH)) else v
      (ptr e 2 + 16 * r, (rowBytes 0 [clip 0 (fsub (mid 0) (half 0)), clip 1 (fsub (mid 1) (half 1)),
        clip 0 (fadd (mid 0) (half 0)), clip 1 (fadd (mid 1) (half 1))]).1) ∈ w) ∧
    (d.opc = 0x55 → ∃ kept : List Nat,
      let score := fun i => elemAt ld (ptr e 1 + i * elemBytes d.fmt1) d.fmt1
      let box := fun i => (⟨boxVal ld (ptr e 0) i 0, boxVal ld (ptr e 0) i 1, boxVal ld (ptr e 0) i 2, boxVal ld (ptr e 0) i 3⟩ : Box)
      let cand := fun i => isNan (loadElem d.fmt1 (score i)) = false ∧ flt (loadElem d.fmt1 (score i)) (f32Of a.scoreMin) = false
      w = [(ptr e 2, (kept.length :: kept ++ List.replicate (a.maxOut - kept.length) 0xFFFFFFFF).flatMap (leBytes 4))] ∧
      kept.length ≤ a.maxOut ∧ kept.Sublist (sortOrder false ((List.range o.m).map (fun i => sortKey d.fmt1 (score i)))) ∧
      (∀ i ∈ kept, cand i) ∧ kept.Pairwise (fun i j => suppresses (f32Of a.iouMax) (box j) (box i) = false) ∧
      (kept.length < a.maxOut → ∀ i, i < o.m → cand i → i ∉ kept → ∃ j ∈ kept, suppresses (f32Of a.iouMax) (box i) (box j) = true)))

/-- For any keys of one format, in either direction, the rank order is a permutation of the input positions, and of two
positions in it the first has a number and the second NaN or NaR, or the first number goes before the second by value in the
direction ASCEND selects (INT8 as integers, log codes by the value they denote, ZERO as 0, −0.0 equal to +0.0), or neither
goes before the other, two NaNs or NaRs included, and the first has the lower position. SORT writes the first M positions of
that order in the direction of ASCEND, or their payload words; SELECT writes the first M of its numbers by descending score,
and NMS takes its candidates in descending order. -/
def Obligations.SortRanksKeysStably : Prop :=
  (∀ (fmt : Nat) (ascend : Bool) (ws : List Nat),
    let order := sortOrder ascend (ws.map (sortKey fmt))
    let w := fun i => ws.getD i 0
    let number := fun i => isNumber fmt (w i) = true
    let before := fun i j => if ascend then BelowBy fmt (w i) (w j) else BelowBy fmt (w j) (w i)
    order.Perm (List.range ws.length) ∧
      order.Pairwise (fun i j => (number i ∧ ¬number j) ∨ (number i ∧ number j ∧ before i j) ∨
        ((number i ↔ number j) ∧ (number i → ¬before i j ∧ ¬before j i) ∧ i < j))) ∧
  ∀ (s : State) (o : Op) (idx : Nat) (e : List Nat),
    let ld := opByte s o
    let keys := fun (p fmt n : Nat) => (List.range n).map (fun i => sortKey fmt (elemAt ld (ptr e p + i * elemBytes fmt) fmt))
    let a := imgParams (o.blocks.getD idx [])
    (o.desc.opc = 0x56 → (effImage s o (idx, e)).writes =
      if (sortOrder a.ascend (keys 0 o.desc.fmt0 o.n)).take o.m = [] then []
      else [(ptr e 2, ((sortOrder a.ascend (keys 0 o.desc.fmt0 o.n)).take o.m).flatMap (fun i =>
        leBytes 4 (if a.payload then wordAt ld (ptr e 1 + 4 * i) 4 else i)))]) ∧
    (o.desc.opc = 0x43 → (effSpawn s o (idx, e)).status = 0 → (effSpawn s o (idx, e)).writes =
      if o.m = 0 then [] else [(ptr e 2, ((sortOrder false (keys 1 o.desc.fmt1 o.n)).take o.m).flatMap (fun i =>
        leBytes 4 (wordAt ld (ptr e 0 + 4 * i) 4)))]) ∧
    (o.desc.opc = 0x55 → ∃ kept : List Nat, kept.Sublist (sortOrder false (keys 1 o.desc.fmt1 o.m)) ∧
      (effImage s o (idx, e)).writes = [(ptr e 2,
        (kept.length :: kept ++ List.replicate (a.maxOut - kept.length) 0xFFFFFFFF).flatMap (leBytes 4))])

/-- PUT and PUT_FLAG, a message to a tile: message i of the data entries carries up to 4096 bytes of its entry to the address
that follows in its context. On an operation ready for it whose contexts are all OPEN and whose source holds no poisoned line,
and on one that waits at a tile boundary while it executes, the data messages that follow go in order behind the messages
unacknowledged before: all of them where each context has a credit for each of its messages (then the data effect of PUT is
done), else up to the first whose context has none, where the operation stays; nothing else changes but the fabric and what it
emits. A context not OPEN at the start ends the operation 0x43 and a poisoned source MEM_ERROR, with nothing sent; one lost on
the way ends it 0x43 (log 39, as are the entries' bytes before the FLAG and messages that wait). PUT_FLAG sends all entries
but the last so; once every message of the operation has been transmitted, and not before, the last entry's 8 bytes follow as
one FLAG message with COUNT and REMOTE_SIGNAL, and its acknowledgement is the operation's one outstanding request; if its
context is no longer OPEN by then, the operation ends 0x43. -/
def Obligations.PutsSendTheirEntries : Prop :=
  ∀ (c : Nat → Instr) (opc : Nat), (c = .put ∧ opc = 0x03) ∨ (c = .putFlag ∧ opc = 0x04) →
    ∀ (s : State) (op : Nat) (o : Op), opOf? s op = some o → o.desc.opc = opc →
    let ready := o.putting = false ∧ opReady s o opc = true
    let on := o.phase = .dispatched ∧ ∃ k, o.core = some k ∧ (coreOf s k).load = none
    let poison := o.ins.any (fun r => touchesPoison s r.1 r.2)
    let up := fun x => (ctxOf s x).st = .opened
    let opened := o.entries.all (fun e => (ctxOf s (remoteCtx (ptr e 1))).st == .opened)
    let only := fun t : State => t = { s with weir := { s.weir with ops := t.weir.ops }, fabric := t.fabric, out := t.out }
    let dest := fun i => remoteCtx (ptr (putEntry o i) 1)
    let ended := fun y : Op => y.phase = .ended ∧ y.status = 0x43
    let writes := fun (k : Nat) (l : List TxMsg) => ∀ i m, l[i]? = some m → m.op = op ∧ m.part = o.part ∧ m.flow = o.desc.flow ∧
      m.ctx = dest (k + i) ∧ m.msg.mtype = mtWRITE ∧ m.msg.wgroup = o.desc.wgroup ∧ m.msg.parts = putParts o ∧
      m.msg.addr = (ptr (putEntry o (k + i)) 1 + 4096 * ((k + i) % putParts o)) % 2 ^ 48 ∧
      m.msg.data = ((putBytes s o (putEntry o (k + i)) o.n).drop (4096 * ((k + i) % putParts o))).take 4096
    let flag := fun (y : Op) (f : TxMsg) (last : List Nat) => y.dataDone = true ∧ y.flagDue = false ∧ y.putting = false ∧ f.op = op ∧
      f.ctx = remoteCtx (ptr last 1) ∧ f.msg.mtype = mtFLAG ∧ f.msg.data = putBytes s o last 8 ∧
      f.msg.aux = o.desc.count + o.desc.remoteSignal * 65536 ∧ f.msg.addr = ptr last 1 % 2 ^ 48 ∧
      y.requests = [⟨0, 0, f.ctx, f.msg.xseq, true⟩]
    let goes := fun k : Nat => ∃ t y l r, exec (c op) s = .next t ∧ opOf? t op = some y ∧ y.desc = o.desc ∧ OthersKept op s t ∧
      t.fabric.msgs = s.fabric.msgs ++ (l ++ r) ∧ writes k l ∧ l.length ≤ putTotal o - k ∧ (¬(ended y) → only t) ∧
      (k + l.length < putTotal o → r = [] ∧
        if up (dest (k + l.length)) then (ctxOf t (dest (k + l.length))).credits = 0 ∧ y.putting = true ∧
          y.dataDone = o.dataDone ∧ y.phase = o.phase ∧ y.tile = k + l.length
        else ended y) ∧
      ((∀ i, k ≤ i → i < putTotal o → up (dest i)) →
        (∀ x, ((List.range' k (putTotal o - k)).filter (fun i => dest i == x)).length ≤ (ctxOf s x).credits) →
        l.length = putTotal o - k) ∧
      (putTotal o ≤ k + l.length → opc = 0x03 → r = [] ∧ y.dataDone = true ∧ y.putting = false ∧ y.phase = o.phase) ∧
      (putTotal o ≤ k + l.length → opc = 0x04 → ∀ before last, o.entries = before ++ [last] →
        (r = [] ∧ y.flagDue = true ∧ y.putting = true ∧ y.dataDone = o.dataDone ∧ allTransmitted t op = false) ∨
          (∃ f, r = [f] ∧ up (remoteCtx (ptr last 1)) ∧ flag y f last) ∨
          (r = [] ∧ ¬up (remoteCtx (ptr last 1)) ∧ ended y))
    (ready → poison = true → ∃ t, exec (c op) s = .next t ∧ EndedWith t op stMEM_ERROR ∧ OthersKept op s t ∧
      t.fabric = s.fabric) ∧
    (ready → poison = false → opened = false → ∃ t, exec (c op) s = .next t ∧ EndedWith t op 0x43 ∧ OthersKept op s t ∧
      t.fabric = s.fabric) ∧
    (ready → poison = false → opened = true → goes 0) ∧
    (o.putting = true → ¬on → exec (c op) s = .next s) ∧
    (o.putting = true → on → o.flagDue = false → goes o.tile) ∧
    (o.putting = true → on → o.flagDue = true → allTransmitted s op = false → exec (c op) s = .next s) ∧
    (o.putting = true → on → o.flagDue = true → allTransmitted s op = true → ∀ before last, o.entries = before ++ [last] →
      (up (remoteCtx (ptr last 1)) → ∃ t y f, exec (c op) s = .next t ∧ only t ∧ opOf? t op = some y ∧
        y.desc = o.desc ∧ OthersKept op s t ∧ t.fabric.msgs = s.fabric.msgs ++ [f] ∧ flag y f last) ∧
      (¬up (remoteCtx (ptr last 1)) → ∃ t, exec (c op) s = .next t ∧ EndedWith t op 0x43 ∧ OthersKept op s t))

/-- The command of a collective on one whose turn has come: with a neighbour's context not OPEN it ends 0x43; with a poisoned
input, MEM_ERROR. Otherwise, with no READY seen, it sends READY with its COLL_ID to the neighbour it receives from and sends
no data; a READY waiting for it that agrees is taken, and the data of its first step go out as SEGMENTs of that step, numbered
in order (a BARRIER's rank 0 begins, the others wait); one that differs is taken (log 45), answered with MISMATCH under its
own COLL_ID and ends it 0x44. A group that the operation's own partition owns is then BROKEN (log 45). Once every step has
been sent and worked (for RING_PASS its message acknowledged) its outputs are stored, every other byte of memory reads as
before, and the status is OK, or NAR_PRODUCED where they hold a NaN, which also breaks the group. A collective whose turn has
not come is left as it is (log 7). -/
def Obligations.CollectivesBeginAndFinish : Prop :=
  ∀ x ∈ [(Instr.allReduce, 0x60), (Instr.reduceScatter, 0x61), (Instr.allGather, 0x62), (Instr.barrier, 0x63),
      (Instr.ringPass, 0x64)], ∀ (s : State) (op : Nat) (o : Op) (c : CollRun), opOf? s op = some o → o.desc.opc = x.2 →
    o.coll = some c →
    let up := fun k => (ctxOf s k).st = .opened
    let joined := up (collNext s c.group) ∧ up (collPrev s c.group)
    let poison := o.ins.any (fun r => touchesPoison s r.1 r.2)
    let r := (collMembers s c.group).length
    (collTurn s o c = false → exec (x.1 op) s = .next s) ∧
    (collTurn s o c = true → ¬joined → ∃ t, exec (x.1 op) s = .next t ∧ EndedWith t op 0x43 ∧
      OthersKept op s t ∧ (collPart s c.group = o.part → collState t c.group = 2)) ∧
    (collTurn s o c = true → joined → poison = true → ∃ t, exec (x.1 op) s = .next t ∧
      EndedWith t op stMEM_ERROR ∧ OthersKept op s t) ∧
    (collTurn s o c = true → joined → poison = false → c.readySent = false →
      c.readyGot = false → c.segs = [] → 2 ≤ r → readyFor s o c = none → c.done = 0 → ∃ t e, exec (x.1 op) s = .next t ∧
        opOf? t op = some { o with coll := some { c with readySent := true } } ∧ OthersKept op s t ∧ t.mem = s.mem ∧
        t.dict = s.dict ∧ t.fabric.msgs = s.fabric.msgs ++ [e] ∧ e.ctx = collIn s o c ∧ e.op = op ∧
        e.msg.mtype = mtREADY ∧ e.msg.tag = c.collId ∧ e.msg.dstChip = (ctxOf s (collIn s o c)).peerChip) ∧
    (collTurn s o c = true → joined → poison = false → c.readySent = true → c.readyGot = false → c.segs = [] → 2 ≤ r →
      c.sent = 0 → c.done = 0 → ∀ m, readyFor s o c = some m → readyAgrees s o c m = true → ∃ t, exec (x.1 op) s = .next t ∧
        OthersKept op s t ∧ t.mem = s.mem ∧ t.dict = s.dict ∧ FirstStep s t op o c ∧
        t.fabric.ready = s.fabric.ready.eraseP (fun y => y.1 == c.group && y.2.dstCtx == collOut s o c)) ∧
    (collTurn s o c = true → joined → poison = false → c.readyGot = false →
      ∀ m, readyFor s o c = some m → readyAgrees s o c m = false → ∃ t e, exec (x.1 op) s = .next t ∧ EndedWith t op 0x44 ∧
        OthersKept op s t ∧ (collPart s c.group = o.part → collState t c.group = 2) ∧ e ∈ t.fabric.msgs ∧
        e.ctx = collOut s o c ∧ e.msg.mtype = mtMISMATCH ∧ e.msg.tag = m.tag ∧
        t.fabric.ready = s.fabric.ready.eraseP (fun y => y.1 == c.group && y.2.dstCtx == collOut s o c)) ∧
    (collTurn s o c = true → joined → poison = false → c.readySent = true → c.readyGot = true →
      collOver s o c r = true → s.mem.wf = true → eddiesOk s.mem = true → opsOk s.weir = true →
      let w := collOutput s o c r (collRank s c.group)
      ∃ t, exec (x.1 op) s = .next t ∧ Stored s { t with dict := s.dict, cores := s.cores } o.part w.1 ∧
        opOf? t op = some { o with dataDone := true, tile := o.tiles - 1, status := if w.2 then stNAR_PRODUCED else stOK } ∧
        OthersKept op s t ∧ SameObjs (objKey oCOLL_GROUP_STATE (c.group + 1) :: rmwKeys) s t ∧
        (w.2 = true → collState t c.group = 2))

/-- A flit striped over a port's four lanes (the spare in the place of the lane it replaces) is put together again from them.
On a trained port: a flit that fails its CRC, or a DATA flit out of order, sets NAK for the next flit sent and delivers
nothing; a DATA flit in order raises RX_SEQ by one modulo 4096, its 240 payload bytes join the message of its virtual channel,
and the credits it carries are taken (a discarded one gives none: log 48); a message that is whole and for this chip is
delivered internally, its channel starts empty, and the credits of all its flits are due to the peer. Any good DATA or IDLE
flit frees the replayed flits up to its ACK; with NAK the rest is sent again in order and counted in PORT_REPLAYS. An IDLE
flit sent, and the first of the HOLD flits sent on each working active lane, carry ACK, NAK and up to 255 credits a channel,
which are then no longer due. On a port that is not trained, received flits change nothing (log 7). (No message, flit or PUT
waits to be sent.) -/
def Obligations.FlitsInOrderAndIdle : Prop :=
  (∀ (x : Port) (b : List Byte), b.length % 4 = 0 → unstripe (stripe x b) = b ∧ (stripe x b).map (fun l => l.1) = txLanes x ∧
    (txLanes x).length = 4) ∧
  ∀ (s : State) (n : Nat),
    let p := portOf s n
    let others := fun t : State => (∀ m, m ≠ n → portOf t m = portOf s m) ∧
      t = { s with dict := t.dict, fabric := { s.fabric with ports := t.fabric.ports }, out := t.out }
    let calm := s.fabric.stuck = [] ∧ (∀ k, (portOf s k).fifo = []) ∧ ∀ o ∈ s.weir.ops, o.putting = false
    let took := fun (q : Port) (b : List Byte) => { q with room0 := q.room0 + numAt b 6 1, room1 := q.room1 + numAt b 7 1 }
    (∀ b, portTrained s n = false → exec (.dataFlitReceive n b) s = .next s ∧ exec (.idleFlit n b) s = .next s) ∧
    (∀ b, portTrained s n = true → flitOk b = false → ∃ t, exec (.dataFlitReceive n b) s = .next t ∧ others t ∧
      portOf t n = { p with nak := true } ∧ t.out = s.out ∧ t.dict = s.dict) ∧
    (∀ b, portTrained s n = true → flitOk b = true → flitType b = 0 → flitNak b = false → calm →
      flitSeq b ≠ p.rxSeq → ∃ t, exec (.dataFlitReceive n b) s = .next t ∧ others t ∧
        portOf t n = { p with replay := ackReplay p.replay (flitAck b), nak := true } ∧ t.out = s.out ∧ t.dict = s.dict) ∧
    (∀ b, portTrained s n = true → flitOk b = true → flitType b = 0 → flitNak b = false → calm → flitSeq b = p.rxSeq →
      let vc := flitVc b
      let w := (if vc = 1 then p.rx1 else p.rx0) ++ slice b 8 240
      let whole := decide (32 + field (numAt w 18 2) 12 0 ≤ w.length)
      (whole = false ∨ (parseMsg w).dstChip = s.fabric.chipId ∨ isFlooded (parseMsg w) = true) →
      ∃ t, exec (.dataFlitReceive n b) s = .next t ∧ others t ∧ t.dict = s.dict ∧
        portOf t n = { took p b with
          rxSeq := (p.rxSeq + 1) % 4096, replay := ackReplay p.replay (flitAck b)
          rx0 := if vc = 1 then p.rx0 else if whole then [] else w, rx1 := if vc = 1 then (if whole then [] else w) else p.rx1
          cred0 := if whole && decide (vc ≠ 1) then p.cred0 + (msgFlits (parseMsg w)).length else p.cred0
          cred1 := if whole && decide (vc = 1) then p.cred1 + (msgFlits (parseMsg w)).length else p.cred1 } ∧
        t.out = if whole then .internal (parseMsg w) :: s.out else s.out) ∧
    (∀ b, portTrained s n = true → flitOk b = true → flitType b = 1 → calm →
      let r := ackReplay p.replay (flitAck b)
      ∃ t, exec (.idleFlit n b) s = .next t ∧ others t ∧ portOf t n = { took p b with replay := r } ∧
        (flitNak b = false → t.out = s.out ∧ t.dict = s.dict) ∧
        (flitNak b = true → t.out = (r.map (fun x => Emit.flit n (stripe p x.2))).reverse ++ s.out ∧
          rd t oPORT_REPLAYS (n + 1) = (rd s oPORT_REPLAYS (n + 1) + r.length) % 2 ^ 64 ∧
          SameObjs [objKey oPORT_REPLAYS (n + 1)] s t)) ∧
    (let sent := { p with nak := false, cred0 := p.cred0 - 255, cred1 := p.cred1 - 255 }
     let first := fun f => flitBytes f 0 0 (p.rxSeq + 4095) p.nak (min 255 p.cred0) (min 255 p.cred1) []
     (portUp s n = true → ∃ t, exec (.idleFlitSend n) s = .next t ∧ others t ∧ t.dict = s.dict ∧ portOf t n = sent ∧
       t.out = .flit n (stripe p (first 1)) :: s.out) ∧
     (portCode s n = 3 ∨ portCode s n = 4 → ∃ t l r, exec (.holdFlitSend n) s = .next t ∧ others t ∧ t.dict = s.dict ∧
       portOf t n = sent ∧ holdLanes p = l :: r ∧ t.out =
         (r.map (fun k => Emit.laneFlit n k (flitBytes 2 0 0 (p.rxSeq + 4095) false 0 0 []))).reverse ++
           .laneFlit n l (first 2) :: s.out))

/-- REPLAY_LIMIT of an UP port with flits unacknowledged, with the active lane of most symbol errors (an operand: log 48):
with the spare lane free the port repairs that lane (PORT_STATE code 3), keeping its replay buffer, or, while the firmware is
switched, the repair is put off; with the spare in use it goes DOWN, as PORT_DOWN makes it: code 0, its FIFO, half-received
messages, replay buffer and the messages waiting for it dropped, the lanes taken over kept (log 48), a contained error
counted. PORT_DOWN of a port still training makes it DOWN. LANE_REPAIR_DONE puts the spare in the place of the repaired lane
for good, replays everything unacknowledged and the port is UP; of a lane of the receive direction it keeps that map only (log
48). PORT_RETRAIN of a DOWN port that may train makes it training; FABRIC_TRAINING makes a training one UP with a fresh link,
applies the fabric objects stored in limited mode, puts CHIP_ID in force, and floods JOIN, whose epoch rises by one unless the
chip had joined (one epoch for each flood: log 49). HOLD_FLIT and a HOLD message for the chip put it in a hold series;
HOLD_SERIES_END ends what HOLD keeps up, or at 100 ms what it suspends (log 48); HOLD_MESSAGE_SEND tells the source of a
transit message that waits for the port. A REPLAY_LIMIT or HOLD for which nothing is to do changes nothing (log 7). (Where
other ports or operations are named as unchanged, no message, flit or PUT waits to be sent.) -/
def Obligations.PortsRepairRetrainAndHold : Prop :=
  ∀ (s : State) (n : Nat),
    let p := portOf s n
    let quiet := ∀ o ∈ s.weir.ops, o.putting = false
    let calm := s.fabric.stuck = [] ∧ (∀ k, (portOf s k).fifo = []) ∧ quiet
    let down := fun t : State => portCode t n = 0 ∧ t.power.alertPulse = true ∧
      rd t oCONTAINED_COUNT 0 = satAdd max32 (rd s oCONTAINED_COUNT 0) 1 ∧ t.mem = s.mem ∧
      (quiet → portOf t n = { swapped := p.swapped, swappedRx := p.swappedRx } ∧ (∀ m, m ≠ n → portOf t m = portOf s m) ∧ t.weir = s.weir ∧
        t.fabric.stuck = s.fabric.stuck.filter (fun w => wayOf s w != some n))
    (∀ lane, lane < 4 → portUp s n = true → p.replay ≠ [] → p.spare = false → s.mgmt.silent = true →
      ∃ t, exec (.replayLimit n lane) s = .next t ∧ (∃ l, RegrJob.lane n l ∈ t.regr.deferred) ∧
        t = { s with regr := { s.regr with deferred := t.regr.deferred } }) ∧
    (∀ lane, lane < 4 → portUp s n = true → p.replay ≠ [] → p.spare = false → s.mgmt.silent = false →
      ∃ t, exec (.replayLimit n lane) s = .next t ∧ portCode t n = 3 ∧ portOf t n = { p with repairing := some lane } ∧ (∀ m, m ≠ n → portOf t m = portOf s m) ∧
      inHold t = true ∧ Told [objKey oPORT_STATE (n + 1)] { s with fabric := { s.fabric with
        ports := t.fabric.ports, holdCapped := t.fabric.holdCapped } } t) ∧
    (∀ lane, lane < 4 → portUp s n = true → p.replay ≠ [] → p.spare = true →
      ∃ t, exec (.replayLimit n lane) s = .next t ∧ down t) ∧
    (∀ lane, portUp s n = false ∨ p.replay = [] → exec (.replayLimit n lane) s = .next s) ∧
    (portTrained s n = true → ∃ t, exec (.portDown n) s = .next t ∧ down t) ∧
    (n < portCount s → portCode s n = 1 → ∃ t, exec (.portDown n) s = .next t ∧ portCode t n = 0 ∧
      Told [objKey oPORT_STATE (n + 1)] s t) ∧
    (∀ lane, portTrained s n = true → portCode s n = 3 → p.repairing = some lane → calm →
      let q := { p with swapped := some lane, repairing := none }
      ∃ t, exec (.laneRepairDone n none) s = .next t ∧ portCode t n = 2 ∧ portOf t n = q ∧
        tabGet? t.nv.lanes n = some (lane + 1) ∧ rd t oPORT_STATE (n + 1) = 10 ∧
        (∀ x ∈ p.replay, Emit.flit n (stripe q x.2) ∈ t.out) ∧
        rd t oPORT_REPLAYS (n + 1) = (rd s oPORT_REPLAYS (n + 1) + p.replay.length) % 2 ^ 64 ∧ t.weir = s.weir ∧
        t.mem = s.mem) ∧
    (∀ lane, portTrained s n = true → lane < 4 → p.swappedRx = none → ∃ t, exec (.laneRepairDone n (some lane)) s = .next t ∧
      portOf t n = { p with swappedRx := some lane } ∧ (∀ m, m ≠ n → portOf t m = portOf s m) ∧ portCode t n = portCode s n ∧
      tabGet? t.nv.lanes (16 + n) = some (lane + 1) ∧ t.weir = s.weir ∧ t.mem = s.mem ∧ t.fabric.stuck = s.fabric.stuck) ∧
    (mayTrain s n = true → portCode s n = 0 → ∃ t, exec (.portRetrain n) s = .next t ∧ portCode t n = 1 ∧
      Told [objKey oPORT_STATE (n + 1)] s t) ∧
    (mayTrain s n = true → portCode s n = 1 →
      let u := applyStaged s trainingObj
      ∃ t m, exec (.fabricTraining n) s = .next t ∧ portCode t n = 2 ∧ t.fabric.chipId = rd u oCHIP_ID 0 % 1024 ∧
        t.fabric.joined = true ∧ (portOf t n).rxSeq = 0 ∧ (portOf t n).swapped = laneOfMap (tabGet 0 s.nv.lanes n) ∧
        (portOf t n).swappedRx = laneOfMap (tabGet 0 s.nv.lanes (16 + n)) ∧
        rd t oSVC_EPOCH 0 = (if s.fabric.joined then rd u oSVC_EPOCH 0 else (rd u oSVC_EPOCH 0 + 1) % 2 ^ 32) ∧
        Leaves t m ∧ m.mtype = mtJOIN ∧ m.aux = rd t oSVC_EPOCH 0 ∧ m.srcChip = t.fabric.chipId ∧ t.mem = s.mem ∧
        (quiet → t.weir = s.weir)) ∧
    (∀ b, portTrained s n = true → flitOk b = true → flitType b = 2 → ∃ t, exec (.holdFlit n b) s = .next t ∧
      inHold t = true ∧ t.fabric.holdRx = true ∧ (portOf t n).holding = true ∧
      (calm → flitNak b = false → portOf t n = { p with
          holding := true, replay := ackReplay p.replay (flitAck b), room0 := p.room0 + numAt b 6 1, room1 := p.room1 + numAt b 7 1 } ∧
        (∀ m, m ≠ n → portOf t m = portOf s m) ∧ t = { s with fabric := { s.fabric with
          ports := t.fabric.ports, holdRx := true, holdCapped := t.fabric.holdCapped } })) ∧
    (∀ m : Msg, m.dstChip = s.fabric.chipId → ∃ t, exec (.holdMsg m) s = .next t ∧ inHold t = true ∧
      t = { s with fabric := { s.fabric with holdRx := true, holdCapped := t.fabric.holdCapped } }) ∧
    (∀ m : Msg, m.dstChip ≠ s.fabric.chipId → exec (.holdMsg m) s = .next s) ∧
    (∃ t, exec (.holdSeriesEnd false) s = .next t ∧ t.fabric.holdRx = false ∧
      (∀ m, portOf t m = { portOf s m with holding := false }) ∧ t = { s with fabric := { s.fabric with
        ports := t.fabric.ports, holdRx := false, holdCapped := t.fabric.holdCapped } }) ∧
    (∃ t, exec (.holdSeriesEnd true) s = .next t ∧ suspended t = false ∧ inHold t = inHold s ∧
      t = { s with fabric := { s.fabric with holdCapped := t.fabric.holdCapped } }) ∧
    (∀ y, (portCode s n = 3 ∨ p.holding = true) → transitFor s n = [y] →
      ∃ t m, exec (.holdMessageSend n) s = .next t ∧ Leaves t m ∧ m.mtype = mtHOLD ∧ m.dstChip = y.srcChip ∧
        m.srcChip = s.fabric.chipId ∧ t = { s with fabric := { s.fabric with
          ports := t.fabric.ports, stuck := t.fabric.stuck }, out := t.out })

/-- A WRITE new on an open context, its address within the owning partition and accessible: its bytes are what reads then
return, every other address reads as before, and (in one part, with no FLAG held on the context) the landed counter of its
write group rises by one; an ACK returns one credit. Outside the partition nothing lands and a NACK with its TAG is sent; a
duplicate draws its ACK without credit and changes no memory. A FLAG at an 8-byte boundary whose COUNT has landed becomes
visible, lowers the counter by COUNT, signals REMOTE_SIGNAL where that is a counting token of the partition (one is added to
its count, its waiters served in order of admission; any other token number counts nothing) and is answered with FLAG_ACK; one
whose COUNT has not landed is held with the limit in force, its credit kept. FLAG_HOLD_EXPIRY drops a held FLAG, counts it in
FLAG_EXPIRED, leaves the counter a free value, writes nothing and answers with an expiry notice. -/
def Obligations.RemoteWritesLand : Prop :=
  (∀ (s : State) (m : Msg) (x : Nat), msgHeld s m m.data.length = false → Fresh s m x →
    (∀ a, landAddr s x m m.data.length = some a → s.mem.wf = true → eddiesOk s.mem = true →
      ∃ t, exec (.writeMsg m) s = .next t ∧ Acked s t x 1 ∧
        (m.parts ≤ 1 → s.fabric.held.all (fun h => h.ctx != x) = true →
          (∀ i, i < m.data.length → readByte t (a + i) = m.data.getD i 0) ∧
          (∀ b, (b < a ∨ a + m.data.length ≤ b) → readByte t b = readByte s b) ∧
          landedOf t x m.wgroup = (landedOf s x m.wgroup + 1) % 65536 ∧
          (∀ g, g ≠ m.wgroup → landedOf t x g = landedOf s x g) ∧ t.weir = s.weir ∧ SameObjs rmwKeys s t)) ∧
    (landAddr s x m m.data.length = none → ∃ t, exec (.writeMsg m) s = .next t ∧ Acked s t x 1 ∧ t.mem = s.mem ∧
      t.weir = s.weir ∧ (∀ g, landedOf t x g = landedOf s x g) ∧ Sends s t x mtNACK m.tag [[]])) ∧
  (∀ (s : State) (m : Msg) (x : Nat), inCtx s m = some x → received (ctxOf s x) m.xseq = true →
    msgHeld s m m.data.length = false → ∃ t, exec (.writeMsg m) s = .next t ∧ Acked s t x 0 ∧ t.mem = s.mem ∧
      t.weir = s.weir ∧ ∀ y, ctxOf t y = ctxOf s y) ∧
  (∀ (s : State) (m : Msg) (x a : Nat), msgHeld s m 8 = false → Fresh s m x → m.addr % 8 = 0 → m.data.length = 8 →
    landAddr s x m 8 = some a →
    (flagCount m ≤ landedOf s x m.wgroup → s.mem.wf = true → eddiesOk s.mem = true → opsOk s.weir = true →
      let token := tokenCounts s (ctxOf s x).part (flagSignal m)
      ∃ t, exec (.flagMsg m) s = .next t ∧ Acked s t x 1 ∧ (∀ i, i < 8 → readByte t (a + i) = m.data.getD i 0) ∧
        (∀ b, (b < a ∨ a + 8 ≤ b) → readByte t b = readByte s b) ∧
        landedOf t x m.wgroup = (landedOf s x m.wgroup - flagCount m) % 65536 ∧
        (token = false → t.weir = s.weir) ∧
        (token = true → Counted s t (flagSignal m) ∧
          t.weir = { s.weir with ops := t.weir.ops, counts := t.weir.counts } ∧
          ∀ o ∈ s.weir.ops, ∃ y, opOf? t o.id = some y ∧ y = { o with waits := y.waits }) ∧
        ∃ e ∈ t.fabric.msgs, e.ctx = x ∧ e.msg.mtype = mtFLAG_ACK ∧ e.msg.tag = m.xseq ∧ e.msg.aux = 0) ∧
    (landedOf s x m.wgroup < flagCount m → ∃ t, exec (.flagMsg m) s = .next t ∧ Acked s t x 0 ∧ t.mem = s.mem ∧
      t.weir = s.weir ∧ t.fabric.held = s.fabric.held ++ [⟨x, m, rd s oFLAG_HOLD_LIMIT_US 0⟩] ∧
      t.fabric.msgs = s.fabric.msgs)) ∧
  (∀ (s : State) (x q : Nat) (h : HeldFlag), s.fabric.held.find? (fun h => h.ctx == x && h.msg.xseq == q) = some h →
    ∃ t, exec (.flagHoldExpiry x q) s = .next t ∧ Acked s t x 1 ∧ t.fabric.held = s.fabric.held.filter (fun y => y != h) ∧
      rd t oFLAG_EXPIRED ((ctxOf s x).part + 1) = satAdd max32 (rd s oFLAG_EXPIRED ((ctxOf s x).part + 1)) 1 ∧
      t.mem = { s.mem with free := s.mem.free + 1 } ∧ t.weir = s.weir ∧
      (∀ g, g ≠ h.msg.wgroup → landedOf t x g = landedOf s x g) ∧
      ∃ e ∈ t.fabric.msgs, e.ctx = x ∧ e.msg.mtype = mtFLAG_ACK ∧ e.msg.tag = q ∧ e.msg.aux = 1)

/-- ACK on an open context (none of its messages waiting for a credit, no collective or PUT under way) frees the messages it
covers and returns its credits; a FLAG among them is from then on known as not yet visible. NACK ends the operation whose
remote write or read it names, 0x46 for an operation of Table FAB-5, else ACCESS_DENIED. FLAG_ACK with AUX 0 takes the
acknowledged request off its operation; an expiry notice ends it TIMEOUT; either way the FLAG is over, and an expired one is
recorded as lost to every fence (log 46). READ_REQ within the partition sends READ_RESP messages whose data joined are the
bytes a read returns, one without data from a poisoned line (log 47), and changes no memory. READ_RESP lands its data, the
request is answered, and its core goes on asking for operands; without data for a request that wanted some it ends the
operation MEM_ERROR, or, of a GATHER or SCATTER under way, is noted as a piece whose lanes fault (log 47; both where no
operation that writes what it reads has rows in the Rill: log 60). An operation that has failed already keeps its status. -/
def Obligations.AnswersReachTheirOperations : Prop :=
  (∀ (s : State) (m : Msg) (x : Nat), inCtx s m = some x → (∀ e ∈ s.fabric.msgs, e.ctx = x → e.sent = true) →
    (∀ o ∈ s.weir.ops, o.coll = none ∧ o.putting = false) → ∃ t, exec (.ack m) s = .next t ∧
      t.fabric.msgs = s.fabric.msgs.filter (fun e => !(e.ctx == x && ackCovers m e.msg.xseq)) ∧
      t.fabric.unseen = s.fabric.unseen ++
        s.fabric.msgs.filter (fun e => e.ctx == x && ackCovers m e.msg.xseq && e.msg.mtype == mtFLAG) ∧
      ctxOf t x = { ctxOf s x with credits := (ctxOf s x).credits + m.aux } ∧ (∀ y, y ≠ x → ctxOf t y = ctxOf s y) ∧
      t = { s with fabric := { s.fabric with msgs := t.fabric.msgs, ctxs := t.fabric.ctxs, unseen := t.fabric.unseen } }) ∧
  (∀ (s : State) (m : Msg) (x : Nat) (o : Op), Fresh s m x → s.weir.ops.find? (fun o => o.writes.contains (x, m.tag) ||
      o.requests.any (fun r => r.remote && r.ctx == x && r.xseq == m.tag)) = some o →
    ∃ t, exec (.nack m) s = .next t ∧ Acked s t x 1 ∧ OthersKept o.id s t ∧
      (unfailed o = true → EndedWith t o.id (if isFabric o.desc.opc then 0x46 else stACCESS_DENIED)) ∧
      (unfailed o = false → t.weir = s.weir)) ∧
  (∀ (s : State) (m : Msg) (x : Nat) (o : Op), Fresh s m x → askedBy s x m.tag = some o →
    (m.aux = 0 → ∃ t, exec (.flagAck m) s = .next t ∧ Acked s t x 1 ∧ OthersKept o.id s t ∧ t.mem = s.mem ∧
      flagSent? t x m.tag = none ∧ t.fabric.lost = s.fabric.lost ∧
      opOf? t o.id = some { o with
        requests := o.requests.filter (fun r => !(r.remote && r.ctx == x && r.xseq == m.tag)) }) ∧
    (m.aux ≠ 0 → ∃ t, exec (.flagAck m) s = .next t ∧ Acked s t x 1 ∧ OthersKept o.id s t ∧
      flagSent? t x m.tag = none ∧ (∀ e, flagSent? s x m.tag = some e →
        t.fabric.lost = s.fabric.lost ++ [⟨e.part, e.flow, e.op, x, stTIMEOUT⟩]) ∧
      (unfailed o = true → EndedWith t o.id stTIMEOUT))) ∧
  (∀ (s : State) (m : Msg) (x : Nat), Fresh s m x → msgHeld s m m.aux = false →
    (∀ a, landAddr s x m m.aux = some a → ∃ t l, exec (.readReq m) s = .next t ∧ Acked s t x 1 ∧ t.mem = s.mem ∧
      t.weir = s.weir ∧ Sends s t x mtREAD_RESP m.tag l ∧ (∀ b ∈ l, b.length ≤ 4096) ∧
      (touchesPoison s a m.aux = false → l.flatten = readBytes s a m.aux) ∧
      (touchesPoison s a m.aux = true → l = [[]])) ∧
    (landAddr s x m m.aux = none → ∃ t, exec (.readReq m) s = .next t ∧ Acked s t x 1 ∧ t.mem = s.mem ∧ t.weir = s.weir ∧
      Sends s t x mtNACK m.tag [[]])) ∧
  (∀ (s : State) (m : Msg) (x : Nat) (o : Op) (r : Request), Fresh s m x → askedBy s x m.tag = some o →
    o.requests.find? (fun r => r.remote && r.ctx == x && r.xseq == m.tag) = some r →
    opOf? s o.id = some o →
    let still := fun t : State => { t with fabric := s.fabric, out := s.out }
    let answered := fun y : Op => y.requests ++ y.due = o.requests.filter (fun q => q != r) ++ o.due
    (m.data ≠ [] ∨ r.len = 0 → RowsSettled s → ∃ t y, exec (.readResp m) s = .next t ∧ Acked s t x 1 ∧ AskedOn s (still t) ∧
      opOf? t o.id = some y ∧ answered y ∧
      (∀ i, i < m.data.length → (∀ j l, lineAt o.ins j = some l → ¬(l ≤ r.addr + i ∧ r.addr + i < l + 256)) →
        tabGet? y.landed (r.addr + i) = m.data[i]?)) ∧
    (let lane := (o.desc.opc = 0x58 ∨ o.desc.opc = 0x59) ∧ o.phase ≠ .waiting ∧ o.phase ≠ .ended
     let lost := { o with lostPieces := o.lostPieces ++ [(r.addr, r.len)] }
     m.data = [] → 0 < r.len → ∃ t, exec (.readResp m) s = .next t ∧ Acked s t x 1 ∧
      (¬lane → OthersKept o.id s t ∧ (unfailed o = true → EndedWith t o.id stMEM_ERROR)) ∧
      (lane → RowsSettled s → AskedOn (setOp s lost) (still t) ∧ ∃ y, opOf? t o.id = some y ∧ answered y ∧
        y.lostPieces = lost.lostPieces)))

/-- READY new on a context of a group that can run, with none of the group's collectives under way, is kept for its
collective; the one collective of the group under way whose turn has come and that has sent its own READY takes it: where it
agrees the first step's data are sent, where it differs MISMATCH is sent, the collective ends 0x44 and its group, if its
partition owns it, is BROKEN. A group that cannot run (BROKEN, or without a usable list), or no group, answers MISMATCH with
its TAG (log 24). SEGMENT for a collective whose turn has not come is added to the step data received, with its step and
index. On one under way it completes the step awaited: the step is worked on the data received (a reduction, or the chunk
kept) and the data of the next step, where there is one to send, go out as SEGMENTs; the last step stores the outputs and the
data effect is done. For no collective it is discarded; a BROKEN group answers it with MISMATCH whatever collective it names.
MISMATCH ends the collective 0x44 and its group, if its own partition owns it (log 45), is BROKEN. COLL_TIMEOUT_EXPIRY of a
collective that has not finished, outside a hold series, ends it TIMEOUT and breaks its group; in a hold series it changes
nothing. -/
def Obligations.CollectiveMessagesArrive : Prop :=
  (∀ (s : State) (m : Msg) (x : Nat), Fresh s m x →
    let members := fun c : CollRun => (collMembers s c.group).length
    let runs := fun (o : Op) (c : CollRun) => collTurn s o c = true ∧ c.readySent = true ∧ 0x60 ≤ o.desc.opc ∧ o.desc.opc ≤ 0x64 ∧
      (ctxOf s (collNext s c.group)).st = .opened ∧ (ctxOf s (collPrev s c.group)).st = .opened ∧
      o.ins.any (fun r => touchesPoison s r.1 r.2) = false
    (∀ g, collGroupOn s x m.tag = some g → collUnusable s g = false →
      (∀ o ∈ s.weir.ops, ∀ c, o.coll = some c → c.group ≠ g) → ∃ t, exec (.ready m) s = .next t ∧ Acked s t x 1 ∧
        t.fabric.ready = s.fabric.ready ++ [(g, m)] ∧ t.weir = s.weir ∧ t.mem = s.mem ∧ t.fabric.msgs = s.fabric.msgs) ∧
    ((collGroupOn s x m.tag = none ∨ ∃ g, collGroupOn s x m.tag = some g ∧ collUnusable s g = true) →
      ∃ t, exec (.ready m) s = .next t ∧ Acked s t x 1 ∧ t.fabric.ready = s.fabric.ready ∧ t.weir = s.weir ∧
        t.mem = s.mem ∧ Sends s t x mtMISMATCH m.tag [[]]) ∧
    (∀ op o c, opOf? s op = some o → o.coll = some c → collGroupOn s x m.tag = some c.group →
      collUnusable s c.group = false → opsOk s.weir = true →
      (∀ y ∈ s.weir.ops, ∀ k, y.coll = some k → k.group = c.group → y.id = op) → runs o c → x = collOut s o c →
      readyFor s o c = none → c.readyGot = false → c.segs = [] → 2 ≤ members c → c.sent = 0 → c.done = 0 →
      (readyAgrees s o c m = true → ∃ t, exec (.ready m) s = .next t ∧ Acked s t x 1 ∧ OthersKept op s t ∧ t.mem = s.mem ∧
        FirstStep s t op o c ∧ t.fabric.ready = s.fabric.ready) ∧
      (readyAgrees s o c m = false → ∃ t, exec (.ready m) s = .next t ∧ Acked s t x 1 ∧ OthersKept op s t ∧
        EndedWith t op 0x44 ∧ (collPart s c.group = o.part → collState t c.group = 2) ∧
        Sends s t x mtMISMATCH m.tag [[]] ∧ t.fabric.ready = s.fabric.ready)) ∧
    (∀ o c, collOn s x m.tag = some o → o.coll = some c → collState s c.group ≠ 2 → opsOk s.weir = true → runs o c →
      c.readyGot = true →
      let r := members c
      let i := collRank s c.group
      let k := collSends o.desc.opc r
      let segs := c.segs ++ [{ step := m.aux % 65536, index := m.aux / 65536, bytes := m.data }]
      segs.all (fun y => y.step == rxStep o.desc.opc r i c.done) = true →
      ¬(c.sent < k ∧ maySend o.desc.opc i c.sent c.done = true) →
      ∀ b, stepRx o { c with segs := segs } r i c.done = some b →
      (c.done + 1 < k → ∃ t, exec (.segment m) s = .next t ∧ Acked s t x 1 ∧ OthersKept o.id s t ∧ t.mem = s.mem ∧
        NextStep s t o.id o c b) ∧
      (c.done + 1 = k → c.sent = k → o.desc.opc ≠ 0x64 → s.mem.wf = true → eddiesOk s.mem = true →
        let w := stepWork s o c r i c.done b
        let out := collOutput s o { c with chunks := tabPut c.chunks w.1 w.2 } r i
        ∃ t y, exec (.segment m) s = .next t ∧ Acked s t x 1 ∧ OthersKept o.id s t ∧ opOf? t o.id = some y ∧ y.dataDone = true ∧
          y.status = (if out.2 then stNAR_PRODUCED else stOK) ∧
          Stored s { t with dict := s.dict, cores := s.cores, fabric := s.fabric, out := s.out } o.part out.1)) ∧
    (∀ o c, collOn s x m.tag = some o → o.coll = some c → collState s c.group ≠ 2 → collTurn s o c = false →
      ∃ t, exec (.segment m) s = .next t ∧
      Acked s t x 1 ∧ OthersKept o.id s t ∧ t.mem = s.mem ∧ opOf? t o.id = some { o with coll := some { c with
        segs := c.segs ++ [{ step := m.aux % 65536, index := m.aux / 65536, bytes := m.data }] } }) ∧
    (collOn s x m.tag = none → (∀ g, collGroupOn s x m.tag = some g → collState s g ≠ 2) →
      ∃ t, exec (.segment m) s = .next t ∧ Acked s t x 1 ∧ t.weir = s.weir ∧ t.mem = s.mem ∧
        t.fabric.msgs = s.fabric.msgs) ∧
    (∀ g, collGroupOn s x m.tag = some g → collState s g = 2 →
      ∃ t, exec (.segment m) s = .next t ∧ Acked s t x 1 ∧ t.weir = s.weir ∧ t.mem = s.mem ∧
        Sends s t x mtMISMATCH m.tag [[]]) ∧
    (∀ o c, collOn s x m.tag = some o → o.coll = some c → ∃ t, exec (.mismatch m) s = .next t ∧ Acked s t x 1 ∧
      EndedWith t o.id 0x44 ∧ OthersKept o.id s t ∧ (collPart s c.group = o.part → collState t c.group = 2)) ∧
    (collOn s x m.tag = none → ∃ t, exec (.mismatch m) s = .next t ∧ Acked s t x 1 ∧ t.weir = s.weir ∧ t.mem = s.mem)) ∧
  (∀ (s : State) (op : Nat) (o : Op) (c : CollRun), opOf? s op = some o → (o.phase = .dispatched ∨ o.phase = .parked) →
    o.coll = some c → o.dataDone = false →
    (suspended s = false → ∃ t, exec (.collTimeoutExpiry op) s = .next t ∧ EndedWith t op stTIMEOUT ∧ OthersKept op s t ∧
      (collPart s c.group = o.part → collState t c.group = 2)) ∧
    (suspended s = true → exec (.collTimeoutExpiry op) s = .next s))

/-- OPEN from the peer a PENDING context names opens it with XSEQ 0, no landed counts and CTX_CREDITS credits, and answers a
sender that is still PENDING (AUX 1 says so, TAG is the sender's context: log 22); an OPEN that names another pair changes
nothing. OPEN_RESEND of a PENDING context sends OPEN again. CLOSE from the peer of an open or failed context, and no other
(log 33), makes it closed by its peer: its messages are dropped, every operation that uses it and has not failed ends
PEER_LOST, its undelivered writes are recorded as lost. XPORT_TIMEOUT_EXPIRY outside a hold series re-issues the message, the
same XSEQ, counted in XPORT_REISSUES, while retries are left (one that has not been transmitted yet is not sent twice); after
the last the context has failed, its operations end TIMEOUT and a contained error is counted. In a hold series it changes
nothing. -/
def Obligations.ContextsPairFailAndClose : Prop :=
  (∀ (s : State) (m : Msg), let x := m.dstCtx; let c := ctxOf s x
    m.dstChip = s.fabric.chipId → c.peerChip = m.srcChip → c.peerCtx = m.tag →
    (c.st = .pendingOpen → ∃ t, exec (.openMsg m) s = .next t ∧ ctxOf t x = { st := .opened, peerChip := c.peerChip, peerCtx := c.peerCtx, part := c.part, credits := rd s oCTX_CREDITS 0 } ∧
      (∀ y, y ≠ x → ctxOf t y = ctxOf s y) ∧
      (m.aux = 1 → ∃ a, Leaves t a ∧ a.mtype = mtOPEN ∧ a.dstChip = c.peerChip ∧ a.dstCtx = c.peerCtx ∧ a.tag = x ∧ a.aux = 0) ∧
      t = { s with fabric := t.fabric, out := t.out }) ∧
    (c.st = .opened → m.aux = 1 → ∃ t a, exec (.openMsg m) s = .next t ∧ (∀ y, ctxOf t y = ctxOf s y) ∧ Leaves t a ∧
      a.mtype = mtOPEN ∧ a.tag = x ∧ a.aux = 0 ∧ t = { s with fabric := t.fabric, out := t.out }) ∧
    ((c.st = .opened ∨ c.st = .failed) → opsOk s.weir = true → ∃ t, exec (.closeMsg m) s = .next t ∧
      (ctxOf t x).st = .closedByPeer ∧ (∀ y, y ≠ x → ctxOf t y = ctxOf s y) ∧
      t.fabric.msgs = s.fabric.msgs.filter (fun e => e.ctx != x) ∧ t.fabric.lost = s.fabric.lost ++ lostOf s x stPEER_LOST ∧
      (∀ o ∈ s.weir.ops, opUses s x o = true → unfailed o = true → EndedWith t o.id stPEER_LOST) ∧
      (∀ o ∈ s.weir.ops, opUses s x o = false → opOf? t o.id = some o))) ∧
  (∀ (s : State) (m : Msg), (m.dstChip ≠ s.fabric.chipId ∨ (ctxOf s m.dstCtx).peerChip ≠ m.srcChip ∨
      (ctxOf s m.dstCtx).peerCtx ≠ m.tag) → exec (.openMsg m) s = .next s ∧ exec (.closeMsg m) s = .next s) ∧
  (∀ (s : State) (x : Nat), (ctxOf s x).st = .pendingOpen → ∃ t a, exec (.openResend x) s = .next t ∧ Leaves t a ∧
    a.mtype = mtOPEN ∧ a.dstChip = (ctxOf s x).peerChip ∧ a.dstCtx = (ctxOf s x).peerCtx ∧ a.tag = x ∧ a.aux = 1 ∧
    (∀ y, ctxOf t y = ctxOf s y) ∧ t = { s with fabric := t.fabric, out := t.out }) ∧
  (∀ (s : State) (x q : Nat) (e : TxMsg),
    s.fabric.msgs.find? (fun t => t.ctx == x && t.msg.xseq == q && t.sent) = some e →
    (suspended s = true → exec (.xportTimeoutExpiry x q) s = .next s) ∧
    (suspended s = false → e.retries < rd s oXPORT_RETRIES 0 → ∃ t, exec (.xportTimeoutExpiry x q) s = .next t ∧
      { e with retries := e.retries + 1 } ∈ t.fabric.msgs ∧ t.fabric.msgs.length = s.fabric.msgs.length ∧
      (transmitted s e = true → Leaves t e.msg) ∧ (transmitted s e = false → t.out = s.out) ∧
      rd t oXPORT_REISSUES ((ctxOf s x).part + 1) = satAdd max32 (rd s oXPORT_REISSUES ((ctxOf s x).part + 1)) 1 ∧
      t.weir = s.weir ∧ t.mem = s.mem ∧ ∀ y, ctxOf t y = ctxOf s y) ∧
    (suspended s = false → rd s oXPORT_RETRIES 0 ≤ e.retries → opsOk s.weir = true →
      ∃ t, exec (.xportTimeoutExpiry x q) s = .next t ∧ (ctxOf t x).st = .failed ∧
        t.fabric.msgs = s.fabric.msgs.filter (fun e => e.ctx != x) ∧ t.fabric.lost = s.fabric.lost ++ lostOf s x stTIMEOUT ∧
        (∀ o ∈ s.weir.ops, opUses s x o = true → unfailed o = true → EndedWith t o.id stTIMEOUT) ∧
        rd t oCONTAINED_COUNT 0 = satAdd max32 (rd s oCONTAINED_COUNT 0) 1 ∧ t.power.alertPulse = true))

/-- PACE_SEND of a HOT chip with a collective of the group: PACE with PACE_GRANT_US and the chip as originator in ADDR (log
23) goes to the next member, and the collectives are marked heat-paced. PACE received on the group's previous context extends
each unreleased collective by AUX, no further than PACE_CAP_US, and travels on unless the next member is its originator (log
23); with no collective it is discarded and goes no further (logs 23, 45). A new DEPART is flooded on every other trained
port, on the virtual channel it came by (VC1 beyond a dateline), and recorded; every context to that chip is closed by its
peer. A new JOIN is recorded, ends a recorded departure, and is flooded. A DEPART or JOIN that is not new, or the chip's own,
changes nothing. -/
def Obligations.PaceAndMembership : Prop :=
  (∀ (s : State) (g : Nat), chipHot s = true → collsOf s g ≠ [] → (ctxOf s (collNext s g)).st = .opened →
    opsOk s.weir = true → ∃ t e, exec (.paceSend g) s = .next t ∧ t.fabric.msgs = s.fabric.msgs ++ [e] ∧
      e.ctx = collNext s g ∧ e.msg.mtype = mtPACE ∧ e.msg.aux = rd s oPACE_GRANT_US 0 ∧ e.msg.addr = s.fabric.chipId ∧
      (∀ o ∈ s.weir.ops, opOf? t o.id =
        some (if collGroupOf s o = some g then { o with heatPaced := true } else o)) ∧ t.mem = s.mem ∧ t.dict = s.dict) ∧
  (∀ (s : State) (g : Nat), (chipHot s = false ∨ collsOf s g = []) → exec (.paceSend g) s = .next s) ∧
  (∀ (s : State) (m : Msg) (x g : Nat), Fresh s m x → opsOk s.weir = true → (List.range 16).find? (fun g =>
      collPart s g == (ctxOf s x).part && collPrev s g == x && !((collMembers s g).isEmpty)) = some g →
    (collsOf s g = [] → ∃ t, exec (.pace m) s = .next t ∧ Acked s t x 1 ∧ t.weir = s.weir ∧ t.fabric.msgs = s.fabric.msgs) ∧
    (collsOf s g ≠ [] → ∃ t, exec (.pace m) s = .next t ∧ Acked s t x 1 ∧
      (∀ o ∈ s.weir.ops, collGroupOf s o = some g → ∃ y, opOf? t o.id = some y ∧
        y.pacedUs = max o.pacedUs (min (rd s oPACE_CAP_US 0) (o.pacedUs + m.aux)) ∧
        y = { o with pacedUs := y.pacedUs, heatPaced := y.heatPaced }) ∧
      (∀ o ∈ s.weir.ops, collGroupOf s o ≠ some g → opOf? t o.id = some o) ∧
      (((ctxOf s (collNext s g)).st ≠ .opened ∨ (ctxOf s (collNext s g)).peerChip = m.addr) →
        t.fabric.msgs = s.fabric.msgs) ∧
      ((ctxOf s (collNext s g)).st = .opened → (ctxOf s (collNext s g)).peerChip ≠ m.addr →
        ∃ e, t.fabric.msgs = s.fabric.msgs ++ [e] ∧ e.ctx = collNext s g ∧ e.msg.mtype = mtPACE ∧ e.msg.aux = m.aux ∧
          e.msg.addr = m.addr))) ∧
  (∀ (s : State) (m : Msg) (port vc : Nat), (∀ e ∈ s.fabric.msgs, e.msg ≠ m) →
    let flooded := fun t : State => ∀ n, n < 16 → portTrained s n = true → n ≠ port →
      let v := leaveVc s n vc
      Emit.msg n v m ∈ t.out ∨ (∃ f ∈ (portOf t n).fifo, f.last = some m ∧ f.vc = v) ∨
        ∃ w ∈ t.fabric.stuck, w.port = some n ∧ w.vc = vc ∧ w.msg = m
    (m.srcChip ≠ s.fabric.chipId → newDepart s m.srcChip m.aux = true → ∃ t, exec (.depart m port vc) s = .next t ∧
      flooded t ∧ tabGet? t.fabric.epochs m.srcChip = some m.aux ∧ m.srcChip ∈ t.fabric.departed ∧
      ∀ x, (ctxOf s x).peerChip = m.srcChip → (ctxOf s x).st ≠ .closed → (ctxOf t x).st = .closedByPeer) ∧
    (m.srcChip ≠ s.fabric.chipId → newJoin s m.srcChip m.aux = true → ∃ t, exec (.join m port vc) s = .next t ∧ flooded t ∧
      tabGet? t.fabric.epochs m.srcChip = some m.aux ∧ m.srcChip ∉ t.fabric.departed ∧ t.weir = s.weir ∧ t.mem = s.mem ∧
      t.dict = s.dict ∧ t.fabric.ctxs = s.fabric.ctxs) ∧
    (m.srcChip = s.fabric.chipId ∨ newDepart s m.srcChip m.aux = false → exec (.depart m port vc) s = .next s) ∧
    (m.srcChip = s.fabric.chipId ∨ newJoin s m.srcChip m.aux = false → exec (.join m port vc) s = .next s))

/-- For a request that the device carries out, of a session bound by no scope with the role the object needs: in full mode a
write of an accepted value of PLEVEL_REQ, POWER_ENV, STACK_WARM_C, STACK_HOT_C, ARRAY_STALL_LIMIT_US, PARK_LIMIT_US,
PREC_LOCK, EDDY_AGE_NS, FLAG_HOLD_LIMIT_US, CHIP_ID or COLL_GROUP_CFG stores it (implemented bits), is answered with RESULT 0,
and changes no other object; COLL_GROUP_CFG also makes the group whole (not BROKEN, nothing received for it), and PLEVEL_REQ
may turn sequencers back and mark throttled operations. In limited mode a write of such a setting of 0x3000 to 0x6FFF is
accepted into the persisted dictionary and answered, and no object acts on it until the start that uses it (values kept apart
and read so: log 67; a value written unchanged is written: log 32). POWER_ENV in limited mode is refused NOT_READY with
BOOT_STAGE, a role below the object's and a scoped session ACCESS_DENIED, with nothing changed but the reply, whatever the
value (the order of refusals is log 31). What waits for a start is taken to be in its form, which every step keeps. -/
def Obligations.ObjectWritesTakeEffect : Prop :=
  ∀ (s : State) (req : Req) (x : Session), Authentic s req x → stagedOk s = true →
    let full := s.power.fullMode = true
    let refuses := fun (c : Instr) (index sub code detail : Nat) => ∃ t, exec c s = .next t ∧
      SaysError t req x.key index sub code detail ∧ Replied req x [] s t
    let kept := fun t : State => { s with nv := { s.nv with dirty := t.nv.dirty }, staged := t.staged, stagedBlobs := t.stagedBlobs }
    let stores := fun (c : Instr) (index sub v : Nat) => ∃ t, exec c s = .next t ∧
      rd (if s.power.fullMode then t else persistedView t) index sub = v ∧ SaysDone t req x.key index sub 0 ∧
      (full → Replied req x [objKey index sub] (kept t) t) ∧ (¬full → Replied req x [] (kept t) t) ∧
      ∀ k, k ≠ objKey index sub → tabGet? t.staged k = tabGet? s.staged k ∧ tabGet? t.stagedBlobs k = tabGet? s.stagedBlobs k
    (isScoped x = false → 2 ≤ x.role → full →
      (∀ q v, q < 8 → v ≤ 7 → ∃ t, exec (.plevelReqWrite req q v) s = .next t ∧ rd t oPLEVEL_REQ (q + 1) = v ∧
        SaysDone t req x.key oPLEVEL_REQ (q + 1) 0 ∧ Replied req x [objKey oPLEVEL_REQ (q + 1)]
          { s with nv := { s.nv with dirty := t.nv.dirty }, clock := { s.clock with seqs := t.clock.seqs }, weir := { s.weir with ops := t.weir.ops } } t ∧
        t.weir.ops.map (fun o => { o with throttled := true }) = s.weir.ops.map (fun o => { o with throttled := true })) ∧
      (∀ v, 70 ≤ v → v ≤ 85 → v + 5 ≤ rd s oSTACK_HOT_C 0 → stores (.stackThresholdWrite req false v) oSTACK_WARM_C 0 v) ∧
      (∀ v, 80 ≤ v → v ≤ 95 → rd s oSTACK_WARM_C 0 + 5 ≤ v → stores (.stackThresholdWrite req true v) oSTACK_HOT_C 0 v)) ∧
    (3 ≤ x.role → full →
      (∀ v, (envRange (variantOf s)).1 ≤ v → v ≤ (envRange (variantOf s)).2 → stores (.powerEnvWrite req v) oPOWER_ENV 0 v) ∧
      (∀ g v, g < 16 → v < 2 ^ 32 → ∃ t, exec (.collGroupCfgWrite req g v) s = .next t ∧
        rd t oCOLL_GROUP_CFG (g + 1) = v &&& 0xFFFFFF7F ∧ collState t g ≠ 2 ∧ (∀ r ∈ t.fabric.ready, r.1 ≠ g) ∧
        SaysDone t req x.key oCOLL_GROUP_CFG (g + 1) 0 ∧
        Replied req x [objKey oCOLL_GROUP_CFG (g + 1), objKey oCOLL_GROUP_STATE (g + 1)]
          { kept t with fabric := { s.fabric with ready := s.fabric.ready.filter (fun r => r.1 != g) } } t)) ∧
    (3 ≤ x.role →
      (∀ v, 50 ≤ v → v ≤ 10000 → stores (.arrayStallLimitWrite req v) oARRAY_STALL_LIMIT_US 0 v) ∧
      (∀ v, 100 ≤ v → v ≤ 100000 → stores (.parkLimitWrite req v) oPARK_LIMIT_US 0 v) ∧
      (∀ p v, p < 128 → v ≤ 3 → stores (.precLockWrite req p v) oPREC_LOCK (p + 1) v) ∧
      (∀ v, 100 ≤ v → v ≤ 100000 → stores (.eddyAgeWrite req v) oEDDY_AGE_NS 0 v) ∧
      (∀ v, 100 ≤ v → v ≤ 1000000 → stores (.flagHoldLimitWrite req v) oFLAG_HOLD_LIMIT_US 0 v) ∧
      (∀ v, v < 2 ^ 16 → stores (.chipIdWrite req v) oCHIP_ID 0 (v % 1024)) ∧
      (¬full → ∀ g v, g < 16 → v < 2 ^ 32 →
        stores (.collGroupCfgWrite req g v) oCOLL_GROUP_CFG (g + 1) (v &&& 0xFFFFFF7F))) ∧
    (3 ≤ x.role → ¬full → ∀ v, refuses (.powerEnvWrite req v) oPOWER_ENV 0 errNOT_READY (rd s oBOOT_STAGE 0)) ∧
    (x.role < 3 → ∀ v, refuses (.powerEnvWrite req v) oPOWER_ENV 0 errACCESS_DENIED 0 ∧
      refuses (.chipIdWrite req v) oCHIP_ID 0 errACCESS_DENIED 0 ∧ refuses (.parkLimitWrite req v) oPARK_LIMIT_US 0 errACCESS_DENIED 0) ∧
    (isScoped x = true → ∀ q v, q < 8 → refuses (.plevelReqWrite req q v) oPLEVEL_REQ (q + 1) errACCESS_DENIED 0)

/-- For every request that the device carries out, of a session with the role that POWER_ENV needs, in full mode (where
POWER_ENV may be written at all), and every 16-bit value outside the envelope range of the package's variant: POWER_ENV_WRITE
is answered with the out-of-range error about POWER_ENV, POWER_ENV keeps its value, stored and as it reads, and nothing
changes but the reply. What waits for a start is taken to be in its form, which every step keeps. -/
def Obligations.EnvelopeOutsideTheRangeIsRefused : Prop :=
  ∀ (s : State) (req : Req) (x : Session) (v : Nat), Authentic s req x → 3 ≤ x.role → s.power.fullMode = true →
    stagedOk s = true → v < 2 ^ 16 → (v < (envRange (variantOf s)).1 ∨ (envRange (variantOf s)).2 < v) →
    ∃ t, exec (.powerEnvWrite req v) s = .next t ∧ SaysError t req x.key oPOWER_ENV 0 errOUT_OF_RANGE 0 ∧
      rd t oPOWER_ENV 0 = rd s oPOWER_ENV 0 ∧ powerEnv t = powerEnv s ∧ Replied req x [] s t

/-- For a request that the device carries out, of a session with the role each needs: WARM_RESET 0xA5A5 loses the compute
side, closes every session and restarts at BOOT_STAGE 4 with RESET_CAUSE 2; another value is refused. PART_RESET 1 and
PART_CTRL 2 of an active partition begin its reset, no other partition's state or operations changing, and the reply waits;
PART_RESET of an absent one is refused. PART_CTRL 1 of an absent partition with a valid configuration creates it, else it is
refused. CORE_RESET 1 of a core without a wavefront in progress ends its dispatched and parked operations ABANDONED, gives
placed ones back, zeroes its store and frees it; with a wavefront in progress the reset is a pending load, the stall timer
running, and only placed and parked operations leave at once, the reply going either way at once (log 34). LINK_RESET 1 of a
port that trains starts training it afresh, or, with the link layer gated, once it runs again. CORE_RETIRE 1 of a core in use
and PC_RETIRE of the channel that serves place v of the rotation (log 69) begin, in limited mode too, and their replies wait.
PART_RESET_COMPLETE, once no wavefront of the partition is in progress (its contexts close then: log 62), leaves it active, or
gone if it was being destroyed, no operation, lost write or held record of it left, its cores free and zero, and reports how
many operations were discarded. -/
def Obligations.ResetAndPartitionCommands : Prop :=
  (∀ (s : State) (req : Req) (x : Session), Authentic s req x → opsOk s.weir = true →
    let waits := fun (t : State) (d : Delayed) => (d, req, x.src) ∈ t.mgmt.waiting
    let refused := fun (c : Instr) (index sub : Nat) => ∃ t, exec c s = .next t ∧
      SaysError t req x.key index sub errOUT_OF_RANGE 0 ∧ Replied req x [] s t
    let othersAlone := fun (p : Nat) (t : State) => ∀ r, r < 128 → r ≠ p → rd t oPART_STATE (r + 1) = rd s oPART_STATE (r + 1) ∧
      partOf t r = partOf s r ∧ t.weir.ops.filter (fun o => o.part == r) = s.weir.ops.filter (fun o => o.part == r)
    let begins := fun (p : Nat) (t : State) => rd t oPART_STATE (p + 1) = 2 ∧ (partOf t p).resetting = true ∧
      (paused s p = false → ∀ o ∈ t.weir.ops, o.part = p → o.phase = .dispatched ∧
        ∃ c, o.core = some c ∧ ((coreOf s c).wave = true ∨ (coreOf s c).load ≠ none)) ∧ othersAlone p t
    (3 ≤ x.role → s.power.shutdown = false → ∃ t, exec (.warmReset req 0xA5A5) s = .next t ∧ t.power.compute = false ∧
      t.mgmt.sessions = [] ∧ t.weir.ops = [] ∧ rd t oBOOT_STAGE 0 = 4 ∧ rd t oRESET_CAUSE 0 = 2 ∧
      t.nv.bootNo = (s.nv.bootNo + 1) % 2 ^ 32) ∧
    (3 ≤ x.role → ∀ v, v < 2 ^ 16 → v ≠ 0xA5A5 → refused (.warmReset req v) oWARM_RESET 0) ∧
    (∀ p, p < 128 → 2 ≤ x.role → inScope x p = true → rd s oPART_STATE (p + 1) = 1 →
      ∃ t, exec (.partReset req p 1) s = .next t ∧ begins p t ∧ waits t (.partReset p)) ∧
    (∀ p, p < 128 → 2 ≤ x.role → inScope x p = true → partExists s p = false →
      refused (.partReset req p 1) oPART_RESET (p + 1)) ∧
    (∀ p, p < 128 → 3 ≤ x.role → s.power.fullMode = true → rd s oPART_STATE (p + 1) = 1 →
      ∃ t, exec (.partCtrlDestroy req p) s = .next t ∧ begins p t ∧ (partOf t p).destroying = true ∧ waits t (.destroy p)) ∧
    (∀ p, p < 128 → 3 ≤ x.role → s.power.fullMode = true → partExists s p = false →
      let good := (rd s oPART_FUNC (p + 1)).testBit 15 && configValid s p (rd s oPART_CORES (p + 1)) &&
        (partCores s p).all (fun c => !(coreRetired s c))
      (good = true → ∃ t, exec (.partCtrlCreate req p) s = .next t ∧ rd t oPART_STATE (p + 1) = 1 ∧
        (partOf t p).level = rd s oCREDIT_BURST (p + 1) * 1000000 ∧ rd t oPART_ENERGY_UJ (p + 1) = 0 ∧ othersAlone p t ∧
        SaysDone t req x.key oPART_CTRL (p + 1) 0) ∧
      (good = false → refused (.partCtrlCreate req p) oPART_CTRL (p + 1))) ∧
    (∀ c, c < 128 → 3 ≤ x.role → s.power.compute = true →
      let others := fun t : State =>
        (∀ o ∈ s.weir.ops, o.core = some c → o.phase = .parked → EndedWith t o.id stABANDONED) ∧
        (∀ o ∈ s.weir.ops, o.core = some c → o.phase = .placed → ∃ y, opOf? t o.id = some y ∧ y.phase = .issued ∧ y.core = none) ∧
        (∀ o ∈ s.weir.ops, o.core ≠ some c → opOf? t o.id = some o) ∧ SaysDone t req x.key oCORE_RESET (c + 1) 0
      (¬((coreOf s c).exec.isSome = true ∧ inWave s c = true) → ∃ t, exec (.coreReset req c 1) s = .next t ∧ others t ∧
        (∀ o ∈ s.weir.ops, o.core = some c → o.phase = .dispatched → EndedWith t o.id stABANDONED) ∧
        coreOf t c = { retiring := (coreOf s c).retiring, mapping := (coreOf s c).mapping, logged := (coreOf s c).logged } ∧
        (∀ a, a < 0x600000 → readByte t (coreBase c + a) = 0)) ∧
      (∀ v, executingOn s c = some v → v.phase = .dispatched → inWave s c = true →
        ∃ t, exec (.coreReset req c 1) s = .next t ∧ others t ∧ opOf? t v.id = some v ∧ (coreOf t c).wave = true ∧
          ((coreOf s c).load = some .partReset → (coreOf t c).load = some .partReset) ∧
          ((coreOf s c).load ≠ some .partReset → (coreOf t c).load = some .coreReset ∧
            (coreOf t c).stall = some ((coreOf s c).stall.getD (rd s oARRAY_STALL_LIMIT_US 0))))) ∧
    (∀ n, 3 ≤ x.role → trainsPort s n = true → ∃ t, exec (.linkReset req n 1) s = .next t ∧
      portCode t n = (if portCode s n = 4 then 4 else 1) ∧ 
      portOf t n = { swapped := (portOf s n).swapped, swappedRx := (portOf s n).swappedRx, fifo := dropBegun (portOf s n).fifo, before := 1 } ∧ t.weir = s.weir ∧ t.mem = s.mem ∧
      SaysDone t req x.key oLINK_RESET (n + 1) 0) ∧
    (∀ c, c < 128 → 3 ≤ x.role → coreRetired s c = false → (coreOf s c).mapping = false → (coreOf s c).retiring = false → ∃ t, exec (.coreRetire req c 1) s = .next t ∧
      (coreOf t c).retiring = true ∧ (∀ o ∈ t.weir.ops, o.core = some c → o.phase ≠ .placed) ∧ waits t (.coreRetire c)) ∧
    (∀ k v, 3 ≤ x.role → v < 32 → let ch := channelIn s.nv.repair k v
      s.nv.repair.contains (.channelRetired k ch) = false → retiresChannels s k = true →
      topOwned s k = false → relaying s k = false → ∃ t, exec (.pcRetire req k v) s = .next t ∧
        hasJob t (.relay k ch) = true ∧ waits t (.pcRetire k) ∧ t.nv.repair = s.nv.repair)) ∧
  (∀ (s : State) (p : Nat), p < 128 → opsOk s.weir = true → (partOf s p).resetting = true → paused s p = false →
    stillRuns s p = false → s.mgmt.waiting = [] → ∃ t, exec (.partResetComplete p) s = .next t ∧ (∀ o ∈ t.weir.ops, o.part ≠ p) ∧
      rd t oPART_DISCARD (p + 1) =
        min max32 ((partOf s p).discarded + (s.weir.ops.filter (fun o => o.part == p)).length) ∧
      ((partOf s p).destroying = false → rd t oPART_STATE (p + 1) = 1 ∧ (partOf t p).resetting = false ∧
        (partOf t p).level = rd s oCREDIT_BURST (p + 1) * 1000000) ∧
      ((partOf s p).destroying = true → rd t oPART_STATE (p + 1) = 0 ∧
        (rd t oPART_FUNC (p + 1)).testBit 15 = false) ∧
      (∀ l ∈ t.fabric.lost, l.part ≠ p) ∧ (∀ r ∈ t.outRecords, r.1.part ≠ p) ∧
      (∀ c ∈ partCores s p, coreOf t c = { retiring := (coreOf s c).retiring, logged := (coreOf s c).logged } ∧
        ∀ a, a < 0x600000 → readByte t (coreBase c + a) = 0))

/-- For a request that the device carries out, of a session bound by no scope with the role each needs, in full mode where the
object asks for it: CANCEL_OP answers with the number of unreleased operations matched, CANCEL_FLOW with 0 (log 70); of those,
waiting, issued and placed ones end CANCELLED, parked ones CANCELLED_PARTIAL, a dispatched one whose data is not done ends
CANCELLED_PARTIAL at a tile boundary, is marked to end at the next, or stays as it is in its last tile, executed and ended
ones and all others stay as they are. CTX_OPEN of a usable context (which those are: log 33) makes it PENDING and sends OPEN,
else it is refused; CTX_CLOSE of one that no operation names closes it and tells the peer, of one that is named it is refused
NOT_READY. SESSION_KILL closes the session named, or all others for 0xFFFF (told by CLOSE: log 30); a new key closes the
sessions of its slot. ERR_LOG_CLEAR empties the log. SVC_DEPART 0xD5D5 with nothing left to do departs, ports staying UP (log
49), otherwise it is refused NOT_READY. -/
def Obligations.CancelContextAndSessionCommands : Prop :=
  ∀ (s : State) (req : Req) (x : Session), Authentic s req x → isScoped x = false → 2 ≤ x.role → opsOk s.weir = true →
    let full := s.power.fullMode = true
    let refuses := fun (c : Instr) (index sub code detail : Nat) => ∃ t, exec c s = .next t ∧
      SaysError t req x.key index sub code detail ∧ Replied req x [] s t
    let cancels := fun (c : Instr) (index : Nat) (f : Op → Bool) (result : Nat) => ∃ t, exec c s = .next t ∧
      SaysDone t req x.key index 0 result ∧
      t.weir.ops.map (fun o => o.id) = s.weir.ops.map (fun o => o.id) ∧
      (∀ o ∈ s.weir.ops, f o = false → opOf? t o.id = some o) ∧
      (∀ o ∈ s.weir.ops, f o = true →
        ((o.phase = .waiting ∨ o.phase = .issued ∨ o.phase = .placed) → EndedWith t o.id stCANCELLED) ∧
        (o.phase = .parked → EndedWith t o.id stCANCELLED_PARTIAL) ∧
        ((o.phase = .executed ∨ o.phase = .ended) → opOf? t o.id = some o) ∧
        (o.phase = .dispatched → o.dataDone = true → opOf? t o.id = some o) ∧
        (o.phase = .dispatched → opOf? t o.id = some o ∨ opOf? t o.id = some { o with cancel := true } ∨
          EndedWith t o.id stCANCELLED_PARTIAL) ∧
        (∀ c, o.phase = .dispatched → o.dataDone = false → o.core = some c → (coreOf s c).exec = some o.id →
          (inWave s c = false → (coreOf s c).load = none → EndedWith t o.id stCANCELLED_PARTIAL) ∧
          (inWave s c = true → o.tiles ≤ o.tile + 1 → opOf? t o.id = some o) ∧
          (inWave s c = true → o.tile + 1 < o.tiles → opOf? t o.id = some { o with cancel := true })))
    (∀ v, full → v < 2 ^ 64 →
      let f := fun o : Op => o.desc.flow == field v 41 32 && o.desc.opid == field v 31 0
      cancels (.cancelOp req v) oCANCEL_OP f (s.weir.ops.filter f).length) ∧
    (∀ v, full → v < 2 ^ 16 → cancels (.cancelFlow req v) oCANCEL_FLOW (fun o => o.desc.flow == field v 9 0) 0) ∧
    (∀ v, full → v < 2 ^ 64 → partExists s (openPart v) = true → ctxUsable s (openCtx v) (openPart v) = true →
      ∃ t a, exec (.ctxOpen req v) s = .next t ∧ SaysDone t req x.key oCTX_OPEN 0 0 ∧ ctxOf t (openCtx v) = { st := .pendingOpen, peerChip := openChip v, peerCtx := openPeer v, part := openPart v, credits := rd s oCTX_CREDITS 0 } ∧
        (∀ y, y ≠ openCtx v → ctxOf t y = ctxOf s y) ∧ Leaves t a ∧ a.mtype = mtOPEN ∧ a.dstChip = openChip v ∧
        a.dstCtx = openPeer v ∧ a.tag = openCtx v ∧ a.aux = 1 ∧ t.weir = s.weir ∧ t.mem = s.mem) ∧
    (∀ v, full → v < 2 ^ 64 → (partExists s (openPart v) = false ∨ ctxUsable s (openCtx v) (openPart v) = false) →
      refuses (.ctxOpen req v) oCTX_OPEN 0 errOUT_OF_RANGE 0) ∧
    (∀ v, full → v < 2 ^ 16 → let c := field v 11 0
      (s.weir.ops.any (opNames s c) = true → refuses (.ctxClose req v) oCTX_CLOSE 0 errNOT_READY (rd s oBOOT_STAGE 0)) ∧
      (s.weir.ops.any (opNames s c) = false → (ctxOf s c).st ≠ .closed → ∃ t a, exec (.ctxClose req v) s = .next t ∧
        SaysDone t req x.key oCTX_CLOSE 0 0 ∧ ctxOf t c = {} ∧ (∀ y, y ≠ c → ctxOf t y = ctxOf s y) ∧
        t.fabric.msgs = s.fabric.msgs.filter (fun e => e.ctx != c) ∧
        t.fabric.lost = s.fabric.lost ++ lostOf s c stPEER_LOST ∧ t.weir = s.weir ∧ t.mem = s.mem ∧
        a.mtype = mtCLOSE ∧ a.dstChip = (ctxOf s c).peerChip ∧ a.dstCtx = (ctxOf s c).peerCtx ∧ a.tag = c ∧
        ((∀ m ∈ s.fabric.msgs, m.ctx = c → m.msg ≠ a) → Leaves t a))) ∧
    (3 ≤ x.role →
      (∀ v, v < 0xFFFF → v ≠ x.sid → (sessionOf s v).isSome = true → ∃ t, exec (.sessionKill req v) s = .next t ∧
        sessionOf t v = none ∧ SaysDone t req x.key oSESSION_KILL 0 0 ∧ t.weir = s.weir ∧ t.dict = s.dict) ∧
      (x.sid ≠ 0xFFFF → ∃ t, exec (.sessionKill req 0xFFFF) s = .next t ∧ (∀ y ∈ t.mgmt.sessions, y.sid = x.sid) ∧
        SaysDone t req x.key oSESSION_KILL 0 0 ∧ t.weir = s.weir ∧ t.dict = s.dict) ∧
      (∀ v, v < 0xFFFF → v ≠ x.sid → sessionOf s v = none → refuses (.sessionKill req v) oSESSION_KILL 0 errOUT_OF_RANGE 0) ∧
      (∀ slot key, 1 ≤ slot → slot ≤ 8 → key.length = 32 → ∃ t, exec (.keyMaterialWrite req slot key) s = .next t ∧
        rd t oKEY_MATERIAL slot = leNat key ∧ (∀ y ∈ t.mgmt.sessions, y.slot ≠ slot ∨ (y.sid = x.sid ∧ x.slot ≠ slot)) ∧
        (x.slot ≠ slot → SaysDone t req x.key oKEY_MATERIAL slot 0) ∧ t.weir = s.weir ∧
        SameObjs [objKey oKEY_MATERIAL slot] s t) ∧
      (∃ t, exec (.errLogClear req 1) s = .next t ∧ (∀ sub, sub < 256 → blobOf t oERR_LOG sub = List.replicate 32 0) ∧
        rd t oERR_LOG_NEXT 0 = 1 ∧ t.regr.openEntries = [] ∧ SaysDone t req x.key oERR_LOG_CLEAR 0 0 ∧
        SameObjs [objKey oERR_LOG_NEXT 0] s t ∧ t.weir = s.weir) ∧
      (s.weir.ops = [] → s.fabric.ctxs.all (fun c => c.2.st != .opened && c.2.st != .pendingOpen) = true →
        ∃ t, exec (.svcDepart req 0xD5D5) s = .next t ∧ rd t oSVC_STATE 0 = 1 ∧ t.fabric.joined = false ∧
          (∀ n, portCode t n = portCode s n) ∧ SaysDone t req x.key oSVC_DEPART 0 0 ∧ SameObjs [objKey oSVC_STATE 0] s t) ∧
      (s.weir.ops ≠ [] → refuses (.svcDepart req 0xD5D5) oSVC_DEPART 0 errNOT_READY (rd s oBOOT_STAGE 0)))

/-- For a request that the device carries out, of a maintainer's session: FW_BLOCK stores its 32,768 bytes as block
FW_BLOCK_SEL of the inactive bank, which is then invalid (log 53), FW_STATE 1. FW_COMMIT marks that bank valid (FW_STATE 2)
where it passes (log 14), else invalid (FW_STATE 0) with the out-of-range error. FW_ACTIVATE with that bank valid and no
repair running closes every session and silences management (FW_STATE 3); otherwise NOT_READY. FIRMWARE_READY after a switch
makes the other bank active and the bank to boot from and lets the repairs put off begin (log 53); after a mere restart it
only ends the silence. FW_REVERT ends the switch with the old bank active, FW_STATE 4, and logs it. MGMT_WATCHDOG counts a
contained error and restarts management from FW_BOOT_BANK, every session gone; a switch under way has failed, FW_STATE 4,
which is logged too. No operation and no byte of memory changes. -/
def Obligations.FirmwareIsReplacedBankByBank : Prop :=
  (∀ (s : State) (req : Req) (x : Session), Authentic s req x → 3 ≤ x.role →
    (∀ b, b.length = 32768 → ∃ t, exec (.fwBlock req b) s = .next t ∧
      otherBlocks t = tabPut (otherBlocks s) (rd s oFW_BLOCK_SEL 0) b ∧ otherValid t = false ∧ t.fw.active = s.fw.active ∧
      rd t oFW_STATE 0 = 1 ∧ SaysDone t req x.key oFW_BLOCK 0 0 ∧
      Replied req x [objKey oFW_STATE 0] { s with fw := t.fw } t) ∧
    (bankPasses s = true → ∃ t, exec (.fwCommit req 1) s = .next t ∧ otherValid t = true ∧ otherBlocks t = otherBlocks s ∧
      rd t oFW_STATE 0 = 2 ∧ SaysDone t req x.key oFW_COMMIT 0 0 ∧ Replied req x [objKey oFW_STATE 0] { s with fw := t.fw } t) ∧
    (bankPasses s = false → ∃ t, exec (.fwCommit req 1) s = .next t ∧ otherValid t = false ∧ rd t oFW_STATE 0 = 0 ∧
      SaysError t req x.key oFW_COMMIT 0 errOUT_OF_RANGE 0 ∧ Replied req x [objKey oFW_STATE 0] { s with fw := t.fw } t) ∧
    (repairRuns s = false → otherValid s = true → ∃ t, exec (.fwActivate req 1) s = .next t ∧ t.mgmt.silent = true ∧
      t.mgmt.sessions = [] ∧ rd t oFW_STATE 0 = 3 ∧ t.fw = s.fw ∧ t.weir = s.weir ∧ t.mem = s.mem ∧
      SameObjs [objKey oFW_STATE 0] s t) ∧
    (repairRuns s = true ∨ otherValid s = false → ∃ t, exec (.fwActivate req 1) s = .next t ∧
      SaysError t req x.key oFW_ACTIVATE 0 errNOT_READY (rd s oBOOT_STAGE 0) ∧ Replied req x [] s t)) ∧
  (∀ s : State,
    let ofLane := fun j : RegrJob => match j with
      | .lane _ _ => true
      | _ => false
    let back := fun t : State => t.mgmt.silent = false ∧ t.regr.deferred = [] ∧
      t.regr.jobs = s.regr.jobs ++ s.regr.deferred.filter (fun j => !(ofLane j)) ∧
      (∀ n lane, RegrJob.lane n lane ∈ s.regr.deferred → portUp s n = true → (portOf s n).spare = false → portCode t n = 3) ∧
      t.weir = s.weir ∧ t.mem = s.mem
    let reverts := fun t : State => rd t oFW_STATE 0 = 4 ∧ ∃ e ∈ t.regr.openEntries, e.cause = 0x61
    (s.mgmt.silent = true → rd s oFW_STATE 0 = 3 → ∃ t, exec .firmwareReady s = .next t ∧ back t ∧
      t.fw = { s.fw with active := 1 - s.fw.active } ∧ rd t oFW_BOOT_BANK 0 = 1 - s.fw.active ∧
      (s.regr.deferred.any ofLane = false → SameObjs [objKey oFW_BOOT_BANK 0, objKey oFW_STATE 0] s t)) ∧
    (s.mgmt.silent = true → rd s oFW_STATE 0 ≠ 3 → ∃ t, exec .firmwareReady s = .next t ∧ back t ∧ t.fw = s.fw ∧
      (s.regr.deferred.any ofLane = false → t.dict = s.dict)) ∧
    (s.mgmt.silent = false → exec .firmwareReady s = .next s) ∧
    (s.mgmt.silent = true → rd s oFW_STATE 0 = 3 → ∃ t, exec .fwRevert s = .next t ∧ back t ∧ t.fw = s.fw ∧
      reverts t) ∧
    (s.power.good = true → ∃ t, exec .mgmtWatchdog s = .next t ∧ t.mgmt.silent = true ∧ t.mgmt.sessions = [] ∧
      t.fw = { s.fw with active := rd s oFW_BOOT_BANK 0 } ∧ t.power.alertPulse = true ∧
      rd t oCONTAINED_COUNT 0 = satAdd max32 (rd s oCONTAINED_COUNT 0) 1 ∧ t.weir = s.weir ∧ t.mem = s.mem ∧
      (rd s oFW_STATE 0 = 3 → reverts t)))

/-- From a source that is heard: DISCOVER is answered with serial number, variant, BOOT_STAGE, node and limited mode, and
nothing else changes. SESSION_OPEN for a slot and role the key permits, a session free (a challenge past its limit takes no
place: log 28), adds one challenged session with the client's fields and a fresh nonce, and sends its SID and nonce; without a
free session the answer is BUSY; for another slot or role it is AUTH_FAILED. SESSION_PROVE with the right proof in time opens
the session under its key, counts the key's use and is answered with a sealed frame; with a wrong one, or a slot lowered
since, the session is gone and the answer AUTH_FAILED; too late, gone and BUSY (the order of these is log 28). Each
AUTH_FAILED counts in AUTH_FAILS, and the eighth within 60 s locks the source out: its frames change nothing until
LOCKOUT_EXPIRY. -/
def Obligations.SessionsOpenByProof : Prop :=
  (∀ (s : State) (src : Src) (b : List Byte), Framed s src b 0x01 → (parseFrame b).sid = 0 →
    ∃ t p, exec (.discover src b) s = .next t ∧ Answers s t src (frameBytes 0x02 0 0 (parseFrame b).txid p) ∧ p.length = 16 ∧
      numAt p 0 8 = rd s oDEVICE_SERIAL 0 % 2 ^ 64 ∧ numAt p 8 1 = variantOf s % 256 ∧ numAt p 9 1 = rd s oBOOT_STAGE 0 % 256 ∧
      numAt p 10 1 = rd s oPLCA_NODE_ID 0 % 256 ∧ numAt p 11 1 = (if s.power.fullMode then 0 else 1)) ∧
  (∀ (s : State) (src : Src) (b : List Byte), Framed s src b 0x03 → (parseFrame b).sid = 0 →
    let f := parseFrame b
    let slot := numAt f.payload 0 1
    let role := numAt f.payload 1 1
    let allowed := 1 ≤ slot ∧ slot ≤ 8 ∧ 1 ≤ role ∧ role ≤ 3 ∧ role ≤ rd s oKEY_ROLE slot
    (allowed → sessionFree s src = true → ∃ t x, exec (.sessionOpen src b) s = .next t ∧
      t.mgmt.sessions = s.mgmt.sessions ++ [x] ∧ x.accepted = false ∧ x.src = src ∧ x.slot = slot ∧ x.role = role ∧
      x.mask = numAt f.payload 2 2 ∧ x.nc = slice f.payload 4 16 ∧ x.nd = slice (Config.nonce s.mgmt.nonces) 0 16 ∧
      x.openedUs = s.nowUs ∧ t.mgmt.nonces = s.mgmt.nonces + 1 ∧ t.dict = s.dict ∧
      ((∀ y ∈ s.mgmt.sessions, y.sid ≠ s.mgmt.nextSid) → (∀ c ∈ s.mgmt.closing, c.1 ≠ s.mgmt.nextSid) →
        x.sid = s.mgmt.nextSid) ∧
      Answers { s with mgmt := { s.mgmt with sessions := t.mgmt.sessions, nextSid := t.mgmt.nextSid, nonces := t.mgmt.nonces } }
        t src (frameBytes 0x04 0 0 f.txid (leBytes 2 x.sid ++ x.nd))) ∧
    (allowed → sessionFree s src = false → ∃ t, exec (.sessionOpen src b) s = .next t ∧
      Answers s t src (frameBytes 0x30 0 0 f.txid (errorPayload 0 0 errBUSY 0))) ∧
    (¬allowed → ∃ t, exec (.sessionOpen src b) s = .next t ∧ t.mgmt.sessions = s.mgmt.sessions ∧
      rd t oAUTH_FAILS 0 = satAdd max32 (rd s oAUTH_FAILS 0) 1 ∧ SameObjs [objKey oAUTH_FAILS 0] s t ∧
      (recentFails s src < 7 → t.mgmt.locked = s.mgmt.locked ∧ recentFails t src = recentFails s src + 1) ∧
      (7 ≤ recentFails s src → heard t src = false))) ∧
  (∀ (s : State) (src : Src) (b : List Byte) (x : Session), Framed s src b 0x05 →
    s.mgmt.sessions.find? (fun x => x.sid == (parseFrame b).sid) = some x → x.accepted = false →
    let f := parseFrame b
    (challengeLives s x = true → x.role ≤ rd s oKEY_ROLE x.slot → 1 ≤ x.role → x.role ≤ 3 → 1 ≤ x.slot → x.slot ≤ 8 →
      f.payload = proofOf s x → ∃ t y, exec (.sessionProve src b) s = .next t ∧
      sessionOf t x.sid = some y ∧ y.key = sessionKey s x ∧ y.role = x.role ∧ y.slot = x.slot ∧ y.src = x.src ∧
      y.rxHigh = f.fseq ∧ y.scope = rd s oKEY_SCOPE x.slot ∧ rd t oKEY_USES x.slot = satAdd max32 (rd s oKEY_USES x.slot) 1 ∧
      SameObjs [objKey oKEY_USES x.slot] s t ∧
      t.mgmt.sessions.filter (fun z => z.sid != x.sid) = s.mgmt.sessions.filter (fun z => z.sid != x.sid)) ∧
    (challengeLives s x = true → f.payload ≠ proofOf s x ∨ rd s oKEY_ROLE x.slot < x.role → ∃ t, exec (.sessionProve src b) s = .next t ∧
      t.mgmt.sessions = s.mgmt.sessions.filter (fun z => z.sid != x.sid) ∧
      rd t oAUTH_FAILS 0 = satAdd max32 (rd s oAUTH_FAILS 0) 1 ∧ SameObjs [objKey oAUTH_FAILS 0] s t ∧
      (7 ≤ recentFails s src → heard t src = false)) ∧
    (challengeLives s x = false → ∃ t, exec (.sessionProve src b) s = .next t ∧
      Answers { s with mgmt := { s.mgmt with sessions := s.mgmt.sessions.filter (fun z => z.sid != x.sid) } } t src
        (frameBytes 0x30 x.sid 0 f.txid (errorPayload 0 0 errBUSY 0)))) ∧
  (∀ (s : State) (src : Src) (b : List Byte), heard s src = false →
    ∀ c ∈ [Instr.discover src b, .sessionOpen src b, .sessionProve src b, .stestoClose src b, .closeReply src b,
      .stestoRead src b, .stestoWrite src b, .notifyAck src b], exec c s = .next s) ∧
  (∀ (s : State) (src : Src), ∃ t, exec (.lockoutExpiry src) s = .next t ∧ (t.mgmt.locked.contains (lockSource src)) = false ∧
    (∀ y ∈ s.mgmt.locked, y ≠ lockSource src → y ∈ t.mgmt.locked) ∧
    t = { s with mgmt := { s.mgmt with locked := t.mgmt.locked } })

/-- A sealed frame with a new FSEQ in an open session: READ of a readable object answers with its type, length and bytes from
the offset, at most 472 or as asked; of another, with its error. WRITE of a whole value does what the object's own row does; a
part that does not complete its value is staged and answered with the bytes staged (log 32). CLOSE is answered and the session
is gone. An FSEQ not above the last accepted draws its kept reply, or is counted in REPLAY_DROPS. A wrong MAC counts in
FRAME_DROPS. NOTIFY_ACK takes its notification off the list (log 27). CLOSE_REPLY forgets a session the device closed (log
30). NOTIFY_RETRANSMIT sends a notification that has been sent again under the next FSEQ (log 27) while tries are left: as a
datagram, in the mailbox's free notification slot, or it waits behind what stands there. SESSION_IDLE_EXPIRY closes a session
that waits for no reply and remembers it until its CLOSE_REPLY. -/
def Obligations.SessionTraffic : Prop :=
  (∀ (s : State) (src : Src) (b : List Byte) (x : Session), Sealed s src b 0x10 x → x.rxHigh < (parseFrame b).fseq →
    let f := parseFrame b
    let req : Req := ⟨x.sid, f.fseq, f.txid⟩
    let index := numAt f.payload 0 2
    let sub := numAt f.payload 2 1
    let off := numAt f.payload 4 2
    let most := if numAt f.payload 6 2 = 0 then 472 else min 472 (numAt f.payload 6 2)
    (∀ r, (readObject s x index sub).1 = some r → ∃ t, exec (.stestoRead src b) s = .next t ∧ Replied req x [] s t ∧
      let v := objBytes t r index sub
      (off ≤ v.length → KeepsReply t req x.key 0x11 (leBytes 2 index ++ leBytes 1 sub ++ leBytes 1 r.typ ++ leBytes 2 off ++
        leBytes 2 v.length ++ (v.drop off).take most)) ∧
      (v.length < off → SaysError t req x.key index sub errTYPE_MISMATCH 0)) ∧
    ((readObject s x index sub).1 = none → ∃ t, exec (.stestoRead src b) s = .next t ∧ Replied req x [] s t ∧
      SaysError t req x.key index sub (readObject s x index sub).2 0)) ∧
  (∀ (s : State) (b : List Byte) (x : Session), Sealed s x.src b 0x12 x → x.rxHigh < (parseFrame b).fseq →
    let f := parseFrame b
    let req : Req := ⟨x.sid, f.fseq, f.txid⟩
    let index := numAt f.payload 0 2
    let sub := numAt f.payload 2 1
    let off := numAt f.payload 4 2
    let total := numAt f.payload 6 2
    let part := f.payload.drop 8
    (off = 0 → part.length = total → exec (.stestoWrite x.src b) s = .next (writeRow s req index sub part)) ∧
    (off = 0 → part.length < total → partRefusal s x index sub total = 0 → ∃ t y, exec (.stestoWrite x.src b) s = .next t ∧
      Replied req x [] s t ∧ SaysDone t req x.key index sub part.length ∧ sessionOf t x.sid = some y ∧
      y.staged = some ⟨index, sub, total, part⟩)) ∧
  (∀ (s : State) (src : Src) (b : List Byte) (x : Session), Sealed s src b 0x07 x → x.rxHigh < (parseFrame b).fseq →
    ∃ t, exec (.stestoClose src b) s = .next t ∧ sessionOf t x.sid = none ∧
      t.mgmt.sessions = s.mgmt.sessions.filter (fun y => y.sid != x.sid) ∧
      (∀ a p, src = .net a p → t.out = .frame src (sealFrame x.key 0x08 x.sid (x.txSeq + 1) (parseFrame b).txid []) :: s.out) ∧
      FnsKept s t ∧
      t = { s with mgmt := { s.mgmt with sessions := t.mgmt.sessions, boxes := t.mgmt.boxes }, fns := t.fns, out := t.out }) ∧
  (∀ (s : State) (src : Src) (b : List Byte) (x : Session),
    ∀ c ∈ [(Instr.stestoClose src b, 0x07), (.stestoRead src b, 0x10), (.stestoWrite src b, 0x12)], Sealed s src b c.2 x →
    (parseFrame b).fseq ≤ x.rxHigh →
    (∀ k, x.kept.find? (fun k => k.1 == (parseFrame b).fseq) = some k → k.2 ≠ [] →
      ∃ t, exec c.1 s = .next t ∧ Answers s t src k.2) ∧
    (x.kept.find? (fun k => k.1 == (parseFrame b).fseq) = none → ∃ t, exec c.1 s = .next t ∧
      rd t oREPLAY_DROPS 0 = satAdd max32 (rd s oREPLAY_DROPS 0) 1 ∧ SameObjs [objKey oREPLAY_DROPS 0] s t ∧
      t = { s with dict := t.dict })) ∧
  (∀ (s : State) (src : Src) (b : List Byte) (x : Session),
    ∀ c ∈ [(Instr.stestoClose src b, 0x07), (.stestoRead src b, 0x10), (.stestoWrite src b, 0x12), (.notifyAck src b, 0x21)],
    Framed s src b c.2 → (parseFrame b).sid ≠ 0 → sessionOf s (parseFrame b).sid = some x →
    (parseFrame b).mac ≠ frameMac x.key (parseFrame b).covered → ∃ t, exec c.1 s = .next t ∧
      rd t oFRAME_DROPS 0 = satAdd max32 (rd s oFRAME_DROPS 0) 1 ∧ SameObjs [objKey oFRAME_DROPS 0] s t ∧
      t = { s with dict := t.dict }) ∧
  (∀ (s : State) (src : Src) (b : List Byte) (x : Session), Sealed s src b 0x21 x → ∃ t, exec (.notifyAck src b) s = .next t ∧
    sessionOf t x.sid = some { x with notes := x.notes.filter (fun n => n.txid != (parseFrame b).txid) } ∧
    t = { s with mgmt := { s.mgmt with sessions := t.mgmt.sessions } }) ∧
  (∀ (s : State) (src : Src) (b : List Byte) (e : Nat × List Byte), Framed s src b 0x08 → (parseFrame b).sid ≠ 0 →
    sessionOf s (parseFrame b).sid = none → s.mgmt.closing.find? (fun x => x.1 == (parseFrame b).sid) = some e →
    (parseFrame b).mac = frameMac e.2 (parseFrame b).covered → ∃ t, exec (.closeReply src b) s = .next t ∧
      t = { s with mgmt := { s.mgmt with closing := s.mgmt.closing.filter (fun y => y.1 != (parseFrame b).sid) } }) ∧
  (∀ (s : State) (sid txid : Nat) (x : Session), sessionOf s sid = some x →
    let found := x.notes.find? (fun m => m.txid == txid && m.sent)
    (∀ n, found = some n → n.tries < rd s oNOTIFY_RETRIES 0 → ∃ t y, exec (.notifyRetransmit sid txid) s = .next t ∧
      sessionOf t sid = some y ∧ y.notes = x.notes.map (fun m => if m.txid = txid then { n with tries := n.tries + 1 } else m) ∧
      y = { x with notes := y.notes, txSeq := y.txSeq } ∧ t.dict = s.dict ∧
      (∀ a p, x.src = .net a p → y.txSeq = x.txSeq + 1 ∧
        (stestoUp s = true → t.out = .frame x.src (noteFrame y n) :: s.out)) ∧
      (∀ e i, x.src = .mailbox e i →
        ((boxOf s e).notifyPending = false → y.txSeq = x.txSeq + 1 ∧ (boxOf t e).notifyPending = true ∧
          (boxOf t e).notifyFrame = noteFrame y n ∧ (boxOf t e).queue = (boxOf s e).queue) ∧
        ((boxOf s e).notifyPending = true → y.txSeq = x.txSeq ∧ BoxItem.note sid txid ∈ (boxOf t e).queue ∧
          (boxOf t e).notifyFrame = (boxOf s e).notifyFrame))) ∧
    ((∀ n, found = some n → rd s oNOTIFY_RETRIES 0 ≤ n.tries) → exec (.notifyRetransmit sid txid) s = .next s)) ∧
  (∀ (s : State) (sid : Nat) (x : Session), sessionOf s sid = some x →
    (x.waiting = [] → ∃ t, exec (.sessionIdleExpiry sid) s = .next t ∧ sessionOf t sid = none ∧
      t.mgmt.sessions = s.mgmt.sessions.filter (fun y => y.sid != sid) ∧ (∃ e ∈ t.mgmt.closing, e.1 = sid) ∧ t.dict = s.dict) ∧
    (x.waiting ≠ [] → exec (.sessionIdleExpiry sid) s = .next s))

/-- MB_SUBMIT of a slot the host owns, the mailbox usable: a frame that is malformed counts in FRAME_DROPS and leaves the slot
with the device (log 29); a DISCOVER is answered in the slot. MB_RELEASE takes the slots named back; MB_NOTIFY_FREE lets the
first that waits take the notification slot: a frame of the device, or a notification still unacknowledged, then formed under
the session's next FSEQ. PERSIST_COMMIT of an uncommitted change stores every persisted object, values that wait for a start
among them, in one copy, from then the newer valid one, and counts itself. A solicitation of the device's own address and an
echo are answered while the port is up; duplicate address detection sets or clears MGMT_LINK bit 1. With the management rail
up: IDCODE shifts out the code with its fixed fields, BYPASS and every undefined code a 0, SAMPLE/PRELOAD the pins, the ten
cells taking the bits shifted in (their order is log 26); below BOOT_STAGE 13 EXTEST, CLAMP and HIGHZ take control of the pins
until Test-Logic-Reset (logs 26, 37): under EXTEST, which shifts the cells too, and CLAMP the cell of ALERT_N drives that pin,
HIGHZ releases it, CLAMP and HIGHZ shift out a 0; otherwise all three act as BYPASS; TEST_LOGIC_RESET loads IDCODE and, after
control was taken, restarts with RESET_CAUSE 3. -/
def Obligations.MailboxCommitAndTestPort : Prop :=
  (∀ (s : State) (e v : Nat), boxUsable s e = true →
    (∀ b, b ≠ [] → s.mgmt.silent = false → (s.mgmt.locked.contains (.mailbox e 0)) = false →
      (boxOf s e).owned.testBit (v % 4) = false →
      (frameWellFormed b = false → ∃ t, exec (.mbSubmit e v b) s = .next t ∧ (boxOf t e).owned.testBit (v % 4) = true ∧
        (boxOf t e).done.testBit (v % 4) = false ∧ rd t oFRAME_DROPS 0 = satAdd max32 (rd s oFRAME_DROPS 0) 1 ∧
        (∀ d, d ≠ e → boxOf t d = boxOf s d) ∧ SameObjs [objKey oFRAME_DROPS 0] s t) ∧
      (frameWellFormed b = true → (parseFrame b).ftype = 0x01 → (parseFrame b).sid = 0 → (parseFrame b).len = 0 →
        ∃ t, exec (.mbSubmit e v b) s = .next t ∧ (boxOf t e).owned.testBit (v % 4) = false ∧
          (boxOf t e).done.testBit (v % 4) = true ∧
          tabGet? (boxOf t e).frames (v % 4) = some (frameBytes 0x02 0 0 (parseFrame b).txid (discoverPayload s)) ∧
          t.dict = s.dict)) ∧
    ((boxOf s e).owned.testBit (v % 4) = true → ∀ b, exec (.mbSubmit e v b) s = .next s) ∧
    (∃ t, exec (.mbRelease e v) s = .next t ∧ t = { s with mgmt := { s.mgmt with boxes := t.mgmt.boxes } } ∧
      (∀ i, i < 4 → v.testBit i = true → (boxOf t e).owned.testBit i = false ∧ (boxOf t e).done.testBit i = false) ∧
      (∀ i, (4 ≤ i ∨ v.testBit i = false) → (boxOf t e).owned.testBit i = (boxOf s e).owned.testBit i ∧
        (boxOf t e).done.testBit i = (boxOf s e).done.testBit i)) ∧
    (v.testBit 0 = true → (boxOf s e).queue = [] → ∃ t, exec (.mbNotifyFree e v) s = .next t ∧
      boxOf t e = { boxOf s e with notifyPending := false } ∧ t = { s with mgmt := { s.mgmt with boxes := t.mgmt.boxes } }) ∧
    (∀ b r, v.testBit 0 = true → (boxOf s e).queue = .frame b :: r → ∃ t, exec (.mbNotifyFree e v) s = .next t ∧
      boxOf t e = { boxOf s e with notifyPending := true, notifyFrame := b, queue := r } ∧
      FnsKept s t ∧ t = { s with mgmt := { s.mgmt with boxes := t.mgmt.boxes }, fns := t.fns, out := t.out }) ∧
    (∀ sid txid r x n, v.testBit 0 = true → (boxOf s e).queue = .note sid txid :: r → sessionOf s sid = some x →
      x.notes.find? (fun n => n.txid == txid) = some n → ∃ t y m, exec (.mbNotifyFree e v) s = .next t ∧
        sessionOf t sid = some y ∧ y.txSeq = x.txSeq + 1 ∧ m ∈ y.notes ∧ m.txid = txid ∧ m.sent = true ∧
        boxOf t e = { boxOf s e with notifyPending := true, notifyFrame := noteFrame y m, queue := r } ∧ t.dict = s.dict)) ∧
  (∀ s : State, s.power.good = true → s.nv.dirty = true → ∃ t c, exec .persistCommit s = .next t ∧
    newerCopy t.nv = some c ∧ c.nums = (persistedView t).dict.filter (fun e => keyPersists e.1) ∧
    c.blobs = (persistedView s).blobs.filter (fun e => keyPersists e.1) ∧ t.nv.dirty = false ∧ t.nv.repair = s.nv.repair ∧
    rd t oPERSIST_COMMITS 0 = satAdd max32 (rd s oPERSIST_COMMITS 0) 1 ∧ SameObjs [objKey oPERSIST_COMMITS 0] s t ∧
    (t.nv.copyA = s.nv.copyA ∨ t.nv.copyB = s.nv.copyB) ∧ t = { s with dict := t.dict, nv := t.nv }) ∧
  (∀ (s : State) (src : Src) (d : List Byte),
    (stestoUp s = true → exec (.neighbourSolicitation src (linkLocal s)) s =
      .next { s with out := .advert src (linkLocal s) :: s.out }) ∧
    (d ≠ linkLocal s → exec (.neighbourSolicitation src d) s = .next s) ∧
    (stestoUp s = true → exec (.icmpv6Echo src d) s = .next { s with out := .echo src d :: s.out }) ∧
    (stestoUp s = false → exec (.icmpv6Echo src d) s = .next s) ∧
    (∀ c, s.power.good = true → s.clock.phyOn = true → s.pins.resetLow = false → s.mgmt.silent = false →
      ∃ t, exec (.duplicateAddressDetection c) s = .next t ∧ t.mgmt.addressOk = !c ∧
        (rd t oMGMT_LINK 0).testBit 1 = c ∧ (∀ i, i ≠ 1 → (rd t oMGMT_LINK 0).testBit i = (rd s oMGMT_LINK 0).testBit i) ∧
        SameObjs [objKey oMGMT_LINK 0] s t ∧ t.out = .probe :: s.out)) ∧
  (∀ s : State, mgmtRail s = true →
    let loads := fun (t : State) (code : Nat) (d : Nat) => t.jtag = { s.jtag with ir := code, hold := none } ∧
      t.out = .tdo d :: s.out ∧ t = { s with jtag := t.jtag, out := t.out }
    let levels := fun t : State => pinLevels { t with jtag := { t.jtag with scan := s.jtag.scan } }
    let scans := fun (t : State) (bits : List Bool) => t.out = .tdo (levels t) :: s.out ∧
      (bits = [] → t.jtag.scan = s.jtag.scan) ∧
      (bits ≠ [] → t.jtag.scan = shiftIn (BitVec.ofNat 10 (levels t)) bits) ∧
      (bits.length = 10 → ∀ i, i < 10 → t.jtag.scan.getLsbD i = bits.getD i false) ∧ t = { s with jtag := t.jtag, out := t.out }
    let takes := fun (t : State) (code : Nat) => t.jtag.ir = code ∧ t.jtag.control = true ∧
      t.jtag.hold = (match s.jtag.hold with
        | some h => some h
        | none => holdAt s) ∧ t = { s with jtag := t.jtag, out := t.out }
    (∃ t w, exec .idcode s = .next t ∧ loads t 2 w ∧ field w 0 0 = 1 ∧ field w 11 1 = 0x2E5 ∧ field w 27 12 = 0x4E0D) ∧
    (∀ code, 5 ≤ code → ∃ t, exec (.bypass code) s = .next t ∧ loads t code 0) ∧
    (∀ bits, ∃ t, exec (.samplePreload bits) s = .next t ∧ scans t bits ∧ t.jtag.ir = 1 ∧ t.jtag.hold = none ∧
      t.jtag.control = s.jtag.control) ∧
    (rd s oBOOT_STAGE 0 < 13 →
      (∀ bits, ∃ t, exec (.extest bits) s = .next t ∧ takes t 0 ∧ scans t bits ∧ alertN t = !(t.jtag.scan.getLsbD 9)) ∧
      (∃ t, exec .clamp s = .next t ∧ takes t 3 ∧ t.jtag.scan = s.jtag.scan ∧ t.out = .tdo 0 :: s.out ∧
        alertN t = !(s.jtag.scan.getLsbD 9)) ∧
      (∃ t, exec .highz s = .next t ∧ takes t 4 ∧ t.jtag.scan = s.jtag.scan ∧ t.out = .tdo 0 :: s.out ∧ alertN t = false)) ∧
    (13 ≤ rd s oBOOT_STAGE 0 → (∀ bits, ∃ t, exec (.extest bits) s = .next t ∧ loads t 0 0) ∧
      (∃ t, exec .clamp s = .next t ∧ loads t 3 0) ∧ (∃ t, exec .highz s = .next t ∧ loads t 4 0)) ∧
    (∀ clk id, s.jtag.control = false → ∃ t, exec (.testLogicReset clk id) s = .next t ∧ t.jtag.ir = 2 ∧
      t.jtag.hold = none ∧ t = { s with jtag := t.jtag }) ∧
    (∀ clk id, s.jtag.control = true → s.power.good = true → s.power.shutdown = false → s.pins.resetLow = false → id < 32 → copiesOk s.nv = true →
      ∃ t, exec (.testLogicReset clk id) s = .next t ∧ t.jtag.ir = 2 ∧ t.jtag.control = false ∧ t.jtag.hold = none ∧
        rd t oBOOT_STAGE 0 = 4 ∧ rd t oRESET_CAUSE 0 = 3 ∧ rd t oPLCA_NODE_ID 0 = id ∧ t.power.compute = false ∧
        t.mgmt.sessions = []))

/-- CORE_CHECK of a running core with a spare left on its die: a contained error, its dispatched and parked operations end
ABANDONED, and its mapping begins, counted in REGR_PAUSES where a partition owns the core; PLANNED_RETIREMENT_PROCEED begins
the mapping of a retiring core with nothing on it. SPARE_MAPPING_DONE puts the core on the spare, its store zero, and lets a
reset of its partition that waited go on; with no spare that passes, it is retired for good. CE_LIMIT is logged; of a running
core, a Pool bank or a row it begins the repair, of a row whose bank has no spare row left (which rows those are: log 69) the
move of its pseudo-channel. POOL_BANK_COPY_DONE (reads that waited for the bank go on), DRAM_ROW_REPAIR_DONE,
PSEUDO_CHANNEL_MOVE_DONE (of a move under way, or of a channel that failed a retraining: log 69; the channel's lines that
could not be read, its operand, become poisoned: log 52) and PC_RELAY_DONE end their repair with an entry of the repair map,
changing no byte. POOL_UE poisons the line of Pool or core store and counts a contained error; a Pool bank's repair begins, or
POOL_DEGRADED is set. SPAWN_UE resets the owning partition. FATAL_STOP counts itself, commits, tells the endpoints, loses the
compute side and holds ALERT_N. (Actions and locations logged: log 51.) -/
def Obligations.RegrowthRepairs : Prop :=
  (∀ (s : State) (c : Nat), opsOk s.weir = true →
    let spare := mappingsOn s (c / 64) < spareCount s (c / 64)
    let maps := fun t : State => coreOf t c = { mapping := true, logged := (coreOf t c).logged } ∧ hasJob t (.core c) = true ∧
      rd t oREGR_PAUSES 0 = (if (corePart s c).isSome then satAdd max32 (rd s oREGR_PAUSES 0) 1 else rd s oREGR_PAUSES 0)
    (coreRuns s c = true → spare → ∃ t, exec (.coreCheck c) s = .next t ∧ maps t ∧
      (∀ o ∈ s.weir.ops, o.core = some c → (o.phase = .dispatched ∨ o.phase = .parked) → EndedWith t o.id stABANDONED) ∧
      (∀ o ∈ s.weir.ops, o.core ≠ some c → opOf? t o.id = some o) ∧
      rd t oCONTAINED_COUNT 0 = satAdd max32 (rd s oCONTAINED_COUNT 0) 1) ∧
    (coreRuns s c = true → ¬spare → ∃ t, exec (.coreCheck c) s = .next t ∧ coreRetired t c = true) ∧
    ((coreOf s c).retiring = true → onCore s c (fun _ => true) = [] → spare →
      ∃ t, exec (.plannedRetirementProceed c) s = .next t ∧ maps t ∧ t.weir = s.weir ∧ t.mem = s.mem) ∧
    (coreRuns s c = true → (coreOf s c).retiring = false → ∃ t, exec (.ceLimit (.core c)) s = .next t ∧
      (coreOf t c).retiring = true ∧ (∀ o ∈ t.weir.ops, o.core = some c → o.phase ≠ .placed) ∧
      ((coreOf s c).load ≠ some .coreReset → t.mem = s.mem)) ∧
    (coreRuns s c = true → ∃ t e, exec (.ceLimit (.core c)) s = .next t ∧ e ∈ t.regr.openEntries ∧ e.cause = 0x13 ∧ e.location = c ∧
      ((coreOf s c).retiring = true → t.weir = s.weir ∧ t.mem = s.mem)) ∧
    (s.regr.jobs.contains (.core c) = true → ∀ ph, spareChoice s (homeQuad c) = some ph →
      ∃ t, exec (.spareMappingDone c []) s = .next t ∧ physOf t c = ph ∧ t.nv.repair = s.nv.repair ++ [.core c ph] ∧
        t.regr.jobs.contains (.core c) = false ∧
        ((∀ p, corePart s c = some p → (partOf s p).resetting = false) → t.weir = s.weir ∧ coreOf t c = {} ∧
          (c < 128 → ∀ a, a < 0x600000 → readByte t (coreBase c + a) = 0)) ∧
        (∀ p, corePart s c = some p → (partOf s p).resetting = true → paused t p = false →
          ∀ o ∈ t.weir.ops, o.part = p → o.phase = .dispatched)) ∧
    (s.regr.jobs.contains (.core c) = true → ∀ bad,
      (passSpare bad (homeQuad c) 4 (endJob s (.core c))).2 = none →
      ∃ t, exec (.spareMappingDone c bad) s = .next t ∧ coreRetired t c = true)) ∧
  (∀ (s : State) (line : Nat), s.power.compute = true → line % 256 = 0 → addressLaidOut line = true →
    let ue := fun t : State => poisoned t line = true ∧ t.power.alertPulse = true ∧ t.weir = s.weir ∧
      rd t oCONTAINED_COUNT 0 = satAdd max32 (rd s oCONTAINED_COUNT 0) 1 ∧ (∀ a, readByte t a = readByte s a)
    let b := poolOff line / 2 ^ 21
    (poisoned s line = false → space line = 1 → ∃ t, exec (.poolUe line) s = .next t ∧ ue t ∧
      (bankSpares s (poolDie line) ≠ [] → bankBusy t (poolDie line) b = true) ∧
      (bankSpares s (poolDie line) = [] → bankBusy s (poolDie line) b = false →
        rd t oPOOL_DEGRADED (poolDie line + 1) = 1)) ∧
    (poisoned s line = false → space line = 2 → ∃ t, exec (.poolUe line) s = .next t ∧ ue t ∧ t.regr.jobs = s.regr.jobs) ∧
    ((poisoned s line = true ∨ space line = 0 ∨ space line = 3) → exec (.poolUe line) s = .next s) ∧
    (space line = 0 → ∃ t, exec (.ceLimit (.row line)) s = .next t ∧ t.mem = s.mem ∧ t.weir = s.weir ∧
      (hasJob s (.row (rowOf line)) = true ∨ bankRows s line < 4 → hasJob t (.row (rowOf line)) = true) ∧
      (hasJob s (.row (rowOf line)) = false → 4 ≤ bankRows s line → canMove s (dramStack line) (rowChannel s line) = true →
        ∃ run, hasJob t (.move (dramStack line) (rowChannel s line) run) = true))) ∧
  (∀ (s : State) (d b : Nat), s.power.compute = true → d < 2 → b < 48 → bankSpares s d ≠ [] →
    ∃ t, exec (.ceLimit (.bank d b)) s = .next t ∧ bankBusy t d b = true ∧ t.mem = s.mem ∧ t.weir = s.weir) ∧
  (∀ (s : State) (d b sp : Nat), s.regr.jobs.find? (fun j => match j with
      | .bank d' b' _ => d' == d && b' == b
      | _ => false) = some (.bank d b sp) → RowsSettled s → ∃ t, exec (.poolBankCopyDone d b) s = .next t ∧
    AskedOn { s with nv := { s.nv with repair := s.nv.repair ++ [.bank d b sp] }, regr := { s.regr with jobs := t.regr.jobs } } t ∧
    (s.mem.reads = [] → t.weir = s.weir ∧ t.mem = s.mem) ∧ t.regr.jobs.contains (.bank d b sp) = false) ∧
  (∀ (s : State) (line : Nat), s.regr.jobs.contains (.row (rowOf line)) = true →
    ∃ t, exec (.dramRowRepairDone line) s = .next t ∧
      t.nv.repair = s.nv.repair ++ [.row (rowOf line) (rowChannel s line)] ∧
      t.regr.jobs.contains (.row (rowOf line)) = false ∧ t.mem = s.mem ∧ t.weir = s.weir ∧
      rd t oROW_SPARE_FREE (dramStack line + 1) = rd s oROW_SPARE_FREE (dramStack line + 1) - 1 ∧
      SameObjs [objKey oROW_SPARE_FREE (dramStack line + 1)] s t) ∧
  (∀ (s : State) (k ch : Nat) (l : List Nat) (b : Bool),
    let moves := ∀ sp rest, idleChannels s k = sp :: rest →
      ∃ t, exec (.pseudoChannelMoveDone k ch l b) s = .next t ∧ t.nv.repair = s.nv.repair ++ [.channel k ch sp] ∧
        (∀ x, poisoned t x = true ↔ poisoned s x = true ∨
          (x ∈ l.map lineOf ∧ space x = 0 ∧ dramStack x = k ∧ rowChannel s x = ch)) ∧
        (∀ j, moveOf s k ch = some j → t.regr.jobs.contains j = false) ∧ (∀ a, readByte t a = readByte s a) ∧ t.weir = s.weir
    let fails := b = true ∧ channelServes s k ch = true ∧ movesOn s k < (idleChannels s k).length ∧ s.mgmt.silent = false
    (moveOf s k ch ≠ none → moves) ∧ (moveOf s k ch = none → fails → moves) ∧
    (moveOf s k ch = none → ¬fails → exec (.pseudoChannelMoveDone k ch l b) s = .next s)) ∧
  (∀ (s : State) (k ch : Nat), s.regr.jobs.find? (fun j => match j with
      | .relay k' _ => k' == k
      | _ => false) = some (.relay k ch) → ch < 34 → ∃ t, exec (.pcRelayDone k) s = .next t ∧
    t.nv.repair = s.nv.repair ++ [.channelRetired k ch] ∧ ch ∈ deadChannels t k ∧
    t.regr.jobs.contains (.relay k ch) = false ∧ t.weir = s.weir ∧ t.mem = s.mem) ∧
  (∀ (s : State) (p : Nat), p < 128 → rd s oPART_STATE (p + 1) = 1 → opsOk s.weir = true →
    ∃ t, exec (.spawnUe p) s = .next t ∧ rd t oPART_STATE (p + 1) = 2 ∧ (partOf t p).resetting = true ∧
      (paused s p = false → ∀ o ∈ t.weir.ops, o.part = p → o.phase = .dispatched ∧
        ∃ c, o.core = some c ∧ ((coreOf s c).wave = true ∨ (coreOf s c).load ≠ none)) ∧
      rd t oCONTAINED_COUNT 0 = satAdd max32 (rd s oCONTAINED_COUNT 0) 1) ∧
  (∀ (s : State) (cause : Nat), s.power.compute = true → 0x50 ≤ cause → cause ≤ 0x52 →
    ∃ t, exec (.fatalStop cause) s = .next t ∧ ComputeGone s t ∧ t.power.fatal = true ∧ t.power.shutdown = true ∧
      Alerts t ∧ rd t oFATAL_COUNT 0 = satAdd max32 (rd s oFATAL_COUNT 0) 1 ∧ t.nv.dirty = false ∧
      ∀ e, e < 2 → epFitted s e = true → Emit.aer e ∈ t.out)
end

