-- ==== Sys2Proof/Laws/Frame.lean ====
section
/-! SUPPORT. Bytes of numbers, flits and frames: what is put together is what is taken apart. -/

namespace Sys2Proof.Machine

open Sys2Proof

@[simp] theorem leBytes_length (n v : Nat) : (leBytes n v).length = n := by
  induction n generalizing v with
  | zero => rfl
  | succ n ih => simp [leBytes, ih]

/-- The bytes of a number spell it, modulo their range. -/
@[simp] theorem leNat_leBytes (n v : Nat) : leNat (leBytes n v) = v % 256 ^ n := by
  induction n generalizing v with
  | zero => simp [leBytes, leNat, Nat.mod_one]
  | succ n ih =>
    simp only [leBytes, leNat, ih, BitVec.toNat_ofNat]
    have h : (256 : Nat) ^ (n + 1) = 256 * 256 ^ n := by rw [Nat.pow_succ, Nat.mul_comm]
    rw [h, Nat.mod_mul]

@[simp] theorem slice_length (b : List Byte) (off n : Nat) : (slice b off n).length = n := by simp [slice]

/-- A slice that begins where the second of two lists begins is a slice of the second. -/
theorem slice_append_right (a b : List Byte) (n : Nat) : slice (a ++ b) a.length n = slice b 0 n := by
  unfold slice
  refine List.map_congr_left (fun i _ => ?_)
  rw [List.getD_append_right _ _ _ _ (Nat.le_add_right _ _)]
  congr 1
  omega

/-- A slice of a whole list is the list. -/
theorem slice_self (b : List Byte) : slice b 0 b.length = b := by
  refine List.ext_getElem (by simp) (fun i h _ => ?_)
  have hi : i < b.length := by simpa using h
  simp [slice, hi]

theorem flitBytes_length (ftype vc seq ackSeq : Nat) (nak : Bool) (cred0 cred1 : Nat) (payload : List Byte) :
    (flitBytes ftype vc seq ackSeq nak cred0 cred1 payload).length = 256 := by
  simp [flitBytes]

/-- Bytes followed by their CRC pass the check. -/
theorem flitOk_append (b : List Byte) (h : b.length = 248) : flitOk (b ++ leBytes 8 (crc64 0 b).toNat) = true := by
  have h1 : (b ++ leBytes 8 (crc64 0 b).toNat).take 248 = b := by rw [← h]; exact List.take_left
  have h2 : numAt (b ++ leBytes 8 (crc64 0 b).toNat) 248 8 = (crc64 0 b).toNat := by
    have h3 := slice_self (leBytes 8 (crc64 0 b).toNat)
    rw [leBytes_length] at h3
    have hlt : (crc64 0 b).toNat < 256 ^ 8 := lt_of_lt_of_le (crc64 0 b).isLt (by norm_num)
    unfold numAt
    rw [← h, slice_append_right, h3, leNat_leBytes, Nat.mod_eq_of_lt hlt]
  unfold flitOk
  rw [h1, h2]
  simp [h]

/-- A flit put together passes its own CRC. -/
theorem flitOk_flitBytes (ftype vc seq ackSeq : Nat) (nak : Bool) (cred0 cred1 : Nat) (payload : List Byte) :
    flitOk (flitBytes ftype vc seq ackSeq nak cred0 cred1 payload) = true :=
  flitOk_append _ (by simp)

/-- A slice as long as the first of two lists, from its start, is the first. -/
theorem slice_append_left (a b : List Byte) : slice (a ++ b) 0 a.length = a := by
  refine List.ext_getElem (by simp) (fun i h _ => ?_)
  have hi : i < a.length := by simpa using h
  simp only [slice, List.getElem_map, List.getElem_range, Nat.zero_add]
  rw [List.getD_append _ _ _ _ hi, List.getD_eq_getElem _ _ hi]

/-- The 16 bytes of a frame's header. -/
def frameHeader (ftype sid fseq txid n : Nat) : List Byte :=
  leBytes 1 1 ++ leBytes 1 ftype ++ leBytes 2 sid ++ leBytes 4 fseq ++ leBytes 2 txid ++ leBytes 2 n ++ leBytes 4 0

/-- What a frame with fields in range is taken apart into, whatever follows its payload. -/
theorem parseFrame_frameBytes {ftype sid fseq txid : Nat} {p : List Byte} (mac : List Byte) (ht : ftype < 256) (hs : sid < 65536)
    (hf : fseq < 2 ^ 32) (hx : txid < 65536) (hp : p.length < 65536) :
    parseFrame (frameBytes ftype sid fseq txid p ++ mac) =
      { ver := 1, ftype := ftype, sid := sid, fseq := fseq, txid := txid, len := p.length, reserved := 0, payload := p,
        mac := mac, covered := frameBytes ftype sid fseq txid p } := by
  have hb : frameBytes ftype sid fseq txid p ++ mac = frameHeader ftype sid fseq txid p.length ++ (p ++ mac) := by
    simp [frameBytes, frameHeader]
  have hl : (frameBytes ftype sid fseq txid p).length = 16 + p.length := by
    simp [frameBytes]; omega
  have h0 : numAt (frameBytes ftype sid fseq txid p ++ mac) 0 1 = leNat (leBytes 1 1) := by rw [hb]; rfl
  have h1 : numAt (frameBytes ftype sid fseq txid p ++ mac) 1 1 = leNat (leBytes 1 ftype) := by rw [hb]; rfl
  have h2 : numAt (frameBytes ftype sid fseq txid p ++ mac) 2 2 = leNat (leBytes 2 sid) := by rw [hb]; rfl
  have h4 : numAt (frameBytes ftype sid fseq txid p ++ mac) 4 4 = leNat (leBytes 4 fseq) := by rw [hb]; rfl
  have h8 : numAt (frameBytes ftype sid fseq txid p ++ mac) 8 2 = leNat (leBytes 2 txid) := by rw [hb]; rfl
  have h10 : numAt (frameBytes ftype sid fseq txid p ++ mac) 10 2 = leNat (leBytes 2 p.length) := by rw [hb]; rfl
  have h12 : numAt (frameBytes ftype sid fseq txid p ++ mac) 12 4 = leNat (leBytes 4 0) := by rw [hb]; rfl
  have hh : (frameHeader ftype sid fseq txid p.length).length = 16 := rfl
  have hpay : slice (frameBytes ftype sid fseq txid p ++ mac) 16 p.length = p := by
    have h := slice_append_right (frameHeader ftype sid fseq txid p.length) (p ++ mac) p.length
    rw [hh, slice_append_left] at h
    rw [hb]; exact h
  rw [leNat_leBytes] at h0 h1 h2 h4 h8 h10 h12
  rw [Nat.mod_eq_of_lt (by simpa using ht)] at h1
  rw [Nat.mod_eq_of_lt (by simpa using hs)] at h2
  rw [Nat.mod_eq_of_lt (by simpa using hf)] at h4
  rw [Nat.mod_eq_of_lt (by simpa using hx)] at h8
  rw [Nat.mod_eq_of_lt (by simpa using hp)] at h10
  unfold parseFrame
  dsimp only
  rw [h0, h1, h2, h4, h8, h10, h12, hpay, ← hl]
  simp

/-! ### The trailer -/

theorem shaTurn_length (v w : List W32) (key : W32) (h : v.length = 8) : (shaTurn v w key).length = 8 := by
  simp [shaTurn, h]

theorem shaTurns_length (keys v w : List W32) (h : v.length = 8) : (shaTurns keys v w).length = 8 := by
  induction keys generalizing v w with
  | nil => exact h
  | cons key rest ih => exact ih _ _ (shaTurn_length v w key h)

theorem shaBlocks_length (n : Nat) (h : List W32) (b : List Byte) (hl : h.length = 8) : (shaBlocks n h b).length = 8 := by
  induction n generalizing h b with
  | zero => exact hl
  | succ n ih => exact ih _ _ (by simp [shaTurns_length _ _ _ hl, hl])

/-- A digest is 32 bytes. -/
theorem sha256_length (b : List Byte) : (sha256 b).length = 32 := by
  unfold sha256
  simp [List.length_flatMap, shaBlocks_length _ _ _ (show shaStart.length = 8 from rfl)]

theorem hmac_length (key b : List Byte) : (hmac key b).length = 32 := sha256_length _

theorem frameMac_length (key b : List Byte) : (frameMac key b).length = 16 := by simp [frameMac, hmac_length]

/-- A frame sealed under a session's key is sealed in that session. -/
theorem sealed_sealFrame {s : State} {src : Src} {x : Session} {ftype fseq txid : Nat} {p : List Byte}
    (hh : heard s src = true) (hx : sessionOf s x.sid = some x) (hs : x.sid ≠ 0) (hs' : x.sid < 65536) (hf : fseq < 2 ^ 32)
    (ht : txid < 65536) (hp : p.length ≤ 480) (hd : ftypeDefined ftype = true) (hb : ftype < 256) (h5 : ftype ≠ 0x05)
    (hc : clientPayload ftype p.length = true) (hr : numAt p 3 1 = 0) : Sealed s src (sealFrame x.key ftype x.sid fseq txid p) ftype x := by
  have hpf := parseFrame_frameBytes (p := p) (frameMac x.key (frameBytes ftype x.sid fseq txid p)) hb hs' hf ht (by omega)
  have hl : (frameBytes ftype x.sid fseq txid p).length = 16 + p.length := by simp [frameBytes]; omega
  have hsf : sealFrame x.key ftype x.sid fseq txid p =
    frameBytes ftype x.sid fseq txid p ++ frameMac x.key (frameBytes ftype x.sid fseq txid p) := rfl
  rw [hsf]
  refine ⟨⟨hh, ?_, by rw [hpf], by rw [hpf]; exact hc⟩, by rw [hpf]; exact hx, by rw [hpf]; exact hs, by rw [hpf]⟩
  unfold frameWellFormed
  rw [hpf]
  simp [hl, frameMac_length, hd, hp, hasTrailer, hs, h5, payloadClear, hr]

end Sys2Proof.Machine
end

