-- ==== Sys2Proof/Laws/State.lean ====
section
/-! SUPPORT. What each update of State leaves in each field: one lemma per field per update, true by computation. -/

namespace Sys2Proof.Machine

open Sys2Proof

/-! ### `wr` -/

@[simp] theorem wr_pending (s : State) (o sub v : Nat) : (wr s o sub v).pending = s.pending := rfl
@[simp] theorem wr_pins (s : State) (o sub v : Nat) : (wr s o sub v).pins = s.pins := rfl
@[simp] theorem wr_power (s : State) (o sub v : Nat) : (wr s o sub v).power = s.power := rfl
@[simp] theorem wr_clock (s : State) (o sub v : Nat) : (wr s o sub v).clock = s.clock := rfl
@[simp] theorem wr_therm (s : State) (o sub v : Nat) : (wr s o sub v).therm = s.therm := rfl
@[simp] theorem wr_dict (s : State) (o sub v : Nat) : (wr s o sub v).dict = tabPut s.dict (objKey o sub) v := rfl
@[simp] theorem wr_blobs (s : State) (o sub v : Nat) : (wr s o sub v).blobs = s.blobs := rfl
@[simp] theorem wr_staged (s : State) (o sub v : Nat) : (wr s o sub v).staged = s.staged := rfl
@[simp] theorem wr_stagedBlobs (s : State) (o sub v : Nat) : (wr s o sub v).stagedBlobs = s.stagedBlobs := rfl
@[simp] theorem wr_nv (s : State) (o sub v : Nat) : (wr s o sub v).nv = s.nv := rfl
@[simp] theorem wr_mgmt (s : State) (o sub v : Nat) : (wr s o sub v).mgmt = s.mgmt := rfl
@[simp] theorem wr_fw (s : State) (o sub v : Nat) : (wr s o sub v).fw = s.fw := rfl
@[simp] theorem wr_iqs (s : State) (o sub v : Nat) : (wr s o sub v).iqs = s.iqs := rfl
@[simp] theorem wr_cqs (s : State) (o sub v : Nat) : (wr s o sub v).cqs = s.cqs := rfl
@[simp] theorem wr_parts (s : State) (o sub v : Nat) : (wr s o sub v).parts = s.parts := rfl
@[simp] theorem wr_eps (s : State) (o sub v : Nat) : (wr s o sub v).eps = s.eps := rfl
@[simp] theorem wr_fns (s : State) (o sub v : Nat) : (wr s o sub v).fns = s.fns := rfl
@[simp] theorem wr_hostHeld (s : State) (o sub v : Nat) : (wr s o sub v).hostHeld = s.hostHeld := rfl
@[simp] theorem wr_outRecords (s : State) (o sub v : Nat) : (wr s o sub v).outRecords = s.outRecords := rfl
@[simp] theorem wr_weir (s : State) (o sub v : Nat) : (wr s o sub v).weir = s.weir := rfl
@[simp] theorem wr_cores (s : State) (o sub v : Nat) : (wr s o sub v).cores = s.cores := rfl
@[simp] theorem wr_mem (s : State) (o sub v : Nat) : (wr s o sub v).mem = s.mem := rfl
@[simp] theorem wr_spawn (s : State) (o sub v : Nat) : (wr s o sub v).spawn = s.spawn := rfl
@[simp] theorem wr_fabric (s : State) (o sub v : Nat) : (wr s o sub v).fabric = s.fabric := rfl
@[simp] theorem wr_regr (s : State) (o sub v : Nat) : (wr s o sub v).regr = s.regr := rfl
@[simp] theorem wr_jtag (s : State) (o sub v : Nat) : (wr s o sub v).jtag = s.jtag := rfl
@[simp] theorem wr_nowUs (s : State) (o sub v : Nat) : (wr s o sub v).nowUs = s.nowUs := rfl
@[simp] theorem wr_out (s : State) (o sub v : Nat) : (wr s o sub v).out = s.out := rfl

/-! ### `wrP` -/

@[simp] theorem wrP_pending (s : State) (o sub v : Nat) : (wrP s o sub v).pending = s.pending := rfl
@[simp] theorem wrP_pins (s : State) (o sub v : Nat) : (wrP s o sub v).pins = s.pins := rfl
@[simp] theorem wrP_power (s : State) (o sub v : Nat) : (wrP s o sub v).power = s.power := rfl
@[simp] theorem wrP_clock (s : State) (o sub v : Nat) : (wrP s o sub v).clock = s.clock := rfl
@[simp] theorem wrP_therm (s : State) (o sub v : Nat) : (wrP s o sub v).therm = s.therm := rfl
@[simp] theorem wrP_dict (s : State) (o sub v : Nat) : (wrP s o sub v).dict = tabPut s.dict (objKey o sub) v := rfl
@[simp] theorem wrP_blobs (s : State) (o sub v : Nat) : (wrP s o sub v).blobs = s.blobs := rfl
@[simp] theorem wrP_staged (s : State) (o sub v : Nat) : (wrP s o sub v).staged = s.staged := rfl
@[simp] theorem wrP_stagedBlobs (s : State) (o sub v : Nat) : (wrP s o sub v).stagedBlobs = s.stagedBlobs := rfl
@[simp] theorem wrP_nv (s : State) (o sub v : Nat) : (wrP s o sub v).nv = { s.nv with dirty := true } := rfl
@[simp] theorem wrP_mgmt (s : State) (o sub v : Nat) : (wrP s o sub v).mgmt = s.mgmt := rfl
@[simp] theorem wrP_fw (s : State) (o sub v : Nat) : (wrP s o sub v).fw = s.fw := rfl
@[simp] theorem wrP_iqs (s : State) (o sub v : Nat) : (wrP s o sub v).iqs = s.iqs := rfl
@[simp] theorem wrP_cqs (s : State) (o sub v : Nat) : (wrP s o sub v).cqs = s.cqs := rfl
@[simp] theorem wrP_parts (s : State) (o sub v : Nat) : (wrP s o sub v).parts = s.parts := rfl
@[simp] theorem wrP_eps (s : State) (o sub v : Nat) : (wrP s o sub v).eps = s.eps := rfl
@[simp] theorem wrP_fns (s : State) (o sub v : Nat) : (wrP s o sub v).fns = s.fns := rfl
@[simp] theorem wrP_hostHeld (s : State) (o sub v : Nat) : (wrP s o sub v).hostHeld = s.hostHeld := rfl
@[simp] theorem wrP_outRecords (s : State) (o sub v : Nat) : (wrP s o sub v).outRecords = s.outRecords := rfl
@[simp] theorem wrP_weir (s : State) (o sub v : Nat) : (wrP s o sub v).weir = s.weir := rfl
@[simp] theorem wrP_cores (s : State) (o sub v : Nat) : (wrP s o sub v).cores = s.cores := rfl
@[simp] theorem wrP_mem (s : State) (o sub v : Nat) : (wrP s o sub v).mem = s.mem := rfl
@[simp] theorem wrP_spawn (s : State) (o sub v : Nat) : (wrP s o sub v).spawn = s.spawn := rfl
@[simp] theorem wrP_fabric (s : State) (o sub v : Nat) : (wrP s o sub v).fabric = s.fabric := rfl
@[simp] theorem wrP_regr (s : State) (o sub v : Nat) : (wrP s o sub v).regr = s.regr := rfl
@[simp] theorem wrP_jtag (s : State) (o sub v : Nat) : (wrP s o sub v).jtag = s.jtag := rfl
@[simp] theorem wrP_nowUs (s : State) (o sub v : Nat) : (wrP s o sub v).nowUs = s.nowUs := rfl
@[simp] theorem wrP_out (s : State) (o sub v : Nat) : (wrP s o sub v).out = s.out := rfl

/-! ### `wrBytes` -/

@[simp] theorem wrBytes_pending (s : State) (o sub : Nat) (b : List Byte) : (wrBytes s o sub b).pending = s.pending := rfl
@[simp] theorem wrBytes_pins (s : State) (o sub : Nat) (b : List Byte) : (wrBytes s o sub b).pins = s.pins := rfl
@[simp] theorem wrBytes_power (s : State) (o sub : Nat) (b : List Byte) : (wrBytes s o sub b).power = s.power := rfl
@[simp] theorem wrBytes_clock (s : State) (o sub : Nat) (b : List Byte) : (wrBytes s o sub b).clock = s.clock := rfl
@[simp] theorem wrBytes_therm (s : State) (o sub : Nat) (b : List Byte) : (wrBytes s o sub b).therm = s.therm := rfl
@[simp] theorem wrBytes_dict (s : State) (o sub : Nat) (b : List Byte) : (wrBytes s o sub b).dict = s.dict := rfl
@[simp] theorem wrBytes_blobs (s : State) (o sub : Nat) (b : List Byte) : (wrBytes s o sub b).blobs = tabPut s.blobs (objKey o sub) b := rfl
@[simp] theorem wrBytes_staged (s : State) (o sub : Nat) (b : List Byte) : (wrBytes s o sub b).staged = s.staged := rfl
@[simp] theorem wrBytes_stagedBlobs (s : State) (o sub : Nat) (b : List Byte) : (wrBytes s o sub b).stagedBlobs = s.stagedBlobs := rfl
@[simp] theorem wrBytes_nv (s : State) (o sub : Nat) (b : List Byte) : (wrBytes s o sub b).nv = s.nv := rfl
@[simp] theorem wrBytes_mgmt (s : State) (o sub : Nat) (b : List Byte) : (wrBytes s o sub b).mgmt = s.mgmt := rfl
@[simp] theorem wrBytes_fw (s : State) (o sub : Nat) (b : List Byte) : (wrBytes s o sub b).fw = s.fw := rfl
@[simp] theorem wrBytes_iqs (s : State) (o sub : Nat) (b : List Byte) : (wrBytes s o sub b).iqs = s.iqs := rfl
@[simp] theorem wrBytes_cqs (s : State) (o sub : Nat) (b : List Byte) : (wrBytes s o sub b).cqs = s.cqs := rfl
@[simp] theorem wrBytes_parts (s : State) (o sub : Nat) (b : List Byte) : (wrBytes s o sub b).parts = s.parts := rfl
@[simp] theorem wrBytes_eps (s : State) (o sub : Nat) (b : List Byte) : (wrBytes s o sub b).eps = s.eps := rfl
@[simp] theorem wrBytes_fns (s : State) (o sub : Nat) (b : List Byte) : (wrBytes s o sub b).fns = s.fns := rfl
@[simp] theorem wrBytes_hostHeld (s : State) (o sub : Nat) (b : List Byte) : (wrBytes s o sub b).hostHeld = s.hostHeld := rfl
@[simp] theorem wrBytes_outRecords (s : State) (o sub : Nat) (b : List Byte) : (wrBytes s o sub b).outRecords = s.outRecords := rfl
@[simp] theorem wrBytes_weir (s : State) (o sub : Nat) (b : List Byte) : (wrBytes s o sub b).weir = s.weir := rfl
@[simp] theorem wrBytes_cores (s : State) (o sub : Nat) (b : List Byte) : (wrBytes s o sub b).cores = s.cores := rfl
@[simp] theorem wrBytes_mem (s : State) (o sub : Nat) (b : List Byte) : (wrBytes s o sub b).mem = s.mem := rfl
@[simp] theorem wrBytes_spawn (s : State) (o sub : Nat) (b : List Byte) : (wrBytes s o sub b).spawn = s.spawn := rfl
@[simp] theorem wrBytes_fabric (s : State) (o sub : Nat) (b : List Byte) : (wrBytes s o sub b).fabric = s.fabric := rfl
@[simp] theorem wrBytes_regr (s : State) (o sub : Nat) (b : List Byte) : (wrBytes s o sub b).regr = s.regr := rfl
@[simp] theorem wrBytes_jtag (s : State) (o sub : Nat) (b : List Byte) : (wrBytes s o sub b).jtag = s.jtag := rfl
@[simp] theorem wrBytes_nowUs (s : State) (o sub : Nat) (b : List Byte) : (wrBytes s o sub b).nowUs = s.nowUs := rfl
@[simp] theorem wrBytes_out (s : State) (o sub : Nat) (b : List Byte) : (wrBytes s o sub b).out = s.out := rfl

/-! ### `wrBytesP` -/

@[simp] theorem wrBytesP_pending (s : State) (o sub : Nat) (b : List Byte) : (wrBytesP s o sub b).pending = s.pending := rfl
@[simp] theorem wrBytesP_pins (s : State) (o sub : Nat) (b : List Byte) : (wrBytesP s o sub b).pins = s.pins := rfl
@[simp] theorem wrBytesP_power (s : State) (o sub : Nat) (b : List Byte) : (wrBytesP s o sub b).power = s.power := rfl
@[simp] theorem wrBytesP_clock (s : State) (o sub : Nat) (b : List Byte) : (wrBytesP s o sub b).clock = s.clock := rfl
@[simp] theorem wrBytesP_therm (s : State) (o sub : Nat) (b : List Byte) : (wrBytesP s o sub b).therm = s.therm := rfl
@[simp] theorem wrBytesP_dict (s : State) (o sub : Nat) (b : List Byte) : (wrBytesP s o sub b).dict = s.dict := rfl
@[simp] theorem wrBytesP_blobs (s : State) (o sub : Nat) (b : List Byte) : (wrBytesP s o sub b).blobs = tabPut s.blobs (objKey o sub) b := rfl
@[simp] theorem wrBytesP_staged (s : State) (o sub : Nat) (b : List Byte) : (wrBytesP s o sub b).staged = s.staged := rfl
@[simp] theorem wrBytesP_stagedBlobs (s : State) (o sub : Nat) (b : List Byte) : (wrBytesP s o sub b).stagedBlobs = s.stagedBlobs := rfl
@[simp] theorem wrBytesP_nv (s : State) (o sub : Nat) (b : List Byte) : (wrBytesP s o sub b).nv = { s.nv with dirty := true } := rfl
@[simp] theorem wrBytesP_mgmt (s : State) (o sub : Nat) (b : List Byte) : (wrBytesP s o sub b).mgmt = s.mgmt := rfl
@[simp] theorem wrBytesP_fw (s : State) (o sub : Nat) (b : List Byte) : (wrBytesP s o sub b).fw = s.fw := rfl
@[simp] theorem wrBytesP_iqs (s : State) (o sub : Nat) (b : List Byte) : (wrBytesP s o sub b).iqs = s.iqs := rfl
@[simp] theorem wrBytesP_cqs (s : State) (o sub : Nat) (b : List Byte) : (wrBytesP s o sub b).cqs = s.cqs := rfl
@[simp] theorem wrBytesP_parts (s : State) (o sub : Nat) (b : List Byte) : (wrBytesP s o sub b).parts = s.parts := rfl
@[simp] theorem wrBytesP_eps (s : State) (o sub : Nat) (b : List Byte) : (wrBytesP s o sub b).eps = s.eps := rfl
@[simp] theorem wrBytesP_fns (s : State) (o sub : Nat) (b : List Byte) : (wrBytesP s o sub b).fns = s.fns := rfl
@[simp] theorem wrBytesP_hostHeld (s : State) (o sub : Nat) (b : List Byte) : (wrBytesP s o sub b).hostHeld = s.hostHeld := rfl
@[simp] theorem wrBytesP_outRecords (s : State) (o sub : Nat) (b : List Byte) : (wrBytesP s o sub b).outRecords = s.outRecords := rfl
@[simp] theorem wrBytesP_weir (s : State) (o sub : Nat) (b : List Byte) : (wrBytesP s o sub b).weir = s.weir := rfl
@[simp] theorem wrBytesP_cores (s : State) (o sub : Nat) (b : List Byte) : (wrBytesP s o sub b).cores = s.cores := rfl
@[simp] theorem wrBytesP_mem (s : State) (o sub : Nat) (b : List Byte) : (wrBytesP s o sub b).mem = s.mem := rfl
@[simp] theorem wrBytesP_spawn (s : State) (o sub : Nat) (b : List Byte) : (wrBytesP s o sub b).spawn = s.spawn := rfl
@[simp] theorem wrBytesP_fabric (s : State) (o sub : Nat) (b : List Byte) : (wrBytesP s o sub b).fabric = s.fabric := rfl
@[simp] theorem wrBytesP_regr (s : State) (o sub : Nat) (b : List Byte) : (wrBytesP s o sub b).regr = s.regr := rfl
@[simp] theorem wrBytesP_jtag (s : State) (o sub : Nat) (b : List Byte) : (wrBytesP s o sub b).jtag = s.jtag := rfl
@[simp] theorem wrBytesP_nowUs (s : State) (o sub : Nat) (b : List Byte) : (wrBytesP s o sub b).nowUs = s.nowUs := rfl
@[simp] theorem wrBytesP_out (s : State) (o sub : Nat) (b : List Byte) : (wrBytesP s o sub b).out = s.out := rfl

/-! ### `emit` -/

@[simp] theorem emit_pending (s : State) (e : Emit) : (emit s e).pending = s.pending := rfl
@[simp] theorem emit_pins (s : State) (e : Emit) : (emit s e).pins = s.pins := rfl
@[simp] theorem emit_power (s : State) (e : Emit) : (emit s e).power = s.power := rfl
@[simp] theorem emit_clock (s : State) (e : Emit) : (emit s e).clock = s.clock := rfl
@[simp] theorem emit_therm (s : State) (e : Emit) : (emit s e).therm = s.therm := rfl
@[simp] theorem emit_dict (s : State) (e : Emit) : (emit s e).dict = s.dict := rfl
@[simp] theorem emit_blobs (s : State) (e : Emit) : (emit s e).blobs = s.blobs := rfl
@[simp] theorem emit_staged (s : State) (e : Emit) : (emit s e).staged = s.staged := rfl
@[simp] theorem emit_stagedBlobs (s : State) (e : Emit) : (emit s e).stagedBlobs = s.stagedBlobs := rfl
@[simp] theorem emit_nv (s : State) (e : Emit) : (emit s e).nv = s.nv := rfl
@[simp] theorem emit_mgmt (s : State) (e : Emit) : (emit s e).mgmt = s.mgmt := rfl
@[simp] theorem emit_fw (s : State) (e : Emit) : (emit s e).fw = s.fw := rfl
@[simp] theorem emit_iqs (s : State) (e : Emit) : (emit s e).iqs = s.iqs := rfl
@[simp] theorem emit_cqs (s : State) (e : Emit) : (emit s e).cqs = s.cqs := rfl
@[simp] theorem emit_parts (s : State) (e : Emit) : (emit s e).parts = s.parts := rfl
@[simp] theorem emit_eps (s : State) (e : Emit) : (emit s e).eps = s.eps := rfl
@[simp] theorem emit_fns (s : State) (e : Emit) : (emit s e).fns = s.fns := rfl
@[simp] theorem emit_hostHeld (s : State) (e : Emit) : (emit s e).hostHeld = s.hostHeld := rfl
@[simp] theorem emit_outRecords (s : State) (e : Emit) : (emit s e).outRecords = s.outRecords := rfl
@[simp] theorem emit_weir (s : State) (e : Emit) : (emit s e).weir = s.weir := rfl
@[simp] theorem emit_cores (s : State) (e : Emit) : (emit s e).cores = s.cores := rfl
@[simp] theorem emit_mem (s : State) (e : Emit) : (emit s e).mem = s.mem := rfl
@[simp] theorem emit_spawn (s : State) (e : Emit) : (emit s e).spawn = s.spawn := rfl
@[simp] theorem emit_fabric (s : State) (e : Emit) : (emit s e).fabric = s.fabric := rfl
@[simp] theorem emit_regr (s : State) (e : Emit) : (emit s e).regr = s.regr := rfl
@[simp] theorem emit_jtag (s : State) (e : Emit) : (emit s e).jtag = s.jtag := rfl
@[simp] theorem emit_nowUs (s : State) (e : Emit) : (emit s e).nowUs = s.nowUs := rfl
@[simp] theorem emit_out (s : State) (e : Emit) : (emit s e).out = e :: s.out := rfl

/-! ### `setCore` -/

@[simp] theorem setCore_pending (s : State) (c : Nat) (x : Core) : (setCore s c x).pending = s.pending := rfl
@[simp] theorem setCore_pins (s : State) (c : Nat) (x : Core) : (setCore s c x).pins = s.pins := rfl
@[simp] theorem setCore_power (s : State) (c : Nat) (x : Core) : (setCore s c x).power = s.power := rfl
@[simp] theorem setCore_clock (s : State) (c : Nat) (x : Core) : (setCore s c x).clock = s.clock := rfl
@[simp] theorem setCore_therm (s : State) (c : Nat) (x : Core) : (setCore s c x).therm = s.therm := rfl
@[simp] theorem setCore_dict (s : State) (c : Nat) (x : Core) : (setCore s c x).dict = s.dict := rfl
@[simp] theorem setCore_blobs (s : State) (c : Nat) (x : Core) : (setCore s c x).blobs = s.blobs := rfl
@[simp] theorem setCore_staged (s : State) (c : Nat) (x : Core) : (setCore s c x).staged = s.staged := rfl
@[simp] theorem setCore_stagedBlobs (s : State) (c : Nat) (x : Core) : (setCore s c x).stagedBlobs = s.stagedBlobs := rfl
@[simp] theorem setCore_nv (s : State) (c : Nat) (x : Core) : (setCore s c x).nv = s.nv := rfl
@[simp] theorem setCore_mgmt (s : State) (c : Nat) (x : Core) : (setCore s c x).mgmt = s.mgmt := rfl
@[simp] theorem setCore_fw (s : State) (c : Nat) (x : Core) : (setCore s c x).fw = s.fw := rfl
@[simp] theorem setCore_iqs (s : State) (c : Nat) (x : Core) : (setCore s c x).iqs = s.iqs := rfl
@[simp] theorem setCore_cqs (s : State) (c : Nat) (x : Core) : (setCore s c x).cqs = s.cqs := rfl
@[simp] theorem setCore_parts (s : State) (c : Nat) (x : Core) : (setCore s c x).parts = s.parts := rfl
@[simp] theorem setCore_eps (s : State) (c : Nat) (x : Core) : (setCore s c x).eps = s.eps := rfl
@[simp] theorem setCore_fns (s : State) (c : Nat) (x : Core) : (setCore s c x).fns = s.fns := rfl
@[simp] theorem setCore_hostHeld (s : State) (c : Nat) (x : Core) : (setCore s c x).hostHeld = s.hostHeld := rfl
@[simp] theorem setCore_outRecords (s : State) (c : Nat) (x : Core) : (setCore s c x).outRecords = s.outRecords := rfl
@[simp] theorem setCore_weir (s : State) (c : Nat) (x : Core) : (setCore s c x).weir = s.weir := rfl
@[simp] theorem setCore_cores (s : State) (c : Nat) (x : Core) : (setCore s c x).cores = tabPut s.cores c x := rfl
@[simp] theorem setCore_mem (s : State) (c : Nat) (x : Core) : (setCore s c x).mem = s.mem := rfl
@[simp] theorem setCore_spawn (s : State) (c : Nat) (x : Core) : (setCore s c x).spawn = s.spawn := rfl
@[simp] theorem setCore_fabric (s : State) (c : Nat) (x : Core) : (setCore s c x).fabric = s.fabric := rfl
@[simp] theorem setCore_regr (s : State) (c : Nat) (x : Core) : (setCore s c x).regr = s.regr := rfl
@[simp] theorem setCore_jtag (s : State) (c : Nat) (x : Core) : (setCore s c x).jtag = s.jtag := rfl
@[simp] theorem setCore_nowUs (s : State) (c : Nat) (x : Core) : (setCore s c x).nowUs = s.nowUs := rfl
@[simp] theorem setCore_out (s : State) (c : Nat) (x : Core) : (setCore s c x).out = s.out := rfl

/-! ### `setIq` -/

@[simp] theorem setIq_pending (s : State) (q : Nat) (x : Iq) : (setIq s q x).pending = s.pending := rfl
@[simp] theorem setIq_pins (s : State) (q : Nat) (x : Iq) : (setIq s q x).pins = s.pins := rfl
@[simp] theorem setIq_power (s : State) (q : Nat) (x : Iq) : (setIq s q x).power = s.power := rfl
@[simp] theorem setIq_clock (s : State) (q : Nat) (x : Iq) : (setIq s q x).clock = s.clock := rfl
@[simp] theorem setIq_therm (s : State) (q : Nat) (x : Iq) : (setIq s q x).therm = s.therm := rfl
@[simp] theorem setIq_dict (s : State) (q : Nat) (x : Iq) : (setIq s q x).dict = s.dict := rfl
@[simp] theorem setIq_blobs (s : State) (q : Nat) (x : Iq) : (setIq s q x).blobs = s.blobs := rfl
@[simp] theorem setIq_staged (s : State) (q : Nat) (x : Iq) : (setIq s q x).staged = s.staged := rfl
@[simp] theorem setIq_stagedBlobs (s : State) (q : Nat) (x : Iq) : (setIq s q x).stagedBlobs = s.stagedBlobs := rfl
@[simp] theorem setIq_nv (s : State) (q : Nat) (x : Iq) : (setIq s q x).nv = s.nv := rfl
@[simp] theorem setIq_mgmt (s : State) (q : Nat) (x : Iq) : (setIq s q x).mgmt = s.mgmt := rfl
@[simp] theorem setIq_fw (s : State) (q : Nat) (x : Iq) : (setIq s q x).fw = s.fw := rfl
@[simp] theorem setIq_iqs (s : State) (q : Nat) (x : Iq) : (setIq s q x).iqs = tabPut s.iqs q x := rfl
@[simp] theorem setIq_cqs (s : State) (q : Nat) (x : Iq) : (setIq s q x).cqs = s.cqs := rfl
@[simp] theorem setIq_parts (s : State) (q : Nat) (x : Iq) : (setIq s q x).parts = s.parts := rfl
@[simp] theorem setIq_eps (s : State) (q : Nat) (x : Iq) : (setIq s q x).eps = s.eps := rfl
@[simp] theorem setIq_fns (s : State) (q : Nat) (x : Iq) : (setIq s q x).fns = s.fns := rfl
@[simp] theorem setIq_hostHeld (s : State) (q : Nat) (x : Iq) : (setIq s q x).hostHeld = s.hostHeld := rfl
@[simp] theorem setIq_outRecords (s : State) (q : Nat) (x : Iq) : (setIq s q x).outRecords = s.outRecords := rfl
@[simp] theorem setIq_weir (s : State) (q : Nat) (x : Iq) : (setIq s q x).weir = s.weir := rfl
@[simp] theorem setIq_cores (s : State) (q : Nat) (x : Iq) : (setIq s q x).cores = s.cores := rfl
@[simp] theorem setIq_mem (s : State) (q : Nat) (x : Iq) : (setIq s q x).mem = s.mem := rfl
@[simp] theorem setIq_spawn (s : State) (q : Nat) (x : Iq) : (setIq s q x).spawn = s.spawn := rfl
@[simp] theorem setIq_fabric (s : State) (q : Nat) (x : Iq) : (setIq s q x).fabric = s.fabric := rfl
@[simp] theorem setIq_regr (s : State) (q : Nat) (x : Iq) : (setIq s q x).regr = s.regr := rfl
@[simp] theorem setIq_jtag (s : State) (q : Nat) (x : Iq) : (setIq s q x).jtag = s.jtag := rfl
@[simp] theorem setIq_nowUs (s : State) (q : Nat) (x : Iq) : (setIq s q x).nowUs = s.nowUs := rfl
@[simp] theorem setIq_out (s : State) (q : Nat) (x : Iq) : (setIq s q x).out = s.out := rfl

/-! ### `setCq` -/

@[simp] theorem setCq_pending (s : State) (q : Nat) (x : Cq) : (setCq s q x).pending = s.pending := rfl
@[simp] theorem setCq_pins (s : State) (q : Nat) (x : Cq) : (setCq s q x).pins = s.pins := rfl
@[simp] theorem setCq_power (s : State) (q : Nat) (x : Cq) : (setCq s q x).power = s.power := rfl
@[simp] theorem setCq_clock (s : State) (q : Nat) (x : Cq) : (setCq s q x).clock = s.clock := rfl
@[simp] theorem setCq_therm (s : State) (q : Nat) (x : Cq) : (setCq s q x).therm = s.therm := rfl
@[simp] theorem setCq_dict (s : State) (q : Nat) (x : Cq) : (setCq s q x).dict = s.dict := rfl
@[simp] theorem setCq_blobs (s : State) (q : Nat) (x : Cq) : (setCq s q x).blobs = s.blobs := rfl
@[simp] theorem setCq_staged (s : State) (q : Nat) (x : Cq) : (setCq s q x).staged = s.staged := rfl
@[simp] theorem setCq_stagedBlobs (s : State) (q : Nat) (x : Cq) : (setCq s q x).stagedBlobs = s.stagedBlobs := rfl
@[simp] theorem setCq_nv (s : State) (q : Nat) (x : Cq) : (setCq s q x).nv = s.nv := rfl
@[simp] theorem setCq_mgmt (s : State) (q : Nat) (x : Cq) : (setCq s q x).mgmt = s.mgmt := rfl
@[simp] theorem setCq_fw (s : State) (q : Nat) (x : Cq) : (setCq s q x).fw = s.fw := rfl
@[simp] theorem setCq_iqs (s : State) (q : Nat) (x : Cq) : (setCq s q x).iqs = s.iqs := rfl
@[simp] theorem setCq_cqs (s : State) (q : Nat) (x : Cq) : (setCq s q x).cqs = tabPut s.cqs q x := rfl
@[simp] theorem setCq_parts (s : State) (q : Nat) (x : Cq) : (setCq s q x).parts = s.parts := rfl
@[simp] theorem setCq_eps (s : State) (q : Nat) (x : Cq) : (setCq s q x).eps = s.eps := rfl
@[simp] theorem setCq_fns (s : State) (q : Nat) (x : Cq) : (setCq s q x).fns = s.fns := rfl
@[simp] theorem setCq_hostHeld (s : State) (q : Nat) (x : Cq) : (setCq s q x).hostHeld = s.hostHeld := rfl
@[simp] theorem setCq_outRecords (s : State) (q : Nat) (x : Cq) : (setCq s q x).outRecords = s.outRecords := rfl
@[simp] theorem setCq_weir (s : State) (q : Nat) (x : Cq) : (setCq s q x).weir = s.weir := rfl
@[simp] theorem setCq_cores (s : State) (q : Nat) (x : Cq) : (setCq s q x).cores = s.cores := rfl
@[simp] theorem setCq_mem (s : State) (q : Nat) (x : Cq) : (setCq s q x).mem = s.mem := rfl
@[simp] theorem setCq_spawn (s : State) (q : Nat) (x : Cq) : (setCq s q x).spawn = s.spawn := rfl
@[simp] theorem setCq_fabric (s : State) (q : Nat) (x : Cq) : (setCq s q x).fabric = s.fabric := rfl
@[simp] theorem setCq_regr (s : State) (q : Nat) (x : Cq) : (setCq s q x).regr = s.regr := rfl
@[simp] theorem setCq_jtag (s : State) (q : Nat) (x : Cq) : (setCq s q x).jtag = s.jtag := rfl
@[simp] theorem setCq_nowUs (s : State) (q : Nat) (x : Cq) : (setCq s q x).nowUs = s.nowUs := rfl
@[simp] theorem setCq_out (s : State) (q : Nat) (x : Cq) : (setCq s q x).out = s.out := rfl

/-! ### `setPart` -/

@[simp] theorem setPart_pending (s : State) (p : Nat) (x : PartRec) : (setPart s p x).pending = s.pending := rfl
@[simp] theorem setPart_pins (s : State) (p : Nat) (x : PartRec) : (setPart s p x).pins = s.pins := rfl
@[simp] theorem setPart_power (s : State) (p : Nat) (x : PartRec) : (setPart s p x).power = s.power := rfl
@[simp] theorem setPart_clock (s : State) (p : Nat) (x : PartRec) : (setPart s p x).clock = s.clock := rfl
@[simp] theorem setPart_therm (s : State) (p : Nat) (x : PartRec) : (setPart s p x).therm = s.therm := rfl
@[simp] theorem setPart_dict (s : State) (p : Nat) (x : PartRec) : (setPart s p x).dict = s.dict := rfl
@[simp] theorem setPart_blobs (s : State) (p : Nat) (x : PartRec) : (setPart s p x).blobs = s.blobs := rfl
@[simp] theorem setPart_staged (s : State) (p : Nat) (x : PartRec) : (setPart s p x).staged = s.staged := rfl
@[simp] theorem setPart_stagedBlobs (s : State) (p : Nat) (x : PartRec) : (setPart s p x).stagedBlobs = s.stagedBlobs := rfl
@[simp] theorem setPart_nv (s : State) (p : Nat) (x : PartRec) : (setPart s p x).nv = s.nv := rfl
@[simp] theorem setPart_mgmt (s : State) (p : Nat) (x : PartRec) : (setPart s p x).mgmt = s.mgmt := rfl
@[simp] theorem setPart_fw (s : State) (p : Nat) (x : PartRec) : (setPart s p x).fw = s.fw := rfl
@[simp] theorem setPart_iqs (s : State) (p : Nat) (x : PartRec) : (setPart s p x).iqs = s.iqs := rfl
@[simp] theorem setPart_cqs (s : State) (p : Nat) (x : PartRec) : (setPart s p x).cqs = s.cqs := rfl
@[simp] theorem setPart_parts (s : State) (p : Nat) (x : PartRec) : (setPart s p x).parts = tabPut s.parts p x := rfl
@[simp] theorem setPart_eps (s : State) (p : Nat) (x : PartRec) : (setPart s p x).eps = s.eps := rfl
@[simp] theorem setPart_fns (s : State) (p : Nat) (x : PartRec) : (setPart s p x).fns = s.fns := rfl
@[simp] theorem setPart_hostHeld (s : State) (p : Nat) (x : PartRec) : (setPart s p x).hostHeld = s.hostHeld := rfl
@[simp] theorem setPart_outRecords (s : State) (p : Nat) (x : PartRec) : (setPart s p x).outRecords = s.outRecords := rfl
@[simp] theorem setPart_weir (s : State) (p : Nat) (x : PartRec) : (setPart s p x).weir = s.weir := rfl
@[simp] theorem setPart_cores (s : State) (p : Nat) (x : PartRec) : (setPart s p x).cores = s.cores := rfl
@[simp] theorem setPart_mem (s : State) (p : Nat) (x : PartRec) : (setPart s p x).mem = s.mem := rfl
@[simp] theorem setPart_spawn (s : State) (p : Nat) (x : PartRec) : (setPart s p x).spawn = s.spawn := rfl
@[simp] theorem setPart_fabric (s : State) (p : Nat) (x : PartRec) : (setPart s p x).fabric = s.fabric := rfl
@[simp] theorem setPart_regr (s : State) (p : Nat) (x : PartRec) : (setPart s p x).regr = s.regr := rfl
@[simp] theorem setPart_jtag (s : State) (p : Nat) (x : PartRec) : (setPart s p x).jtag = s.jtag := rfl
@[simp] theorem setPart_nowUs (s : State) (p : Nat) (x : PartRec) : (setPart s p x).nowUs = s.nowUs := rfl
@[simp] theorem setPart_out (s : State) (p : Nat) (x : PartRec) : (setPart s p x).out = s.out := rfl

/-! ### `setEp` -/

@[simp] theorem setEp_pending (s : State) (e : Nat) (x : Endpoint) : (setEp s e x).pending = s.pending := rfl
@[simp] theorem setEp_pins (s : State) (e : Nat) (x : Endpoint) : (setEp s e x).pins = s.pins := rfl
@[simp] theorem setEp_power (s : State) (e : Nat) (x : Endpoint) : (setEp s e x).power = s.power := rfl
@[simp] theorem setEp_clock (s : State) (e : Nat) (x : Endpoint) : (setEp s e x).clock = s.clock := rfl
@[simp] theorem setEp_therm (s : State) (e : Nat) (x : Endpoint) : (setEp s e x).therm = s.therm := rfl
@[simp] theorem setEp_dict (s : State) (e : Nat) (x : Endpoint) : (setEp s e x).dict = s.dict := rfl
@[simp] theorem setEp_blobs (s : State) (e : Nat) (x : Endpoint) : (setEp s e x).blobs = s.blobs := rfl
@[simp] theorem setEp_staged (s : State) (e : Nat) (x : Endpoint) : (setEp s e x).staged = s.staged := rfl
@[simp] theorem setEp_stagedBlobs (s : State) (e : Nat) (x : Endpoint) : (setEp s e x).stagedBlobs = s.stagedBlobs := rfl
@[simp] theorem setEp_nv (s : State) (e : Nat) (x : Endpoint) : (setEp s e x).nv = s.nv := rfl
@[simp] theorem setEp_mgmt (s : State) (e : Nat) (x : Endpoint) : (setEp s e x).mgmt = s.mgmt := rfl
@[simp] theorem setEp_fw (s : State) (e : Nat) (x : Endpoint) : (setEp s e x).fw = s.fw := rfl
@[simp] theorem setEp_iqs (s : State) (e : Nat) (x : Endpoint) : (setEp s e x).iqs = s.iqs := rfl
@[simp] theorem setEp_cqs (s : State) (e : Nat) (x : Endpoint) : (setEp s e x).cqs = s.cqs := rfl
@[simp] theorem setEp_parts (s : State) (e : Nat) (x : Endpoint) : (setEp s e x).parts = s.parts := rfl
@[simp] theorem setEp_eps (s : State) (e : Nat) (x : Endpoint) : (setEp s e x).eps = tabPut s.eps e x := rfl
@[simp] theorem setEp_fns (s : State) (e : Nat) (x : Endpoint) : (setEp s e x).fns = s.fns := rfl
@[simp] theorem setEp_hostHeld (s : State) (e : Nat) (x : Endpoint) : (setEp s e x).hostHeld = s.hostHeld := rfl
@[simp] theorem setEp_outRecords (s : State) (e : Nat) (x : Endpoint) : (setEp s e x).outRecords = s.outRecords := rfl
@[simp] theorem setEp_weir (s : State) (e : Nat) (x : Endpoint) : (setEp s e x).weir = s.weir := rfl
@[simp] theorem setEp_cores (s : State) (e : Nat) (x : Endpoint) : (setEp s e x).cores = s.cores := rfl
@[simp] theorem setEp_mem (s : State) (e : Nat) (x : Endpoint) : (setEp s e x).mem = s.mem := rfl
@[simp] theorem setEp_spawn (s : State) (e : Nat) (x : Endpoint) : (setEp s e x).spawn = s.spawn := rfl
@[simp] theorem setEp_fabric (s : State) (e : Nat) (x : Endpoint) : (setEp s e x).fabric = s.fabric := rfl
@[simp] theorem setEp_regr (s : State) (e : Nat) (x : Endpoint) : (setEp s e x).regr = s.regr := rfl
@[simp] theorem setEp_jtag (s : State) (e : Nat) (x : Endpoint) : (setEp s e x).jtag = s.jtag := rfl
@[simp] theorem setEp_nowUs (s : State) (e : Nat) (x : Endpoint) : (setEp s e x).nowUs = s.nowUs := rfl
@[simp] theorem setEp_out (s : State) (e : Nat) (x : Endpoint) : (setEp s e x).out = s.out := rfl

/-! ### `setPort` -/

@[simp] theorem setPort_pending (s : State) (n : Nat) (x : Port) : (setPort s n x).pending = s.pending := rfl
@[simp] theorem setPort_pins (s : State) (n : Nat) (x : Port) : (setPort s n x).pins = s.pins := rfl
@[simp] theorem setPort_power (s : State) (n : Nat) (x : Port) : (setPort s n x).power = s.power := rfl
@[simp] theorem setPort_clock (s : State) (n : Nat) (x : Port) : (setPort s n x).clock = s.clock := rfl
@[simp] theorem setPort_therm (s : State) (n : Nat) (x : Port) : (setPort s n x).therm = s.therm := rfl
@[simp] theorem setPort_dict (s : State) (n : Nat) (x : Port) : (setPort s n x).dict = s.dict := rfl
@[simp] theorem setPort_blobs (s : State) (n : Nat) (x : Port) : (setPort s n x).blobs = s.blobs := rfl
@[simp] theorem setPort_staged (s : State) (n : Nat) (x : Port) : (setPort s n x).staged = s.staged := rfl
@[simp] theorem setPort_stagedBlobs (s : State) (n : Nat) (x : Port) : (setPort s n x).stagedBlobs = s.stagedBlobs := rfl
@[simp] theorem setPort_nv (s : State) (n : Nat) (x : Port) : (setPort s n x).nv = s.nv := rfl
@[simp] theorem setPort_mgmt (s : State) (n : Nat) (x : Port) : (setPort s n x).mgmt = s.mgmt := rfl
@[simp] theorem setPort_fw (s : State) (n : Nat) (x : Port) : (setPort s n x).fw = s.fw := rfl
@[simp] theorem setPort_iqs (s : State) (n : Nat) (x : Port) : (setPort s n x).iqs = s.iqs := rfl
@[simp] theorem setPort_cqs (s : State) (n : Nat) (x : Port) : (setPort s n x).cqs = s.cqs := rfl
@[simp] theorem setPort_parts (s : State) (n : Nat) (x : Port) : (setPort s n x).parts = s.parts := rfl
@[simp] theorem setPort_eps (s : State) (n : Nat) (x : Port) : (setPort s n x).eps = s.eps := rfl
@[simp] theorem setPort_fns (s : State) (n : Nat) (x : Port) : (setPort s n x).fns = s.fns := rfl
@[simp] theorem setPort_hostHeld (s : State) (n : Nat) (x : Port) : (setPort s n x).hostHeld = s.hostHeld := rfl
@[simp] theorem setPort_outRecords (s : State) (n : Nat) (x : Port) : (setPort s n x).outRecords = s.outRecords := rfl
@[simp] theorem setPort_weir (s : State) (n : Nat) (x : Port) : (setPort s n x).weir = s.weir := rfl
@[simp] theorem setPort_cores (s : State) (n : Nat) (x : Port) : (setPort s n x).cores = s.cores := rfl
@[simp] theorem setPort_mem (s : State) (n : Nat) (x : Port) : (setPort s n x).mem = s.mem := rfl
@[simp] theorem setPort_spawn (s : State) (n : Nat) (x : Port) : (setPort s n x).spawn = s.spawn := rfl
@[simp] theorem setPort_fabric (s : State) (n : Nat) (x : Port) : (setPort s n x).fabric = { s.fabric with ports := tabPut s.fabric.ports n x } := rfl
@[simp] theorem setPort_regr (s : State) (n : Nat) (x : Port) : (setPort s n x).regr = s.regr := rfl
@[simp] theorem setPort_jtag (s : State) (n : Nat) (x : Port) : (setPort s n x).jtag = s.jtag := rfl
@[simp] theorem setPort_nowUs (s : State) (n : Nat) (x : Port) : (setPort s n x).nowUs = s.nowUs := rfl
@[simp] theorem setPort_out (s : State) (n : Nat) (x : Port) : (setPort s n x).out = s.out := rfl

/-! ### `setCtx` -/

@[simp] theorem setCtx_pending (s : State) (c : Nat) (x : Ctx) : (setCtx s c x).pending = s.pending := rfl
@[simp] theorem setCtx_pins (s : State) (c : Nat) (x : Ctx) : (setCtx s c x).pins = s.pins := rfl
@[simp] theorem setCtx_power (s : State) (c : Nat) (x : Ctx) : (setCtx s c x).power = s.power := rfl
@[simp] theorem setCtx_clock (s : State) (c : Nat) (x : Ctx) : (setCtx s c x).clock = s.clock := rfl
@[simp] theorem setCtx_therm (s : State) (c : Nat) (x : Ctx) : (setCtx s c x).therm = s.therm := rfl
@[simp] theorem setCtx_dict (s : State) (c : Nat) (x : Ctx) : (setCtx s c x).dict = s.dict := rfl
@[simp] theorem setCtx_blobs (s : State) (c : Nat) (x : Ctx) : (setCtx s c x).blobs = s.blobs := rfl
@[simp] theorem setCtx_staged (s : State) (c : Nat) (x : Ctx) : (setCtx s c x).staged = s.staged := rfl
@[simp] theorem setCtx_stagedBlobs (s : State) (c : Nat) (x : Ctx) : (setCtx s c x).stagedBlobs = s.stagedBlobs := rfl
@[simp] theorem setCtx_nv (s : State) (c : Nat) (x : Ctx) : (setCtx s c x).nv = s.nv := rfl
@[simp] theorem setCtx_mgmt (s : State) (c : Nat) (x : Ctx) : (setCtx s c x).mgmt = s.mgmt := rfl
@[simp] theorem setCtx_fw (s : State) (c : Nat) (x : Ctx) : (setCtx s c x).fw = s.fw := rfl
@[simp] theorem setCtx_iqs (s : State) (c : Nat) (x : Ctx) : (setCtx s c x).iqs = s.iqs := rfl
@[simp] theorem setCtx_cqs (s : State) (c : Nat) (x : Ctx) : (setCtx s c x).cqs = s.cqs := rfl
@[simp] theorem setCtx_parts (s : State) (c : Nat) (x : Ctx) : (setCtx s c x).parts = s.parts := rfl
@[simp] theorem setCtx_eps (s : State) (c : Nat) (x : Ctx) : (setCtx s c x).eps = s.eps := rfl
@[simp] theorem setCtx_fns (s : State) (c : Nat) (x : Ctx) : (setCtx s c x).fns = s.fns := rfl
@[simp] theorem setCtx_hostHeld (s : State) (c : Nat) (x : Ctx) : (setCtx s c x).hostHeld = s.hostHeld := rfl
@[simp] theorem setCtx_outRecords (s : State) (c : Nat) (x : Ctx) : (setCtx s c x).outRecords = s.outRecords := rfl
@[simp] theorem setCtx_weir (s : State) (c : Nat) (x : Ctx) : (setCtx s c x).weir = s.weir := rfl
@[simp] theorem setCtx_cores (s : State) (c : Nat) (x : Ctx) : (setCtx s c x).cores = s.cores := rfl
@[simp] theorem setCtx_mem (s : State) (c : Nat) (x : Ctx) : (setCtx s c x).mem = s.mem := rfl
@[simp] theorem setCtx_spawn (s : State) (c : Nat) (x : Ctx) : (setCtx s c x).spawn = s.spawn := rfl
@[simp] theorem setCtx_fabric (s : State) (c : Nat) (x : Ctx) : (setCtx s c x).fabric = { s.fabric with ctxs := tabPut s.fabric.ctxs c x } := rfl
@[simp] theorem setCtx_regr (s : State) (c : Nat) (x : Ctx) : (setCtx s c x).regr = s.regr := rfl
@[simp] theorem setCtx_jtag (s : State) (c : Nat) (x : Ctx) : (setCtx s c x).jtag = s.jtag := rfl
@[simp] theorem setCtx_nowUs (s : State) (c : Nat) (x : Ctx) : (setCtx s c x).nowUs = s.nowUs := rfl
@[simp] theorem setCtx_out (s : State) (c : Nat) (x : Ctx) : (setCtx s c x).out = s.out := rfl

/-! ### `setSeq` -/

@[simp] theorem setSeq_pending (s : State) (q : Nat) (x : QuadSeq) : (setSeq s q x).pending = s.pending := rfl
@[simp] theorem setSeq_pins (s : State) (q : Nat) (x : QuadSeq) : (setSeq s q x).pins = s.pins := rfl
@[simp] theorem setSeq_power (s : State) (q : Nat) (x : QuadSeq) : (setSeq s q x).power = s.power := rfl
@[simp] theorem setSeq_clock (s : State) (q : Nat) (x : QuadSeq) : (setSeq s q x).clock = { s.clock with seqs := tabPut s.clock.seqs q x } := rfl
@[simp] theorem setSeq_therm (s : State) (q : Nat) (x : QuadSeq) : (setSeq s q x).therm = s.therm := rfl
@[simp] theorem setSeq_dict (s : State) (q : Nat) (x : QuadSeq) : (setSeq s q x).dict = s.dict := rfl
@[simp] theorem setSeq_blobs (s : State) (q : Nat) (x : QuadSeq) : (setSeq s q x).blobs = s.blobs := rfl
@[simp] theorem setSeq_staged (s : State) (q : Nat) (x : QuadSeq) : (setSeq s q x).staged = s.staged := rfl
@[simp] theorem setSeq_stagedBlobs (s : State) (q : Nat) (x : QuadSeq) : (setSeq s q x).stagedBlobs = s.stagedBlobs := rfl
@[simp] theorem setSeq_nv (s : State) (q : Nat) (x : QuadSeq) : (setSeq s q x).nv = s.nv := rfl
@[simp] theorem setSeq_mgmt (s : State) (q : Nat) (x : QuadSeq) : (setSeq s q x).mgmt = s.mgmt := rfl
@[simp] theorem setSeq_fw (s : State) (q : Nat) (x : QuadSeq) : (setSeq s q x).fw = s.fw := rfl
@[simp] theorem setSeq_iqs (s : State) (q : Nat) (x : QuadSeq) : (setSeq s q x).iqs = s.iqs := rfl
@[simp] theorem setSeq_cqs (s : State) (q : Nat) (x : QuadSeq) : (setSeq s q x).cqs = s.cqs := rfl
@[simp] theorem setSeq_parts (s : State) (q : Nat) (x : QuadSeq) : (setSeq s q x).parts = s.parts := rfl
@[simp] theorem setSeq_eps (s : State) (q : Nat) (x : QuadSeq) : (setSeq s q x).eps = s.eps := rfl
@[simp] theorem setSeq_fns (s : State) (q : Nat) (x : QuadSeq) : (setSeq s q x).fns = s.fns := rfl
@[simp] theorem setSeq_hostHeld (s : State) (q : Nat) (x : QuadSeq) : (setSeq s q x).hostHeld = s.hostHeld := rfl
@[simp] theorem setSeq_outRecords (s : State) (q : Nat) (x : QuadSeq) : (setSeq s q x).outRecords = s.outRecords := rfl
@[simp] theorem setSeq_weir (s : State) (q : Nat) (x : QuadSeq) : (setSeq s q x).weir = s.weir := rfl
@[simp] theorem setSeq_cores (s : State) (q : Nat) (x : QuadSeq) : (setSeq s q x).cores = s.cores := rfl
@[simp] theorem setSeq_mem (s : State) (q : Nat) (x : QuadSeq) : (setSeq s q x).mem = s.mem := rfl
@[simp] theorem setSeq_spawn (s : State) (q : Nat) (x : QuadSeq) : (setSeq s q x).spawn = s.spawn := rfl
@[simp] theorem setSeq_fabric (s : State) (q : Nat) (x : QuadSeq) : (setSeq s q x).fabric = s.fabric := rfl
@[simp] theorem setSeq_regr (s : State) (q : Nat) (x : QuadSeq) : (setSeq s q x).regr = s.regr := rfl
@[simp] theorem setSeq_jtag (s : State) (q : Nat) (x : QuadSeq) : (setSeq s q x).jtag = s.jtag := rfl
@[simp] theorem setSeq_nowUs (s : State) (q : Nat) (x : QuadSeq) : (setSeq s q x).nowUs = s.nowUs := rfl
@[simp] theorem setSeq_out (s : State) (q : Nat) (x : QuadSeq) : (setSeq s q x).out = s.out := rfl

/-! ### `setBox` -/

@[simp] theorem setBox_pending (s : State) (e : Nat) (x : Mailbox) : (setBox s e x).pending = s.pending := rfl
@[simp] theorem setBox_pins (s : State) (e : Nat) (x : Mailbox) : (setBox s e x).pins = s.pins := rfl
@[simp] theorem setBox_power (s : State) (e : Nat) (x : Mailbox) : (setBox s e x).power = s.power := rfl
@[simp] theorem setBox_clock (s : State) (e : Nat) (x : Mailbox) : (setBox s e x).clock = s.clock := rfl
@[simp] theorem setBox_therm (s : State) (e : Nat) (x : Mailbox) : (setBox s e x).therm = s.therm := rfl
@[simp] theorem setBox_dict (s : State) (e : Nat) (x : Mailbox) : (setBox s e x).dict = s.dict := rfl
@[simp] theorem setBox_blobs (s : State) (e : Nat) (x : Mailbox) : (setBox s e x).blobs = s.blobs := rfl
@[simp] theorem setBox_staged (s : State) (e : Nat) (x : Mailbox) : (setBox s e x).staged = s.staged := rfl
@[simp] theorem setBox_stagedBlobs (s : State) (e : Nat) (x : Mailbox) : (setBox s e x).stagedBlobs = s.stagedBlobs := rfl
@[simp] theorem setBox_nv (s : State) (e : Nat) (x : Mailbox) : (setBox s e x).nv = s.nv := rfl
@[simp] theorem setBox_mgmt (s : State) (e : Nat) (x : Mailbox) : (setBox s e x).mgmt = { s.mgmt with boxes := tabPut s.mgmt.boxes e x } := rfl
@[simp] theorem setBox_fw (s : State) (e : Nat) (x : Mailbox) : (setBox s e x).fw = s.fw := rfl
@[simp] theorem setBox_iqs (s : State) (e : Nat) (x : Mailbox) : (setBox s e x).iqs = s.iqs := rfl
@[simp] theorem setBox_cqs (s : State) (e : Nat) (x : Mailbox) : (setBox s e x).cqs = s.cqs := rfl
@[simp] theorem setBox_parts (s : State) (e : Nat) (x : Mailbox) : (setBox s e x).parts = s.parts := rfl
@[simp] theorem setBox_eps (s : State) (e : Nat) (x : Mailbox) : (setBox s e x).eps = s.eps := rfl
@[simp] theorem setBox_fns (s : State) (e : Nat) (x : Mailbox) : (setBox s e x).fns = s.fns := rfl
@[simp] theorem setBox_hostHeld (s : State) (e : Nat) (x : Mailbox) : (setBox s e x).hostHeld = s.hostHeld := rfl
@[simp] theorem setBox_outRecords (s : State) (e : Nat) (x : Mailbox) : (setBox s e x).outRecords = s.outRecords := rfl
@[simp] theorem setBox_weir (s : State) (e : Nat) (x : Mailbox) : (setBox s e x).weir = s.weir := rfl
@[simp] theorem setBox_cores (s : State) (e : Nat) (x : Mailbox) : (setBox s e x).cores = s.cores := rfl
@[simp] theorem setBox_mem (s : State) (e : Nat) (x : Mailbox) : (setBox s e x).mem = s.mem := rfl
@[simp] theorem setBox_spawn (s : State) (e : Nat) (x : Mailbox) : (setBox s e x).spawn = s.spawn := rfl
@[simp] theorem setBox_fabric (s : State) (e : Nat) (x : Mailbox) : (setBox s e x).fabric = s.fabric := rfl
@[simp] theorem setBox_regr (s : State) (e : Nat) (x : Mailbox) : (setBox s e x).regr = s.regr := rfl
@[simp] theorem setBox_jtag (s : State) (e : Nat) (x : Mailbox) : (setBox s e x).jtag = s.jtag := rfl
@[simp] theorem setBox_nowUs (s : State) (e : Nat) (x : Mailbox) : (setBox s e x).nowUs = s.nowUs := rfl
@[simp] theorem setBox_out (s : State) (e : Nat) (x : Mailbox) : (setBox s e x).out = s.out := rfl

/-! ### `setSession` -/

@[simp] theorem setSession_pending (s : State) (x : Session) : (setSession s x).pending = s.pending := rfl
@[simp] theorem setSession_pins (s : State) (x : Session) : (setSession s x).pins = s.pins := rfl
@[simp] theorem setSession_power (s : State) (x : Session) : (setSession s x).power = s.power := rfl
@[simp] theorem setSession_clock (s : State) (x : Session) : (setSession s x).clock = s.clock := rfl
@[simp] theorem setSession_therm (s : State) (x : Session) : (setSession s x).therm = s.therm := rfl
@[simp] theorem setSession_dict (s : State) (x : Session) : (setSession s x).dict = s.dict := rfl
@[simp] theorem setSession_blobs (s : State) (x : Session) : (setSession s x).blobs = s.blobs := rfl
@[simp] theorem setSession_staged (s : State) (x : Session) : (setSession s x).staged = s.staged := rfl
@[simp] theorem setSession_stagedBlobs (s : State) (x : Session) : (setSession s x).stagedBlobs = s.stagedBlobs := rfl
@[simp] theorem setSession_nv (s : State) (x : Session) : (setSession s x).nv = s.nv := rfl
@[simp] theorem setSession_mgmt (s : State) (x : Session) : (setSession s x).mgmt = { s.mgmt with sessions := s.mgmt.sessions.map (fun y => if y.sid = x.sid then x else y) } := rfl
@[simp] theorem setSession_fw (s : State) (x : Session) : (setSession s x).fw = s.fw := rfl
@[simp] theorem setSession_iqs (s : State) (x : Session) : (setSession s x).iqs = s.iqs := rfl
@[simp] theorem setSession_cqs (s : State) (x : Session) : (setSession s x).cqs = s.cqs := rfl
@[simp] theorem setSession_parts (s : State) (x : Session) : (setSession s x).parts = s.parts := rfl
@[simp] theorem setSession_eps (s : State) (x : Session) : (setSession s x).eps = s.eps := rfl
@[simp] theorem setSession_fns (s : State) (x : Session) : (setSession s x).fns = s.fns := rfl
@[simp] theorem setSession_hostHeld (s : State) (x : Session) : (setSession s x).hostHeld = s.hostHeld := rfl
@[simp] theorem setSession_outRecords (s : State) (x : Session) : (setSession s x).outRecords = s.outRecords := rfl
@[simp] theorem setSession_weir (s : State) (x : Session) : (setSession s x).weir = s.weir := rfl
@[simp] theorem setSession_cores (s : State) (x : Session) : (setSession s x).cores = s.cores := rfl
@[simp] theorem setSession_mem (s : State) (x : Session) : (setSession s x).mem = s.mem := rfl
@[simp] theorem setSession_spawn (s : State) (x : Session) : (setSession s x).spawn = s.spawn := rfl
@[simp] theorem setSession_fabric (s : State) (x : Session) : (setSession s x).fabric = s.fabric := rfl
@[simp] theorem setSession_regr (s : State) (x : Session) : (setSession s x).regr = s.regr := rfl
@[simp] theorem setSession_jtag (s : State) (x : Session) : (setSession s x).jtag = s.jtag := rfl
@[simp] theorem setSession_nowUs (s : State) (x : Session) : (setSession s x).nowUs = s.nowUs := rfl
@[simp] theorem setSession_out (s : State) (x : Session) : (setSession s x).out = s.out := rfl

/-! ### `dropSessions` -/

@[simp] theorem dropSessions_pending (s : State) (p : Session → Bool) : (dropSessions s p).pending = s.pending := rfl
@[simp] theorem dropSessions_pins (s : State) (p : Session → Bool) : (dropSessions s p).pins = s.pins := rfl
@[simp] theorem dropSessions_power (s : State) (p : Session → Bool) : (dropSessions s p).power = s.power := rfl
@[simp] theorem dropSessions_clock (s : State) (p : Session → Bool) : (dropSessions s p).clock = s.clock := rfl
@[simp] theorem dropSessions_therm (s : State) (p : Session → Bool) : (dropSessions s p).therm = s.therm := rfl
@[simp] theorem dropSessions_dict (s : State) (p : Session → Bool) : (dropSessions s p).dict = s.dict := rfl
@[simp] theorem dropSessions_blobs (s : State) (p : Session → Bool) : (dropSessions s p).blobs = s.blobs := rfl
@[simp] theorem dropSessions_staged (s : State) (p : Session → Bool) : (dropSessions s p).staged = s.staged := rfl
@[simp] theorem dropSessions_stagedBlobs (s : State) (p : Session → Bool) : (dropSessions s p).stagedBlobs = s.stagedBlobs := rfl
@[simp] theorem dropSessions_nv (s : State) (p : Session → Bool) : (dropSessions s p).nv = s.nv := rfl
@[simp] theorem dropSessions_mgmt (s : State) (p : Session → Bool) : (dropSessions s p).mgmt = { s.mgmt with sessions := s.mgmt.sessions.filter (fun x => !(p x)) } := rfl
@[simp] theorem dropSessions_fw (s : State) (p : Session → Bool) : (dropSessions s p).fw = s.fw := rfl
@[simp] theorem dropSessions_iqs (s : State) (p : Session → Bool) : (dropSessions s p).iqs = s.iqs := rfl
@[simp] theorem dropSessions_cqs (s : State) (p : Session → Bool) : (dropSessions s p).cqs = s.cqs := rfl
@[simp] theorem dropSessions_parts (s : State) (p : Session → Bool) : (dropSessions s p).parts = s.parts := rfl
@[simp] theorem dropSessions_eps (s : State) (p : Session → Bool) : (dropSessions s p).eps = s.eps := rfl
@[simp] theorem dropSessions_fns (s : State) (p : Session → Bool) : (dropSessions s p).fns = s.fns := rfl
@[simp] theorem dropSessions_hostHeld (s : State) (p : Session → Bool) : (dropSessions s p).hostHeld = s.hostHeld := rfl
@[simp] theorem dropSessions_outRecords (s : State) (p : Session → Bool) : (dropSessions s p).outRecords = s.outRecords := rfl
@[simp] theorem dropSessions_weir (s : State) (p : Session → Bool) : (dropSessions s p).weir = s.weir := rfl
@[simp] theorem dropSessions_cores (s : State) (p : Session → Bool) : (dropSessions s p).cores = s.cores := rfl
@[simp] theorem dropSessions_mem (s : State) (p : Session → Bool) : (dropSessions s p).mem = s.mem := rfl
@[simp] theorem dropSessions_spawn (s : State) (p : Session → Bool) : (dropSessions s p).spawn = s.spawn := rfl
@[simp] theorem dropSessions_fabric (s : State) (p : Session → Bool) : (dropSessions s p).fabric = s.fabric := rfl
@[simp] theorem dropSessions_regr (s : State) (p : Session → Bool) : (dropSessions s p).regr = s.regr := rfl
@[simp] theorem dropSessions_jtag (s : State) (p : Session → Bool) : (dropSessions s p).jtag = s.jtag := rfl
@[simp] theorem dropSessions_nowUs (s : State) (p : Session → Bool) : (dropSessions s p).nowUs = s.nowUs := rfl
@[simp] theorem dropSessions_out (s : State) (p : Session → Bool) : (dropSessions s p).out = s.out := rfl

/-! ### `delay` -/

@[simp] theorem delay_pending (s : State) (d : Delayed) (req : Req) (dst : Src) : (delay s d req dst).pending = s.pending := rfl
@[simp] theorem delay_pins (s : State) (d : Delayed) (req : Req) (dst : Src) : (delay s d req dst).pins = s.pins := rfl
@[simp] theorem delay_power (s : State) (d : Delayed) (req : Req) (dst : Src) : (delay s d req dst).power = s.power := rfl
@[simp] theorem delay_clock (s : State) (d : Delayed) (req : Req) (dst : Src) : (delay s d req dst).clock = s.clock := rfl
@[simp] theorem delay_therm (s : State) (d : Delayed) (req : Req) (dst : Src) : (delay s d req dst).therm = s.therm := rfl
@[simp] theorem delay_dict (s : State) (d : Delayed) (req : Req) (dst : Src) : (delay s d req dst).dict = s.dict := rfl
@[simp] theorem delay_blobs (s : State) (d : Delayed) (req : Req) (dst : Src) : (delay s d req dst).blobs = s.blobs := rfl
@[simp] theorem delay_staged (s : State) (d : Delayed) (req : Req) (dst : Src) : (delay s d req dst).staged = s.staged := rfl
@[simp] theorem delay_stagedBlobs (s : State) (d : Delayed) (req : Req) (dst : Src) : (delay s d req dst).stagedBlobs = s.stagedBlobs := rfl
@[simp] theorem delay_nv (s : State) (d : Delayed) (req : Req) (dst : Src) : (delay s d req dst).nv = s.nv := rfl
@[simp] theorem delay_mgmt (s : State) (d : Delayed) (req : Req) (dst : Src) : (delay s d req dst).mgmt = { s.mgmt with waiting := s.mgmt.waiting ++ [(d, req, dst)] } := rfl
@[simp] theorem delay_fw (s : State) (d : Delayed) (req : Req) (dst : Src) : (delay s d req dst).fw = s.fw := rfl
@[simp] theorem delay_iqs (s : State) (d : Delayed) (req : Req) (dst : Src) : (delay s d req dst).iqs = s.iqs := rfl
@[simp] theorem delay_cqs (s : State) (d : Delayed) (req : Req) (dst : Src) : (delay s d req dst).cqs = s.cqs := rfl
@[simp] theorem delay_parts (s : State) (d : Delayed) (req : Req) (dst : Src) : (delay s d req dst).parts = s.parts := rfl
@[simp] theorem delay_eps (s : State) (d : Delayed) (req : Req) (dst : Src) : (delay s d req dst).eps = s.eps := rfl
@[simp] theorem delay_fns (s : State) (d : Delayed) (req : Req) (dst : Src) : (delay s d req dst).fns = s.fns := rfl
@[simp] theorem delay_hostHeld (s : State) (d : Delayed) (req : Req) (dst : Src) : (delay s d req dst).hostHeld = s.hostHeld := rfl
@[simp] theorem delay_outRecords (s : State) (d : Delayed) (req : Req) (dst : Src) : (delay s d req dst).outRecords = s.outRecords := rfl
@[simp] theorem delay_weir (s : State) (d : Delayed) (req : Req) (dst : Src) : (delay s d req dst).weir = s.weir := rfl
@[simp] theorem delay_cores (s : State) (d : Delayed) (req : Req) (dst : Src) : (delay s d req dst).cores = s.cores := rfl
@[simp] theorem delay_mem (s : State) (d : Delayed) (req : Req) (dst : Src) : (delay s d req dst).mem = s.mem := rfl
@[simp] theorem delay_spawn (s : State) (d : Delayed) (req : Req) (dst : Src) : (delay s d req dst).spawn = s.spawn := rfl
@[simp] theorem delay_fabric (s : State) (d : Delayed) (req : Req) (dst : Src) : (delay s d req dst).fabric = s.fabric := rfl
@[simp] theorem delay_regr (s : State) (d : Delayed) (req : Req) (dst : Src) : (delay s d req dst).regr = s.regr := rfl
@[simp] theorem delay_jtag (s : State) (d : Delayed) (req : Req) (dst : Src) : (delay s d req dst).jtag = s.jtag := rfl
@[simp] theorem delay_nowUs (s : State) (d : Delayed) (req : Req) (dst : Src) : (delay s d req dst).nowUs = s.nowUs := rfl
@[simp] theorem delay_out (s : State) (d : Delayed) (req : Req) (dst : Src) : (delay s d req dst).out = s.out := rfl

/-! ### `addRepair` -/

@[simp] theorem addRepair_pending (s : State) (r : Repair) : (addRepair s r).pending = s.pending := rfl
@[simp] theorem addRepair_pins (s : State) (r : Repair) : (addRepair s r).pins = s.pins := rfl
@[simp] theorem addRepair_power (s : State) (r : Repair) : (addRepair s r).power = s.power := rfl
@[simp] theorem addRepair_clock (s : State) (r : Repair) : (addRepair s r).clock = s.clock := rfl
@[simp] theorem addRepair_therm (s : State) (r : Repair) : (addRepair s r).therm = s.therm := rfl
@[simp] theorem addRepair_dict (s : State) (r : Repair) : (addRepair s r).dict = s.dict := rfl
@[simp] theorem addRepair_blobs (s : State) (r : Repair) : (addRepair s r).blobs = s.blobs := rfl
@[simp] theorem addRepair_staged (s : State) (r : Repair) : (addRepair s r).staged = s.staged := rfl
@[simp] theorem addRepair_stagedBlobs (s : State) (r : Repair) : (addRepair s r).stagedBlobs = s.stagedBlobs := rfl
@[simp] theorem addRepair_nv (s : State) (r : Repair) : (addRepair s r).nv = { s.nv with repair := s.nv.repair ++ [r] } := rfl
@[simp] theorem addRepair_mgmt (s : State) (r : Repair) : (addRepair s r).mgmt = s.mgmt := rfl
@[simp] theorem addRepair_fw (s : State) (r : Repair) : (addRepair s r).fw = s.fw := rfl
@[simp] theorem addRepair_iqs (s : State) (r : Repair) : (addRepair s r).iqs = s.iqs := rfl
@[simp] theorem addRepair_cqs (s : State) (r : Repair) : (addRepair s r).cqs = s.cqs := rfl
@[simp] theorem addRepair_parts (s : State) (r : Repair) : (addRepair s r).parts = s.parts := rfl
@[simp] theorem addRepair_eps (s : State) (r : Repair) : (addRepair s r).eps = s.eps := rfl
@[simp] theorem addRepair_fns (s : State) (r : Repair) : (addRepair s r).fns = s.fns := rfl
@[simp] theorem addRepair_hostHeld (s : State) (r : Repair) : (addRepair s r).hostHeld = s.hostHeld := rfl
@[simp] theorem addRepair_outRecords (s : State) (r : Repair) : (addRepair s r).outRecords = s.outRecords := rfl
@[simp] theorem addRepair_weir (s : State) (r : Repair) : (addRepair s r).weir = s.weir := rfl
@[simp] theorem addRepair_cores (s : State) (r : Repair) : (addRepair s r).cores = s.cores := rfl
@[simp] theorem addRepair_mem (s : State) (r : Repair) : (addRepair s r).mem = s.mem := rfl
@[simp] theorem addRepair_spawn (s : State) (r : Repair) : (addRepair s r).spawn = s.spawn := rfl
@[simp] theorem addRepair_fabric (s : State) (r : Repair) : (addRepair s r).fabric = s.fabric := rfl
@[simp] theorem addRepair_regr (s : State) (r : Repair) : (addRepair s r).regr = s.regr := rfl
@[simp] theorem addRepair_jtag (s : State) (r : Repair) : (addRepair s r).jtag = s.jtag := rfl
@[simp] theorem addRepair_nowUs (s : State) (r : Repair) : (addRepair s r).nowUs = s.nowUs := rfl
@[simp] theorem addRepair_out (s : State) (r : Repair) : (addRepair s r).out = s.out := rfl

/-! ### `setV48` -/

@[simp] theorem setV48_pending (s : State) (mv : Nat) : (setV48 s mv).pending = s.pending := rfl
@[simp] theorem setV48_pins (s : State) (mv : Nat) : (setV48 s mv).pins = { s.pins with v48Mv := mv } := rfl
@[simp] theorem setV48_power (s : State) (mv : Nat) : (setV48 s mv).power = s.power := rfl
@[simp] theorem setV48_clock (s : State) (mv : Nat) : (setV48 s mv).clock = s.clock := rfl
@[simp] theorem setV48_therm (s : State) (mv : Nat) : (setV48 s mv).therm = s.therm := rfl
@[simp] theorem setV48_dict (s : State) (mv : Nat) : (setV48 s mv).dict = s.dict := rfl
@[simp] theorem setV48_blobs (s : State) (mv : Nat) : (setV48 s mv).blobs = s.blobs := rfl
@[simp] theorem setV48_staged (s : State) (mv : Nat) : (setV48 s mv).staged = s.staged := rfl
@[simp] theorem setV48_stagedBlobs (s : State) (mv : Nat) : (setV48 s mv).stagedBlobs = s.stagedBlobs := rfl
@[simp] theorem setV48_nv (s : State) (mv : Nat) : (setV48 s mv).nv = s.nv := rfl
@[simp] theorem setV48_mgmt (s : State) (mv : Nat) : (setV48 s mv).mgmt = s.mgmt := rfl
@[simp] theorem setV48_fw (s : State) (mv : Nat) : (setV48 s mv).fw = s.fw := rfl
@[simp] theorem setV48_iqs (s : State) (mv : Nat) : (setV48 s mv).iqs = s.iqs := rfl
@[simp] theorem setV48_cqs (s : State) (mv : Nat) : (setV48 s mv).cqs = s.cqs := rfl
@[simp] theorem setV48_parts (s : State) (mv : Nat) : (setV48 s mv).parts = s.parts := rfl
@[simp] theorem setV48_eps (s : State) (mv : Nat) : (setV48 s mv).eps = s.eps := rfl
@[simp] theorem setV48_fns (s : State) (mv : Nat) : (setV48 s mv).fns = s.fns := rfl
@[simp] theorem setV48_hostHeld (s : State) (mv : Nat) : (setV48 s mv).hostHeld = s.hostHeld := rfl
@[simp] theorem setV48_outRecords (s : State) (mv : Nat) : (setV48 s mv).outRecords = s.outRecords := rfl
@[simp] theorem setV48_weir (s : State) (mv : Nat) : (setV48 s mv).weir = s.weir := rfl
@[simp] theorem setV48_cores (s : State) (mv : Nat) : (setV48 s mv).cores = s.cores := rfl
@[simp] theorem setV48_mem (s : State) (mv : Nat) : (setV48 s mv).mem = s.mem := rfl
@[simp] theorem setV48_spawn (s : State) (mv : Nat) : (setV48 s mv).spawn = s.spawn := rfl
@[simp] theorem setV48_fabric (s : State) (mv : Nat) : (setV48 s mv).fabric = s.fabric := rfl
@[simp] theorem setV48_regr (s : State) (mv : Nat) : (setV48 s mv).regr = s.regr := rfl
@[simp] theorem setV48_jtag (s : State) (mv : Nat) : (setV48 s mv).jtag = s.jtag := rfl
@[simp] theorem setV48_nowUs (s : State) (mv : Nat) : (setV48 s mv).nowUs = s.nowUs := rfl
@[simp] theorem setV48_out (s : State) (mv : Nat) : (setV48 s mv).out = s.out := rfl

/-! ### `setOp` -/

@[simp] theorem setOp_pending (s : State) (o : Op) : (setOp s o).pending = s.pending := rfl
@[simp] theorem setOp_pins (s : State) (o : Op) : (setOp s o).pins = s.pins := rfl
@[simp] theorem setOp_power (s : State) (o : Op) : (setOp s o).power = s.power := rfl
@[simp] theorem setOp_clock (s : State) (o : Op) : (setOp s o).clock = s.clock := rfl
@[simp] theorem setOp_therm (s : State) (o : Op) : (setOp s o).therm = s.therm := rfl
@[simp] theorem setOp_dict (s : State) (o : Op) : (setOp s o).dict = s.dict := rfl
@[simp] theorem setOp_blobs (s : State) (o : Op) : (setOp s o).blobs = s.blobs := rfl
@[simp] theorem setOp_staged (s : State) (o : Op) : (setOp s o).staged = s.staged := rfl
@[simp] theorem setOp_stagedBlobs (s : State) (o : Op) : (setOp s o).stagedBlobs = s.stagedBlobs := rfl
@[simp] theorem setOp_nv (s : State) (o : Op) : (setOp s o).nv = s.nv := rfl
@[simp] theorem setOp_mgmt (s : State) (o : Op) : (setOp s o).mgmt = s.mgmt := rfl
@[simp] theorem setOp_fw (s : State) (o : Op) : (setOp s o).fw = s.fw := rfl
@[simp] theorem setOp_iqs (s : State) (o : Op) : (setOp s o).iqs = s.iqs := rfl
@[simp] theorem setOp_cqs (s : State) (o : Op) : (setOp s o).cqs = s.cqs := rfl
@[simp] theorem setOp_parts (s : State) (o : Op) : (setOp s o).parts = s.parts := rfl
@[simp] theorem setOp_eps (s : State) (o : Op) : (setOp s o).eps = s.eps := rfl
@[simp] theorem setOp_fns (s : State) (o : Op) : (setOp s o).fns = s.fns := rfl
@[simp] theorem setOp_hostHeld (s : State) (o : Op) : (setOp s o).hostHeld = s.hostHeld := rfl
@[simp] theorem setOp_outRecords (s : State) (o : Op) : (setOp s o).outRecords = s.outRecords := rfl
@[simp] theorem setOp_weir (s : State) (o : Op) : (setOp s o).weir = { s.weir with ops := replaceOp o s.weir.ops } := rfl
@[simp] theorem setOp_cores (s : State) (o : Op) : (setOp s o).cores = s.cores := rfl
@[simp] theorem setOp_mem (s : State) (o : Op) : (setOp s o).mem = s.mem := rfl
@[simp] theorem setOp_spawn (s : State) (o : Op) : (setOp s o).spawn = s.spawn := rfl
@[simp] theorem setOp_fabric (s : State) (o : Op) : (setOp s o).fabric = s.fabric := rfl
@[simp] theorem setOp_regr (s : State) (o : Op) : (setOp s o).regr = s.regr := rfl
@[simp] theorem setOp_jtag (s : State) (o : Op) : (setOp s o).jtag = s.jtag := rfl
@[simp] theorem setOp_nowUs (s : State) (o : Op) : (setOp s o).nowUs = s.nowUs := rfl
@[simp] theorem setOp_out (s : State) (o : Op) : (setOp s o).out = s.out := rfl

/-! ### `removeOp` -/

@[simp] theorem removeOp_pending (s : State) (o : Op) : (removeOp s o).pending = s.pending := rfl
@[simp] theorem removeOp_pins (s : State) (o : Op) : (removeOp s o).pins = s.pins := rfl
@[simp] theorem removeOp_power (s : State) (o : Op) : (removeOp s o).power = s.power := rfl
@[simp] theorem removeOp_clock (s : State) (o : Op) : (removeOp s o).clock = s.clock := rfl
@[simp] theorem removeOp_therm (s : State) (o : Op) : (removeOp s o).therm = s.therm := rfl
@[simp] theorem removeOp_dict (s : State) (o : Op) : (removeOp s o).dict = s.dict := rfl
@[simp] theorem removeOp_blobs (s : State) (o : Op) : (removeOp s o).blobs = s.blobs := rfl
@[simp] theorem removeOp_staged (s : State) (o : Op) : (removeOp s o).staged = s.staged := rfl
@[simp] theorem removeOp_stagedBlobs (s : State) (o : Op) : (removeOp s o).stagedBlobs = s.stagedBlobs := rfl
@[simp] theorem removeOp_nv (s : State) (o : Op) : (removeOp s o).nv = s.nv := rfl
@[simp] theorem removeOp_mgmt (s : State) (o : Op) : (removeOp s o).mgmt = s.mgmt := rfl
@[simp] theorem removeOp_fw (s : State) (o : Op) : (removeOp s o).fw = s.fw := rfl
@[simp] theorem removeOp_iqs (s : State) (o : Op) : (removeOp s o).iqs = s.iqs := rfl
@[simp] theorem removeOp_cqs (s : State) (o : Op) : (removeOp s o).cqs = s.cqs := rfl
@[simp] theorem removeOp_parts (s : State) (o : Op) : (removeOp s o).parts = s.parts := rfl
@[simp] theorem removeOp_eps (s : State) (o : Op) : (removeOp s o).eps = s.eps := rfl
@[simp] theorem removeOp_fns (s : State) (o : Op) : (removeOp s o).fns = s.fns := rfl
@[simp] theorem removeOp_hostHeld (s : State) (o : Op) : (removeOp s o).hostHeld = s.hostHeld := rfl
@[simp] theorem removeOp_outRecords (s : State) (o : Op) : (removeOp s o).outRecords = s.outRecords := rfl
@[simp] theorem removeOp_weir (s : State) (o : Op) : (removeOp s o).weir = { s.weir with ops := s.weir.ops.filter (fun x => x.id != o.id) } := rfl
@[simp] theorem removeOp_cores (s : State) (o : Op) : (removeOp s o).cores = s.cores := rfl
@[simp] theorem removeOp_mem (s : State) (o : Op) : (removeOp s o).mem = s.mem := rfl
@[simp] theorem removeOp_spawn (s : State) (o : Op) : (removeOp s o).spawn = s.spawn := rfl
@[simp] theorem removeOp_fabric (s : State) (o : Op) : (removeOp s o).fabric = s.fabric := rfl
@[simp] theorem removeOp_regr (s : State) (o : Op) : (removeOp s o).regr = s.regr := rfl
@[simp] theorem removeOp_jtag (s : State) (o : Op) : (removeOp s o).jtag = s.jtag := rfl
@[simp] theorem removeOp_nowUs (s : State) (o : Op) : (removeOp s o).nowUs = s.nowUs := rfl
@[simp] theorem removeOp_out (s : State) (o : Op) : (removeOp s o).out = s.out := rfl

/-! ### `drawFree` -/

@[simp] theorem drawFree_pending (s : State) : (drawFree s).pending = s.pending := rfl
@[simp] theorem drawFree_pins (s : State) : (drawFree s).pins = s.pins := rfl
@[simp] theorem drawFree_power (s : State) : (drawFree s).power = s.power := rfl
@[simp] theorem drawFree_clock (s : State) : (drawFree s).clock = s.clock := rfl
@[simp] theorem drawFree_therm (s : State) : (drawFree s).therm = s.therm := rfl
@[simp] theorem drawFree_dict (s : State) : (drawFree s).dict = s.dict := rfl
@[simp] theorem drawFree_blobs (s : State) : (drawFree s).blobs = s.blobs := rfl
@[simp] theorem drawFree_staged (s : State) : (drawFree s).staged = s.staged := rfl
@[simp] theorem drawFree_stagedBlobs (s : State) : (drawFree s).stagedBlobs = s.stagedBlobs := rfl
@[simp] theorem drawFree_nv (s : State) : (drawFree s).nv = s.nv := rfl
@[simp] theorem drawFree_mgmt (s : State) : (drawFree s).mgmt = s.mgmt := rfl
@[simp] theorem drawFree_fw (s : State) : (drawFree s).fw = s.fw := rfl
@[simp] theorem drawFree_iqs (s : State) : (drawFree s).iqs = s.iqs := rfl
@[simp] theorem drawFree_cqs (s : State) : (drawFree s).cqs = s.cqs := rfl
@[simp] theorem drawFree_parts (s : State) : (drawFree s).parts = s.parts := rfl
@[simp] theorem drawFree_eps (s : State) : (drawFree s).eps = s.eps := rfl
@[simp] theorem drawFree_fns (s : State) : (drawFree s).fns = s.fns := rfl
@[simp] theorem drawFree_hostHeld (s : State) : (drawFree s).hostHeld = s.hostHeld := rfl
@[simp] theorem drawFree_outRecords (s : State) : (drawFree s).outRecords = s.outRecords := rfl
@[simp] theorem drawFree_weir (s : State) : (drawFree s).weir = s.weir := rfl
@[simp] theorem drawFree_cores (s : State) : (drawFree s).cores = s.cores := rfl
@[simp] theorem drawFree_mem (s : State) : (drawFree s).mem = { s.mem with free := s.mem.free + 1 } := rfl
@[simp] theorem drawFree_spawn (s : State) : (drawFree s).spawn = s.spawn := rfl
@[simp] theorem drawFree_fabric (s : State) : (drawFree s).fabric = s.fabric := rfl
@[simp] theorem drawFree_regr (s : State) : (drawFree s).regr = s.regr := rfl
@[simp] theorem drawFree_jtag (s : State) : (drawFree s).jtag = s.jtag := rfl
@[simp] theorem drawFree_nowUs (s : State) : (drawFree s).nowUs = s.nowUs := rfl
@[simp] theorem drawFree_out (s : State) : (drawFree s).out = s.out := rfl

/-! ### `putCells` -/

@[simp] theorem putCells_pending (s : State) (a : Nat) (b : List Byte) : (putCells s a b).pending = s.pending := rfl
@[simp] theorem putCells_pins (s : State) (a : Nat) (b : List Byte) : (putCells s a b).pins = s.pins := rfl
@[simp] theorem putCells_power (s : State) (a : Nat) (b : List Byte) : (putCells s a b).power = s.power := rfl
@[simp] theorem putCells_clock (s : State) (a : Nat) (b : List Byte) : (putCells s a b).clock = s.clock := rfl
@[simp] theorem putCells_therm (s : State) (a : Nat) (b : List Byte) : (putCells s a b).therm = s.therm := rfl
@[simp] theorem putCells_dict (s : State) (a : Nat) (b : List Byte) : (putCells s a b).dict = s.dict := rfl
@[simp] theorem putCells_blobs (s : State) (a : Nat) (b : List Byte) : (putCells s a b).blobs = s.blobs := rfl
@[simp] theorem putCells_staged (s : State) (a : Nat) (b : List Byte) : (putCells s a b).staged = s.staged := rfl
@[simp] theorem putCells_stagedBlobs (s : State) (a : Nat) (b : List Byte) : (putCells s a b).stagedBlobs = s.stagedBlobs := rfl
@[simp] theorem putCells_nv (s : State) (a : Nat) (b : List Byte) : (putCells s a b).nv = s.nv := rfl
@[simp] theorem putCells_mgmt (s : State) (a : Nat) (b : List Byte) : (putCells s a b).mgmt = s.mgmt := rfl
@[simp] theorem putCells_fw (s : State) (a : Nat) (b : List Byte) : (putCells s a b).fw = s.fw := rfl
@[simp] theorem putCells_iqs (s : State) (a : Nat) (b : List Byte) : (putCells s a b).iqs = s.iqs := rfl
@[simp] theorem putCells_cqs (s : State) (a : Nat) (b : List Byte) : (putCells s a b).cqs = s.cqs := rfl
@[simp] theorem putCells_parts (s : State) (a : Nat) (b : List Byte) : (putCells s a b).parts = s.parts := rfl
@[simp] theorem putCells_eps (s : State) (a : Nat) (b : List Byte) : (putCells s a b).eps = s.eps := rfl
@[simp] theorem putCells_fns (s : State) (a : Nat) (b : List Byte) : (putCells s a b).fns = s.fns := rfl
@[simp] theorem putCells_hostHeld (s : State) (a : Nat) (b : List Byte) : (putCells s a b).hostHeld = s.hostHeld := rfl
@[simp] theorem putCells_outRecords (s : State) (a : Nat) (b : List Byte) : (putCells s a b).outRecords = s.outRecords := rfl
@[simp] theorem putCells_weir (s : State) (a : Nat) (b : List Byte) : (putCells s a b).weir = s.weir := rfl
@[simp] theorem putCells_cores (s : State) (a : Nat) (b : List Byte) : (putCells s a b).cores = s.cores := rfl
@[simp] theorem putCells_mem (s : State) (a : Nat) (b : List Byte) : (putCells s a b).mem = putRun s.mem a b := rfl
@[simp] theorem putCells_spawn (s : State) (a : Nat) (b : List Byte) : (putCells s a b).spawn = s.spawn := rfl
@[simp] theorem putCells_fabric (s : State) (a : Nat) (b : List Byte) : (putCells s a b).fabric = s.fabric := rfl
@[simp] theorem putCells_regr (s : State) (a : Nat) (b : List Byte) : (putCells s a b).regr = s.regr := rfl
@[simp] theorem putCells_jtag (s : State) (a : Nat) (b : List Byte) : (putCells s a b).jtag = s.jtag := rfl
@[simp] theorem putCells_nowUs (s : State) (a : Nat) (b : List Byte) : (putCells s a b).nowUs = s.nowUs := rfl
@[simp] theorem putCells_out (s : State) (a : Nat) (b : List Byte) : (putCells s a b).out = s.out := rfl

/-! ### `landPosted` -/

@[simp] theorem landPosted_pending (s : State) (fn : Nat) (w : Posted) : (landPosted fn s w).pending = s.pending := rfl
@[simp] theorem landPosted_pins (s : State) (fn : Nat) (w : Posted) : (landPosted fn s w).pins = s.pins := rfl
@[simp] theorem landPosted_power (s : State) (fn : Nat) (w : Posted) : (landPosted fn s w).power = s.power := rfl
@[simp] theorem landPosted_clock (s : State) (fn : Nat) (w : Posted) : (landPosted fn s w).clock = s.clock := rfl
@[simp] theorem landPosted_therm (s : State) (fn : Nat) (w : Posted) : (landPosted fn s w).therm = s.therm := rfl
@[simp] theorem landPosted_dict (s : State) (fn : Nat) (w : Posted) : (landPosted fn s w).dict = s.dict := rfl
@[simp] theorem landPosted_blobs (s : State) (fn : Nat) (w : Posted) : (landPosted fn s w).blobs = s.blobs := rfl
@[simp] theorem landPosted_staged (s : State) (fn : Nat) (w : Posted) : (landPosted fn s w).staged = s.staged := rfl
@[simp] theorem landPosted_stagedBlobs (s : State) (fn : Nat) (w : Posted) : (landPosted fn s w).stagedBlobs = s.stagedBlobs := rfl
@[simp] theorem landPosted_nv (s : State) (fn : Nat) (w : Posted) : (landPosted fn s w).nv = s.nv := rfl
@[simp] theorem landPosted_mgmt (s : State) (fn : Nat) (w : Posted) : (landPosted fn s w).mgmt = s.mgmt := rfl
@[simp] theorem landPosted_fw (s : State) (fn : Nat) (w : Posted) : (landPosted fn s w).fw = s.fw := rfl
@[simp] theorem landPosted_iqs (s : State) (fn : Nat) (w : Posted) : (landPosted fn s w).iqs = s.iqs := rfl
@[simp] theorem landPosted_cqs (s : State) (fn : Nat) (w : Posted) : (landPosted fn s w).cqs = s.cqs := rfl
@[simp] theorem landPosted_parts (s : State) (fn : Nat) (w : Posted) : (landPosted fn s w).parts = s.parts := rfl
@[simp] theorem landPosted_eps (s : State) (fn : Nat) (w : Posted) : (landPosted fn s w).eps = s.eps := rfl
@[simp] theorem landPosted_fns (s : State) (fn : Nat) (w : Posted) : (landPosted fn s w).fns = s.fns := rfl
@[simp] theorem landPosted_hostHeld (s : State) (fn : Nat) (w : Posted) : (landPosted fn s w).hostHeld = s.hostHeld := rfl
@[simp] theorem landPosted_outRecords (s : State) (fn : Nat) (w : Posted) : (landPosted fn s w).outRecords = s.outRecords := rfl
@[simp] theorem landPosted_weir (s : State) (fn : Nat) (w : Posted) : (landPosted fn s w).weir = s.weir := rfl
@[simp] theorem landPosted_cores (s : State) (fn : Nat) (w : Posted) : (landPosted fn s w).cores = s.cores := rfl
@[simp] theorem landPosted_mem (s : State) (fn : Nat) (w : Posted) : (landPosted fn s w).mem = { s.mem with host := tabPutAll s.mem.host (fn * 2 ^ 60 + w.addr % 2 ^ 60) w.bytes } := rfl
@[simp] theorem landPosted_spawn (s : State) (fn : Nat) (w : Posted) : (landPosted fn s w).spawn = s.spawn := rfl
@[simp] theorem landPosted_fabric (s : State) (fn : Nat) (w : Posted) : (landPosted fn s w).fabric = s.fabric := rfl
@[simp] theorem landPosted_regr (s : State) (fn : Nat) (w : Posted) : (landPosted fn s w).regr = s.regr := rfl
@[simp] theorem landPosted_jtag (s : State) (fn : Nat) (w : Posted) : (landPosted fn s w).jtag = s.jtag := rfl
@[simp] theorem landPosted_nowUs (s : State) (fn : Nat) (w : Posted) : (landPosted fn s w).nowUs = s.nowUs := rfl
@[simp] theorem landPosted_out (s : State) (fn : Nat) (w : Posted) : (landPosted fn s w).out = s.out := rfl

/-! ### `poisonLine` -/

@[simp] theorem poisonLine_pending (s : State) (l : Nat) : (poisonLine s l).pending = s.pending := rfl
@[simp] theorem poisonLine_pins (s : State) (l : Nat) : (poisonLine s l).pins = s.pins := rfl
@[simp] theorem poisonLine_power (s : State) (l : Nat) : (poisonLine s l).power = s.power := rfl
@[simp] theorem poisonLine_clock (s : State) (l : Nat) : (poisonLine s l).clock = s.clock := rfl
@[simp] theorem poisonLine_therm (s : State) (l : Nat) : (poisonLine s l).therm = s.therm := rfl
@[simp] theorem poisonLine_dict (s : State) (l : Nat) : (poisonLine s l).dict = s.dict := rfl
@[simp] theorem poisonLine_blobs (s : State) (l : Nat) : (poisonLine s l).blobs = s.blobs := rfl
@[simp] theorem poisonLine_staged (s : State) (l : Nat) : (poisonLine s l).staged = s.staged := rfl
@[simp] theorem poisonLine_stagedBlobs (s : State) (l : Nat) : (poisonLine s l).stagedBlobs = s.stagedBlobs := rfl
@[simp] theorem poisonLine_nv (s : State) (l : Nat) : (poisonLine s l).nv = s.nv := rfl
@[simp] theorem poisonLine_mgmt (s : State) (l : Nat) : (poisonLine s l).mgmt = s.mgmt := rfl
@[simp] theorem poisonLine_fw (s : State) (l : Nat) : (poisonLine s l).fw = s.fw := rfl
@[simp] theorem poisonLine_iqs (s : State) (l : Nat) : (poisonLine s l).iqs = s.iqs := rfl
@[simp] theorem poisonLine_cqs (s : State) (l : Nat) : (poisonLine s l).cqs = s.cqs := rfl
@[simp] theorem poisonLine_parts (s : State) (l : Nat) : (poisonLine s l).parts = s.parts := rfl
@[simp] theorem poisonLine_eps (s : State) (l : Nat) : (poisonLine s l).eps = s.eps := rfl
@[simp] theorem poisonLine_fns (s : State) (l : Nat) : (poisonLine s l).fns = s.fns := rfl
@[simp] theorem poisonLine_hostHeld (s : State) (l : Nat) : (poisonLine s l).hostHeld = s.hostHeld := rfl
@[simp] theorem poisonLine_outRecords (s : State) (l : Nat) : (poisonLine s l).outRecords = s.outRecords := rfl
@[simp] theorem poisonLine_weir (s : State) (l : Nat) : (poisonLine s l).weir = s.weir := rfl
@[simp] theorem poisonLine_cores (s : State) (l : Nat) : (poisonLine s l).cores = s.cores := rfl
@[simp] theorem poisonLine_mem (s : State) (l : Nat) : (poisonLine s l).mem = { s.mem with poison := insertAsc s.mem.poison l } := rfl
@[simp] theorem poisonLine_spawn (s : State) (l : Nat) : (poisonLine s l).spawn = s.spawn := rfl
@[simp] theorem poisonLine_fabric (s : State) (l : Nat) : (poisonLine s l).fabric = s.fabric := rfl
@[simp] theorem poisonLine_regr (s : State) (l : Nat) : (poisonLine s l).regr = s.regr := rfl
@[simp] theorem poisonLine_jtag (s : State) (l : Nat) : (poisonLine s l).jtag = s.jtag := rfl
@[simp] theorem poisonLine_nowUs (s : State) (l : Nat) : (poisonLine s l).nowUs = s.nowUs := rfl
@[simp] theorem poisonLine_out (s : State) (l : Nat) : (poisonLine s l).out = s.out := rfl

/-! ### `cleanLine` -/

@[simp] theorem cleanLine_pending (s : State) (l : Nat) : (cleanLine s l).pending = s.pending := rfl
@[simp] theorem cleanLine_pins (s : State) (l : Nat) : (cleanLine s l).pins = s.pins := rfl
@[simp] theorem cleanLine_power (s : State) (l : Nat) : (cleanLine s l).power = s.power := rfl
@[simp] theorem cleanLine_clock (s : State) (l : Nat) : (cleanLine s l).clock = s.clock := rfl
@[simp] theorem cleanLine_therm (s : State) (l : Nat) : (cleanLine s l).therm = s.therm := rfl
@[simp] theorem cleanLine_dict (s : State) (l : Nat) : (cleanLine s l).dict = s.dict := rfl
@[simp] theorem cleanLine_blobs (s : State) (l : Nat) : (cleanLine s l).blobs = s.blobs := rfl
@[simp] theorem cleanLine_staged (s : State) (l : Nat) : (cleanLine s l).staged = s.staged := rfl
@[simp] theorem cleanLine_stagedBlobs (s : State) (l : Nat) : (cleanLine s l).stagedBlobs = s.stagedBlobs := rfl
@[simp] theorem cleanLine_nv (s : State) (l : Nat) : (cleanLine s l).nv = s.nv := rfl
@[simp] theorem cleanLine_mgmt (s : State) (l : Nat) : (cleanLine s l).mgmt = s.mgmt := rfl
@[simp] theorem cleanLine_fw (s : State) (l : Nat) : (cleanLine s l).fw = s.fw := rfl
@[simp] theorem cleanLine_iqs (s : State) (l : Nat) : (cleanLine s l).iqs = s.iqs := rfl
@[simp] theorem cleanLine_cqs (s : State) (l : Nat) : (cleanLine s l).cqs = s.cqs := rfl
@[simp] theorem cleanLine_parts (s : State) (l : Nat) : (cleanLine s l).parts = s.parts := rfl
@[simp] theorem cleanLine_eps (s : State) (l : Nat) : (cleanLine s l).eps = s.eps := rfl
@[simp] theorem cleanLine_fns (s : State) (l : Nat) : (cleanLine s l).fns = s.fns := rfl
@[simp] theorem cleanLine_hostHeld (s : State) (l : Nat) : (cleanLine s l).hostHeld = s.hostHeld := rfl
@[simp] theorem cleanLine_outRecords (s : State) (l : Nat) : (cleanLine s l).outRecords = s.outRecords := rfl
@[simp] theorem cleanLine_weir (s : State) (l : Nat) : (cleanLine s l).weir = s.weir := rfl
@[simp] theorem cleanLine_cores (s : State) (l : Nat) : (cleanLine s l).cores = s.cores := rfl
@[simp] theorem cleanLine_mem (s : State) (l : Nat) : (cleanLine s l).mem = { s.mem with poison := s.mem.poison.filter (fun x => x != l) } := rfl
@[simp] theorem cleanLine_spawn (s : State) (l : Nat) : (cleanLine s l).spawn = s.spawn := rfl
@[simp] theorem cleanLine_fabric (s : State) (l : Nat) : (cleanLine s l).fabric = s.fabric := rfl
@[simp] theorem cleanLine_regr (s : State) (l : Nat) : (cleanLine s l).regr = s.regr := rfl
@[simp] theorem cleanLine_jtag (s : State) (l : Nat) : (cleanLine s l).jtag = s.jtag := rfl
@[simp] theorem cleanLine_nowUs (s : State) (l : Nat) : (cleanLine s l).nowUs = s.nowUs := rfl
@[simp] theorem cleanLine_out (s : State) (l : Nat) : (cleanLine s l).out = s.out := rfl

/-! ### `setEddy` -/

@[simp] theorem setEddy_pending (s : State) (k : Nat) (es : List EddyEntry) : (setEddy s k es).pending = s.pending := rfl
@[simp] theorem setEddy_pins (s : State) (k : Nat) (es : List EddyEntry) : (setEddy s k es).pins = s.pins := rfl
@[simp] theorem setEddy_power (s : State) (k : Nat) (es : List EddyEntry) : (setEddy s k es).power = s.power := rfl
@[simp] theorem setEddy_clock (s : State) (k : Nat) (es : List EddyEntry) : (setEddy s k es).clock = s.clock := rfl
@[simp] theorem setEddy_therm (s : State) (k : Nat) (es : List EddyEntry) : (setEddy s k es).therm = s.therm := rfl
@[simp] theorem setEddy_dict (s : State) (k : Nat) (es : List EddyEntry) : (setEddy s k es).dict = s.dict := rfl
@[simp] theorem setEddy_blobs (s : State) (k : Nat) (es : List EddyEntry) : (setEddy s k es).blobs = s.blobs := rfl
@[simp] theorem setEddy_staged (s : State) (k : Nat) (es : List EddyEntry) : (setEddy s k es).staged = s.staged := rfl
@[simp] theorem setEddy_stagedBlobs (s : State) (k : Nat) (es : List EddyEntry) : (setEddy s k es).stagedBlobs = s.stagedBlobs := rfl
@[simp] theorem setEddy_nv (s : State) (k : Nat) (es : List EddyEntry) : (setEddy s k es).nv = s.nv := rfl
@[simp] theorem setEddy_mgmt (s : State) (k : Nat) (es : List EddyEntry) : (setEddy s k es).mgmt = s.mgmt := rfl
@[simp] theorem setEddy_fw (s : State) (k : Nat) (es : List EddyEntry) : (setEddy s k es).fw = s.fw := rfl
@[simp] theorem setEddy_iqs (s : State) (k : Nat) (es : List EddyEntry) : (setEddy s k es).iqs = s.iqs := rfl
@[simp] theorem setEddy_cqs (s : State) (k : Nat) (es : List EddyEntry) : (setEddy s k es).cqs = s.cqs := rfl
@[simp] theorem setEddy_parts (s : State) (k : Nat) (es : List EddyEntry) : (setEddy s k es).parts = s.parts := rfl
@[simp] theorem setEddy_eps (s : State) (k : Nat) (es : List EddyEntry) : (setEddy s k es).eps = s.eps := rfl
@[simp] theorem setEddy_fns (s : State) (k : Nat) (es : List EddyEntry) : (setEddy s k es).fns = s.fns := rfl
@[simp] theorem setEddy_hostHeld (s : State) (k : Nat) (es : List EddyEntry) : (setEddy s k es).hostHeld = s.hostHeld := rfl
@[simp] theorem setEddy_outRecords (s : State) (k : Nat) (es : List EddyEntry) : (setEddy s k es).outRecords = s.outRecords := rfl
@[simp] theorem setEddy_weir (s : State) (k : Nat) (es : List EddyEntry) : (setEddy s k es).weir = s.weir := rfl
@[simp] theorem setEddy_cores (s : State) (k : Nat) (es : List EddyEntry) : (setEddy s k es).cores = s.cores := rfl
@[simp] theorem setEddy_mem (s : State) (k : Nat) (es : List EddyEntry) : (setEddy s k es).mem = { s.mem with eddies := tabPut s.mem.eddies k es } := rfl
@[simp] theorem setEddy_spawn (s : State) (k : Nat) (es : List EddyEntry) : (setEddy s k es).spawn = s.spawn := rfl
@[simp] theorem setEddy_fabric (s : State) (k : Nat) (es : List EddyEntry) : (setEddy s k es).fabric = s.fabric := rfl
@[simp] theorem setEddy_regr (s : State) (k : Nat) (es : List EddyEntry) : (setEddy s k es).regr = s.regr := rfl
@[simp] theorem setEddy_jtag (s : State) (k : Nat) (es : List EddyEntry) : (setEddy s k es).jtag = s.jtag := rfl
@[simp] theorem setEddy_nowUs (s : State) (k : Nat) (es : List EddyEntry) : (setEddy s k es).nowUs = s.nowUs := rfl
@[simp] theorem setEddy_out (s : State) (k : Nat) (es : List EddyEntry) : (setEddy s k es).out = s.out := rfl

/-! ### `endJob` -/

@[simp] theorem endJob_pending (s : State) (j : RegrJob) : (endJob s j).pending = s.pending := rfl
@[simp] theorem endJob_pins (s : State) (j : RegrJob) : (endJob s j).pins = s.pins := rfl
@[simp] theorem endJob_power (s : State) (j : RegrJob) : (endJob s j).power = s.power := rfl
@[simp] theorem endJob_clock (s : State) (j : RegrJob) : (endJob s j).clock = s.clock := rfl
@[simp] theorem endJob_therm (s : State) (j : RegrJob) : (endJob s j).therm = s.therm := rfl
@[simp] theorem endJob_dict (s : State) (j : RegrJob) : (endJob s j).dict = s.dict := rfl
@[simp] theorem endJob_blobs (s : State) (j : RegrJob) : (endJob s j).blobs = s.blobs := rfl
@[simp] theorem endJob_staged (s : State) (j : RegrJob) : (endJob s j).staged = s.staged := rfl
@[simp] theorem endJob_stagedBlobs (s : State) (j : RegrJob) : (endJob s j).stagedBlobs = s.stagedBlobs := rfl
@[simp] theorem endJob_nv (s : State) (j : RegrJob) : (endJob s j).nv = s.nv := rfl
@[simp] theorem endJob_mgmt (s : State) (j : RegrJob) : (endJob s j).mgmt = s.mgmt := rfl
@[simp] theorem endJob_fw (s : State) (j : RegrJob) : (endJob s j).fw = s.fw := rfl
@[simp] theorem endJob_iqs (s : State) (j : RegrJob) : (endJob s j).iqs = s.iqs := rfl
@[simp] theorem endJob_cqs (s : State) (j : RegrJob) : (endJob s j).cqs = s.cqs := rfl
@[simp] theorem endJob_parts (s : State) (j : RegrJob) : (endJob s j).parts = s.parts := rfl
@[simp] theorem endJob_eps (s : State) (j : RegrJob) : (endJob s j).eps = s.eps := rfl
@[simp] theorem endJob_fns (s : State) (j : RegrJob) : (endJob s j).fns = s.fns := rfl
@[simp] theorem endJob_hostHeld (s : State) (j : RegrJob) : (endJob s j).hostHeld = s.hostHeld := rfl
@[simp] theorem endJob_outRecords (s : State) (j : RegrJob) : (endJob s j).outRecords = s.outRecords := rfl
@[simp] theorem endJob_weir (s : State) (j : RegrJob) : (endJob s j).weir = s.weir := rfl
@[simp] theorem endJob_cores (s : State) (j : RegrJob) : (endJob s j).cores = s.cores := rfl
@[simp] theorem endJob_mem (s : State) (j : RegrJob) : (endJob s j).mem = s.mem := rfl
@[simp] theorem endJob_spawn (s : State) (j : RegrJob) : (endJob s j).spawn = s.spawn := rfl
@[simp] theorem endJob_fabric (s : State) (j : RegrJob) : (endJob s j).fabric = s.fabric := rfl
@[simp] theorem endJob_regr (s : State) (j : RegrJob) : (endJob s j).regr = { s.regr with jobs := s.regr.jobs.filter (fun x => x != j) } := rfl
@[simp] theorem endJob_jtag (s : State) (j : RegrJob) : (endJob s j).jtag = s.jtag := rfl
@[simp] theorem endJob_nowUs (s : State) (j : RegrJob) : (endJob s j).nowUs = s.nowUs := rfl
@[simp] theorem endJob_out (s : State) (j : RegrJob) : (endJob s j).out = s.out := rfl

/-! ### `holdBack` -/

@[simp] theorem holdBack_pending (s : State) (w : Waiting) : (holdBack s w).pending = s.pending := rfl
@[simp] theorem holdBack_pins (s : State) (w : Waiting) : (holdBack s w).pins = s.pins := rfl
@[simp] theorem holdBack_power (s : State) (w : Waiting) : (holdBack s w).power = s.power := rfl
@[simp] theorem holdBack_clock (s : State) (w : Waiting) : (holdBack s w).clock = s.clock := rfl
@[simp] theorem holdBack_therm (s : State) (w : Waiting) : (holdBack s w).therm = s.therm := rfl
@[simp] theorem holdBack_dict (s : State) (w : Waiting) : (holdBack s w).dict = s.dict := rfl
@[simp] theorem holdBack_blobs (s : State) (w : Waiting) : (holdBack s w).blobs = s.blobs := rfl
@[simp] theorem holdBack_staged (s : State) (w : Waiting) : (holdBack s w).staged = s.staged := rfl
@[simp] theorem holdBack_stagedBlobs (s : State) (w : Waiting) : (holdBack s w).stagedBlobs = s.stagedBlobs := rfl
@[simp] theorem holdBack_nv (s : State) (w : Waiting) : (holdBack s w).nv = s.nv := rfl
@[simp] theorem holdBack_mgmt (s : State) (w : Waiting) : (holdBack s w).mgmt = s.mgmt := rfl
@[simp] theorem holdBack_fw (s : State) (w : Waiting) : (holdBack s w).fw = s.fw := rfl
@[simp] theorem holdBack_iqs (s : State) (w : Waiting) : (holdBack s w).iqs = s.iqs := rfl
@[simp] theorem holdBack_cqs (s : State) (w : Waiting) : (holdBack s w).cqs = s.cqs := rfl
@[simp] theorem holdBack_parts (s : State) (w : Waiting) : (holdBack s w).parts = s.parts := rfl
@[simp] theorem holdBack_eps (s : State) (w : Waiting) : (holdBack s w).eps = s.eps := rfl
@[simp] theorem holdBack_fns (s : State) (w : Waiting) : (holdBack s w).fns = s.fns := rfl
@[simp] theorem holdBack_hostHeld (s : State) (w : Waiting) : (holdBack s w).hostHeld = s.hostHeld := rfl
@[simp] theorem holdBack_outRecords (s : State) (w : Waiting) : (holdBack s w).outRecords = s.outRecords := rfl
@[simp] theorem holdBack_weir (s : State) (w : Waiting) : (holdBack s w).weir = s.weir := rfl
@[simp] theorem holdBack_cores (s : State) (w : Waiting) : (holdBack s w).cores = s.cores := rfl
@[simp] theorem holdBack_mem (s : State) (w : Waiting) : (holdBack s w).mem = s.mem := rfl
@[simp] theorem holdBack_spawn (s : State) (w : Waiting) : (holdBack s w).spawn = s.spawn := rfl
@[simp] theorem holdBack_fabric (s : State) (w : Waiting) : (holdBack s w).fabric = { s.fabric with stuck := s.fabric.stuck ++ [w] } := rfl
@[simp] theorem holdBack_regr (s : State) (w : Waiting) : (holdBack s w).regr = s.regr := rfl
@[simp] theorem holdBack_jtag (s : State) (w : Waiting) : (holdBack s w).jtag = s.jtag := rfl
@[simp] theorem holdBack_nowUs (s : State) (w : Waiting) : (holdBack s w).nowUs = s.nowUs := rfl
@[simp] theorem holdBack_out (s : State) (w : Waiting) : (holdBack s w).out = s.out := rfl

/-! ### `setFn` -/

@[simp] theorem setFn_pending (s : State) (fn : Nat) (x : FnRec) : (setFn s fn x).pending = s.pending := rfl
@[simp] theorem setFn_pins (s : State) (fn : Nat) (x : FnRec) : (setFn s fn x).pins = s.pins := rfl
@[simp] theorem setFn_power (s : State) (fn : Nat) (x : FnRec) : (setFn s fn x).power = s.power := rfl
@[simp] theorem setFn_clock (s : State) (fn : Nat) (x : FnRec) : (setFn s fn x).clock = s.clock := rfl
@[simp] theorem setFn_therm (s : State) (fn : Nat) (x : FnRec) : (setFn s fn x).therm = s.therm := rfl
@[simp] theorem setFn_dict (s : State) (fn : Nat) (x : FnRec) : (setFn s fn x).dict = s.dict := rfl
@[simp] theorem setFn_blobs (s : State) (fn : Nat) (x : FnRec) : (setFn s fn x).blobs = s.blobs := rfl
@[simp] theorem setFn_staged (s : State) (fn : Nat) (x : FnRec) : (setFn s fn x).staged = s.staged := rfl
@[simp] theorem setFn_stagedBlobs (s : State) (fn : Nat) (x : FnRec) : (setFn s fn x).stagedBlobs = s.stagedBlobs := rfl
@[simp] theorem setFn_nv (s : State) (fn : Nat) (x : FnRec) : (setFn s fn x).nv = s.nv := rfl
@[simp] theorem setFn_mgmt (s : State) (fn : Nat) (x : FnRec) : (setFn s fn x).mgmt = s.mgmt := rfl
@[simp] theorem setFn_fw (s : State) (fn : Nat) (x : FnRec) : (setFn s fn x).fw = s.fw := rfl
@[simp] theorem setFn_iqs (s : State) (fn : Nat) (x : FnRec) : (setFn s fn x).iqs = s.iqs := rfl
@[simp] theorem setFn_cqs (s : State) (fn : Nat) (x : FnRec) : (setFn s fn x).cqs = s.cqs := rfl
@[simp] theorem setFn_parts (s : State) (fn : Nat) (x : FnRec) : (setFn s fn x).parts = s.parts := rfl
@[simp] theorem setFn_eps (s : State) (fn : Nat) (x : FnRec) : (setFn s fn x).eps = s.eps := rfl
@[simp] theorem setFn_fns (s : State) (fn : Nat) (x : FnRec) : (setFn s fn x).fns = tabPut s.fns fn x := rfl
@[simp] theorem setFn_hostHeld (s : State) (fn : Nat) (x : FnRec) : (setFn s fn x).hostHeld = s.hostHeld := rfl
@[simp] theorem setFn_outRecords (s : State) (fn : Nat) (x : FnRec) : (setFn s fn x).outRecords = s.outRecords := rfl
@[simp] theorem setFn_weir (s : State) (fn : Nat) (x : FnRec) : (setFn s fn x).weir = s.weir := rfl
@[simp] theorem setFn_cores (s : State) (fn : Nat) (x : FnRec) : (setFn s fn x).cores = s.cores := rfl
@[simp] theorem setFn_mem (s : State) (fn : Nat) (x : FnRec) : (setFn s fn x).mem = s.mem := rfl
@[simp] theorem setFn_spawn (s : State) (fn : Nat) (x : FnRec) : (setFn s fn x).spawn = s.spawn := rfl
@[simp] theorem setFn_fabric (s : State) (fn : Nat) (x : FnRec) : (setFn s fn x).fabric = s.fabric := rfl
@[simp] theorem setFn_regr (s : State) (fn : Nat) (x : FnRec) : (setFn s fn x).regr = s.regr := rfl
@[simp] theorem setFn_jtag (s : State) (fn : Nat) (x : FnRec) : (setFn s fn x).jtag = s.jtag := rfl
@[simp] theorem setFn_nowUs (s : State) (fn : Nat) (x : FnRec) : (setFn s fn x).nowUs = s.nowUs := rfl
@[simp] theorem setFn_out (s : State) (fn : Nat) (x : FnRec) : (setFn s fn x).out = s.out := rfl

/-! ### `holdHost` -/

@[simp] theorem holdHost_pending (s : State) (r : HostReq) : (holdHost s r).pending = s.pending := rfl
@[simp] theorem holdHost_pins (s : State) (r : HostReq) : (holdHost s r).pins = s.pins := rfl
@[simp] theorem holdHost_power (s : State) (r : HostReq) : (holdHost s r).power = s.power := rfl
@[simp] theorem holdHost_clock (s : State) (r : HostReq) : (holdHost s r).clock = s.clock := rfl
@[simp] theorem holdHost_therm (s : State) (r : HostReq) : (holdHost s r).therm = s.therm := rfl
@[simp] theorem holdHost_dict (s : State) (r : HostReq) : (holdHost s r).dict = s.dict := rfl
@[simp] theorem holdHost_blobs (s : State) (r : HostReq) : (holdHost s r).blobs = s.blobs := rfl
@[simp] theorem holdHost_staged (s : State) (r : HostReq) : (holdHost s r).staged = s.staged := rfl
@[simp] theorem holdHost_stagedBlobs (s : State) (r : HostReq) : (holdHost s r).stagedBlobs = s.stagedBlobs := rfl
@[simp] theorem holdHost_nv (s : State) (r : HostReq) : (holdHost s r).nv = s.nv := rfl
@[simp] theorem holdHost_mgmt (s : State) (r : HostReq) : (holdHost s r).mgmt = s.mgmt := rfl
@[simp] theorem holdHost_fw (s : State) (r : HostReq) : (holdHost s r).fw = s.fw := rfl
@[simp] theorem holdHost_iqs (s : State) (r : HostReq) : (holdHost s r).iqs = s.iqs := rfl
@[simp] theorem holdHost_cqs (s : State) (r : HostReq) : (holdHost s r).cqs = s.cqs := rfl
@[simp] theorem holdHost_parts (s : State) (r : HostReq) : (holdHost s r).parts = s.parts := rfl
@[simp] theorem holdHost_eps (s : State) (r : HostReq) : (holdHost s r).eps = s.eps := rfl
@[simp] theorem holdHost_fns (s : State) (r : HostReq) : (holdHost s r).fns = s.fns := rfl
@[simp] theorem holdHost_hostHeld (s : State) (r : HostReq) : (holdHost s r).hostHeld = s.hostHeld ++ [r] := rfl
@[simp] theorem holdHost_outRecords (s : State) (r : HostReq) : (holdHost s r).outRecords = s.outRecords := rfl
@[simp] theorem holdHost_weir (s : State) (r : HostReq) : (holdHost s r).weir = s.weir := rfl
@[simp] theorem holdHost_cores (s : State) (r : HostReq) : (holdHost s r).cores = s.cores := rfl
@[simp] theorem holdHost_mem (s : State) (r : HostReq) : (holdHost s r).mem = s.mem := rfl
@[simp] theorem holdHost_spawn (s : State) (r : HostReq) : (holdHost s r).spawn = s.spawn := rfl
@[simp] theorem holdHost_fabric (s : State) (r : HostReq) : (holdHost s r).fabric = s.fabric := rfl
@[simp] theorem holdHost_regr (s : State) (r : HostReq) : (holdHost s r).regr = s.regr := rfl
@[simp] theorem holdHost_jtag (s : State) (r : HostReq) : (holdHost s r).jtag = s.jtag := rfl
@[simp] theorem holdHost_nowUs (s : State) (r : HostReq) : (holdHost s r).nowUs = s.nowUs := rfl
@[simp] theorem holdHost_out (s : State) (r : HostReq) : (holdHost s r).out = s.out := rfl

/-! ### `waitWrite` -/

@[simp] theorem waitWrite_pending (s : State) (w : EddyWait) : (waitWrite s w).pending = s.pending := rfl
@[simp] theorem waitWrite_pins (s : State) (w : EddyWait) : (waitWrite s w).pins = s.pins := rfl
@[simp] theorem waitWrite_power (s : State) (w : EddyWait) : (waitWrite s w).power = s.power := rfl
@[simp] theorem waitWrite_clock (s : State) (w : EddyWait) : (waitWrite s w).clock = s.clock := rfl
@[simp] theorem waitWrite_therm (s : State) (w : EddyWait) : (waitWrite s w).therm = s.therm := rfl
@[simp] theorem waitWrite_dict (s : State) (w : EddyWait) : (waitWrite s w).dict = s.dict := rfl
@[simp] theorem waitWrite_blobs (s : State) (w : EddyWait) : (waitWrite s w).blobs = s.blobs := rfl
@[simp] theorem waitWrite_staged (s : State) (w : EddyWait) : (waitWrite s w).staged = s.staged := rfl
@[simp] theorem waitWrite_stagedBlobs (s : State) (w : EddyWait) : (waitWrite s w).stagedBlobs = s.stagedBlobs := rfl
@[simp] theorem waitWrite_nv (s : State) (w : EddyWait) : (waitWrite s w).nv = s.nv := rfl
@[simp] theorem waitWrite_mgmt (s : State) (w : EddyWait) : (waitWrite s w).mgmt = s.mgmt := rfl
@[simp] theorem waitWrite_fw (s : State) (w : EddyWait) : (waitWrite s w).fw = s.fw := rfl
@[simp] theorem waitWrite_iqs (s : State) (w : EddyWait) : (waitWrite s w).iqs = s.iqs := rfl
@[simp] theorem waitWrite_cqs (s : State) (w : EddyWait) : (waitWrite s w).cqs = s.cqs := rfl
@[simp] theorem waitWrite_parts (s : State) (w : EddyWait) : (waitWrite s w).parts = s.parts := rfl
@[simp] theorem waitWrite_eps (s : State) (w : EddyWait) : (waitWrite s w).eps = s.eps := rfl
@[simp] theorem waitWrite_fns (s : State) (w : EddyWait) : (waitWrite s w).fns = s.fns := rfl
@[simp] theorem waitWrite_hostHeld (s : State) (w : EddyWait) : (waitWrite s w).hostHeld = s.hostHeld := rfl
@[simp] theorem waitWrite_outRecords (s : State) (w : EddyWait) : (waitWrite s w).outRecords = s.outRecords := rfl
@[simp] theorem waitWrite_weir (s : State) (w : EddyWait) : (waitWrite s w).weir = s.weir := rfl
@[simp] theorem waitWrite_cores (s : State) (w : EddyWait) : (waitWrite s w).cores = s.cores := rfl
@[simp] theorem waitWrite_mem (s : State) (w : EddyWait) : (waitWrite s w).mem = { s.mem with eddyWait := s.mem.eddyWait ++ [w] } := rfl
@[simp] theorem waitWrite_spawn (s : State) (w : EddyWait) : (waitWrite s w).spawn = s.spawn := rfl
@[simp] theorem waitWrite_fabric (s : State) (w : EddyWait) : (waitWrite s w).fabric = s.fabric := rfl
@[simp] theorem waitWrite_regr (s : State) (w : EddyWait) : (waitWrite s w).regr = s.regr := rfl
@[simp] theorem waitWrite_jtag (s : State) (w : EddyWait) : (waitWrite s w).jtag = s.jtag := rfl
@[simp] theorem waitWrite_nowUs (s : State) (w : EddyWait) : (waitWrite s w).nowUs = s.nowUs := rfl
@[simp] theorem waitWrite_out (s : State) (w : EddyWait) : (waitWrite s w).out = s.out := rfl

end Sys2Proof.Machine
end

