-- ==== Sys2Proof/Laws/Tables.lean ====
section
/-! SUPPORT. Sparse tables and ascending lists: what a read after a write gives, and that every operation keeps the keys
strictly rising. -/

namespace Sys2Proof.Machine

open Sys2Proof

variable {α β : Type}

@[simp] theorem tabGet?_nil (i : Nat) : tabGet? ([] : Tab α) i = none := rfl

theorem tabGet?_cons (k : Nat) (v : α) (r : Tab α) (i : Nat) :
    tabGet? ((k, v) :: r) i = if k = i then some v else tabGet? r i := rfl

/-- A key put reads as its value. -/
@[simp] theorem tabGet?_tabPut_self (t : Tab α) (i : Nat) (v : α) : tabGet? (tabPut t i v) i = some v := by
  induction t with
  | nil => simp [tabPut, tabGet?]
  | cons e r ih =>
    obtain ⟨k, u⟩ := e
    simp only [tabPut]
    split
    · simp [tabGet?]
    · split
      · simp [tabGet?]
      · simp only [tabGet?, ih]
        rw [if_neg (by omega)]

/-- Every other key reads as before. -/
theorem tabGet?_tabPut_ne (t : Tab α) {i j : Nat} (v : α) (h : j ≠ i) : tabGet? (tabPut t i v) j = tabGet? t j := by
  induction t with
  | nil => simp [tabPut, tabGet?, Ne.symm h]
  | cons e r ih =>
    obtain ⟨k, u⟩ := e
    simp only [tabPut]
    split
    · simp [tabGet?, Ne.symm h]
    · split
      · next hk => subst hk; simp [tabGet?, Ne.symm h]
      · simp [tabGet?, ih]

theorem tabGet?_tabPut (t : Tab α) (i j : Nat) (v : α) :
    tabGet? (tabPut t i v) j = if j = i then some v else tabGet? t j := by
  split
  · next h => subst h; simp
  · next h => exact tabGet?_tabPut_ne t v h

@[simp] theorem tabGet_tabPut_self (d : α) (t : Tab α) (i : Nat) (v : α) : tabGet d (tabPut t i v) i = v := by
  simp [tabGet]

theorem tabGet_tabPut_ne (d : α) (t : Tab α) {i j : Nat} (v : α) (h : j ≠ i) : tabGet d (tabPut t i v) j = tabGet d t j := by
  simp [tabGet, tabGet?_tabPut_ne t v h]

/-! ### The keys stay strictly rising -/

/-- Every key of a table is above a bound. -/
def tabAbove (n : Nat) (t : Tab α) : Prop := ∀ e ∈ t, n < e.1

theorem tabSorted_cons {k : Nat} {v : α} {r : Tab α} : tabSorted ((k, v) :: r) = true ↔ tabAbove k r ∧ tabSorted r = true := by
  induction r generalizing k v with
  | nil => simp [tabSorted, tabAbove]
  | cons e r ih =>
    obtain ⟨j, u⟩ := e
    simp only [tabSorted, Bool.and_eq_true, decide_eq_true_eq]
    constructor
    · rintro ⟨h, hr⟩
      refine ⟨?_, hr⟩
      intro x hx
      rcases List.mem_cons.mp hx with rfl | hx
      · exact h
      · exact Nat.lt_trans h ((ih.mp hr).1 x hx)
    · rintro ⟨ha, hr⟩
      exact ⟨ha (j, u) (by simp), hr⟩

@[simp] theorem tabSorted_nil : tabSorted ([] : Tab α) = true := rfl

theorem tabAbove_tabPut {n i : Nat} {v : α} {t : Tab α} (ht : tabAbove n t) (hi : n < i) : tabAbove n (tabPut t i v) := by
  induction t with
  | nil => intro e he; simp [tabPut] at he; subst he; exact hi
  | cons e r ih =>
    obtain ⟨k, u⟩ := e
    have hk : n < k := ht (k, u) (by simp)
    have hr : tabAbove n r := fun e he => ht e (by simp [he])
    simp only [tabPut]
    split
    · intro x hx
      simp only [List.mem_cons] at hx
      rcases hx with rfl | rfl | hx
      · exact hi
      · exact hk
      · exact hr x hx
    · split
      · intro x hx
        rcases List.mem_cons.mp hx with rfl | hx
        · exact hi
        · exact hr x hx
      · intro x hx
        rcases List.mem_cons.mp hx with rfl | hx
        · exact hk
        · exact ih hr x hx

/-- A key put keeps the canonical form. -/
theorem tabSorted_tabPut {t : Tab α} (ht : tabSorted t = true) (i : Nat) (v : α) : tabSorted (tabPut t i v) = true := by
  induction t with
  | nil => rfl
  | cons e r ih =>
    obtain ⟨k, u⟩ := e
    obtain ⟨ha, hr⟩ := tabSorted_cons.mp ht
    simp only [tabPut]
    split
    · next h =>
      refine tabSorted_cons.mpr ⟨?_, ht⟩
      intro x hx
      rcases List.mem_cons.mp hx with rfl | hx
      · exact h
      · exact Nat.lt_trans h (ha x hx)
    · split
      · next h => subst h; exact tabSorted_cons.mpr ⟨ha, hr⟩
      · next h1 h2 => exact tabSorted_cons.mpr ⟨tabAbove_tabPut ha (by omega), ih hr⟩

theorem tabSorted_sublist {s t : Tab α} (h : s.Sublist t) (ht : tabSorted t = true) : tabSorted s = true := by
  induction h with
  | slnil => rfl
  | cons e _ ih => obtain ⟨k, u⟩ := e; exact ih (tabSorted_cons.mp ht).2
  | cons_cons e h ih =>
    obtain ⟨k, u⟩ := e
    obtain ⟨ha, hr⟩ := tabSorted_cons.mp ht
    exact tabSorted_cons.mpr ⟨fun x hx => ha x (h.subset hx), ih hr⟩

/-- A filter keeps the canonical form. -/
theorem tabSorted_filter {t : Tab α} (ht : tabSorted t = true) (p : Nat × α → Bool) : tabSorted (t.filter p) = true :=
  tabSorted_sublist List.filter_sublist ht

theorem tabDel_sublist (t : Tab α) (i : Nat) : (tabDel t i).Sublist t := by
  induction t with
  | nil => exact List.Sublist.refl _
  | cons e r ih =>
    obtain ⟨k, u⟩ := e
    simp only [tabDel]
    split
    · exact List.sublist_cons_self _ _
    · exact ih.cons_cons _

/-- A key removed keeps the canonical form. -/
theorem tabSorted_tabDel {t : Tab α} (ht : tabSorted t = true) (i : Nat) : tabSorted (tabDel t i) = true :=
  tabSorted_sublist (tabDel_sublist t i) ht

/-- A run of keys put keeps the canonical form. -/
theorem tabSorted_tabPutAll {t : Tab α} (ht : tabSorted t = true) (i : Nat) (vs : List α) :
    tabSorted (tabPutAll t i vs) = true := by
  induction vs generalizing t i with
  | nil => exact ht
  | cons v r ih => exact ih (tabSorted_tabPut ht i v) (i + 1)

/-- New values at the same keys keep the canonical form. -/
theorem tabSorted_map {t : Tab α} (ht : tabSorted t = true) (f : Nat × α → β) :
    tabSorted (t.map (fun e => (e.1, f e)) : Tab β) = true := by
  induction t with
  | nil => rfl
  | cons e r ih =>
    obtain ⟨k, u⟩ := e
    obtain ⟨ha, hr⟩ := tabSorted_cons.mp ht
    refine tabSorted_cons.mpr ⟨?_, ih hr⟩
    intro x hx
    obtain ⟨y, hy, rfl⟩ := List.mem_map.mp hx
    exact ha y hy

/-- An entry read is listed. -/
theorem mem_of_tabGet? {t : Tab α} {i : Nat} {v : α} (h : tabGet? t i = some v) : (i, v) ∈ t := by
  induction t with
  | nil => cases h
  | cons e r ih =>
    obtain ⟨k, u⟩ := e
    rw [tabGet?_cons] at h
    split at h
    · next hk => cases h; subst hk; exact List.mem_cons_self
    · exact List.mem_cons_of_mem _ (ih h)

/-- Every entry of a table after a put is the new one or an old one. -/
theorem mem_tabPut {t : Tab α} {i : Nat} {v : α} {e : Nat × α} (h : e ∈ tabPut t i v) : e = (i, v) ∨ e ∈ t := by
  induction t with
  | nil => simpa [tabPut] using h
  | cons x r ih =>
    obtain ⟨k, u⟩ := x
    simp only [tabPut] at h
    split at h
    · simp only [List.mem_cons] at h ⊢; tauto
    · split at h
      · simp only [List.mem_cons] at h ⊢; tauto
      · simp only [List.mem_cons] at h ⊢
        rcases h with h | h
        · exact Or.inr (Or.inl h)
        · rcases ih h with h | h <;> tauto

/-- A key removed from a sorted table is not listed. -/
theorem tabGet?_tabDel_self {t : Tab α} (ht : tabSorted t = true) (i : Nat) : tabGet? (tabDel t i) i = none := by
  induction t with
  | nil => rfl
  | cons e r ih =>
    obtain ⟨k, u⟩ := e
    obtain ⟨ha, hr⟩ := tabSorted_cons.mp ht
    simp only [tabDel]
    split
    · next h =>
      subst h
      have : ∀ (q : Tab α), tabAbove k q → tabGet? q k = none := by
        intro q hq
        induction q with
        | nil => rfl
        | cons e q ihq =>
          have h1 : k < e.1 := hq e (by simp)
          simp only [tabGet?]
          rw [if_neg (by omega)]
          exact ihq (fun x hx => hq x (by simp [hx]))
      exact this r ha
    · next h => simp only [tabGet?]; rw [if_neg h]; exact ih hr

theorem tabGet?_tabDel_ne (t : Tab α) {i j : Nat} (h : j ≠ i) : tabGet? (tabDel t i) j = tabGet? t j := by
  induction t with
  | nil => rfl
  | cons e r ih =>
    obtain ⟨k, u⟩ := e
    simp only [tabDel]
    split
    · next hk => subst hk; simp [tabGet?, Ne.symm h]
    · simp [tabGet?, ih]

/-! ### Ascending lists -/

theorem ascending_cons {x : Nat} {r : List Nat} : ascending (x :: r) = true ↔ (∀ y ∈ r, x < y) ∧ ascending r = true := by
  induction r generalizing x with
  | nil => simp [ascending]
  | cons y r ih =>
    simp only [ascending, Bool.and_eq_true, decide_eq_true_eq]
    constructor
    · rintro ⟨h, hr⟩
      refine ⟨?_, hr⟩
      intro z hz
      rcases List.mem_cons.mp hz with rfl | hz
      · exact h
      · exact Nat.lt_trans h ((ih.mp hr).1 z hz)
    · rintro ⟨ha, hr⟩
      exact ⟨ha y (by simp), hr⟩

theorem mem_insertAsc {r : List Nat} {x y : Nat} : y ∈ insertAsc r x ↔ y = x ∨ y ∈ r := by
  induction r with
  | nil => simp [insertAsc]
  | cons z r ih =>
    simp only [insertAsc]
    split
    · simp
    · split
      · next h => subst h; simp
      · simp [ih]; tauto

/-- An insertion keeps a list ascending. -/
theorem ascending_insertAsc {r : List Nat} (h : ascending r = true) (x : Nat) : ascending (insertAsc r x) = true := by
  induction r with
  | nil => rfl
  | cons y r ih =>
    obtain ⟨ha, hr⟩ := ascending_cons.mp h
    simp only [insertAsc]
    split
    · next hx =>
      refine ascending_cons.mpr ⟨?_, h⟩
      intro z hz
      rcases List.mem_cons.mp hz with rfl | hz
      · exact hx
      · exact Nat.lt_trans hx (ha z hz)
    · split
      · exact h
      · refine ascending_cons.mpr ⟨?_, ih hr⟩
        intro z hz
        rcases mem_insertAsc.mp hz with rfl | hz
        · omega
        · exact ha z hz

theorem ascending_sublist {s t : List Nat} (h : s.Sublist t) (ht : ascending t = true) : ascending s = true := by
  induction h with
  | slnil => rfl
  | cons e _ ih => exact ih (ascending_cons.mp ht).2
  | cons_cons e h ih =>
    obtain ⟨ha, hr⟩ := ascending_cons.mp ht
    exact ascending_cons.mpr ⟨fun x hx => ha x (h.subset hx), ih hr⟩

/-- A filter keeps a list ascending. -/
theorem ascending_filter {r : List Nat} (h : ascending r = true) (p : Nat → Bool) : ascending (r.filter p) = true :=
  ascending_sublist List.filter_sublist h

end Sys2Proof.Machine
end

