-- ==== Sys2Proof/Laws/Ops.lean ====
section
/-! SUPPORT. What the shared operations of State do, once each: objects read after a write, notifications. -/

namespace Sys2Proof.Machine

open Sys2Proof

/-! ### Objects -/

theorem objKey_inj {o o' sub sub' : Nat} (h : sub < 256) (h' : sub' < 256) :
    objKey o sub = objKey o' sub' ↔ o = o' ∧ sub = sub' := by
  unfold objKey; omega

/-- An object read depends on its entry alone. -/
theorem rd_congr {s t : State} {o sub : Nat} (h : tabGet? t.dict (objKey o sub) = tabGet? s.dict (objKey o sub)) :
    rd t o sub = rd s o sub := by
  simp [rd, h]

@[simp] theorem rd_wr_self (s : State) (o sub v : Nat) : rd (wr s o sub v) o sub = v := by simp [rd]
@[simp] theorem rd_wrP_self (s : State) (o sub v : Nat) : rd (wrP s o sub v) o sub = v := by simp [rd]

theorem rd_wr_ne (s : State) {o sub o' sub' : Nat} (v : Nat) (h : objKey o' sub' ≠ objKey o sub) :
    rd (wr s o sub v) o' sub' = rd s o' sub' := by
  simp [rd, tabGet?_tabPut_ne _ _ h]

theorem rd_wrP_ne (s : State) {o sub o' sub' : Nat} (v : Nat) (h : objKey o' sub' ≠ objKey o sub) :
    rd (wrP s o sub v) o' sub' = rd s o' sub' := by
  simp [rd, tabGet?_tabPut_ne _ _ h]

theorem SameObjs.refl (ks : List Nat) (s : State) : SameObjs ks s s := fun _ _ => rfl

theorem SameObjs.trans {ks ls : List Nat} {s t u : State} (h : SameObjs ks s t) (h' : SameObjs ls t u) :
    SameObjs (ks ++ ls) s u := by
  intro k hk
  simp only [List.mem_append, not_or] at hk
  rw [h' k hk.2, h k hk.1]

theorem SameObjs.mono {ks ls : List Nat} {s t : State} (h : SameObjs ks s t) (hs : ks ⊆ ls) : SameObjs ls s t :=
  fun k hk => h k (fun hh => hk (hs hh))

theorem sameObjs_wr (s : State) (o sub v : Nat) : SameObjs [objKey o sub] s (wr s o sub v) := by
  intro k hk
  simp only [List.mem_singleton] at hk
  simp [tabGet?_tabPut_ne _ _ hk]

theorem SameObjs.rd {ks : List Nat} {s t : State} (h : SameObjs ks s t) {o sub : Nat} (hk : objKey o sub ∉ ks) :
    rd t o sub = rd s o sub := rd_congr (h _ hk)

/-! ### Bits -/

theorem setBit_eq (w i : Nat) (b : Bool) :
    setBit w i b = w / 2 ^ (i + 1) * 2 ^ (i + 1) + (if b then 1 else 0) * 2 ^ i + w % 2 ^ i := by
  have h1 : w = w / 2 ^ (i + 1) * 2 ^ (i + 1) + w % 2 ^ (i + 1) := (Nat.div_add_mod' w _).symm
  have h2 : w % 2 ^ (i + 1) = (w / 2 ^ i % 2) * 2 ^ i + w % 2 ^ i := by
    rw [pow_succ, Nat.mod_mul, add_comm, mul_comm]
  have h3 : (if b then 1 else 0) % 2 = if b then 1 else 0 := by cases b <;> rfl
  unfold setBit setField field
  rw [Nat.shiftRight_eq_div_pow]
  have e : i + 1 - i = 1 := by omega
  rw [e, pow_one, h3]
  omega

@[simp] theorem testBit_setBit_self (w i : Nat) (b : Bool) : (setBit w i b).testBit i = b := by
  have hlt : w % 2 ^ i < 2 ^ i := Nat.mod_lt _ (by positivity)
  rw [setBit_eq, Nat.testBit_eq_decide_div_mod_eq]
  have : (w / 2 ^ (i + 1) * 2 ^ (i + 1) + (if b then 1 else 0) * 2 ^ i + w % 2 ^ i) / 2 ^ i % 2 = if b then 1 else 0 := by
    rw [Nat.add_div_of_dvd_right (by exact Dvd.dvd.add ⟨w / 2 ^ (i + 1) * 2, by ring⟩ ⟨_, mul_comm _ _⟩),
      Nat.div_eq_of_lt hlt, Nat.add_zero]
    rw [show w / 2 ^ (i + 1) * 2 ^ (i + 1) + (if b then 1 else 0) * 2 ^ i
      = 2 ^ i * (2 * (w / 2 ^ (i + 1)) + if b then 1 else 0) by ring, Nat.mul_div_cancel_left _ (by positivity)]
    cases b <;> simp
  rw [this]; cases b <;> simp

theorem testBit_setBit_ne (w : Nat) {i j : Nat} (b : Bool) (h : j ≠ i) : (setBit w i b).testBit j = w.testBit j := by
  have key : ∀ d : Bool, (w / 2 ^ (i + 1) * 2 ^ (i + 1) + (if d then 1 else 0) * 2 ^ i + w % 2 ^ i).testBit j = w.testBit j := by
    intro d
    have hlt : w % 2 ^ i < 2 ^ i := Nat.mod_lt _ (by positivity)
    rcases Nat.lt_or_gt_of_ne h with hj | hj
    · have : w.testBit j = (w % 2 ^ i).testBit j := by simp [Nat.testBit_mod_two_pow, hj]
      rw [this]
      have e : (w / 2 ^ (i + 1) * 2 ^ (i + 1) + (if d then 1 else 0) * 2 ^ i + w % 2 ^ i)
          = 2 ^ i * (2 * (w / 2 ^ (i + 1)) + if d then 1 else 0) + w % 2 ^ i := by ring
      rw [e, Nat.testBit_two_pow_mul_add _ hlt]
      simp [hj]
    · have e : (w / 2 ^ (i + 1) * 2 ^ (i + 1) + (if d then 1 else 0) * 2 ^ i + w % 2 ^ i)
          = 2 ^ (i + 1) * (w / 2 ^ (i + 1)) + ((if d then 1 else 0) * 2 ^ i + w % 2 ^ i) := by ring
      have hlt' : (if d then 1 else 0) * 2 ^ i + w % 2 ^ i < 2 ^ (i + 1) := by
        rw [pow_succ]; cases d <;> simp <;> omega
      rw [e, Nat.testBit_two_pow_mul_add _ hlt']
      have hnj : ¬ j < i + 1 := by omega
      simp only [hnj, if_false, Nat.testBit_div_two_pow]
      congr 1; omega
  rw [setBit_eq]; exact key b

/-! ### Told -/

theorem FnsKept.refl (s : State) : FnsKept s s := fun _ => rfl

theorem FnsKept.trans {s t u : State} (h : FnsKept s t) (h' : FnsKept t u) : FnsKept s u := fun f => (h' f).trans (h f)

theorem Told.refl (ks : List Nat) (s : State) : Told ks s s :=
  ⟨rfl, SameObjs.refl _ s, rfl, fun _ => rfl, FnsKept.refl s, [], rfl⟩

theorem Told.trans {ks ls : List Nat} {s t u : State} (h : Told ks s t) (h' : Told ls t u) : Told (ks ++ ls) s u := by
  obtain ⟨l, hl⟩ := h.out
  obtain ⟨m, hm⟩ := h'.out
  refine ⟨?_, ?_, h'.sessions.trans h.sessions, fun e => (h'.boxes e).trans (h.boxes e), h.fns.trans h'.fns,
    m ++ l, by simp [hm, hl]⟩
  · have h1 := h.rest
    have h2 := h'.rest
    rw [h1] at h2
    exact h2
  · refine (h.objs.trans h'.objs).mono ?_
    intro k hk
    simp only [List.mem_append, List.mem_cons] at hk ⊢
    tauto

theorem Told.mono {ks ls : List Nat} {s t : State} (h : Told ks s t) (hs : ks ⊆ ls) : Told ls s t :=
  ⟨h.rest, h.objs.mono (List.cons_subset_cons _ hs), h.sessions, h.boxes, h.fns, h.out⟩

theorem told_wr (s : State) (o sub v : Nat) : Told [objKey o sub] s (wr s o sub v) :=
  ⟨rfl, (sameObjs_wr s o sub v).mono (by simp), rfl, fun _ => rfl, fun _ => rfl, [], rfl⟩

theorem told_emit (s : State) (e : Emit) : Told [] s (emit s e) :=
  ⟨rfl, fun _ _ => rfl, rfl, fun _ => rfl, fun _ => rfl, [e], rfl⟩

theorem told_setBox (s : State) (e : Nat) (x : Mailbox) (h : x.still = (boxOf s e).still) : Told [] s (setBox s e x) := by
  refine ⟨rfl, fun _ _ => rfl, rfl, ?_, fun _ => rfl, [], rfl⟩
  intro e'
  by_cases he : e' = e
  · subst he; simp [boxOf, h]
  · simp [boxOf, tabGet_tabPut_ne _ _ _ he]

/-- An MSI-X vector is sent, left pending, or dropped: nothing else changes. -/
theorem told_sendMsix (s : State) (fn v : Nat) : Told [] s (sendMsix s fn v) := by
  unfold sendMsix
  dsimp only
  split
  · exact Told.refl _ _
  · split
    · refine ⟨rfl, fun _ _ => rfl, rfl, fun _ => rfl, ?_, [], rfl⟩
      intro f
      by_cases hf : f = fn
      · subst hf; simp [fnOf, FnRec.still]
      · simp [fnOf, tabGet_tabPut_ne _ _ _ hf]
    · exact told_emit _ _

theorem sendMsix_mgmt (s : State) (fn v : Nat) : (sendMsix s fn v).mgmt = s.mgmt := by
  unfold sendMsix; dsimp only; split
  · rfl
  · split <;> rfl

theorem boxIrq_mgmt (s : State) (e : Nat) : (boxIrq s e).mgmt = s.mgmt := by
  unfold boxIrq; dsimp only; split
  · exact sendMsix_mgmt _ _ _
  · rfl

theorem told_boxIrq (s : State) (e : Nat) : Told [] s (boxIrq s e) := by
  unfold boxIrq
  simp only
  split
  · exact told_sendMsix _ _ _
  · exact Told.refl _ _

theorem told_waitNote (s : State) (e : Nat) (keep : BoxItem → Bool) (i : BoxItem) : Told [] s (waitNote s e keep i) :=
  told_setBox _ _ _ (by simp [Mailbox.still])

theorem told_placeNote (s : State) (e : Nat) (b : List Byte) : Told [] s (placeNote s e b) :=
  (told_setBox s e _ (by simp [Mailbox.still])).trans (told_boxIrq _ _)

theorem waitNote_sessions (s : State) (e : Nat) (keep : BoxItem → Bool) (i : BoxItem) :
    (waitNote s e keep i).mgmt.sessions = s.mgmt.sessions := rfl

theorem placeNote_sessions (s : State) (e : Nat) (b : List Byte) : (placeNote s e b).mgmt.sessions = s.mgmt.sessions := by
  unfold placeNote; rw [boxIrq_mgmt]; rfl

theorem told_sendNote (s : State) (src : Src) (b : List Byte) : Told [] s (sendNote s src b) := by
  unfold sendNote
  cases src with
  | net a p =>
    simp only
    split
    · exact told_emit _ _
    · exact Told.refl _ _
  | mailbox e slot =>
    simp only
    split
    · exact told_waitNote _ _ _ _
    · exact told_placeNote _ _ _

/-- A notification handed to its path: no session but its own changes, and that one only in what `still` leaves out. -/
theorem told_offerNote (s : State) (x : Session) (n : Note) :
    Told [] s (offerNote s x n).2 ∧ (offerNote s x n).1.still = x.still ∧
      (offerNote s x n).2.mgmt.sessions = s.mgmt.sessions := by
  unfold offerNote
  split
  · refine ⟨?_, rfl, ?_⟩
    · dsimp only; split
      · exact told_emit _ _
      · exact Told.refl _ _
    · dsimp only; split <;> rfl
  · split
    · exact ⟨told_waitNote _ _ _ _, rfl, rfl⟩
    · exact ⟨told_placeNote _ _ _, rfl, placeNote_sessions _ _ _⟩

theorem told_count32_lost (s : State) : Told [] s (count32 s oNOTIFY_LOST 0 1) :=
  ⟨rfl, (sameObjs_wr s oNOTIFY_LOST 0 _).mono (by simp), rfl, fun _ => rfl, fun _ => rfl, [], rfl⟩

theorem queueNote_still (x : Session) (cls index sub value : Nat) : (queueNote x cls index sub value).1.still = x.still := by
  simp [queueNote, Session.still]

theorem told_notifyEach (cls index sub value : Nat) (l : List Session) (s : State) :
    Told [] s (notifyEach cls index sub value l s).2 ∧
      (notifyEach cls index sub value l s).1.map Session.still = l.map Session.still ∧
      (notifyEach cls index sub value l s).2.mgmt.sessions = s.mgmt.sessions := by
  induction l generalizing s with
  | nil => exact ⟨Told.refl _ _, rfl, rfl⟩
  | cons x r ih =>
    simp only [notifyEach]
    split
    · set q := queueNote x cls index sub value with hq
      set s1 := (if q.2 = 0 then s else count32 s oNOTIFY_LOST 0 1) with hs1
      have h1 : Told [] s s1 := by
        rw [hs1]; split
        · exact Told.refl _ _
        · exact told_count32_lost s
      have h1' : s1.mgmt.sessions = s.mgmt.sessions := by rw [hs1]; split <;> rfl
      set f := (match q.1.notes.getLast? with
        | some n => offerNote s1 q.1 n
        | none => (q.1, s1)) with hf
      have h2 : Told [] s1 f.2 ∧ f.1.still = q.1.still ∧ f.2.mgmt.sessions = s1.mgmt.sessions := by
        rw [hf]; split
        · exact told_offerNote _ _ _
        · exact ⟨Told.refl _ _, rfl, rfl⟩
      obtain ⟨ha, hb, hc⟩ := ih f.2
      refine ⟨(h1.trans h2.1).trans ha, ?_, hc.trans (h2.2.2.trans h1')⟩
      change List.map Session.still (f.1 :: (notifyEach cls index sub value r f.2).1) = _
      rw [List.map_cons, List.map_cons, hb, h2.2.1, hq, queueNote_still]
    · obtain ⟨ha, hb, hc⟩ := ih s
      exact ⟨ha, by simp [hb], hc⟩

/-- A notification changes nothing but what it may change. -/
theorem told_notify (s : State) (cls index sub value : Nat) : Told [] s (notify s cls index sub value) := by
  obtain ⟨h, hm, hs⟩ := told_notifyEach cls index sub value s.mgmt.sessions s
  refine ⟨?_, h.objs, hm, h.boxes, h.fns, h.out⟩
  have hr := h.rest
  unfold notify
  simp only
  rw [hr]

theorem told_wrNote (s : State) (cls o sub v : Nat) : Told [objKey o sub] s (wrNote s cls o sub v) := by
  unfold wrNote
  split
  · exact Told.refl _ _
  · exact (told_wr s o sub v).trans (told_notify _ _ _ _ _)

/-- What a notified object then holds. -/
theorem rd_wrNote (s : State) (cls o sub v : Nat) (h : objKey o sub ≠ objKey oNOTIFY_LOST 0) :
    rd (wrNote s cls o sub v) o sub = v := by
  unfold wrNote
  split
  · next hv => exact hv
  · rw [(told_notify (wr s o sub v) cls o sub v).objs.rd (by simpa using h)]
    simp

theorem Told.rd {ks : List Nat} {s t : State} (h : Told ks s t) {o sub : Nat} (hk : objKey o sub ∉ objKey oNOTIFY_LOST 0 :: ks) :
    rd t o sub = rd s o sub := h.objs.rd hk

end Sys2Proof.Machine
end

