-- ==== Sys2Proof/Laws/Memory.lean ====
section
/-! SUPPORT. Memory: a byte read after a byte put, and the canonical form kept by every memory operation (log 4). -/

namespace Sys2Proof.Machine

open Sys2Proof

/-- The canonical form, clause by clause. -/
theorem Mem.wf_iff (m : Mem) : m.wf = true ↔
    tabSorted m.cells = true ∧ tabSorted m.host = true ∧ ascending m.poison = true ∧ tabSorted m.eddies = true ∧
      ∀ c ∈ m.cells, (readsZero m c.1 && c.2 == 0) = false := by
  unfold Mem.wf
  simp only [Bool.and_eq_true, List.all_eq_true, Bool.not_eq_true', and_assoc]

/-- What an address reads as while unlisted depends on the filled regions alone. -/
theorem readsZero_congr {m m' : Mem} (h : m'.fills = m.fills) (a : Nat) : readsZero m' a = readsZero m a := by
  unfold readsZero; rw [h]

theorem blankByte_congr {m m' : Mem} (h : m'.fills = m.fills) (h' : m'.epoch = m.epoch) (a : Nat) :
    blankByte m' a = blankByte m a := by
  unfold blankByte; rw [h, h']

/-- An unlisted address that reads zero reads as zero. -/
theorem blankByte_of_readsZero {m : Mem} {a : Nat} (h : readsZero m a = true) : blankByte m a = 0 := by
  unfold readsZero at h
  unfold blankByte
  split at h
  · next f hf => simp only [Option.isNone_iff_eq_none] at h; rw [h]
  · cases h

/-! ### One byte behind the Eddy -/

@[simp] theorem putCell_fills (m : Mem) (a : Nat) (b : Byte) : (putCell m a b).fills = m.fills := rfl
@[simp] theorem putCell_host (m : Mem) (a : Nat) (b : Byte) : (putCell m a b).host = m.host := rfl
@[simp] theorem putCell_poison (m : Mem) (a : Nat) (b : Byte) : (putCell m a b).poison = m.poison := rfl
@[simp] theorem putCell_eddies (m : Mem) (a : Nat) (b : Byte) : (putCell m a b).eddies = m.eddies := rfl
@[simp] theorem putCell_eddyWait (m : Mem) (a : Nat) (b : Byte) : (putCell m a b).eddyWait = m.eddyWait := rfl
@[simp] theorem putCell_epoch (m : Mem) (a : Nat) (b : Byte) : (putCell m a b).epoch = m.epoch := rfl
@[simp] theorem putCell_free (m : Mem) (a : Nat) (b : Byte) : (putCell m a b).free = m.free := rfl

/-- A byte put is the byte read. -/
theorem storedByte_putCell_self {m : Mem} (h : tabSorted m.cells = true) (a : Nat) (b : Byte) :
    storedByte (putCell m a b) a = b := by
  unfold storedByte
  rw [blankByte_congr (putCell_fills m a b) (putCell_epoch m a b)]
  unfold putCell
  by_cases hz : (readsZero m a && b == 0) = true
  · simp only [hz, if_true]
    rw [tabGet?_tabDel_self h]
    simp only [Bool.and_eq_true, beq_iff_eq] at hz
    rw [Option.getD_none, blankByte_of_readsZero hz.1, hz.2]
  · rw [if_neg hz, tabGet?_tabPut_self]; rfl

/-- A byte put leaves every other byte as it was. -/
theorem storedByte_putCell_ne (m : Mem) {a x : Nat} (b : Byte) (h : x ≠ a) : storedByte (putCell m a b) x = storedByte m x := by
  unfold storedByte
  rw [blankByte_congr (putCell_fills m a b) (putCell_epoch m a b)]
  unfold putCell
  by_cases hz : (readsZero m a && b == 0) = true
  · simp only [hz, if_true]; rw [tabGet?_tabDel_ne _ h]
  · rw [if_neg hz, tabGet?_tabPut_ne _ _ h]

theorem wf_putCell {m : Mem} (h : m.wf = true) (a : Nat) (b : Byte) : (putCell m a b).wf = true := by
  rw [Mem.wf_iff] at h ⊢
  obtain ⟨hc, hh, hp, he, hz⟩ := h
  refine ⟨?_, hh, hp, he, ?_⟩
  · unfold putCell; dsimp only
    split
    · exact tabSorted_tabDel hc a
    · exact tabSorted_tabPut hc a b
  · intro c hm
    rw [readsZero_congr (putCell_fills m a b)]
    unfold putCell at hm; dsimp only at hm
    split at hm
    · exact hz c ((tabDel_sublist _ _).subset hm)
    · next hn =>
      rcases mem_tabPut hm with rfl | hm
      · simpa using hn
      · exact hz c hm

/-! ### Runs of bytes -/

theorem putRun_frame (m : Mem) (a : Nat) (b : List Byte) :
    (putRun m a b).fills = m.fills ∧ (putRun m a b).host = m.host ∧ (putRun m a b).poison = m.poison ∧
      (putRun m a b).eddies = m.eddies ∧ (putRun m a b).eddyWait = m.eddyWait ∧ (putRun m a b).epoch = m.epoch ∧
      (putRun m a b).free = m.free := by
  induction b generalizing m a with
  | nil => exact ⟨rfl, rfl, rfl, rfl, rfl, rfl, rfl⟩
  | cons x r ih => exact ih (putCell m a x) (a + 1)

theorem wf_putRun {m : Mem} (h : m.wf = true) (a : Nat) (b : List Byte) : (putRun m a b).wf = true := by
  induction b generalizing m a with
  | nil => exact h
  | cons x r ih => exact ih (wf_putCell h a x) (a + 1)

/-- What a run of bytes put reads as: the run's own bytes inside it, every other byte as before. -/
theorem storedByte_putRun {m : Mem} (h : m.wf = true) (a : Nat) (b : List Byte) (x : Nat) :
    storedByte (putRun m a b) x = if a ≤ x ∧ x < a + b.length then b.getD (x - a) 0 else storedByte m x := by
  induction b generalizing m a with
  | nil => rw [if_neg (by simp)]; rfl
  | cons y r ih =>
    rw [putRun, ih (wf_putCell h a y)]
    by_cases hx : x = a
    · subst hx
      rw [if_neg (by omega), if_pos (by simp)]
      rw [storedByte_putCell_self ((Mem.wf_iff m).mp h).1]; simp
    · rw [storedByte_putCell_ne m y hx]
      by_cases hin : a + 1 ≤ x ∧ x < a + 1 + r.length
      · rw [if_pos hin, if_pos ⟨by omega, by simp only [List.length_cons]; omega⟩]
        obtain ⟨k, rfl⟩ : ∃ k, x = a + 1 + k := ⟨x - (a + 1), by omega⟩
        rw [show a + 1 + k - a = k + 1 by omega, show a + 1 + k - (a + 1) = k by omega]
        rfl
      · rw [if_neg hin, if_neg (by simp only [List.length_cons]; omega)]

theorem wf_putMasked {m : Mem} (h : m.wf = true) (line : Nat) (t : Tab Byte) : (putMasked m line t).wf = true := by
  induction t generalizing m with
  | nil => exact h
  | cons x r ih => obtain ⟨o, b⟩ := x; exact ih (wf_putCell h _ b)

theorem putMasked_frame (m : Mem) (line : Nat) (t : Tab Byte) :
    (putMasked m line t).fills = m.fills ∧ (putMasked m line t).host = m.host ∧ (putMasked m line t).poison = m.poison ∧
      (putMasked m line t).eddies = m.eddies ∧ (putMasked m line t).eddyWait = m.eddyWait ∧
      (putMasked m line t).epoch = m.epoch ∧ (putMasked m line t).free = m.free := by
  induction t generalizing m with
  | nil => exact ⟨rfl, rfl, rfl, rfl, rfl, rfl, rfl⟩
  | cons x r ih => obtain ⟨o, b⟩ := x; exact ih (putCell m (line + o) b)

/-! ### The canonical form under each operation -/

/-- The form depends on five listings. -/
theorem wf_congr {m m' : Mem} (h : m.wf = true) (h1 : m'.cells = m.cells) (h2 : m'.fills = m.fills) (h3 : m'.host = m.host)
    (h4 : m'.poison = m.poison) (h5 : m'.eddies = m.eddies) : m'.wf = true := by
  rw [Mem.wf_iff] at h ⊢
  rw [h1, h3, h4, h5]
  exact ⟨h.1, h.2.1, h.2.2.1, h.2.2.2.1, fun c hc => by rw [readsZero_congr h2]; exact h.2.2.2.2 c hc⟩

/-- Another list of poisoned lines, ascending, keeps the form. -/
theorem wf_poison {m : Mem} (h : m.wf = true) {p : List Nat} (hp : ascending p = true) : ({ m with poison := p } : Mem).wf = true := by
  rw [Mem.wf_iff] at h ⊢
  exact ⟨h.1, h.2.1, hp, h.2.2.2.1, h.2.2.2.2⟩

/-- Other Eddies, listed by stack, keep the form. -/
theorem wf_eddies {m : Mem} (h : m.wf = true) {e : Tab (List EddyEntry)} (he : tabSorted e = true) :
    ({ m with eddies := e } : Mem).wf = true := by
  rw [Mem.wf_iff] at h ⊢
  exact ⟨h.1, h.2.1, h.2.2.1, he, h.2.2.2.2⟩

theorem wf_poisonLine {s : State} (h : s.mem.wf = true) (line : Nat) : (poisonLine s line).mem.wf = true :=
  wf_poison h (ascending_insertAsc ((Mem.wf_iff _).mp h).2.2.1 line)

theorem wf_cleanLine {s : State} (h : s.mem.wf = true) (line : Nat) : (cleanLine s line).mem.wf = true :=
  wf_poison h (ascending_filter ((Mem.wf_iff _).mp h).2.2.1 _)

/-- A line marked poisoned reads as poisoned, every other line as before. -/
theorem poisoned_poisonLine (s : State) (line x : Nat) :
    poisoned (poisonLine s line) x = (decide (x = line) || poisoned s x) := by
  rw [Bool.eq_iff_iff]
  simp [poisoned, poisonLine, mem_insertAsc]

/-- A line written whole is poisoned no more, every other line as before (R450). -/
theorem poisoned_cleanLine (s : State) (line x : Nat) :
    poisoned (cleanLine s line) x = (!decide (x = line) && poisoned s x) := by
  rw [Bool.eq_iff_iff]
  simp [poisoned, cleanLine, and_comm]

theorem wf_putCells {s : State} (h : s.mem.wf = true) (a : Nat) (b : List Byte) : (putCells s a b).mem.wf = true :=
  wf_putRun h a b

theorem wf_putLine {s : State} (h : s.mem.wf = true) (a : Nat) (b : List Byte) : (putLine s a b).mem.wf = true := by
  unfold putLine; dsimp only
  split
  · exact wf_cleanLine (wf_putCells h a b) a
  · exact wf_putCells h a b

theorem wf_setEddy {s : State} (h : s.mem.wf = true) (k : Nat) (es : List EddyEntry) : (setEddy s k es).mem.wf = true :=
  wf_eddies h (tabSorted_tabPut ((Mem.wf_iff _).mp h).2.2.2.1 k es)

theorem wf_drainEntry {s : State} (h : s.mem.wf = true) (k : Nat) (e : EddyEntry) : (drainEntry s k e).mem.wf = true := by
  unfold drainEntry; dsimp only
  have hm : (putMasked { s.mem with
      eddies := tabPut s.mem.eddies k ((tabGet [] s.mem.eddies k).filter (fun x => x.line != e.line)) } e.line e.bytes).wf =
        true := wf_putMasked (wf_eddies h (tabSorted_tabPut ((Mem.wf_iff _).mp h).2.2.2.1 k _)) e.line e.bytes
  split <;> exact hm

/-- A property of memory kept by each step of a fold is kept by the fold. -/
theorem wf_foldl {α : Type} (f : State → α → State) (hf : ∀ s x, s.mem.wf = true → (f s x).mem.wf = true) (l : List α)
    {s : State} (h : s.mem.wf = true) : (l.foldl f s).mem.wf = true := by
  induction l generalizing s with
  | nil => exact h
  | cons x r ih => exact ih (hf s x h)

theorem wf_drainBurst {s : State} (h : s.mem.wf = true) (k : Nat) (e : EddyEntry) : (drainBurst s k e).mem.wf = true :=
  wf_foldl _ (fun _ x ht => wf_drainEntry ht k x) _ h

/-- Room made for a new entry: the oldest one drained. -/
theorem wf_makeRoom {s : State} (h : s.mem.wf = true) (k : Nat) (es : List EddyEntry) :
    (if 64 ≤ es.length then
      match es.head? with
      | some oldest => drainBurst s k oldest
      | none => s
    else s).mem.wf = true := by
  split
  · split
    · exact wf_drainBurst h _ _
    · exact h
  · exact h

theorem wf_eddyEnter {s : State} (h : s.mem.wf = true) (op a : Nat) (b : List Byte) : (eddyEnter s op a b).mem.wf = true := by
  unfold eddyEnter
  extract_lets k line s1 es
  have h1 : s1.mem.wf = true := by
    unfold s1; split
    · exact wf_cleanLine h _
    · exact h
  clear_value s1 es
  split
  · extract_lets e' s2
    have h2 : s2.mem.wf = true := wf_setEddy h1 _ _
    clear_value s2
    split
    · exact wf_drainBurst h2 _ _
    · exact h2
  · rename_i s2 e s3 _ _
    have h3 : s3.mem.wf = true := wf_setEddy (wf_makeRoom h1 k es) _ _
    clear_value s3
    split
    · exact wf_drainBurst h3 _ _
    · exact h3

theorem wf_flushWaits {s : State} (h : s.mem.wf = true) (k : Nat) : (flushWaits s k).mem.wf = true :=
  wf_foldl _ (fun _ w ht => wf_eddyEnter ht w.op w.addr w.bytes) _ (wf_congr h rfl rfl rfl rfl rfl)

theorem wf_eddyStore {s : State} (h : s.mem.wf = true) (op a : Nat) (b : List Byte) : (eddyStore s op a b).mem.wf = true :=
  by
    unfold eddyStore
    split
    · exact wf_eddyEnter h op a b
    · exact wf_eddyEnter (wf_flushWaits h _) op a b

theorem wf_storeLine {s : State} (h : s.mem.wf = true) (op a : Nat) (b : List Byte) : (storeLine s op a b).mem.wf = true := by
  unfold storeLine
  split
  · exact wf_eddyStore h op a b
  · exact wf_putLine h a b

theorem wf_landPosted {s : State} (h : s.mem.wf = true) (fn : Nat) (w : Posted) : (landPosted fn s w).mem.wf = true := by
  unfold landPosted
  rw [Mem.wf_iff] at h ⊢
  exact ⟨h.1, tabSorted_tabPutAll h.2.1 _ w.bytes, h.2.2.1, h.2.2.2.1, h.2.2.2.2⟩

theorem wf_hostStore {s : State} (h : s.mem.wf = true) (fn a : Nat) (b : List Byte) : (hostStore s fn a b).mem.wf = true :=
  wf_foldl _ (fun _ w ht => wf_landPosted ht fn w) _ h

theorem wf_storeBytes {s : State} (h : s.mem.wf = true) (p op a : Nat) (b : List Byte) :
    (storeBytes s p op a b).mem.wf = true := by
  unfold storeBytes
  split
  · exact wf_hostStore h _ _ _
  · exact h
  · exact wf_foldl _ (fun _ x ht => wf_storeLine ht op x.1 x.2) _ h

theorem wf_storeAll {s : State} (h : s.mem.wf = true) (p op : Nat) (ws : List (Nat × List Byte)) :
    (storeAll s p op ws).mem.wf = true :=
  wf_foldl _ (fun _ w ht => wf_storeBytes ht p op w.1 w.2) ws h

theorem wf_drawFree {s : State} (h : s.mem.wf = true) : (drawFree s).mem.wf = true := wf_congr h rfl rfl rfl rfl rfl

/-- Inside a region made zero an unlisted address reads zero; elsewhere the older regions tell. -/
theorem readsZero_fillRegion (s : State) (lo hi : Nat) (free : Option Nat) (a : Nat) :
    readsZero (fillRegion s lo hi free).mem a = if lo ≤ a ∧ a < hi then free.isNone else readsZero s.mem a := by
  unfold readsZero fillRegion
  dsimp only
  rw [List.find?_cons]
  by_cases h : lo ≤ a ∧ a < hi
  · simp [h]
  · simp [h]

theorem wf_fillRegion {s : State} (h : s.mem.wf = true) (lo hi : Nat) (free : Option Nat) :
    (fillRegion s lo hi free).mem.wf = true := by
  rw [Mem.wf_iff] at h ⊢
  refine ⟨tabSorted_filter h.1 _, h.2.1, h.2.2.1, h.2.2.2.1, ?_⟩
  intro c hc
  have hc' : c ∈ s.mem.cells ∧ !(decide (lo ≤ c.1 ∧ c.1 < hi)) = true := by
    simpa [fillRegion, List.mem_filter] using hc
  rw [readsZero_fillRegion, if_neg (by have h2 := hc'.2; simp at h2; omega)]
  exact h.2.2.2.2 c hc'.1

theorem wf_freeHost {s : State} (h : s.mem.wf = true) (fn a n num : Nat) : (freeHost s fn a n num).mem.wf = true :=
  wf_hostStore h fn a _

theorem wf_freeRegion {s : State} (h : s.mem.wf = true) (p a n : Nat) : (freeRegion s p a n).mem.wf = true := by
  unfold freeRegion
  split
  · exact h
  · dsimp only
    split
    · exact wf_freeHost (wf_drawFree h) _ _ _ _
    · exact wf_drawFree h
    · have he := wf_eddies (wf_fillRegion (wf_drawFree h) a (a + n) (some s.mem.free))
        (tabSorted_map ((Mem.wf_iff _).mp (wf_fillRegion (wf_drawFree h) a (a + n) (some s.mem.free))).2.2.2.1
          (fun x => x.2.map (freeEntry s.mem.free a (a + n))))
      exact wf_congr he rfl rfl rfl rfl rfl

theorem wf_freeRegions {s : State} (h : s.mem.wf = true) (p : Nat) (rs : List (Nat × Nat)) :
    (freeRegions s p rs).mem.wf = true :=
  wf_foldl _ (fun _ r ht => wf_freeRegion ht p r.1 r.2) rs h

theorem wf_zeroStore {s : State} (h : s.mem.wf = true) (c : Nat) : (zeroStore s c).mem.wf = true := by
  have hf := wf_fillRegion h (coreBase c) (coreBase c + 0x600000) none
  exact wf_poison hf (ascending_filter ((Mem.wf_iff _).mp hf).2.2.1 _)

theorem zeroStore_fills (s : State) (c : Nat) :
    (zeroStore s c).mem.fills = (fillRegion s (coreBase c) (coreBase c + 0x600000) none).mem.fills := rfl

theorem zeroStore_cells (s : State) (c : Nat) :
    (zeroStore s c).mem.cells = (fillRegion s (coreBase c) (coreBase c + 0x600000) none).mem.cells := rfl

/-- No byte of a filled region is listed. -/
theorem tabGet?_fillRegion (s : State) {lo hi : Nat} (free : Option Nat) {a : Nat} (h : lo ≤ a ∧ a < hi) :
    tabGet? (fillRegion s lo hi free).mem.cells a = none := by
  cases hg : tabGet? (fillRegion s lo hi free).mem.cells a with
  | none => rfl
  | some b =>
    have hm : (a, b) ∈ s.mem.cells ∧ !(decide (lo ≤ a ∧ a < hi)) = true := by
      simpa [fillRegion] using mem_of_tabGet? hg
    simp [h] at hm

/-- A region made zero reads zero. -/
theorem storedByte_fillRegion_zero (s : State) {lo hi a : Nat} (h : lo ≤ a ∧ a < hi) :
    storedByte (fillRegion s lo hi none).mem a = 0 := by
  have hz : readsZero (fillRegion s lo hi none).mem a = true := by rw [readsZero_fillRegion, if_pos h]; rfl
  rw [storedByte, tabGet?_fillRegion s none h, Option.getD_none, blankByte_of_readsZero hz]

theorem wf_loseMemory {s : State} (h : s.mem.wf = true) : (loseMemory s).mem.wf = true := by
  rw [Mem.wf_iff] at h ⊢
  exact ⟨rfl, h.2.1, h.2.2.1, rfl, fun c hc => by cases hc⟩

theorem wf_waitWrite {s : State} (h : s.mem.wf = true) (w : EddyWait) : (waitWrite s w).mem.wf = true :=
  wf_congr h rfl rfl rfl rfl rfl

theorem wf_eddyPut {s : State} (h : s.mem.wf = true) (w : EddyWait) : (eddyPut s w).mem.wf = true := by
  unfold eddyPut
  extract_lets k line s1 es
  have h1 : s1.mem.wf = true := by
    unfold s1; split
    · exact wf_cleanLine h _
    · exact h
  clear_value s1 es
  split
  · exact wf_waitWrite h w
  · split
    · exact wf_setEddy h1 _ _
    · split
      · exact wf_waitWrite (wf_setEddy h _ _) w
      · exact wf_setEddy h1 _ _

theorem wf_retryWaits {s : State} (h : s.mem.wf = true) : (retryWaits s).mem.wf = true :=
  wf_foldl _ (fun _ w ht => wf_eddyPut ht w) _ (s := { s with mem := { s.mem with eddyWait := [] } })
    (wf_congr h rfl rfl rfl rfl rfl)

/-- A cold reset keeps the host's memory in form. -/
theorem wf_execColdReset {s t : State} (h : s.mem.wf = true) (ht : execColdReset s = .next t) : t.mem.wf = true := by
  cases ht
  rw [Mem.wf_iff] at h ⊢
  exact ⟨rfl, h.2.1, rfl, rfl, fun c hc => by cases hc⟩

/-- Memory right after reset is in canonical form. -/
theorem wf_reset : State.reset.mem.wf = true := by rfl

end Sys2Proof.Machine
end

