-- ==== Sys2Proof/Laws/Records.lean ====
section
/-! SUPPORT. Records of tables with a default: a record read after one is stored. -/

namespace Sys2Proof.Machine

open Sys2Proof

@[simp] theorem coreOf_setCore_self (s : State) (c : Nat) (r : Core) : coreOf (setCore s c r) c = r :=
  tabGet_tabPut_self _ _ _ _
theorem coreOf_setCore_ne (s : State) {c c' : Nat} (r : Core) (h : c' ≠ c) : coreOf (setCore s c r) c' = coreOf s c' :=
  tabGet_tabPut_ne _ _ _ h

@[simp] theorem iqOf_setIq_self (s : State) (q : Nat) (r : Iq) : iqOf (setIq s q r) q = r :=
  tabGet_tabPut_self _ _ _ _
theorem iqOf_setIq_ne (s : State) {q q' : Nat} (r : Iq) (h : q' ≠ q) : iqOf (setIq s q r) q' = iqOf s q' :=
  tabGet_tabPut_ne _ _ _ h

@[simp] theorem cqOf_setCq_self (s : State) (q : Nat) (r : Cq) : cqOf (setCq s q r) q = r :=
  tabGet_tabPut_self _ _ _ _
theorem cqOf_setCq_ne (s : State) {q q' : Nat} (r : Cq) (h : q' ≠ q) : cqOf (setCq s q r) q' = cqOf s q' :=
  tabGet_tabPut_ne _ _ _ h

@[simp] theorem partOf_setPart_self (s : State) (p : Nat) (r : PartRec) : partOf (setPart s p r) p = r :=
  tabGet_tabPut_self _ _ _ _
theorem partOf_setPart_ne (s : State) {p p' : Nat} (r : PartRec) (h : p' ≠ p) : partOf (setPart s p r) p' = partOf s p' :=
  tabGet_tabPut_ne _ _ _ h

@[simp] theorem epOf_setEp_self (s : State) (e : Nat) (r : Endpoint) : epOf (setEp s e r) e = r :=
  tabGet_tabPut_self _ _ _ _
theorem epOf_setEp_ne (s : State) {e e' : Nat} (r : Endpoint) (h : e' ≠ e) : epOf (setEp s e r) e' = epOf s e' :=
  tabGet_tabPut_ne _ _ _ h

@[simp] theorem portOf_setPort_self (s : State) (n : Nat) (r : Port) : portOf (setPort s n r) n = r :=
  tabGet_tabPut_self _ _ _ _
theorem portOf_setPort_ne (s : State) {n n' : Nat} (r : Port) (h : n' ≠ n) : portOf (setPort s n r) n' = portOf s n' :=
  tabGet_tabPut_ne _ _ _ h

@[simp] theorem ctxOf_setCtx_self (s : State) (x : Nat) (r : Ctx) : ctxOf (setCtx s x r) x = r :=
  tabGet_tabPut_self _ _ _ _
theorem ctxOf_setCtx_ne (s : State) {x x' : Nat} (r : Ctx) (h : x' ≠ x) : ctxOf (setCtx s x r) x' = ctxOf s x' :=
  tabGet_tabPut_ne _ _ _ h

@[simp] theorem seqOf_setSeq_self (s : State) (q : Nat) (r : QuadSeq) : seqOf (setSeq s q r) q = r :=
  tabGet_tabPut_self _ _ _ _
theorem seqOf_setSeq_ne (s : State) {q q' : Nat} (r : QuadSeq) (h : q' ≠ q) : seqOf (setSeq s q r) q' = seqOf s q' :=
  tabGet_tabPut_ne _ _ _ h

@[simp] theorem boxOf_setBox_self (s : State) (e : Nat) (r : Mailbox) : boxOf (setBox s e r) e = r :=
  tabGet_tabPut_self _ _ _ _
theorem boxOf_setBox_ne (s : State) {e e' : Nat} (r : Mailbox) (h : e' ≠ e) : boxOf (setBox s e r) e' = boxOf s e' :=
  tabGet_tabPut_ne _ _ _ h

end Sys2Proof.Machine
end

