-- ==== Sys2Proof/Laws/Operator.lean ====
section
/-! SUPPORT. Operations: one stored is the one found, the rest stay; an operation ended leaves for release with its status. -/

namespace Sys2Proof.Machine

open Sys2Proof

theorem find_replaceOp_self (o : Op) (l : List Op) (h : (l.find? (fun x => x.id == o.id)).isSome) :
    (replaceOp o l).find? (fun x => x.id == o.id) = some o := by
  induction l with
  | nil => cases h
  | cons x r ih =>
    unfold replaceOp
    split
    · simp
    · next hx =>
      rw [List.find?_cons] at h ⊢
      have hn : (x.id == o.id) = false := by simpa using hx
      rw [hn] at h ⊢
      exact ih h

theorem find_replaceOp_ne (o : Op) (l : List Op) {i : Nat} (h : i ≠ o.id) :
    (replaceOp o l).find? (fun x => x.id == i) = l.find? (fun x => x.id == i) := by
  induction l with
  | nil => rfl
  | cons x r ih =>
    unfold replaceOp
    split
    · next hx =>
      have h1 : (o.id == i) = false := by simpa using Ne.symm h
      have h2 : (x.id == i) = false := by rw [hx]; exact h1
      rw [List.find?_cons, List.find?_cons, h1, h2]
    · rw [List.find?_cons, List.find?_cons, ih]

theorem ids_replaceOp (o : Op) (l : List Op) : (replaceOp o l).map (fun x => x.id) = l.map (fun x => x.id) := by
  induction l with
  | nil => rfl
  | cons x r ih =>
    unfold replaceOp
    split
    · next hx => simp [hx]
    · simp [ih]

/-- An operation stored is the one found. -/
theorem opOf?_setOp_self (s : State) (o : Op) (h : (opOf? s o.id).isSome) : opOf? (setOp s o) o.id = some o :=
  find_replaceOp_self o _ h

/-- Storing one operation leaves every other as it was. -/
theorem opOf?_setOp_ne (s : State) (o : Op) {i : Nat} (h : i ≠ o.id) : opOf? (setOp s o) i = opOf? s i :=
  find_replaceOp_ne o _ h

theorem othersKept_refl (id : Nat) (s : State) : OthersKept id s s := ⟨rfl, fun _ _ => rfl⟩

theorem othersKept_trans {id : Nat} {s t u : State} (h : OthersKept id s t) (h' : OthersKept id t u) : OthersKept id s u :=
  ⟨h'.1.trans h.1, fun i hi => (h'.2 i hi).trans (h.2 i hi)⟩

theorem othersKept_setOp (s : State) (o : Op) : OthersKept o.id s (setOp s o) :=
  ⟨ids_replaceOp o _, fun _ hi => opOf?_setOp_ne s o hi⟩

/-- What leaves the operations alone keeps them all. -/
theorem othersKept_of_weir {id : Nat} {s t : State} (h : t.weir = s.weir) : OthersKept id s t := by
  unfold OthersKept opOf?; rw [h]; exact ⟨rfl, fun _ _ => rfl⟩

/-! ### Frames of what an early end does -/

theorem zeroStore_weir (s : State) (c : Nat) : (zeroStore s c).weir = s.weir := rfl


theorem clearCore_weir (s : State) (c : Nat) : (clearCore s c).weir = s.weir := by
  unfold clearCore; rw [zeroStore_weir, setCore_weir]

theorem freeCore_weir (s : State) (c id : Nat) : (freeCore s c id).weir = s.weir := by
  unfold freeCore
  extract_lets x t
  have ht : t.weir = s.weir := setCore_weir _ _ _
  clear_value t
  split
  · split
    · rw [clearCore_weir, ht]
    · exact ht
  · split
    · exact setCore_weir _ _ _
    · rfl

theorem freeSlot_weir (s : State) (c : Nat) (slot : Option Nat) : (freeSlot s c slot).weir = s.weir := by
  unfold freeSlot; split <;> rfl

theorem breakGroup_weir (s : State) (o : Op) (st : Nat) : (breakGroup s o st).weir = s.weir := by
  unfold breakGroup breakOf; split
  · split <;> rfl
  · rfl

theorem hostStore_weir (s : State) (fn a : Nat) (b : List Byte) : (hostStore s fn a b).weir = s.weir := by
  unfold hostStore
  generalize postedWrites (payloadOf s fn) (b.length + 1) a b = l
  induction l generalizing s with
  | nil => rfl
  | cons w r ih => exact ih (landPosted fn s w)

theorem freeRegion_weir (s : State) (p a n : Nat) : (freeRegion s p a n).weir = s.weir := by
  unfold freeRegion; split
  · rfl
  · dsimp only; split
    · exact hostStore_weir _ _ _ _
    · rfl
    · rfl

theorem freeRegions_weir (s : State) (p : Nat) (rs : List (Nat × Nat)) : (freeRegions s p rs).weir = s.weir := by
  unfold freeRegions
  induction rs generalizing s with
  | nil => rfl
  | cons r l ih => exact (ih _).trans (freeRegion_weir s p r.1 r.2)

/-- An operation ended early leaves for release with the status given, and no other operation changes (Table WEIR-1). -/
theorem endOp_spec (s : State) (o : Op) (st : Nat) (h : (opOf? s o.id).isSome) :
    EndedWith (endOp s o st) o.id st ∧ OthersKept o.id s (endOp s o st) := by
  unfold endOp
  extract_lets s1 s2 s3
  have h1 : s1.weir = s.weir := by
    unfold s1; split
    · rw [freeSlot_weir, freeCore_weir]
    · rfl
  have h2 : s2.weir = s.weir := by
    unfold s2; split
    · rw [freeRegions_weir, h1]
    · exact h1
  have h3 : s3.weir = s.weir := (breakGroup_weir s2 o st).trans h2
  clear_value s3
  have hf : (opOf? s3 o.id).isSome := by unfold opOf? at h ⊢; rw [h3]; exact h
  refine ⟨⟨_, opOf?_setOp_self s3 { o with
    phase := .ended, status := st, requests := [], due := [], slot := none, context := none, runnable := false, commits := [],
    reservedBranches := 0, reservedPages := 0, fencing := false
    partialOut := o.partialOut || (outputsUnspecified st && o.wrote) } hf,
    rfl, rfl⟩, ?_⟩
  exact othersKept_trans (othersKept_of_weir h3) (othersKept_setOp s3 _)

/-! ### Memory stays in form -/

theorem wf_clearCore {s : State} (h : s.mem.wf = true) (c : Nat) : (clearCore s c).mem.wf = true := wf_zeroStore (s := setCore s c _) h c

theorem wf_freeCore {s : State} (h : s.mem.wf = true) (c id : Nat) : (freeCore s c id).mem.wf = true := by
  unfold freeCore; dsimp only; split
  · split
    · exact wf_clearCore (s := setCore s c _) h c
    · exact h
  · split <;> exact h

theorem freeSlot_mem (s : State) (c : Nat) (slot : Option Nat) : (freeSlot s c slot).mem = s.mem := by
  unfold freeSlot; split <;> rfl

theorem breakGroup_mem (s : State) (o : Op) (st : Nat) : (breakGroup s o st).mem = s.mem := by
  unfold breakGroup breakOf; split
  · split <;> rfl
  · rfl

theorem wf_endOp {s : State} (h : s.mem.wf = true) (o : Op) (st : Nat) : (endOp s o st).mem.wf = true := by
  unfold endOp
  extract_lets s1 s2 s3
  have h1 : s1.mem.wf = true := by
    unfold s1; split
    · rw [freeSlot_mem]; exact wf_freeCore h _ _
    · exact h
  have h2 : s2.mem.wf = true := by
    unfold s2; split
    · exact wf_freeRegions h1 _ _
    · exact h1
  have h3 : s3.mem.wf = true := by
    have : (breakGroup s2 o st).mem = s2.mem := breakGroup_mem s2 o st
    exact wf_congr h2 (by unfold s3; rw [this]) (by unfold s3; rw [this]) (by unfold s3; rw [this])
      (by unfold s3; rw [this]) (by unfold s3; rw [this])
  exact h3

end Sys2Proof.Machine
end

