-- ==== Sys2Proof/Laws/Route.lean ====
section
/-! SUPPORT. Messages and replies: one sent leaves the chip or waits for a port, a reply reaches its path, and what sending does
not touch. -/

namespace Sys2Proof.Machine

open Sys2Proof

/-- What sending changes: the ports' link layers, the messages that wait for a port, and what was emitted. -/
def sameButPorts (s t : State) : Prop :=
  t = { s with fabric := { s.fabric with ports := t.fabric.ports, stuck := t.fabric.stuck }, out := t.out }

theorem sameButPorts_emit (s : State) (e : Emit) : sameButPorts s (emit s e) := rfl

theorem sameButPorts_setPort (s : State) (n : Nat) (x : Port) : sameButPorts s (setPort s n x) := rfl

theorem sameButPorts_trans {s t u : State} (h : sameButPorts s t) (h' : sameButPorts t u) : sameButPorts s u := by
  unfold sameButPorts at *
  rw [h'] ; rw [h]

/-- What sending keeps: everything that was emitted, and every message that waits. -/
structure Keeps (s t : State) : Prop where
  frame : sameButPorts s t
  out : ∀ e ∈ s.out, e ∈ t.out
  waits : s.fabric.stuck ⊆ t.fabric.stuck

theorem Keeps.refl (s : State) : Keeps s s := ⟨rfl, fun _ h => h, fun _ h => h⟩

theorem Keeps.trans {s t u : State} (h : Keeps s t) (h' : Keeps t u) : Keeps s u :=
  ⟨sameButPorts_trans h.frame h'.frame, fun e he => h'.out e (h.out e he), fun _ hw => h'.waits (h.waits hw)⟩

theorem keeps_emit (s : State) (e : Emit) : Keeps s (emit s e) := ⟨rfl, fun _ h => List.mem_cons_of_mem _ h, fun _ h => h⟩

theorem keeps_setPort (s : State) (n : Nat) (x : Port) : Keeps s (setPort s n x) := ⟨rfl, fun _ h => h, fun _ h => h⟩

/-- A flit sent changes its port alone; with the last flit of a message the message has left. -/
theorem transmit_spec (s : State) (n : Nat) (f : FifoFlit) :
    Keeps s (transmit s n f) ∧ ∀ m, f.last = some m → Emit.msg n f.vc m ∈ (transmit s n f).out := by
  unfold transmit emitFlit
  dsimp only
  split
  · next m hm =>
    refine ⟨((keeps_setPort s n _).trans (keeps_emit _ _)).trans (keeps_emit _ _), ?_⟩
    intro m' h'
    rw [hm] at h'
    cases h'
    exact List.mem_cons_self
  · next hn =>
    refine ⟨(keeps_setPort s n _).trans (keeps_emit _ _), ?_⟩
    intro m h'
    rw [hn] at h'
    cases h'

/-- The flits of a FIFO leave in order: each has been sent, or stays. -/
theorem pumpFlits_spec (n : Nat) (l : List FifoFlit) (s : State) :
    Keeps s (pumpFlits n l s).1 ∧
      ∀ f ∈ l, f ∈ (pumpFlits n l s).2 ∨ ∀ m, f.last = some m → ∃ vc, Emit.msg n vc m ∈ (pumpFlits n l s).1.out := by
  induction l generalizing s with
  | nil => exact ⟨Keeps.refl s, fun f hf => by cases hf⟩
  | cons x r ih =>
    rw [pumpFlits]
    split
    · obtain ⟨h1, h2⟩ := transmit_spec s n x
      obtain ⟨h3, h4⟩ := ih (transmit s n x)
      refine ⟨h1.trans h3, fun f hf => ?_⟩
      rcases List.mem_cons.mp hf with rfl | hf
      · exact .inr fun m hm => ⟨f.vc, h3.out _ (h2 m hm)⟩
      · exact h4 f hf
    · exact ⟨Keeps.refl s, fun f hf => .inl hf⟩

/-- A port's FIFO after it has sent what its link takes. -/
theorem pump_spec (s : State) (n : Nat) :
    Keeps s (pump s n) ∧ ∀ f ∈ (portOf s n).fifo,
      f ∈ (portOf (pump s n) n).fifo ∨ ∀ m, f.last = some m → ∃ vc, Emit.msg n vc m ∈ (pump s n).out := by
  obtain ⟨h1, h2⟩ := pumpFlits_spec n (portOf s n).fifo s
  unfold pump
  dsimp only
  refine ⟨h1.trans (keeps_setPort _ _ _), fun f hf => ?_⟩
  rcases h2 f hf with h | h
  · exact .inl (by simpa [portOf, setPort] using h)
  · exact .inr h

/-- Some flit of a message is its last. -/
theorem last_fifoFlits (vc : Nat) (m : Msg) (h : msgFlits m ≠ []) : ∃ f ∈ fifoFlits vc m, f.last = some m := by
  have hl : 0 < (msgFlits m).length := List.length_pos_iff.mpr h
  refine ⟨⟨vc, (msgFlits m)[(msgFlits m).length - 1]'(by omega), some m⟩, ?_, rfl⟩
  unfold fifoFlits
  rw [List.mem_map]
  refine ⟨((msgFlits m)[(msgFlits m).length - 1]'(by omega), (msgFlits m).length - 1), ?_, ?_⟩
  · rw [List.mem_zipIdx_iff_getElem?]
    exact List.getElem?_eq_getElem (by omega)
  · dsimp only
    rw [if_pos (by omega)]

/-- A message has at least the flit that holds its header. -/
theorem msgFlits_ne_nil (m : Msg) : msgFlits m ≠ [] := by
  unfold msgFlits chunksOf
  have h : (msgBytes m).isEmpty = false := by
    rw [List.isEmpty_eq_false_iff]
    intro h
    simp [msgBytes, leBytes] at h
  rw [h]
  simp

/-- A message put on a port stands in its FIFO or has left. -/
theorem putOnPort_spec (s : State) (n vc : Nat) (m : Msg) (h : msgFlits m ≠ []) :
    Leaves (putOnPort s n vc m) m ∧ Keeps s (putOnPort s n vc m) := by
  unfold putOnPort
  set s1 := setPort s n { portOf s n with fifo := (portOf s n).fifo ++ fifoFlits (leaveVc s n vc) m } with hs1
  obtain ⟨h1, h2⟩ := pump_spec s1 n
  obtain ⟨f, hf, hm⟩ := last_fifoFlits (leaveVc s n vc) m h
  have hin : f ∈ (portOf s1 n).fifo := by
    have : (portOf s1 n).fifo = (portOf s n).fifo ++ fifoFlits (leaveVc s n vc) m := by simp [hs1, portOf, setPort]
    rw [this]; exact List.mem_append_right _ hf
  refine ⟨?_, (keeps_setPort s n _).trans h1⟩
  rcases h2 f hin with h | h
  · exact .inr (.inr (.inl ⟨n, f, h, hm⟩))
  · obtain ⟨v, hv⟩ := h m hm
    exact .inl ⟨n, v, hv⟩

/-- A message sent is on its way or waits for a port (R373), and sending it changes no context, queue, object or byte. -/
theorem sendMsg_spec (s : State) (vc : Nat) (m : Msg) :
    Leaves (sendMsg s vc m) m ∧ sameButPorts s (sendMsg s vc m) := by
  unfold sendMsg sendWaitingMsg
  have hb : Leaves (holdBack s ⟨none, vc, m, none⟩) m ∧ sameButPorts s (holdBack s ⟨none, vc, m, none⟩) :=
    ⟨.inr (.inr (.inr ⟨⟨none, vc, m, none⟩, by simp [holdBack], rfl⟩)), rfl⟩
  split
  · exact ⟨.inr (.inl (by simp [emit])), rfl⟩
  · split
    · next n _ =>
      split
      · obtain ⟨h1, h2⟩ := putOnPort_spec s n vc m (msgFlits_ne_nil m)
        exact ⟨h1, h2.frame⟩
      · exact hb
    · exact hb

/-- A reply reaches its path: a datagram, or the mailbox slot it answers (R428, R444). -/
theorem answers_reply (s : State) (src : Src) (b : List Byte) (h : ∀ ip port, src = .net ip port → stestoUp s = true) :
    Answers s (reply s src b) src b := by
  cases src with
  | net ip port =>
    unfold reply Answers; dsimp only
    rw [if_pos (h ip port rfl)]; rfl
  | mailbox e slot =>
    unfold reply Answers; dsimp only
    set u := setBox s e { boxOf s e with
      frames := tabPut (boxOf s e).frames slot b, owned := setBit (boxOf s e).owned slot false
      done := setBit (boxOf s e).done slot true } with hu
    have hr : boxIrq u e = { u with fns := (boxIrq u e).fns, out := (boxIrq u e).out } := by
      unfold boxIrq sendMsix; dsimp only; split
      · split
        · rfl
        · split <;> rfl
      · rfl
    have hbox : ∀ d, boxOf (boxIrq u e) d = boxOf u d := by intro d; unfold boxOf; rw [boxIrq_mgmt]
    rw [hbox]
    refine ⟨?_, ?_, ?_, ?_, (told_boxIrq u e).fns, ?_⟩
    · simp [hu, boxOf, setBox]
    · simp [hu, boxOf, setBox]
    · simp [hu, boxOf, setBox]
    · intro d hd; rw [hbox]; simp [hu, boxOf, setBox, tabGet_tabPut_ne _ _ _ hd]
    · rw [hr]; simp [hu]

end Sys2Proof.Machine
end

