-- ==== Sys2Proof/Tests/Slice0.lean ====
section
/-! SUPPORT. The model's own tests. First the well-formedness smoke test (one term per check, refused when the check's
field is out of its range); then, for every obligation with hypotheses, a state and operands that meet them (`hyp_…`);
then results worked out by hand from the manual's tables and examples. Nothing here is a claim for the provers. -/

namespace Sys2Proof.Tests

open Sys2Proof Sys2Proof.Machine

set_option Elab.async false

/-! ### Well-formedness: an ill-formed term for each check, refused -/

/-- Operands within their ranges. -/
def okReq : Req := ⟨1, 1, 1⟩
def okMsg : Msg := { mtype := 1 }
def okSrc : Src := .net 1 5000
theorem test_wf_refused_0 :
    ([
      .powerGoodRise false 32, .resetNDeassert false 32, .testLogicReset false 32, .builtInSelfTest [136] [],
      .builtInSelfTest [] [100], .dramTraining [(8, 0)], .pcieLinkTraining 2 0 0 false, .fabricTraining 16,
      .configRequest 512 .read, .warmReset ⟨0, 1, 1⟩ 0, .partReset ⟨0, 1, 1⟩ 0 0, .partReset okReq 128 0,
      .partResetComplete 128, .functionLevelReset 512, .perstAssert 2, .perstDeassert 2, .vfEnableClear 2, .pcieLinkLoss 2,
      .coreReset ⟨0, 1, 1⟩ 0 0, .coreReset okReq 128 0] : List Instr).all (fun c => !c.wf) = true := by decide +kernel
theorem test_wf_refused_1 :
    ([
      .linkReset ⟨0, 1, 1⟩ 0 0, .linkReset okReq 16 0, .lossOfLockMemory 2, .memRelock 2, .memRelockFail 2,
      .plevelReqWrite ⟨0, 1, 1⟩ 0 0, .plevelReqWrite okReq 8 0, .sequencerStepUp 8, .railRampDone 8, .railSettleEnd 8,
      .sequencerStepDown 8, .stepDownWaitEnd 8, .powerEnvWrite ⟨0, 1, 1⟩ 0, .thermalStateExit false 8,
      .energyMeterUpdate 0 [⟨0, [⟨128, [], 0⟩]⟩] [], .stackThresholdWrite ⟨0, 1, 1⟩ false 0,
      .iqDoorbell 512 0 0 [], .iqDoorbell 0 4096 0 [], .iqEnable 512 0 0, .iqEnable 0 4096 0] : List Instr).all (fun c => !c.wf) = true := by decide +kernel
theorem test_wf_refused_2 :
    ([
      .iqDisable 512 0 0, .iqDisable 0 4096 0, .resume 512 0 0, .resume 0 4096 0, .cqDoorbell 512 0 0, .cqDoorbell 0 4096 0,
      .cqEnable 512 0 0, .cqEnable 0 4096 0, .cqDisable 512 0 0, .cqDisable 0 4096 0, .bar0RegisterWrite 512 0 4 0,
      .bar0RegisterWrite 0 0 3 0, .batchFetch 4096, .admitOp 4096, .coalTimeExpiry 4096, .wavefrontComplete 128,
      .stallTimerExpiry 128 0, .resumeParked 128, .arrayStallLimitWrite ⟨0, 1, 1⟩ 0, .cancelOp ⟨0, 1, 1⟩ 0] : List Instr).all (fun c => !c.wf) = true := by decide +kernel
theorem test_wf_refused_3 :
    ([
      .cancelFlow ⟨0, 1, 1⟩ 0, .parkLimitWrite ⟨0, 1, 1⟩ 0, .precLockWrite ⟨0, 1, 1⟩ 0 0, .precLockWrite okReq 128 0,
      .dramLineRead 0 1 .clean, .eddyAgeExpiry 8 0, .eddyDrainDone 8 0 .clean, .eddyAgeWrite ⟨0, 1, 1⟩ 0, .scrubPass 8 [],
      .refresh 8, .flagHoldLimitWrite ⟨0, 1, 1⟩ 0, .dataFlitReceive 16 (List.replicate 256 0), .dataFlitReceive 0 [],
      .idleFlit 16 (List.replicate 256 0), .idleFlit 0 [], .holdFlit 16 (List.replicate 256 0), .holdFlit 0 [],
      .replayLimit 16 0, .replayLimit 0 5, .laneRepairDone 16] : List Instr).all (fun c => !c.wf) = true := by decide +kernel
theorem test_wf_refused_4 :
    ([
      .portDown 16, .portRetrain 16, .holdFlitSend 16, .idleFlitSend 16, .holdMessageSend 16, .writeMsg { mtype := 256 },
      .flagMsg { mtype := 256 }, .readReq { mtype := 256 }, .readResp { mtype := 256 }, .ack { mtype := 256 },
      .nack { mtype := 256 }, .flagAck { mtype := 256 }, .ready { mtype := 256 }, .segment { mtype := 256 },
      .mismatch { mtype := 256 }, .openMsg { mtype := 256 }, .closeMsg { mtype := 256 }, .holdMsg { mtype := 256 },
      .pace { mtype := 256 }, .depart { mtype := 256 } 0 0] : List Instr).all (fun c => !c.wf) = true := by decide +kernel
theorem test_wf_refused_5 :
    ([
      .depart okMsg 16 0, .depart okMsg 0 2, .join { mtype := 256 } 0 0, .join okMsg 16 0, .join okMsg 0 2, .paceSend 16,
      .ctxOpen ⟨0, 1, 1⟩ 0, .ctxClose ⟨0, 1, 1⟩ 0, .collGroupCfgWrite ⟨0, 1, 1⟩ 0 0, .collGroupCfgWrite okReq 16 0,
      .chipIdWrite ⟨0, 1, 1⟩ 0, .partCtrlCreate ⟨0, 1, 1⟩ 0, .partCtrlCreate okReq 128, .partCtrlDestroy ⟨0, 1, 1⟩ 0,
      .partCtrlDestroy okReq 128, .discover (.mailbox 2 0) [], .sessionOpen (.mailbox 2 0) [],
      .sessionProve (.mailbox 2 0) [], .stestoClose (.mailbox 2 0) [], .closeReply (.mailbox 2 0) []] : List Instr).all (fun c => !c.wf) = true := by decide +kernel
theorem test_wf_refused_6 :
    ([
      .stestoRead (.mailbox 2 0) [], .stestoWrite (.mailbox 2 0) [], .notifyAck (.mailbox 2 0) [],
      .lockoutExpiry (.mailbox 2 0), .neighbourSolicitation (.mailbox 2 0) [], .icmpv6Echo (.mailbox 2 0) [],
      .sessionKill ⟨0, 1, 1⟩ 0, .keyMaterialWrite ⟨0, 1, 1⟩ 0 (List.replicate 32 0),
      .keyMaterialWrite okReq 16 (List.replicate 32 0), .keyMaterialWrite okReq 0 [], .mbSubmit 2 0 [],
      .mbSubmit 0 0 (List.replicate 513 0), .mbRelease 2 0, .mbNotifyFree 2 0, .coreCheck 128, .coreRetire ⟨0, 1, 1⟩ 0 0,
      .coreRetire okReq 128 0, .plannedRetirementProceed 128, .spareMappingDone 128 [], .spareMappingDone 0 [136]] : List Instr).all (fun c => !c.wf) = true := by decide +kernel
theorem test_wf_refused_7 :
    ([
      .poolBankCopyDone 2 0, .poolBankCopyDone 0 48, .pseudoChannelMoveDone 8 0 [], .pseudoChannelMoveDone 0 34 [],
      .pcRetire ⟨0, 1, 1⟩ 0 0, .pcRetire okReq 8 0, .pcRelayDone 8, .spawnUe 128, .errLogClear ⟨0, 1, 1⟩ 0,
      .fwBlock ⟨0, 1, 1⟩ [], .fwCommit ⟨0, 1, 1⟩ 0, .fwActivate ⟨0, 1, 1⟩ 0, .svcDepart ⟨0, 1, 1⟩ 0, .bypass 256] : List Instr).all (fun c => !c.wf) = true := by decide +kernel
theorem test_wf_taken_0 :
    ([
      .powerGoodRise false 0, .resetNDeassert false 0, .testLogicReset false 0, .builtInSelfTest [] [], .dramTraining [],
      .pcieLinkTraining 0 0 0 false, .fabricTraining 0, .configRequest 0 .read, .warmReset okReq 0, .partReset okReq 0 0,
      .partResetComplete 0, .functionLevelReset 0, .perstAssert 0, .perstDeassert 0, .vfEnableClear 0, .pcieLinkLoss 0,
      .coreReset okReq 0 0, .linkReset okReq 0 0, .lossOfLockMemory 0, .memRelock 0, .memRelockFail 0,
      .plevelReqWrite okReq 0 0, .sequencerStepUp 0, .railRampDone 0, .railSettleEnd 0, .sequencerStepDown 0,
      .stepDownWaitEnd 0, .powerEnvWrite okReq 0, .thermalStateExit false 0, .energyMeterUpdate 0 [] [],
      .stackThresholdWrite okReq false 0, .iqDoorbell 0 0 0 [], .iqEnable 0 0 0, .iqDisable 0 0 0, .resume 0 0 0,
      .cqDoorbell 0 0 0, .cqEnable 0 0 0, .cqDisable 0 0 0, .bar0RegisterWrite 0 0 4 0, .batchFetch 0] : List Instr).all (fun c => c.wf) = true := by decide +kernel
theorem test_wf_taken_1 :
    ([
      .admitOp 0, .coalTimeExpiry 0, .wavefrontComplete 0, .stallTimerExpiry 0 0, .resumeParked 0,
      .arrayStallLimitWrite okReq 0, .cancelOp okReq 0, .cancelFlow okReq 0, .parkLimitWrite okReq 0,
      .precLockWrite okReq 0 0, .dramLineRead 0 0 .clean, .eddyAgeExpiry 0 0, .eddyDrainDone 0 0 .clean,
      .eddyAgeWrite okReq 0, .scrubPass 0 [], .refresh 0, .flagHoldLimitWrite okReq 0,
      .dataFlitReceive 0 (List.replicate 256 0), .idleFlit 0 (List.replicate 256 0), .holdFlit 0 (List.replicate 256 0),
      .replayLimit 0 0, .laneRepairDone 0, .portDown 0, .portRetrain 0, .holdFlitSend 0, .idleFlitSend 0,
      .holdMessageSend 0, .writeMsg okMsg, .flagMsg okMsg, .readReq okMsg, .readResp okMsg, .ack okMsg, .nack okMsg,
      .flagAck okMsg, .ready okMsg, .segment okMsg, .mismatch okMsg, .openMsg okMsg, .closeMsg okMsg, .holdMsg okMsg] : List Instr).all (fun c => c.wf) = true := by decide +kernel
theorem test_wf_taken_2 :
    ([
      .pace okMsg, .depart okMsg 0 0, .join okMsg 0 0, .paceSend 0, .ctxOpen okReq 0, .ctxClose okReq 0,
      .collGroupCfgWrite okReq 0 0, .chipIdWrite okReq 0, .partCtrlCreate okReq 0, .partCtrlDestroy okReq 0,
      .discover okSrc [], .sessionOpen okSrc [], .sessionProve okSrc [], .stestoClose okSrc [], .closeReply okSrc [],
      .stestoRead okSrc [], .stestoWrite okSrc [], .notifyAck okSrc [], .lockoutExpiry okSrc,
      .neighbourSolicitation okSrc [], .icmpv6Echo okSrc [], .sessionKill okReq 0,
      .keyMaterialWrite okReq 0 (List.replicate 32 0), .mbSubmit 0 0 [], .mbRelease 0 0, .mbNotifyFree 0 0, .coreCheck 0,
      .coreRetire okReq 0 0, .plannedRetirementProceed 0, .spareMappingDone 0 [], .poolBankCopyDone 0 0,
      .pseudoChannelMoveDone 0 0 [], .pcRetire okReq 0 0, .pcRelayDone 0, .spawnUe 0, .errLogClear okReq 0,
      .fwBlock okReq [], .fwCommit okReq 0, .fwActivate okReq 0, .svcDepart okReq 0] : List Instr).all (fun c => c.wf) = true := by decide +kernel
theorem test_wf_taken_3 :
    ([
      .bypass 0] : List Instr).all (fun c => c.wf) = true := by decide +kernel
/-! ### States the tests start from -/

/-- Objects stored in a state: index, subindex, value. -/
def objs (l : List (Nat × Nat × Nat)) (s : State) : State := l.foldl (fun t x => wr t x.1 x.2.1 x.2.2) s

/-- A package in full mode: partition 0 bound to PF 0 of EP0 with cores 0 to 3, four extents of stack 0 and four of the Pool;
EP0 up, port 0 UP, the management port reachable. -/
def up : State := objs
  [(oBOOT_STAGE, 0, 13), (oCLK_STATUS, 0, 0x3E), (oSTACK_PC_ACTIVE, 1, 32), (oPART_STATE, 1, 1), (oPART_FUNC, 1, 0x8000),
   (oPART_CORES, 1, 0xF), (oPART_DRAM_EXT, 1, 0xF), (oPART_POOL_EXT, 1, 0xF), (oPORT_STATE, 1, 2)]
  { power := { good := true, compute := true, control := true, fullMode := true }, clock := { phyOn := true },
    mgmt := { addressOk := true }, eps := [(0, { linkUp := true, width := 16, rateMt := 64000 })],
    pins := { v48Mv := 48000 } }

/-- A package whose power-on sequence stands at a stage. -/
def at_ (v : Nat) : State := objs [(oBOOT_STAGE, 0, v), (oCLK_STATUS, 0, 0x3E)]
  { power := { good := true, compute := decide (8 ≤ v) }, clock := { phyOn := true } }

/-- A descriptor of an OPC. -/
def desc (opc : Nat) : Desc :=
  { opc := opc, cls := 1, prec := 0, bndsrc := 0, gfp := false, spillOk := false, flow := 0, tol := 0, seq := 0, opid := 5,
    waits := [], signal := 0, tail := 0, wgroup := 0, scope := 0, seed := 0, lcount := 1, count := 0, bnd := 0, opl := 0,
    remoteSignal := 0, fmt0 := 0, fmt1 := 0, fmt2 := 0, fmt3 := 0, tailScale := 0, cap := 0 }

/-- Operation 7 of partition 0, of an OPC. -/
def op7 (opc : Nat) : Op := { id := 7, part := 0, queue := 0, desc := desc opc }

/-- The same dispatched on core 0, one tile. -/
def run7 (opc : Nat) : Op := { op7 opc with phase := .dispatched, core := some 0, tiles := 1, precision := 1 }

/-- Operations admitted in a state. -/
def withOps (l : List Op) (s : State) : State := { s with weir := { s.weir with ops := l, nextOp := 100 } }

/-- Operation 7 executing on core 0. -/
def running (opc : Nat) : State := setCore (withOps [run7 opc] up) 0 { exec := some 7, wave := true }

/-- The state after a command; the state before it where it stops. -/
def after (c : Instr) (s : State) : State :=
  match Machine.exec c s with
  | .next t => t
  | _ => s

/-- Whether a step answers a next state. -/
def isNext : Result → Bool
  | .next _ => true
  | _ => false

/-! ### Witnesses: the reset side -/

theorem test_hyp_IdleStepIsOneMicrosecond : up.pending = [] ∧ (setPart up 0 { level := 5 }).pending = [] ∧
    { up with regr := { up.regr with jobs := [.move 0 3 0, .core 5] } }.pending = [] := by decide
theorem test_hyp_StepKeepsMemoryForm :
    let s := { up with pending := [.idcode], mem := { cells := [(5, 1)], eddies := [(0, [⟨256, [(3, 9)], [7], 10, true⟩])] } }
    s.mem.wf = true ∧ eddiesOk s.mem = true ∧ isNext (step s) = true := by decide +kernel
theorem test_hyp_StepKeepsOrderAndCopies :
    let s := { running 0x02 with pending := [.idcode], staged := [(objKey oCHIP_ID 0, 5)] }
    opsOk s.weir = true ∧ tabSorted s.iqs = true ∧ spawnOk s.spawn = true ∧ copiesOk s.nv = true ∧ stagedOk s = true ∧ isNext (step s) = true := by
  decide +kernel
theorem test_hyp_StepOnlyMovesOnward : isNext (step { up with pending := [.coldReset] }) = true := by decide +kernel
theorem test_hyp_VoltageShutsThePackageDown :
    let s := { up with power := { up.power with lowTimer := true, highTimer := true } }
    s.power.good = true ∧ s.power.shutdown = false ∧ s.power.lowTimer = true ∧ s.power.highTimer = true := by decide
theorem test_hyp_ResetPinAndPowerGood :
    copiesOk State.reset.nv = true ∧ State.reset.power.good = false ∧ State.reset.power.fullMode = false ∧
      State.reset.pins.resetLow = false ∧ copiesOk up.nv = true ∧ up.power.good = true ∧ up.power.shutdown = false ∧
      up.pins.resetLow = false := by decide
theorem test_hyp_ResetPin_low :
    let s := { at_ 0 with pins := { resetLow := true } }
    s.power.good = true ∧ s.power.shutdown = false ∧ s.power.fullMode = false ∧ s.pins.resetLow = true ∧
      copiesOk s.nv = true := by decide
theorem test_hyp_ResetPin_restart :
    let s := { up with power := { up.power with shutdown := true, held := some 1 } }
    s.power.held = some 1 ∧ s.power.shutdown = true ∧ s.power.good = true ∧ packageCool s = true ∧
      40000 ≤ s.pins.v48Mv ∧ s.pins.v48Mv ≤ 60000 ∧ s.pins.resetLow = false ∧ copiesOk s.nv = true := by decide +kernel
theorem test_hyp_PowerOnSteps :
    (at_ 4).power.good = true ∧ atStage (at_ 4) 4 = true ∧ mayReach (at_ 4) 6 = true ∧
      (rd (at_ 4) oCLK_STATUS 0).testBit 1 = true ∧ atStage (at_ 6) 6 = true ∧ mayReach (at_ 6) 7 = true ∧
      atStage (at_ 7) 7 = true ∧ mayReach (at_ 7) 8 = true := by decide +kernel
theorem test_hyp_SelfTestAndTraining :
    atStage (at_ 8) 8 = true ∧ atStage (at_ 9) 9 = true ∧ coreRetired (at_ 8) 0 = false ∧ physOf (at_ 8) 0 ∉ [1, 2] ∧
      bankRemoved (at_ 8) 0 5 = false ∧ 50 * 0 + bankIn (at_ 8).nv.repair 0 5 5 ∈ [5, 48] ∧
      bankRemoved (at_ 8) 1 47 = false ∧ 50 * 1 + bankIn (at_ 8).nv.repair 1 47 47 ∉ [5, 48] ∧
      coreRetired (after (.builtInSelfTest [] [5, 48, 49]) (at_ 8)) 0 = false ∧
      bankRemoved (after (.builtInSelfTest [] [5, 48]) (at_ 8)) 0 5 = false ∧
      bankRemoved (after (.builtInSelfTest [] [5, 48, 49]) (at_ 8)) 0 5 = true := by decide +kernel
theorem test_hyp_PartitionsRestored :
    let s := { objs [(oPART_FUNC, 1, 0x8000), (oPART_FUNC, 2, 0x8001), (oPART_CORES, 1, 0xF)] (at_ 10) with
      staged := [(objKey oPART_CORES 1, 3), (objKey oROUTE 1, 1)] }
    let u := applyStaged s (fun i => !(trainingObj i))
    atStage s 10 = true ∧ (rd u oPART_FUNC 3).testBit 15 = false ∧ (rd u oPART_FUNC 1).testBit 15 = true ∧
      coresLeft u 0 = [0, 1] ∧ partDramMib u 0 * 2 ^ 20 ≤ dramBytes u ∧ (rd u oPART_FUNC 2).testBit 15 = true ∧
      coresLeft u 1 = [] ∧ u.staged = [(objKey oROUTE 1, 1)] ∧ (List.range 128).all (fun r => !(partExists u r)) = true := by
  decide +kernel
/-- Two partitions of one function with cores of their own: the second is restored after the first. -/
theorem test_hyp_PartitionsRestored_overlap :
    let s := objs [(oPART_FUNC, 1, 0x8000), (oPART_CORES, 1, 1), (oPART_FUNC, 2, 0x8000), (oPART_CORES, 2, 2)] (at_ 10)
    atStage s 10 = true ∧ s.staged = [] ∧ coresLeft s 1 ≠ [] ∧ partDramMib s 1 * 2 ^ 20 ≤ dramBytes s ∧
      partFn s 1 = partFn s 0 ∧ partExists (after .partitionRestore s) 0 = true := by decide +kernel
/-- A package whose root loop is being relocked. -/
def gated (s : State) : State := { s with clock := { s.clock with rootGated := true } }
theorem test_hyp_ConfigurationRetriedUntilStep13 :
    (epOf up (0 / 256)).linkUp = true ∧ 0 % 256 ≤ 127 ∧ (gated up).clock.rootGated = true ∧ up.clock.rootGated = false ∧
      rd (wr up oBOOT_STAGE 0 12) oBOOT_STAGE 0 ≠ 13 ∧ rd up oBOOT_STAGE 0 = 13 ∧ (fnOf up 0).vfs = 0 ∧
      fnOn up 0 = true ∧ 0 < msixVectors 0 := by decide +kernel
theorem test_hyp_PcieLinkUpAndDown :
    epTrains up 0 = true ∧ 16 ∈ [16, 8, 4] ∧ 2500 ≤ 64000 ∧ 64000 ≤ 64000 ∧ (epOf up 0).linkUp = true ∧
      epFitted up 0 = true := by decide +kernel
theorem test_hyp_ResetsFromThePcieSide :
    opsOk (running 0x02).weir = true ∧ epFitted (running 0x02) 0 = true ∧ rd (running 0x02) oPART_STATE 1 = 1 ∧
      partFn (running 0x02) 0 / 256 = 0 ∧ paused (running 0x02) 0 = false ∧ (running 0x02).clock.rootGated = false ∧
      opsOk (gated (running 0x02)).weir = true ∧ (gated (running 0x02)).clock.rootGated = true := by decide +kernel
theorem test_hyp_LossOfLockAndReference :
    (rd up oCLK_STATUS 0).testBit 3 = true ∧ (rd up oCLK_STATUS 0).testBit 4 = true ∧ (rd up oCLK_STATUS 0).testBit 5 = true ∧
      (rd up oCLK_STATUS 0).testBit 2 = true ∧ (rd up oCLK_STATUS 0).testBit 7 = false ∧ rd up oCLK_MODE 0 = 0 ∧
      portTrained up 0 = true ∧ portTrained up 1 = false ∧ stackFitted up 0 = true ∧ up.power.good = true ∧
      (true && (rd up oCLK_MODE 0 == 0) && up.power.good) = true := by decide +kernel
theorem test_hyp_RelockRestoresService :
    let s := { gated (wr up oPORT_STATE 1 4) with hostHeld := [.cqDoorbell 0 0 1] }
    let u := { up with clock := { up.clock with relock0 := true, relock1 := true } }
    s.power.chipError = false ∧ s.clock.rootNoted = false ∧ s.clock.noted0 = false ∧ s.clock.noted1 = false ∧
      s.clock.rootGated = true ∧ s.clock.rootFailed = false ∧ s.power.compute = true ∧ portCode s 0 = 4 ∧ s.weir.ops = [] ∧
      s.mem.eddyWait = [] ∧ s.outRecords = [] ∧ u.power.chipError = false ∧ u.clock.rootNoted = false ∧ relocking u 0 = true ∧
      relockFailed u 0 = false ∧ relocking u 1 = true ∧ relockFailed u 1 = false ∧ u.clock.rootGated = false := by
  decide +kernel
theorem test_hyp_RelockFailureIsAChipError :
    let s := gated (running 0x02)
    let lost := gated { wr up oCLK_STATUS 0 0xBE with clock := { relock0 := true } }
    let u := { running 0x02 with clock := { relock0 := true } }
    let back := { up with clock := { relock0 := true, failed1 := true, relock1 := true, noted1 := true } }
    opsOk s.weir = true ∧ s.clock.rootNoted = false ∧ s.clock.rootGated = true ∧ s.clock.rootFailed = false ∧
      s.clock.noted0 = false ∧ s.clock.noted1 = false ∧ (rd s oCLK_STATUS 0).testBit 7 = false ∧ s.power.chipError = false ∧
      lost.clock.rootGated = true ∧ (rd lost oCLK_STATUS 0).testBit 7 = true ∧ relocking lost 0 = true ∧
      relockFailed lost 0 = false ∧ opsOk u.weir = true ∧ relocking u 0 = true ∧ relockFailed u 0 = false ∧
      u.clock.rootGated = false ∧ u.clock.noted0 = false ∧ relocking back 0 = true ∧ relockFailed back 0 = false ∧
      back.clock.noted1 = true ∧ back.clock.noted0 = false ∧ back.power.chipError = false := by decide +kernel
/-- The same of die 1, of two failures with the reference lost, and of a second error and what follows it. -/
theorem test_hyp_RelockFailure_more :
    let u := { running 0x02 with clock := { relock1 := true } }
    let both := { wr up oCLK_STATUS 0 0xBE with clock := { relock0 := true, relock1 := true } }
    let again := { u with power := { u.power with chipError := true } }
    let second := gated again
    opsOk u.weir = true ∧ u.clock.rootNoted = false ∧ relocking u 1 = true ∧ relockFailed u 1 = false ∧
      (relocking u 0 && !(relockFailed u 0)) = false ∧ u.clock.noted0 = false ∧ u.clock.noted1 = false ∧
      u.power.chipError = false ∧ u.clock.rootGated = false ∧ opsOk both.weir = true ∧ both.clock.rootNoted = false ∧
      (rd both oCLK_STATUS 0).testBit 7 = true ∧ relocking both 0 = true ∧ relockFailed both 0 = false ∧
      relocking both 1 = true ∧ relockFailed both 1 = false ∧ relocking again 1 = true ∧ again.power.chipError = true ∧
      (rd again oCLK_STATUS 0).testBit 7 = false ∧ second.clock.rootGated = true ∧ second.clock.rootFailed = false ∧
      second.power.chipError = true ∧ second.clock.noted0 = false ∧ second.clock.noted1 = false := by decide +kernel
/-- A quadrant's sequencer at a level and phase, the effective level 3. -/
def seqAt (level : Nat) (ph : SeqPhase) : State := setSeq (wr up oPLEVEL_REQ 1 3) 0 { level := level, phase := ph, railMv := 720 }
theorem test_hyp_SequencerStepsOneLevel :
    seqRuns (seqAt 3 .idle) 0 = true ∧ effLevel (seqAt 5 .idle) 0 < 5 ∧ 2 < effLevel (seqAt 2 .idle) 0 ∧
      [SeqPhase.rampUp, .rampDown, .rampBack, .settle, .wait].all (fun p => seqRuns (seqAt 4 p) 0 && (seqOf (seqAt 4 p) 0).phase == p) =
        true := by decide +kernel
theorem test_hyp_EnvelopeDemandMoves :
    let s := { up with power := { up.power with lowPeriods := 9 } }
    envActs up = true ∧ powerEnv up * 1000 < 400000 ∧ (360999 * 100 < powerEnv up * 1000 * 95 ∧ 360999 ≤ powerEnv up * 1000) ∧
      up.power.lowPeriods < 9 ∧ envActs s = true ∧ 9 ≤ s.power.lowPeriods ∧
      (powerEnv up * 1000 * 95 ≤ 361000 * 100 ∧ 361000 ≤ powerEnv up * 1000) ∧ powerEnv up * 1100 < 418001 := by decide +kernel
theorem test_hyp_MetersAndMeasurements :
    up.power.good = true ∧ opsOk (running 0x02).weir = true ∧ partExists up 0 = true ∧ partExists up 1 = false ∧
      up.power.compute = true ∧ [1, 2, 3, 4, 5, 6, 7, 8].length = 8 ∧ corePart up 0 = some 0 := by decide +kernel
theorem test_hyp_ThermalStatesEnteredAndLeft :
    let hot := { objs [(oSTACK_TEMP, 1, 870), (oQUAD_TEMP, 1, 920)] up with therm := { stack := [(0, .hot)], quad := [(0, .hot)] } }
    up.power.good = true ∧ up.power.compute = true ∧ up.power.shutdown = false ∧ stackFitted up 0 = true ∧
      highest [some 870, some 910] = some 910 ∧ trips true [some 1050] = true ∧ trips false [some 1150] = true ∧
      trips true [] = false ∧ hot.power.good = true ∧ stackOwn hot 0 ≠ .normal ∧ quadOwn hot 0 ≠ .normal ∧
      (rd hot oBASK_FAULT 0).testBit 8 = false ∧ (rd hot oBASK_FAULT 0).testBit 0 = false ∧
      tempOf (rd hot oSTACK_TEMP 1) ≤ hotAt hot true - 30 ∧ tempOf (rd hot oQUAD_TEMP 1) ≤ hotAt hot false - 30 := by
  decide +kernel

/-! ### Witnesses: host queues -/

/-- Intake queue 0 of partition 0: a ring of 16, enabled, empty; completion queue 0: a ring of 64, enabled. -/
def queues (q : Iq) : State := setCq (setIq up 0 q) 0 { base := 6, enabled := true, phase := true }
def iq0 : Iq := { base := 4, enable := true, enabled := true }
theorem test_hyp_DoorbellLogsOneBatch :
    doorPart (queues iq0) 0 = some 0 ∧ 0 < iqCount (queues iq0) 0 ∧ (iqOf (queues iq0) (iqIndex (queues iq0) 0 0)) = iq0 ∧
      iq0.overrun = false ∧ 3 ≠ iq0.tail ∧ 16 ≠ iq0.tail ∧ ringDepth iq0.base ≤ 16 ∧ 3 < ringDepth iq0.base ∧
      ringDist (ringDepth iq0.base) iq0.head iq0.tail + ringDist (ringDepth iq0.base) iq0.tail 3 < ringDepth iq0.base ∧
      iq0.log.length < 16 ∧ fnOn (gated up) 0 = true ∧ (gated up).clock.rootGated = true ∧ 0 % 65536 = iq0.tail ∧
      [((5, 1) : Nat × Byte)] = [] ++ (5, 1) :: [] ∧
      (List.replicate 16 1).length = 16 ∧ iq0.current = none := by decide +kernel
theorem test_hyp_IntakeQueueControl :
    let s := queues { base := 4 }
    doorPart s 0 = some 0 ∧ 0 < iqCount s 0 ∧ (1 : Nat).testBit 0 = true ∧ (iqOf s 0).enable = false ∧
      mayEnable s 0 { iqOf s (iqIndex s 0 0) with admitLimit := 0, cq := 0, haltOnRefuse := false } = true ∧
      mayEnable s 0 { iqOf s 0 with cq := 5 } = false ∧ (iqOf (queues iq0) 0).enable = true ∧ (0 : Nat).testBit 0 = false ∧
      (4 : Nat).testBit 2 = true := by decide +kernel
theorem test_hyp_BatchAcceptedOrRefusedWhole :
    let x : Iq := { iq0 with log := [2], tail := 2 }
    let s := queues x
    let u := queues { x with opened := 3, admitLimit := 4, haltOnRefuse := true }
    iqPart s 0 = some 0 ∧ s.power.fullMode = true ∧ s.power.chipError = false ∧ (partOf s 0).resetting = false ∧
      fnOn s (partFn s 0) = true ∧ s.clock.rootGated = false ∧ tabSorted s.iqs = true ∧ iqOf s 0 = x ∧ x.enabled = true ∧
      x.enable = true ∧ x.overrun = false ∧ x.current = none ∧ x.log = [2] ∧ x.fetched.length < 8 ∧
      creditsUsed s (queueDie 0) < 480 ∧ x.cq < cqCount s 0 ∧ (cqOf s (cqIndex s 0 x.cq)).enabled = true ∧
      (cqOf s 0).used + (cqOf s 0).reserved < ringDepth (cqOf s 0).base ∧ urgentFirst s 0 = false ∧ x.halted = false ∧
      x.admitLimit = 0 ∧ rd s oCREDIT_RATE 1 = 0 ∧ x.headAddr = 0 ∧ x.head < ringDepth x.base ∧
      iqUrgent s 0 0 = false ∧ 1 ≤ 2 ∧ ringDepth x.base = 16 ∧ x.headAddr = 0 ∧ batchCheck u 0 (iqOf u 0) 2 = some stREFUSED_FULL ∧ (iqOf u 0).haltOnRefuse = true ∧ urgentFirst u 0 = false := by
  decide +kernel
/-- A batch against a credit level of one descriptor. -/
theorem test_hyp_BatchRefused_credit :
    let s := setPart (wr (queues { iq0 with log := [2], tail := 2 }) oCREDIT_RATE 1 5) 0 { level := 1000000 }
    let t := setPart s 0 { level := 2000000 }
    batchCheck s 0 (iqOf s 0) 2 = some stREFUSED_CREDIT ∧ 2 * 1000000 ≤ (partOf t 0).level ∧ iqPart s 0 = some 0 ∧
      urgentFirst s 0 = false := by decide +kernel
theorem test_hyp_CompletionQueueControl :
    let s := setCq up 0 { base := 6 }
    let u := setCq (queues iq0) 0 { base := 6, enabled := true, irqEn := true, timer := true, used := 3 }
    let full := setCq up 0 { base := 6, enabled := true, used := 64 }
    let msi := setFn u 0 { msixEnable := true, vectors := [(0, { masked := false })] }
    doorPart s 0 = some 0 ∧ 0 < cqCount s 0 ∧ (1 : Nat).testBit 0 = true ∧ (cqOf s (cqIndex s 0 0)).enabled = false ∧
      ringLog (cqOf s 0).base = 6 ∧ (0 : Nat).testBit 0 = false ∧ (cqOf s 0).reserved = 0 ∧ cqNamed s 0 0 = false ∧
      doorPart u 0 = some 0 ∧ (cqOf u 0).enabled = true ∧ cqNamed u 0 0 = true ∧ cqPart u 0 = some 0 ∧
      ringDist (ringDepth (cqOf u 0).base) (cqOf u 0).head 2 ≤ (cqOf u 0).used ∧ 2 < ringDepth (cqOf u 0).base ∧
      (cqOf u 0).used < ringDist (ringDepth (cqOf u 0).base) (cqOf u 0).head 4 ∧ doorPart full 0 = some 0 ∧
      ringDist (ringDepth (cqOf full 0).base) (cqOf full 0).head 0 = 0 ∧ (cqOf full 0).used = ringDepth (cqOf full 0).base ∧
      (fnOf u 0).msixEnable = false ∧ (fnOf msi 0).msixEnable = true ∧ (cqOf msi 0).vector < msixVectors 0 ∧
      vectorMasked (fnOf msi 0) 0 = false ∧ (gated msi).clock.rootGated = true := by
  decide +kernel
theorem test_hyp_Bar0RegisterWrites :
    doorPart (queues iq0) 0 = some 0 ∧ 0 < iqCount (queues iq0) 0 ∧ 0 < cqCount (queues iq0) 0 ∧ 0 % 256 = 0 ∧
      (iqOf (queues iq0) (iqIndex up 0 0)).enable = true ∧ (iqOf up (iqIndex up 0 0)).enable = false ∧
      (cqOf (queues iq0) (cqIndex up 0 0)).enabled = true ∧ (cqOf up (cqIndex up 0 0)).enabled = false ∧
      (queues iq0).clock.rootGated = false ∧ iqCount (queues iq0) 0 ≤ 4095 ∧ cqCount (queues iq0) 0 ≤ 4095 ∧
      doorPart (queues iq0) 1 = none ∧
      boxUsable (queues iq0) (0 / 256) = true ∧ accessOk 4 8 = false ∧ accessOk 0 2 = false ∧ accessOk 0x10000 8 = true ∧
      fnOn (gated up) 0 = true := by decide +kernel
/-! ### Witnesses: operations -/

/-- The Pool of die 0, zero in its first 4 MiB, with bytes put at offsets. -/
def pool (l : List (Nat × List Byte)) (s : State) : State :=
  l.foldl (fun t x => putCells t (2 ^ 60 + x.1) x.2) { s with mem := { s.mem with fills := [⟨2 ^ 60, 2 ^ 60 + 0x400000, none⟩] } }

/-- A pointer list entry. -/
def entry (l : List Nat) : List Byte := l.flatMap (leBytes 8)

/-- Bounds and CAP words. -/
def mnk (m n k : Nat) : Nat := m + n * 2 ^ 20 + k * 2 ^ 40

theorem test_hyp_AdmissionInOrder :
    let b : List Byte := [0x02, 0x01] ++ List.replicate 62 0
    let u : List Byte := [0x02, 0x00] ++ List.replicate 62 0
    let s := setIq up 0 { iq0 with fetched := [(3, b)] }
    let full := wr s oSLOT_QUOTA 1 0
    (iqOf s 0).fetched = [(3, b)] ∧ iqPart s 0 = some 0 ∧ s.power.fullMode = true ∧ s.power.chipError = false ∧
      (partOf s 0).resetting = false ∧ (decodeDesc b).cls = 1 ∧ s.weir.ops.length < 1984 ∧ 0 < rd s oSLOT_QUOTA 1 ∧
      (decodeDesc u).cls = 0 ∧ 0 < rd s oURGENT_QUOTA 1 ∧ rd full oSLOT_QUOTA 1 = 0 ∧ iqPart full 0 = some 0 := by
  decide +kernel
/-- Tokens 16 to 31 of partition 0, the four highest counting tokens. -/
def tokens (s : State) : State := objs [(oTOKEN_BASE, 1, 16), (oTOKEN_COUNT, 1, 16), (oTOKEN_COUNTING, 1, 4)] s
theorem test_hyp_AdmissionInOrder_tokens :
    let s := tokens up
    tokenOf s 0 16 = true ∧ tokenCounts s 0 16 = false ∧ tokenOf s 0 31 = true ∧ tokenCounts s 0 31 = true ∧
      tokenCounts s 0 28 = true ∧ tokenCounts s 0 27 = false ∧ tokenOf s 0 32 = false ∧ tokenOf s 0 0 = false ∧
      (decodeDesc ([0x02, 0x01] ++ List.replicate 6 0 ++ [0, 0, 0, 0] ++ List.replicate 52 255)).waits ≠ [] := by decide +kernel
/-- A COPY of one row of 16 binary32 values, waiting. -/
def copy7 : Op := { op7 0x02 with desc := { desc 0x02 with bnd := mnk 1 16 0, cap := mnk 1 16 0, opl := 2 ^ 60 } }
def copyState : State := pool [(0, entry [2 ^ 60 + 0x1000, 2 ^ 60 + 0x2000, 0, 0])] (withOps [copy7] up)
theorem test_hyp_IssueFailuresInOrder :
    let failed := { copy7 with waits := [⟨1, false, true, false, true⟩] }
    let bare := { copy7 with desc := { copy7.desc with lcount := 0 } }
    let far := { op7 0x31 with desc := { desc 0x31 with bnd := mnk 1 16 1, cap := mnk 1 16 1, opl := 2 ^ 60 } }
    let f := pool [(0, entry [2 ^ 60 + 0x1000, 2 ^ 60 + 0x2000, 2 ^ 60 + 0x3000, 4 * 2 ^ 60 + 5 * 2 ^ 48])] (withOps [far]
      (setCtx up 5 { st := .opened, peerChip := 2, peerCtx := 9, part := 0, credits := 4 }))
    opOf? copyState 7 = some copy7 ∧ weirRuns copyState = true ∧ partRuns copyState 0 = true ∧ copy7.phase = .waiting ∧
      waitsMet copy7 = true ∧ copy7.requests = [] ∧ issueHeld copyState copy7 = false ∧ waitsMet failed = true ∧
      failed.waits.any (fun w => w.failed) = true ∧ opcKnown 0x05 = false ∧
      namesOk copyState 0 { copy7.desc with flow := 8 } = false ∧ (checkIssue copyState copy7).1 = 0 ∧
      copy7.desc.opc ≠ 0x01 ∧ (checkIssue copyState bare).1 = stBOUNDS_INVALID ∧ issueHeld f far = false ∧
      (checkIssue f far).1 = stNEED := by decide +kernel
theorem test_hyp_PlacementWithinTheCandidates :
    let o := { copy7 with phase := .issued, m := 1, n := 16, tiles := 1 }
    let s := withOps [o] up
    let urgent := { o with desc := { o.desc with cls := 0 } }
    let u := setCore (withOps [urgent, { run7 0x10 with id := 8 }] (wr up oPART_CORES 1 1)) 0 { exec := some 8, wave := true }
    opOf? s 7 = some o ∧ weirRuns s = true ∧ wantsCore s o = true ∧ outranked s o (candidates s o) = false ∧ o.desc.cls ≠ 0 ∧
      candidates s o = [0, 1, 2, 3] ∧ opOf? u 7 = some urgent ∧ wantsCore u urgent = true ∧
      outranked u urgent (candidates u urgent) = false ∧ (candidates u urgent).any (fun c => (coreOf u c).exec.isNone) = false ∧
      chooseVictim u urgent (candidates u urgent) = some 0 ∧ (coreOf u 0).wave = true ∧ inWave u 0 = true ∧
      (coreOf u 0).stall = none := by decide +kernel
/-- An URGENT operation with no victim, and one that waited for a core when one falls idle. -/
theorem test_hyp_Placement_waits :
    let o := { copy7 with phase := .issued, m := 1, n := 16, tiles := 1, desc := { copy7.desc with cls := 0 } }
    let other : Op := { run7 0x10 with id := 8, desc := { desc 0x10 with cls := 0 } }
    let u := setCore (withOps [o, other] (wr up oPART_CORES 1 1)) 0 { exec := some 8, wave := true }
    let w := { o with coreWait := true }
    let s := withOps [w] up
    opOf? u 7 = some o ∧ wantsCore u o = true ∧ outranked u o (candidates u o) = false ∧ o.desc.cls = 0 ∧
      (candidates u o).any (fun c => (coreOf u c).exec.isNone) = false ∧ chooseVictim u o (candidates u o) = none ∧
      opOf? s 7 = some w ∧ weirRuns s = true ∧ wantsCore s w = true ∧ outranked s w (candidates s w) = false ∧
      candidates s w ≠ [] ∧ (candidates s w).any (fun c => (coreOf s c).exec.isNone) = true := by decide +kernel
theorem test_hyp_DispatchTakesTheArrays :
    let o := { copy7 with phase := .placed, core := some 0, ins := [(3 * 2 ^ 60, 64)] }
    let far := { o with ins := [(4 * 2 ^ 60 + 5 * 2 ^ 48, 64)] }
    let fork := { o with desc := { o.desc with opc := 0x40 }, m := 1, n := 1, entries := [[0, 0, 0, 0]] }
    let s := withOps [o] up
    opOf? s 7 = some o ∧ weirRuns s = true ∧ partRuns s 0 = true ∧ (coreOf s 0).exec = none ∧
      resumesFirst s 0 o.desc.cls = false ∧ placedAhead s 0 o.desc.cls = false ∧ urgentWaits s 0 = false ∧
      isSpawn o.desc.opc = false ∧ remoteNow s o = 0 ∧ hostRequests s o ≠ [] ∧ remotePieces s o = [] ∧
      rd s oPREC_LOCK 1 = 0 ∧ rd (wr s oPREC_LOCK 1 2) oPREC_LOCK 1 ≠ 0 ∧ isSpawn far.desc.opc = false ∧
      0 < lineCredits s 0 false ∧ 0 < poolCredits s 0 ∧ 0 < bridgeCredits s 0 ∧ remoteNow (withOps [far] up) far ≠ 0 ∧ isSpawn fork.desc.opc = true ∧
      reserveStatus (withOps [fork] (wr up oSPAWN_COUNT 1 0)) fork = 0x43 := by decide +kernel
theorem test_hyp_TileBoundaries :
    let done := { run7 0x02 with dataDone := true }
    let s := setCore (withOps [done] up) 0 { exec := some 7, wave := true }
    let long := { run7 0x02 with tiles := 3 }
    let l := setCore (withOps [long] up) 0 { exec := some 7, wave := true }
    let lr := setCore l 0 { exec := some 7, wave := true, load := some .coreReset }
    let urgent : Op := { op7 0x02 with id := 8, phase := .placed, core := some 0 }
    let u := setCore (withOps [run7 0x10, urgent] up) 0 { exec := some 7, wave := true, load := some (.preempt 8), stall := some 50 }
    opsOk s.weir = true ∧ executingOn s 0 = some done ∧ done.core = some 0 ∧ (coreOf s 0).wave = true ∧
      mayFinish s done = true ∧ (coreOf s 0).load = none ∧ executingOn (running 0x10) 0 = some (run7 0x10) ∧
      (run7 0x10).dataDone = false ∧ (run7 0x10).tiles ≤ (run7 0x10).tile + 1 ∧ opsOk l.weir = true ∧
      executingOn l 0 = some long ∧ long.tile + 1 < long.tiles ∧ long.cancel = false ∧ tileStalls l long 0 = false ∧ inWave l 0 = true ∧
      streamsRows long.desc.opc = false ∧ long.desc.opc ≠ 0x58 ∧ long.desc.opc ≠ 0x59 ∧ inWave (setCore l 0 { exec := some 7 }) 0 = false ∧
      (coreOf l 0).load = none ∧ executingOn lr 0 = some long ∧ (coreOf lr 0).load = some .coreReset ∧ inWave lr 0 = true ∧
      inWave s 0 = true ∧ partRuns u urgent.part = true ∧ urgent.phase = .placed ∧ urgent.outs = [] ∧
      long.phase = .dispatched ∧ opsOk u.weir = true ∧ executingOn u 0 = some (run7 0x10) ∧
      (coreOf u 0).load = some (.preempt 8) ∧ (coreOf u 0).stall = some 50 ∧ opOf? u 8 = some urgent ∧
      isSpawn urgent.desc.opc = false ∧ urgent.ins = [] ∧ weirRuns u = true := by decide +kernel
/-- A tile that cannot end: a GATHER whose memory is being relocked; and one that leaves rows. -/
theorem test_hyp_TileBoundaries_stall :
    let o := { run7 0x58 with tiles := 3, m := 1, n := 16, outs := [(0x4000, 64)] }
    let s := gated (setCore (withOps [o] up) 0 { exec := some 7, wave := true })
    opsOk s.weir = true ∧ executingOn s 0 = some o ∧ inWave s 0 = true ∧ o.tile + 1 < o.tiles ∧ tileStalls s o 0 = true ∧
      (coreOf s 0).load = none ∧ streamsRows 0x10 = true := by decide +kernel
theorem test_hyp_TileBoundaries_cancel :
    let o := { run7 0x10 with cancel := true, tiles := 2 }
    let s := setCore (withOps [o] up) 0 { exec := some 7, wave := true }
    opsOk s.weir = true ∧ executingOn s 0 = some o ∧ inWave s 0 = true ∧ (coreOf s 0).load = none ∧
      o.dataDone = false ∧ o.tile + 1 < o.tiles := by
  decide +kernel
/-- A saved context of no bytes. -/
def noContext : Saved := { acc := [], program := none, position := 0, rill := [], tile := 0 }
theorem test_hyp_ParkingAndResuming :
    let urgent : Op := { op7 0x02 with id := 8, phase := .placed, core := some 0 }
    let s := setCore (withOps [run7 0x10, urgent] up) 0 { exec := some 7, load := some (.preempt 8) }
    let parked := { run7 0x10 with phase := .parked, slot := some 0 }
    let p := setCore (withOps [parked] up) 0 { slots := [(0, ⟨7, 0x5F0000, noContext⟩)] }
    let ready := { parked with runnable := true }
    let r := setCore (withOps [ready] up) 0 { slots := [(0, ⟨7, 0x5F0000, noContext⟩)] }
    opOf? s 8 = some urgent ∧ urgent.core = some 0 ∧ executingOn s 0 = some (run7 0x10) ∧ (run7 0x10).id ≠ 8 ∧
      weirRuns s = true ∧ urgent.phase = .placed ∧ (coreOf s 0).load = some (.preempt 8) ∧ (coreOf s 0).wave = false ∧
      (coreOf s 0).slots.length < 8 ∧ isSpawn urgent.desc.opc = false ∧ remotePieces s urgent = [] ∧
      opOf? p 7 = some parked ∧ awaits p parked = false ∧ parked.coll = none ∧ parked.runnable = false ∧ opsOk r.weir = true ∧
      oldestRunnable r 0 = some ready ∧ weirRuns r = true ∧ (coreOf r 0).exec = none ∧ urgentWaits r 0 = false ∧
      partRuns s urgent.part = true ∧ r.weir.ops.all (fun x => !x.putting) = true ∧ readsAhead ready = true ∧
      slotSaved r 0 ready.slot = some noContext ∧ tabSorted (coreOf r 0).slots = true := by decide +kernel
theorem test_hyp_ReleaseDrainsSignalsAndReports :
    let o : Op := { op7 0x02 with phase := .executed, spilled := true }
    let s := withOps [o] (queues iq0)
    let new := { o with commits := [.need 0] }
    opOf? s 7 = some o ∧ s.power.compute = true ∧ (partOf s 0).resetting = false ∧ s.mem.eddyWait = [] ∧ s.mem.eddies = [] ∧
      opsOk s.weir = true ∧ s.mem.wf = true ∧ eddiesOk s.mem = true ∧ s.clock.rootGated = false ∧ s.power.chipError = false ∧
      o.commits = [] ∧ (cqOf s o.cq).enabled = true ∧ ringAddr (cqOf s o.cq).base + 32 * (cqOf s o.cq).tail + 32 ≤ 2 ^ 60 ∧
      (s.weir.ops.filter (fun x => x.part == 0 && x.desc.flow == 0 && decide (x.id < 7))) = [] ∧ new.status = stOK ∧
      commitStatus (withOps [new] up) 0 new.commits ≠ 0 ∧ (gated s).clock.rootGated = true := by decide +kernel
/-- A commit that can be made; a fence that cannot complete; a producer of an event token and of a counting token. -/
theorem test_hyp_Release_commits :
    let acts : List SpawnAct := [.create (2 ^ 60 + 0x3000) (2 ^ 60 + 0x4000) 8]
    let o : Op := { op7 0x40 with phase := .executed, commits := acts }
    let s := withOps [o] (pool [] (objs [(oSPAWN_BASE, 1, 64), (oSPAWN_COUNT, 1, 64)] (queues iq0)))
    let e : Op := { op7 0x02 with phase := .executed, desc := { desc 0x02 with signal := 16 } }
    let w : Op := { op7 0x02 with id := 8, waits := [⟨16, false, false, false, false⟩] }
    let t := tokens (withOps [e, w] up)
    let held := gated (withOps [op7 0x02] { up with mem := { up.mem with eddies := [(0, [⟨0, [(3, 9)], [7], 10, true⟩])] } })
    opOf? s 7 = some o ∧ o.status = stOK ∧ opsOk s.weir = true ∧ s.mem.wf = true ∧ eddiesOk s.mem = true ∧
      spawnOk s.spawn = true ∧ s.mem.eddyWait = [] ∧ s.mem.eddies = [] ∧ commitStatus s 0 acts = stOK ∧
      (commitWrites acts).any (memHeld s) = false ∧ o.precision = 0 ∧ opOf? t 7 = some e ∧ tokenOf t 0 16 = true ∧
      tokenCounts t 0 16 = false ∧ tokenCounts t 0 31 = true ∧ t.weir.ops.length = 2 ∧ selfRefresh held 0 = true ∧
      held.power.chipError = false ∧ 7 ∈ [7] ∧ (tabGet [] held.mem.eddies 0).any (fun x => x.writers.contains 7) = true := by
  decide +kernel
/-- A line read that an operation has asked for. -/
def lineRead (line : Nat) (s : State) : State :=
  { s with mem := { s.mem with reads := [{ core := 0, op := 7, line := line, urgent := false, reserved := true }] } }
/-- Rows in the Rill are settled where no core executes an operation that writes what it reads. -/
theorem rowsSettled_idle {s : State} (h : s.cores = []) : RowsSettled s := by
  intro c _ _
  rw [coreOf, h]
  exact .inr rfl
theorem test_hyp_DataLandsInTheBuffers :
    let o := { run7 0x02 with requests := [⟨3 * 2 ^ 60, 64, 0, 0, false⟩] }
    let s := withOps [o] up
    let l := { run7 0x02 with ins := [(0x100, 64)] }
    let u := lineRead 0x100 (withOps [l] up)
    opOf? s 7 = some o ∧ o.requests.find? (fun x => !x.remote && x.addr == 3 * 2 ^ 60) = some ⟨3 * 2 ^ 60, 64, 0, 0, false⟩ ∧
      s.clock.rootGated = false ∧ o.requests.find? (fun x => !x.remote && x.addr == 0) = none ∧ opOf? u 7 = some l ∧
      l.phase = .dispatched ∧ lineOpen u 0x100 = true ∧ (readFor u 7 0x100).isSome = true ∧ readFor up 7 0x100 = none ∧
      poisoned u 0x100 = false ∧ s.cores = [] ∧ u.cores = [] ∧ lineAt l.ins 0 = some 0x100 ∧ lineWaits u 0x100 = false ∧
      lineAt o.ins 0 = none ∧ opsOk u.weir = true ∧ toleratesPoison l.desc.opc = false ∧
      toleratesPoison 0x58 = true ∧ poisoned (poisonLine u 0x100) 0x100 = true ∧
      lineOpen (poisonLine u 0x100) 0x100 = true ∧ up.power.compute = true ∧ stackUsable up 0 = true ∧
      selfRefresh up 0 = false ∧ stackFitted up 0 = true ∧ stackOwn up 0 = .normal := by decide +kernel
/-- An Eddy with `n` entries on stack 0, the first one due. -/
def eddy (n : Nat) (s : State) : State :=
  { s with mem := { s.mem with eddies := [(0, (List.range n).map (fun i => ⟨256 * i, [(3, 9)], [7], 10, i == 0⟩))] } }
theorem test_hyp_EddyHoldsWritesUntilTheyDrain :
    let o := { run7 0x02 with outs := [(0x4000, 256)] }
    let s := withOps [o] (eddy 1 up)
    let waits := { eddy 1 up with mem := { (eddy 1 up).mem with eddyWait := [{ addr := 0x4000, bytes := [1], op := 7 }] } }
    opOf? s 7 = some o ∧ o.core = some 0 ∧ 0 < lineCredits s 0 (o.desc.cls == 0) ∧
      waits.mem.eddyWait.any (fun w => lineOf w.addr == lineOf 0x4010) = true ∧ eddiesOk waits.mem = true ∧
      0 < lineCredits waits 0 false ∧ o.phase = .dispatched ∧ space 0x4010 = 0 ∧ ([5] : List Byte) ≠ [] ∧ 0x4010 % 256 + 1 ≤ 256 ∧
      o.outs.any (fun r => decide (r.1 ≤ 0x4010 ∧ 0x4010 + 1 ≤ r.1 + r.2)) = true ∧ (entriesOn s 0).length < 64 ∧
      (entriesOn (withOps [o] (eddy 64 up)) 0).length = 64 ∧
      (entriesOn (withOps [o] (eddy 64 up)) 0).any (fun e => e.line == lineOf 0x4010) = false ∧
      (entriesOn (withOps [o] (eddy 65 up)) 0).any (fun e => e.line == lineOf 0x4010) = true ∧
      (entriesOn s 0).any (fun e => e.line == 0) = true ∧ s.mem.wf = true ∧ eddiesOk s.mem = true ∧
      (entriesOn s 0).find? (fun x => x.line == 0 && x.due) = some ⟨0, [(3, 9)], [7], 10, true⟩ ∧ s.mem.eddyWait = [] ∧
      s.power.compute = true ∧ selfRefresh s 0 = false ∧ repairHolds s 0 256 = false ∧ s.cores = [] ∧
      rd s oEDDY_RMW_COUNT 1 < 2 ^ 64 ∧ selfRefresh (gated s) 0 = true ∧ s.clock.rootGated = false ∧
      (gated s).clock.rootGated = true ∧ 0 < lineCredits (gated s) 0 false ∧
      entryFull ⟨0, [(3, 9)], [7], 10, true⟩ = false := by decide +kernel
theorem test_hyp_FencesCompleteInScope :
    let o : Op := { op7 0x01 with phase := .issued }
    let f := { o with fencing := true }
    let sys := { f with desc := { f.desc with scope := 2 } }
    let before := { op7 0x02 with id := 3 }
    let m : TxMsg := { ctx := 1, msg := { mtype := mtWRITE }, op := 3, part := 0, flow := 0, retries := 0, sent := true }
    let s := withOps [sys] up
    let late := { s with fabric := { s.fabric with unseen := [m] } }
    let lost := { s with fabric := { s.fabric with lost := [⟨0, 0, 3, 1, stTIMEOUT⟩] } }
    opOf? (withOps [o] up) 7 = some o ∧ weirRuns up = true ∧ o.phase = .issued ∧ o.desc.opc = 0x01 ∧
      opOf? (withOps [f] up) 7 = some f ∧ f.fencing = true ∧ earlierInFlow (withOps [before, f] up) f ≠ [] ∧
      earlierInFlow (withOps [f] up) f = [] ∧ f.desc.scope ≠ 2 ∧ earlierInFlow s sys = [] ∧ sys.desc.scope = 2 ∧
      s.fabric.lost = [] ∧ s.fabric.msgs = [] ∧ s.fabric.unseen = [] ∧ late.fabric.unseen = [m] ∧ m.part = sys.part ∧
      m.flow = sys.desc.flow ∧ m.op < sys.id ∧ m.msg.mtype = mtWRITE ∧
      lost.fabric.lost = [] ++ ⟨0, 0, 3, 1, stTIMEOUT⟩ :: [] := by decide +kernel
/-- A COPY of 16 values ready for its data effect. -/
def copyRun : Op :=
  { run7 0x02 with
    desc := copy7.desc, m := 1, n := 16, entries := [[2 ^ 60 + 0x1000, 2 ^ 60 + 0x2000, 0, 0]]
    ins := [(2 ^ 60 + 0x1000, 64)], outs := [(2 ^ 60 + 0x2000, 64)], asked := 100 }
def copyReady : State := setCore (withOps [copyRun] (pool [(0x1000, [1, 2, 3, 4])] up)) 0 { exec := some 7, wave := true }
theorem test_hyp_OperatorsStoreTheirEffect :
    let u := rowUnits 16 copyRun
    opOf? copyReady 7 = some copyRun ∧ copyRun.core = some 0 ∧ opReady copyReady copyRun 0x02 = true ∧
      copyRun.ins.any (fun r => touchesPoison copyReady r.1 r.2) = false ∧
      effEnds (runUnits effCopy u copyReady copyRun {}).2.2 = false ∧ copyReady.mem.wf = true ∧ eddiesOk copyReady.mem = true ∧
      opsOk copyReady.weir = true ∧ opReady copyReady copyRun 0x10 = false ∧
      copyRun.ins.any (fun r => touchesPoison (poisonLine copyReady (2 ^ 60 + 0x1000)) r.1 r.2) = true ∧
      opReady (running 0x10) (run7 0x10) 0x10 = true ∧ (run7 0x10).tile = 0 ∧ (coreOf (running 0x10) 0).arrays.rill = [] ∧
      opReady (running 0x11) (run7 0x11) 0x11 = true := by decide +kernel
/-- A FORK whose list has no room for its child ends with a status of its chapter. -/
theorem test_hyp_OperatorsEnd :
    let o := { run7 0x42 with m := 1, n := 1, entries := [[2 ^ 60 + 0x1000, 0, 0, 0]] }
    let s := setCore (withOps [o] (pool [(0x1000, [9])] up)) 0 { exec := some 7, wave := true }
    opReady s o 0x42 = true ∧ effEnds (runUnits effSpawn (entriesOf o) s o {}).2.2 = true := by decide +kernel
/-- A CONV ready for it, its output of one pixel. -/
theorem test_hyp_OperatorsStoreTheirEffect_conv :
    let blk : List Byte := [0x11, 0x11, 0, 0x11, 1, 0] ++ List.replicate 58 0
    let o := { run7 0x50 with m := 1, n := 1, k := 1, entries := [[2 ^ 60 + 0x1000, 2 ^ 60 + 0x2000, 2 ^ 60 + 0x3000, 0]],
                              blocks := [blk], desc := { desc 0x50 with cap := mnk 1 1 1 } }
    let s := setCore (withOps [o] (pool [] up)) 0 { exec := some 7, wave := true }
    opOf? s 7 = some o ∧ opReady s o 0x50 = true ∧ o.ins = [] ∧ s.mem.wf = true ∧ eddiesOk s.mem = true ∧ opsOk s.weir = true ∧
      o.tile = 0 ∧ (coreOf s 0).arrays.rill = [] ∧ outH (imgParams blk) 1 = 1 ∧ outW (imgParams blk) 1 = 1 := by decide +kernel
/-- Recurrence and scans of one or two steps, FULL and WIDE; the operands of a carry apart. -/
theorem test_hyp_OperatorsStoreTheirEffect_rec :
    let a := recParams (List.replicate 64 0)
    let e := [2 ^ 60 + 0x1000, 2 ^ 60 + 0x2000, 2 ^ 60 + 0x3000, 0]
    let carry := { run7 0x32 with n := 16, entries := [e], desc := { desc 0x32 with cap := mnk 1 16 2 } }
    let second := ptr e 0 + pitchOf (boundN carry.desc.cap) 0
    a.scanMode = 0 ∧ a.lg = false ∧ a.outAll = false ∧ (recParams (List.replicate 16 0 ++ [4])).outAll = true ∧
      (recParams (List.replicate 16 0 ++ [4])).lg = false ∧ carry.entries = [e] ∧
      overlaps (ptr e 1) (4 * carry.n) (ptr e 0) (4 * carry.n) = false ∧
      overlaps (ptr e 1) (4 * carry.n) second (4 * carry.n) = false := by decide +kernel
/-- Branch 64 of partition 0, of two entries, the first in use; pool pages 1 and 2 of its Pool, the first counted. -/
def spawned (s : State) : State :=
  { objs [(oSPAWN_BASE, 1, 64), (oSPAWN_COUNT, 1, 64), (oSPOOL_BASE, 1, 2 ^ 60 + 0x100000), (oSPOOL_PAGES, 1, 4)]
      (pool [(0x1000, leBytes 4 64), (0x1800, leBytes 4 1), (0x1900, leBytes 4 0), (0x1A00, leBytes 4 9),
        (0x4000, entry [2 ^ 60 + 0x100003, 0])] s) with
    spawn := { branches := [(64, ⟨0, 2 ^ 60 + 0x4000, 2⟩)], refs := [((2 ^ 60 + 0x100000) / 65536, 1)] } }
def spawn7 (opc m n j : Nat) : Op :=
  { run7 opc with m := m, n := n, entries := [[2 ^ 60 + 0x1000, 2 ^ 60 + j, 2 ^ 60 + 0x2000, 0]] }
theorem test_hyp_OperatorsStoreTheirEffect_spawn :
    let s := spawned up
    let ld := opByte s (spawn7 0x41 1 1 0x5000)
    let b : Branch := ⟨0, 2 ^ 60 + 0x4000, 2⟩
    [0x40, 0x41, 0x46, 0x42, 0x44, 0x45].all (fun opc => let o := spawn7 opc 1 1 0x5000
      numbersOk (namedBy (opByte s o) o 0) && !(hasRepeat (namedBy (opByte s o) o 0))) = true ∧
      branchOf? s 0 (wordAt ld (2 ^ 60 + 0x1000) 4) = some b ∧ branchOf? up 0 64 = none ∧
      within s 0 (2 ^ 60 + 0x5000) (1 * roundUp (8 * b.e) 64) = true ∧ touchesPoison s b.mapAddr (8 * b.e) = false ∧
      mapPoisoned s 0 64 = false ∧ words32 ld (2 ^ 60 + 0x1800) 1 = [1] ∧ words32 ld (2 ^ 60 + 0x1900) 1 = [0] ∧
      words32 ld (2 ^ 60 + 0x1A00) 1 = [9] ∧ memNum s 0 (b.mapAddr + 8) 8 % 2 = 0 ∧ memNum s 0 b.mapAddr 8 % 2 = 1 ∧
      (effSpawn s (spawn7 0x43 1 1 0x5000) (0, (spawn7 0x43 1 1 0x5000).entries.headD [])).status = 0 := by decide +kernel
/-- Attention: a row of a strip, a block whose MODE is FULL, keys to score. -/
theorem test_hyp_Results_attention :
    let o := { run7 0x20 with m := 2, n := 4, k := 16 }
    let rs := [0, 1]
    1 ∈ rs ∧ 1 < o.m ∧ o.n ≠ 0 ∧ (attnParams (List.replicate 64 0)).mode = 0 := by decide +kernel
/-- Image operators whose outputs lie apart from their inputs. -/
theorem test_hyp_Results_image :
    let blk : List Byte := [0x11, 0x11, 0, 0x11, 0, 0, 2, 0] ++ List.replicate 56 0
    let e := [2 ^ 60 + 0x1000, 2 ^ 60 + 0x2000, 2 ^ 60 + 0x3000, 0]
    let o := fun opc => { run7 opc with m := 2, n := 2, k := 4, entries := [e], blocks := [blk], desc := { desc opc with cap := mnk 2 2 4 } }
    let s := pool [] up
    let a := imgParams blk
    [0x51, 0x52, 0x53].all (fun opc => let w := (effImage s (o opc) (0, e)).writes
      w.all (fun x => (List.range 2).all (fun y => (List.range 2).all (fun z =>
        !(overlaps x.1 x.2.length (pixAt (inLay (o opc).desc a e) y z) (4 * 4))))) && decide (0 < w.length) &&
        decide (0 < (outDims (o opc).desc a 2 2 4).1 ∧ 0 < (outDims (o opc).desc a 2 2 4).2.1)) = true ∧
      ((effImage s (o 0x54) (0, e)).writes.all (fun x => !(overlaps x.1 x.2.length (ptr e 0) (16 * 2)) &&
        !(overlaps x.1 x.2.length (ptr e 1) (4 * 4 * 2)))) = true := by decide +kernel
theorem test_hyp_CopyAndTransposedWeights :
    let e := [2 ^ 60 + 0x1000, 2 ^ 60 + 0x2000, 0, 0]
    copyRun.entries = [e] ∧ copyRun.n ≤ boundN copyRun.desc.cap ∧
      space (ptr e 1 + copyRun.m * pitchOf (boundN copyRun.desc.cap) copyRun.desc.fmt1) < 3 ∧ copyRun.m = 1 ∧
      ptr e 0 + copyRun.n * 4 ≤ ptr e 1 ∧ copyRun.desc.fmt0 = 0 ∧ copyRun.desc.fmt1 = 0 ∧ 0 < copyRun.m ∧ 15 < copyRun.n := by
  decide +kernel
/-- The weights of MATMUL in one column and of MATMUL_T in one row, at the same addresses. -/
theorem test_hyp_TransposedWeights :
    let ld : Nat → Byte := fun _ => 0
    let o := { run7 0x10 with m := 1, n := 1, k := 1, desc := { desc 0x10 with cap := mnk 1 1 1 },
                              entries := [[2 ^ 60, 2 ^ 60 + 0x40, 2 ^ 60 + 0x80, 2 ^ 60 + 0xC0]] }
    let w := wavefrontAt o 0
    o.desc.opc = 0x10 ∧
      matLog ld lg16 (ptr w.e 0) 1 0 0 0 = matLog ld lg16 (ptr w.e 0) 1 0 0 0 ∧
      matLog ld lg16 (ptr w.e 1) (boundK o.desc.cap) 0 0 0 = matLog ld lg16 (ptr w.e 1) (boundN o.desc.cap) 0 0 0 ∧
      matElem ld (ptr w.e 3) 1 0 0 0 = matElem ld (ptr w.e 3) 1 0 0 0 := by
  refine ⟨rfl, rfl, rfl, rfl⟩
theorem test_hyp_AppendGatherAndScatter :
    let append := { run7 0x28 with m := 1, n := 1, k := 64, entries := [[2 ^ 60 + 0x1000, 2 ^ 60 + 0x2000, 2 ^ 60 + 0x3000, 0]] }
    let s := setCore (withOps [append] (pool [] up)) 0 { exec := some 7, wave := true }
    let shared := { append with pages := [[0, 2 ^ 60 + 0x100003]] }
    let u := { objs [(oSPOOL_BASE, 1, 2 ^ 60 + 0x100000), (oSPOOL_PAGES, 1, 1)] (setCore (withOps [shared]
      (pool [(0x3000, entry [2 ^ 60 + 0x100003])] up)) 0 { exec := some 7 }) with spawn := { refs := [((2 ^ 60 + 0x100000) / 65536, 2)] } }
    let v := { wr u oSPOOL_PAGES 1 2 with spawn := u.spawn }
    opOf? s 7 = some append ∧ opReady s append 0x28 = true ∧ appendHeld s (appendTargets s append) = false ∧
      append.ins = [] ∧ (cowPlan s 0 (appendTargets s append)).map (fun x => x.2) = some [] ∧ s.mem.wf = true ∧
      eddiesOk s.mem = true ∧ opsOk s.weir = true ∧ opReady u shared 0x28 = true ∧
      appendHeld u (appendTargets u shared) = false ∧ (cowPlan u 0 (appendTargets u shared)).isNone = true ∧
      opReady v shared 0x28 = true ∧ ((cowPlan v 0 (appendTargets v shared)).map (fun x => x.2.length)) = some 1 ∧
      ((cowPlan v 0 (appendTargets v shared)).map (fun x => x.2.any (copyPoisoned v shared))) = some false ∧
      ((cowPlan v 0 (appendTargets v shared)).map (fun x =>
        x.2.any (copyPoisoned (poisonLine v (2 ^ 60 + 0x100000)) shared))) = some true := by decide +kernel
/-- A GATHER or SCATTER of one row of 16 values whose one index is `i`, of two rows. -/
def gather7 (opc i : Nat) (gfp : Bool) : Op × State :=
  let o := { run7 opc with
    desc := { (run7 opc).desc with gfp := gfp, cap := mnk 1 16 2 }, m := 1, n := 16, k := 2
    entries := [[2 ^ 60 + 0x1000, 2 ^ 60 + 0x2000, 2 ^ 60 + 0x3000, 0]] }
  (o, setCore (withOps [o] (pool [(0x2000, leBytes 4 i)] up)) 0 { exec := some 7, wave := true })
theorem test_hyp_GatherAndScatter :
    [0x58, 0x59].all (fun opc =>
      let g := gather7 opc 1 false
      let f := gather7 opc 5 true
      opsOk g.2.weir && opReady g.2 g.1 opc && g.2.mem.wf && eddiesOk g.2.mem && !g.1.desc.gfp &&
        ((workedGroups (gatherGroups g.1) g.2 g.1).flatMap (fun x => x.2.2)).all (fun l => !l.fault) &&
        opReady f.2 f.1 opc && f.1.desc.gfp &&
        ((workedGroups (gatherGroups f.1) f.2 f.1).head?.map (fun x => x.2.2.any (fun l => l.fault))) == some true &&
        (coreOf f.2 0).load.isNone) = true := by decide +kernel
/-- The same with a second group to come, its first at a tile boundary. -/
theorem test_hyp_GatherAndScatter_tile :
    [0x58, 0x59].all (fun opc => [false, true].all (fun gfp =>
      let o := { (gather7 opc 5 gfp).1 with tiles := 2 }
      let s := setCore (withOps [o] (gather7 opc 5 gfp).2) 0 { exec := some 7, wave := true }
      decide (executingOn s 0 = some o) && inWave s 0 && (coreOf s 0).load.isNone && (coreOf s 0).stall.isNone && !o.dataDone &&
        !o.cancel && memoryOpen s o && match (gatherGroups o)[0]? with
          | some x => (lanesOf s o x.2.1 x.2.2).any (fun l => l.fault)
          | none => false)) = true := by decide +kernel
/-! ### Witnesses: the fabric -/

/-- Context 5 open to context 9 of chip 2, which port 0 reaches. -/
def joined (s : State) : State :=
  setCtx (objs [(oROUTE, 3, 0x8000), (oPORT_GROUP, 1, 1)] s) 5
    { st := .opened, peerChip := 2, peerCtx := 9, part := 0, credits := 4 }

/-- A PUT of 64 bytes to chip 2, ready for its data effect. -/
def put7 (opc : Nat) : Op :=
  { run7 opc with
    m := 1, n := 64, entries := [[2 ^ 60 + 0x1000, 4 * 2 ^ 60 + 5 * 2 ^ 48 + 0x2000, 0, 0]], ins := [(2 ^ 60 + 0x1000, 64)], asked := 100 }
def putState (opc : Nat) (s : State) : State := setCore (withOps [put7 opc] s) 0 { exec := some 7, wave := true }
theorem test_hyp_PutsSendTheirEntries :
    [0x03, 0x04].all (fun opc =>
      let s := putState opc (pool [] (joined up))
      let shut := putState opc (pool [] up)
      let o := put7 opc
      decide (opOf? s 7 = some o) && !o.putting && opReady s o opc && !(o.ins.any (fun r => touchesPoison s r.1 r.2)) &&
        o.entries.all (fun e => (ctxOf s (remoteCtx (ptr e 1))).st == .opened) &&
        o.ins.any (fun r => touchesPoison (poisonLine s (2 ^ 60 + 0x1000)) r.1 r.2) && opReady shut o opc &&
        !(o.entries.all (fun e => (ctxOf shut (remoteCtx (ptr e 1))).st == .opened)) &&
        decide ((List.range' 0 (putTotal o)).length ≤ (ctxOf s 5).credits ∧ (ctxOf s 5).st = .opened) &&
        decide (putTotal o = if opc = 0x03 then 1 else 0)) = true := by decide +kernel
/-- One that waits for a credit at a tile boundary, one with a load pending, one whose FLAG is due, with a message still to be
transmitted and with none. -/
theorem test_hyp_PutsSendTheirEntries_waits :
    let o := { put7 0x03 with putting := true, tiles := 2, tile := 1, n := 8192 }
    let flag := { put7 0x04 with putting := true, flagDue := true }
    let s := setCore (withOps [o] (pool [] (joined up))) 0 { exec := some 7, wave := true }
    let held := setCore s 0 { exec := some 7, load := some .partReset }
    let d := setCore (withOps [flag] (pool [] (joined up))) 0 { exec := some 7, wave := true }
    let sends := { d with fabric := { d.fabric with
      msgs := [{ ctx := 5, msg := { mtype := mtWRITE }, op := 7, part := 0, flow := 0, retries := 0, sent := false }] } }
    opOf? s 7 = some o ∧ o.phase = .dispatched ∧ o.core = some 0 ∧ (coreOf s 0).load = none ∧ putTotal o = 2 ∧
      (coreOf held 0).load ≠ none ∧ opOf? d 7 = some flag ∧ (coreOf d 0).load = none ∧ allTransmitted d 7 = true ∧
      allTransmitted sends 7 = false ∧ flag.entries = [] ++ [flag.entries.headD []] ∧
      remoteCtx (ptr (flag.entries.headD []) 1) = 5 ∧ (ctxOf d 5).st = .opened ∧
      (ctxOf (setCore (withOps [flag] (pool [] up)) 0 { exec := some 7 }) 5).st ≠ .opened := by decide +kernel
/-- Group 0 of chips 0 and 2, next and previous on context 5. -/
def group (s : State) : State := wrBytes (wr s oCOLL_GROUP_CFG 1 (5 * 2 ^ 20 + 5 * 2 ^ 8)) oCOLL_GROUP_MEMBERS 1 [0, 0, 2, 0]
def coll0 : CollRun :=
  { group := 0, collId := 77, redop := 0, dir := 0, readySent := false, readyGot := false, sent := 0, done := 0, segs := [],
    chunks := [] }
def coll7 (opc : Nat) (c : CollRun) : Op :=
  { run7 opc with m := 1, n := 16, entries := [[2 ^ 60 + 0x1000, 2 ^ 60 + 0x2000, 0, 2 ^ 60]], ins := [(2 ^ 60 + 0x1000, 64)],
                  blocks := [List.replicate 64 0], coll := some c, asked := 100 }
def collState7 (opc : Nat) (c : CollRun) (s : State) : State :=
  setCore (withOps [coll7 opc c] s) 0 { exec := some 7, wave := true }
theorem test_hyp_CollectivesBeginAndFinish :
    [0x60, 0x61, 0x62, 0x63, 0x64].all (fun opc =>
      let s := collState7 opc coll0 (group (joined (pool [] up)))
      let o := coll7 opc coll0
      decide (opOf? s 7 = some o) && collTurn s o coll0 && collState s 0 != 2 &&
        (ctxOf s (collNext s 0)).st == .opened && (ctxOf s (collPrev s 0)).st == .opened &&
        !(o.ins.any (fun r => touchesPoison s r.1 r.2)) && (collMembers s 0).length == 2 && (readyFor s o coll0).isNone &&
        !(collTurn s { o with dataDone := true } coll0) && coll0.segs.isEmpty && coll0.done == 0 &&
        collState (wr s oCOLL_GROUP_STATE 1 2) 0 == 2 && (ctxOf (group (pool [] up)) 5).st != .opened &&
        o.ins.any (fun r => touchesPoison (poisonLine s (2 ^ 60 + 0x1000)) r.1 r.2)) = true := by decide +kernel
theorem test_hyp_CollectivesFinish :
    [0x60, 0x61, 0x62, 0x63, 0x64].all (fun opc =>
      let n := collSends opc 2
      let c := { coll0 with readySent := true, readyGot := true, sent := n, done := n }
      let o := coll7 opc c
      let s := collState7 opc c (group (joined (pool [] up)))
      let m : Msg := { mtype := mtREADY, dstCtx := 5, tag := 78 }
      let u := { collState7 opc coll0 (group (joined (pool [] up))) with fabric := { (joined up).fabric with ready := [(0, m)] } }
      collTurn s o c && collOver s o c 2 && s.mem.wf && eddiesOk s.mem && opsOk s.weir && collState s 0 != 2 &&
        collTurn u (coll7 opc coll0) coll0 && decide (readyFor u (coll7 opc coll0) coll0 = some m) &&
        !(readyAgrees u (coll7 opc coll0) coll0 m)) = true := by decide +kernel
/-- A READY that agrees, waiting for a collective that has sent its own. -/
def waitsReady : CollRun := { coll0 with readySent := true }
def agrees (s : State) (o : Op) (c : CollRun) : Msg := { readyMsg s o c with dstChip := 0, srcChip := 2, dstCtx := 5 }
theorem agrees_self (s : State) (o : Op) (c : CollRun) (l : List (Nat × Msg)) :
    readyAgrees { s with fabric := { s.fabric with ready := l } } o c (agrees s o c) = true := by
  simp only [readyAgrees, agrees, readyMsg, beq_self_eq_true, Bool.true_and]
  exact beq_iff_eq.mpr rfl
theorem readyFor_one (s : State) (o : Op) (c : CollRun) (m : Msg) (h : m.dstCtx = collOut s o c) :
    readyFor { s with fabric := { s.fabric with ready := [(c.group, m)] } } o c = some m := by
  have e : collOut { s with fabric := { s.fabric with ready := [(c.group, m)] } } o c = collOut s o c := rfl
  simp [readyFor, e, h]
theorem test_hyp_CollectivesBegin_agree :
    [0x60, 0x61, 0x62, 0x63, 0x64].all (fun opc =>
      let s := collState7 opc waitsReady (group (joined (pool [] up)))
      let u := { s with fabric := { s.fabric with ready := [(0, { mtype := mtREADY, dstCtx := 5, tag := 77 })] } }
      collTurn u (coll7 opc waitsReady) waitsReady && decide (collOut s (coll7 opc waitsReady) waitsReady = 5) && waitsReady.segs.isEmpty &&
        waitsReady.sent == 0 && waitsReady.done == 0 && decide (2 ≤ (collMembers u 0).length)) = true := by decide +kernel
/-- Flits from the far end of port 0: the next DATA flit, one out of order on VC1, an IDLE flit with NAK. -/
def dataFlit : List Byte := flitBytes 0 0 0 4095 false 0 0 []
def lateFlit : List Byte := flitBytes 0 1 5 4095 false 0 0 []
def idleFlit : List Byte := flitBytes 1 0 0 4095 true 0 0 []
theorem test_hyp_FlitsInOrderAndIdle_crc :
    flitOk dataFlit = true ∧ flitOk lateFlit = true ∧ flitOk idleFlit = true ∧ flitOk [] = false :=
  ⟨flitOk_flitBytes .., flitOk_flitBytes .., flitOk_flitBytes .., by decide⟩
theorem test_hyp_FlitsInOrderAndIdle :
    dataFlit.length % 4 = 0 ∧ portTrained up 1 = false ∧ portTrained up 0 = true ∧ up.fabric.stuck = [] ∧ up.fabric.ports = [] ∧
      up.weir.ops = [] ∧ flitType lateFlit = 0 ∧ flitNak lateFlit = false ∧ flitSeq lateFlit ≠ (portOf up 0).rxSeq ∧
      flitVc lateFlit = 1 ∧ flitType dataFlit = 0 ∧ flitNak dataFlit = false ∧ flitSeq dataFlit = (portOf up 0).rxSeq ∧
      flitVc dataFlit = 0 ∧ (parseMsg (slice dataFlit 8 240)).dstChip = up.fabric.chipId ∧
      32 + field (numAt (slice dataFlit 8 240) 18 2) 12 0 ≤ (slice dataFlit 8 240).length ∧
      flitType idleFlit = 1 ∧ flitNak idleFlit = true ∧ portUp up 0 = true ∧
      portCode (wr up oPORT_STATE 1 3) 0 = 3 ∧ portCode (wr up oPORT_STATE 1 4) 0 = 4 := by decide +kernel
theorem test_hyp_PortsRepairRetrainAndHold :
    let full := setPort up 0 { replay := [(0, [])] }
    let spare := setPort up 0 { replay := [(0, [])], swapped := some 2 }
    let mends := setPort (wr up oPORT_STATE 1 3) 0 { replay := [(0, [])], repairing := some 1 }
    let m : Msg := { mtype := mtWRITE, dstChip := 2, srcChip := 3 }
    let s := objs [(oPORT_STATE, 1, 3)] { joined up with fabric := { (joined up).fabric with stuck := [{ port := none, vc := 0, msg := m }] } }
    portUp full 0 = true ∧ (portOf full 0).replay ≠ [] ∧ (portOf full 0).spare = false ∧ portUp spare 0 = true ∧
      (portOf spare 0).spare = true ∧ (portOf up 0).replay = [] ∧ portTrained mends 0 = true ∧ portCode mends 0 = 3 ∧
      (portOf mends 0).repairing = some 1 ∧ up.fabric.stuck = [] ∧ up.fabric.ports = [] ∧ up.weir.ops = [] ∧
      mayTrain up 1 = true ∧ portCode up 1 = 0 ∧ mayTrain (wr up oPORT_STATE 2 1) 1 = true ∧
      portCode (wr up oPORT_STATE 2 1) 1 = 1 ∧ 1 < portCount up ∧ up.fabric.chipId = 0 ∧ m.dstChip ≠ up.fabric.chipId ∧
      portCode s 0 = 3 ∧ transitFor s 0 = [m] ∧ full.mgmt.silent = false ∧ (portOf full 0).swappedRx = none ∧
      portTrained full 0 = true ∧ { full with mgmt := { full.mgmt with silent := true } }.mgmt.silent = true := by decide +kernel
/-- A HOLD flit, good on a trained port. -/
theorem test_hyp_PortsRepairRetrainAndHold_flit :
    let b := flitBytes 2 0 0 4095 false 0 0 []
    flitOk b = true ∧ portTrained up 0 = true ∧ flitType b = 2 ∧ flitNak b = false :=
  ⟨flitOk_flitBytes .., by decide +kernel, by decide +kernel, by decide +kernel⟩
/-- A message of a type from the peer of context 5. -/
def msg (mtype xseq : Nat) (data : List Byte) (addr : Nat) : Msg :=
  { mtype := mtype, dstChip := 0, srcChip := 2, dstCtx := 5, xseq := xseq, parts := 1, len := data.length, addr := addr, data := data }
/-- Pool offset 0x1000 as a message names it. -/
def remotePool : Nat := 2 ^ 44 + 0x1000
theorem test_hyp_RemoteWritesLand :
    let s := joined (pool [] up)
    let m := msg mtWRITE 0 [1, 2, 3, 4] remotePool
    let far := msg mtWRITE 0 [1] (2 ^ 44 + 0x500000)
    let dup := msg mtWRITE (2 ^ 32 - 1) [1] remotePool
    let flag : Msg := { msg mtFLAG 1 [1, 2, 3, 4, 5, 6, 7, 8] remotePool with aux := 0 }
    let early : Msg := { flag with aux := 3 }
    let h : HeldFlag := ⟨5, flag, 100⟩
    msgHeld s m m.data.length = false ∧ inCtx s m = some 5 ∧ received (ctxOf s 5) 0 = false ∧ inWindow (ctxOf s 5) 0 = true ∧
      landAddr s 5 m 4 = some (2 ^ 60 + 0x1000) ∧ s.mem.wf = true ∧ eddiesOk s.mem = true ∧
      s.fabric.held.all (fun h => h.ctx != 5) = true ∧ landAddr s 5 far 1 = none ∧ msgHeld s far 1 = false ∧
      inCtx s dup = some 5 ∧ received (ctxOf s 5) dup.xseq = true ∧ msgHeld s dup 1 = false ∧ msgHeld s flag 8 = false ∧
      received (ctxOf s 5) 1 = false ∧ inWindow (ctxOf s 5) 1 = true ∧ flag.addr % 8 = 0 ∧
      landAddr s 5 flag 8 = some (2 ^ 60 + 0x1000) ∧ flagCount flag ≤ landedOf s 5 0 ∧ flagSignal flag = 0 ∧
      tokenCounts s 0 (flagSignal flag) = false ∧ tokenCounts (tokens s) 0 (flagSignal { flag with aux := 31 * 65536 }) = true ∧
      flagCount { flag with aux := 31 * 65536 } = 0 ∧ m.parts ≤ 1 ∧ landedOf s 5 0 < flagCount early ∧ ([h].find? (fun h => h.ctx == 5 && h.msg.xseq == 1)) = some h := by decide +kernel
theorem test_hyp_AnswersReachTheirOperations :
    let o := { run7 0x02 with requests := [⟨2 ^ 60, 4, 5, 3, true⟩] }
    let s := withOps [o] (joined (pool [] up))
    let m := { msg mtREAD_RESP 0 [1, 2, 3, 4] 0 with tag := 3 }
    let rd4 := { msg mtREAD_REQ 0 [] remotePool with aux := 4 }
    let f : TxMsg := { ctx := 5, msg := { mtype := mtFLAG, xseq := 3 }, op := 7, part := 0, flow := 0, retries := 0, sent := true }
    let g := withOps [{ run7 0x58 with requests := o.requests }] { joined up with fabric := { (joined up).fabric with unseen := [f] } }
    inCtx s m = some 5 ∧ received (ctxOf s 5) 0 = false ∧ inWindow (ctxOf s 5) 0 = true ∧ s.fabric.msgs = [] ∧
      s.weir.ops.all (fun o => o.coll.isNone && !o.flagDue) = true ∧
      (s.weir.ops.find? (fun o => o.writes.contains (5, 3) || o.requests.any (fun r => r.remote && r.ctx == 5 && r.xseq == 3))) =
        some o ∧ unfailed o = true ∧ unfailed { o with phase := .ended, status := stTIMEOUT } = false ∧
      askedBy s 5 3 = some o ∧ msgHeld s rd4 4 = false ∧ landAddr s 5 rd4 4 = some (2 ^ 60 + 0x1000) ∧
      touchesPoison s (2 ^ 60 + 0x1000) 4 = false ∧
      touchesPoison (poisonLine s (2 ^ 60 + 0x1000)) (2 ^ 60 + 0x1000) 4 = true ∧
      landAddr s 5 { rd4 with addr := 2 ^ 44 + 0x500000 } 4 = none ∧
      o.requests.find? (fun r => r.remote && r.ctx == 5 && r.xseq == 3) = some ⟨2 ^ 60, 4, 5, 3, true⟩ ∧ m.data ≠ [] ∧
      askedBy g 5 3 = some { run7 0x58 with requests := o.requests } ∧ flagSent? g 5 3 = some f ∧ s.cores = [] ∧ g.cores = [] ∧
      s.weir.ops.all (fun o => !o.putting) = true ∧ opOf? s o.id = some o ∧ lineAt o.ins 0 = none ∧ 0 < 4 ∧
      (run7 0x58).phase = .dispatched ∧ opOf? g 7 = some { run7 0x58 with requests := o.requests } := by
  decide +kernel
theorem test_hyp_CollectiveMessagesArrive :
    let s := group (joined (pool [] up))
    let m := { msg mtREADY 0 [] 0 with tag := 77 }
    let o := coll7 0x60 coll0
    let busy := collState7 0x60 coll0 s
    let parked := withOps [{ o with phase := .parked }] s
    inCtx s m = some 5 ∧ received (ctxOf s 5) 0 = false ∧ inWindow (ctxOf s 5) 0 = true ∧ collGroupOn s 5 77 = some 0 ∧
      collUnusable s 0 = false ∧ s.weir.ops = [] ∧ collGroupOn (joined up) 5 77 = none ∧
      collUnusable (wr s oCOLL_GROUP_STATE 1 2) 0 = true ∧ collGroupOn (wr s oCOLL_GROUP_STATE 1 2) 5 77 = some 0 ∧
      collOn parked 5 77 = some { o with phase := .parked } ∧ collTurn parked { o with phase := .parked } coll0 = false ∧
      collOn s 5 77 = none ∧ collState s 0 ≠ 2 ∧ collState (wr s oCOLL_GROUP_STATE 1 2) 0 = 2 ∧ collOn busy 5 77 = some o ∧
      opOf? busy 7 = some o ∧ o.phase = .dispatched ∧ o.coll = some coll0 ∧ o.dataDone = false ∧ suspended busy = false ∧
      suspended { busy with fabric := { busy.fabric with holdRx := true } } = true := by decide +kernel
/-- A collective under way whose turn has come: one that awaits READY (a message that differs), and one that awaits the data of
its first step, of several and of its last, no data of its own left to send. -/
theorem test_hyp_CollectiveMessagesArrive_turn :
    let s := collState7 0x61 waitsReady (group (joined (pool [] up)))
    let o := coll7 0x61 waitsReady
    let m := { msg mtREADY 0 [] 0 with tag := 77 }
    let runs := fun (t : State) (o : Op) (c : CollRun) => collTurn t o c && c.readySent &&
      (ctxOf t (collNext t c.group)).st == .opened && (ctxOf t (collPrev t c.group)).st == .opened &&
      !(o.ins.any (fun r => touchesPoison t r.1 r.2))
    let d : CollRun := { waitsReady with readyGot := true, sent := 1 }
    let seg := fun n => { msg mtSEGMENT 0 (List.replicate n 0) 0 with tag := 77 }
    let segs : List SegRx := [{ step := 0, index := 0, bytes := List.replicate 32 0 }]
    let all := collState7 0x60 d (group (joined (pool [] up)))
    let last := collState7 0x61 d (group (joined (pool [] up)))
    opOf? s 7 = some o ∧ inCtx s m = some 5 ∧ received (ctxOf s 5) 0 = false ∧ inWindow (ctxOf s 5) 0 = true ∧
      collGroupOn s 5 77 = some 0 ∧ collUnusable s 0 = false ∧ opsOk s.weir = true ∧ runs s o waitsReady = true ∧ collOut s o waitsReady = 5 ∧
      readyFor s o waitsReady = none ∧ 2 ≤ (collMembers s 0).length ∧ readyAgrees s o waitsReady { m with tag := 78 } = false ∧
      collOn all 5 77 = some (coll7 0x60 d) ∧ collState all 0 ≠ 2 ∧ runs all (coll7 0x60 d) d = true ∧
      collSends 0x60 2 = 2 ∧ maySend 0x60 (collRank all 0) 1 0 = false ∧ (seg 32).aux = 0 ∧ rxStep 0x60 2 (collRank all 0) 0 = 0 ∧
      (stepRx (coll7 0x60 d) { d with segs := segs } 2 (collRank all 0) 0).isSome = true ∧ collOn last 5 77 = some (coll7 0x61 d) ∧
      runs last (coll7 0x61 d) d = true ∧ collSends 0x61 2 = 1 ∧ (stepRx (coll7 0x61 d) { d with segs := segs } 2 0 0).isSome = true ∧
      last.mem.wf = true ∧ eddiesOk last.mem = true := by decide +kernel
/-- The message that agrees (`agrees_self` says so of it). -/
theorem test_hyp_CollectiveMessagesArrive_agree (s : State) (o : Op) :
    (agrees s o waitsReady).dstChip = 0 ∧ (agrees s o waitsReady).srcChip = 2 ∧ (agrees s o waitsReady).dstCtx = 5 ∧
      (agrees s o waitsReady).xseq = 0 ∧ (agrees s o waitsReady).tag = 77 := ⟨rfl, rfl, rfl, rfl, rfl⟩
theorem test_hyp_ContextsPairFailAndClose :
    let s := setCtx up 5 { st := .pendingOpen, peerChip := 2, peerCtx := 9 }
    let m : Msg := { mtype := mtOPEN, dstChip := 0, srcChip := 2, dstCtx := 5, tag := 9, aux := 1 }
    let o := { run7 0x02 with requests := [⟨2 ^ 60, 4, 5, 3, true⟩] }
    let j := withOps [o, { run7 0x10 with id := 8 }] (joined up)
    let t : TxMsg := { ctx := 5, msg := { mtype := mtWRITE, xseq := 4 }, op := 9, part := 0, flow := 0, retries := 0, sent := true }
    let u := { j with fabric := { j.fabric with msgs := [t] } }
    m.dstChip = s.fabric.chipId ∧ (ctxOf s 5).peerChip = m.srcChip ∧ (ctxOf s 5).peerCtx = m.tag ∧
      (ctxOf s 5).st = .pendingOpen ∧ m.aux = 1 ∧ (ctxOf j 5).st = .opened ∧ (ctxOf j 5).peerChip = m.srcChip ∧
      (ctxOf j 5).peerCtx = m.tag ∧ opsOk j.weir = true ∧ opUses j 5 o = true ∧ unfailed o = true ∧
      opUses j 5 { run7 0x10 with id := 8 } = false ∧ (ctxOf up 5).peerChip ≠ m.srcChip ∧
      u.fabric.msgs.find? (fun t => t.ctx == 5 && t.msg.xseq == 4 && t.sent) = some t ∧ suspended u = false ∧
      transmitted u t = true ∧ t.retries < rd u oXPORT_RETRIES 0 ∧ rd u oXPORT_RETRIES 0 ≤ 4 ∧
      suspended { u with fabric := { u.fabric with holdRx := true } } = true := by decide +kernel
theorem test_hyp_PaceAndMembership :
    let s := { collState7 0x60 coll0 (group (joined (pool [] up))) with therm := { quad := [(0, .hot)] } }
    let m := { msg mtPACE 0 [] 3 with aux := 50 }
    let d : Msg := { mtype := mtDEPART, srcChip := 2, aux := 1 }
    let gone := { s with fabric := { s.fabric with epochs := [(2, 1)], departed := [2] } }
    chipHot s = true ∧ collsOf s 0 ≠ [] ∧ (ctxOf s (collNext s 0)).st = .opened ∧ opsOk s.weir = true ∧ chipHot up = false ∧
      inCtx s m = some 5 ∧ received (ctxOf s 5) 0 = false ∧ inWindow (ctxOf s 5) 0 = true ∧
      (List.range 16).find? (fun g => collPart s g == (ctxOf s 5).part && collPrev s g == 5 && !((collMembers s g).isEmpty)) =
        some 0 ∧ (ctxOf s (collNext s 0)).peerChip ≠ m.addr ∧ (ctxOf s (collNext s 0)).peerChip = 2 ∧
      collsOf (group (joined (pool [] up))) 0 = [] ∧ d.srcChip ≠ s.fabric.chipId ∧ newDepart s 2 1 = true ∧
      s.fabric.msgs = [] ∧ portTrained s 0 = true ∧ newJoin s 2 1 = true ∧ newDepart gone 2 1 = false ∧ newJoin gone 2 1 = false := by decide +kernel
/-! ### Witnesses: requests of a session -/

/-- A maintainer's session, SID 1, over the field network, and one more of role 1, SID 2. -/
def maint : Session := { sid := 1, src := .net 1 5000, accepted := true, slot := 1, role := 3, key := [1] }
def viewer : Session := { sid := 2, src := .net 2 5000, accepted := true, slot := 2, role := 1, key := [2] }
def bounded : Session := { maint with sid := 3, role := 2, slot := 3, scope := 1 }
def req1 : Req := ⟨1, 1, 9⟩
/-- The sessions open in a state. -/
def sess (s : State) : State := { s with mgmt := { s.mgmt with sessions := [maint, viewer, bounded], nextSid := 4 } }
/-- A package in limited mode, its management port reachable, with the same sessions. -/
def limited : State := { sess (at_ 9) with mgmt := { (sess up).mgmt with addressOk := true } }
theorem test_hyp_ObjectWritesTakeEffect :
    let s := sess up
    stagedOk s = true ∧ stagedOk limited = true ∧ isScoped maint = false ∧ 3 ≤ maint.role ∧
      s.power.fullMode = true ∧ 85 + 5 ≤ rd s oSTACK_HOT_C 0 ∧ rd s oSTACK_WARM_C 0 + 5 ≤ 95 ∧
      (envRange (variantOf s)).1 ≤ 400 ∧ 400 ≤ (envRange (variantOf s)).2 ∧ limited.power.fullMode = false ∧
      sessionOf s 2 = some viewer ∧ heard s viewer.src = true ∧ viewer.rxHigh < 1 ∧
      viewer.role < 3 ∧ sessionOf s 3 = some bounded ∧ heard s bounded.src = true ∧ bounded.rxHigh < 1 ∧
      isScoped bounded = true := by decide +kernel
theorem test_hyp_ObjectWrites_auth : Authentic (sess up) req1 maint := ⟨by decide +kernel, by decide +kernel, by decide⟩
theorem test_hyp_ObjectWrites_limited : Authentic limited req1 maint := ⟨by decide +kernel, by decide +kernel, by decide⟩
theorem test_hyp_EnvelopeOutsideTheRangeIsRefused :
    Authentic (sess up) req1 maint ∧ 3 ≤ maint.role ∧ (sess up).power.fullMode = true ∧ stagedOk (sess up) = true ∧ 551 < 2 ^ 16 ∧
      (envRange (variantOf (sess up))).2 < 551 ∧ 379 < (envRange (variantOf (sess up))).1 :=
  ⟨test_hyp_ObjectWrites_auth, by decide, by decide, by decide, by decide, by decide +kernel, by decide +kernel⟩
theorem test_hyp_ResetAndPartitionCommands :
    let s := sess (running 0x02)
    let two := objs [(oPART_FUNC, 2, 0x8001), (oPART_CORES, 2, 0xF0)] s
    let busy := setPart (setCore s 0 { exec := some 7 }) 0 { resetting := true, discarded := 2 }
    let pend := setCore s 0 { exec := some 7, wave := true, load := some .partReset, stall := some 4 }
    opsOk s.weir = true ∧ s.power.shutdown = false ∧ inScope maint 0 = true ∧ rd s oPART_STATE 1 = 1 ∧ paused s 0 = false ∧
      partExists s 5 = false ∧ partExists two 1 = false ∧
      ((rd two oPART_FUNC 2).testBit 15 && configValid two 1 (rd two oPART_CORES 2) &&
        (partCores two 1).all (fun c => !(coreRetired two c))) = true ∧
      ((rd s oPART_FUNC 6).testBit 15 && configValid s 5 (rd s oPART_CORES 6)) = false ∧ s.power.compute = true ∧
      ((coreOf s 1).exec.isSome && (coreOf s 1).wave) = false ∧ executingOn s 0 = some (run7 0x02) ∧
      (run7 0x02).phase = .dispatched ∧ (coreOf s 0).wave = true ∧ (coreOf s 0).load = none ∧
      executingOn pend 0 = some (run7 0x02) ∧ (coreOf pend 0).load = some .partReset ∧ mayTrain s 1 = true ∧
      coreRetired s 0 = false ∧ (coreOf s 0).mapping = false ∧ (coreOf s 0).retiring = false ∧
      (deadChannels s 3).contains 7 = false ∧ stackFitted s 3 = true ∧
      topOwned s 3 = false ∧ relaying s 3 = false ∧ (partOf busy 0).resetting = true ∧ (partOf busy 0).destroying = false ∧
      paused busy 0 = false ∧ stillRuns busy 0 = false ∧ busy.mgmt.waiting = [] ∧ opsOk busy.weir = true ∧
      (partOf (setPart busy 0 { resetting := true, destroying := true }) 0).destroying = true ∧ inWave s 0 = true ∧
      inWave pend 0 = true ∧ trainsPort s 1 = true ∧ portCode (gated (wr s oPORT_STATE 1 4)) 0 = 4 ∧
      trainsPort (gated (wr s oPORT_STATE 1 4)) 0 = true ∧ channelIn s.nv.repair 3 7 = 7 ∧
      s.nv.repair.contains (.channelRetired 3 7) = false ∧ retiresChannels s 3 = true ∧
      channelIn [.channel 3 7 32] 3 7 = 32 := by decide +kernel
theorem test_hyp_ResetAndPartition_auth : Authentic (sess (running 0x02)) req1 maint :=
  ⟨by decide +kernel, by decide +kernel, by decide⟩
theorem test_hyp_CancelContextAndSessionCommands :
    let s := sess (withOps [run7 0x02, { op7 0x10 with id := 8, phase := .parked, core := some 1 },
      { op7 0x01 with id := 9 }, { op7 0x10 with id := 10, phase := .executed },
      { run7 0x10 with id := 11, core := some 1 }, { run7 0x10 with id := 12, core := some 2, tiles := 3, tile := 2 },
      { run7 0x10 with id := 13, core := some 3, tiles := 3, tile := 1 }, { run7 0x10 with id := 14, dataDone := true }] (joined up))
    let c := setCore (setCore (setCore s 1 { exec := some 11 }) 2 { exec := some 12, wave := true }) 3 { exec := some 13, wave := true }
    let v := 6 + 2 * 2 ^ 12 + 7 * 2 ^ 22
    let named := sess (withOps [{ run7 0x02 with requests := [⟨0, 0, 5, 1, true⟩] }] (joined up))
    isScoped maint = false ∧ opsOk s.weir = true ∧ s.power.fullMode = true ∧ opsOk c.weir = true ∧
      (coreOf c 1).exec = some 11 ∧ (coreOf c 1).wave = false ∧ (coreOf c 1).load = none ∧
      (coreOf c 2).exec = some 12 ∧ (coreOf c 2).wave = true ∧ 3 ≤ 2 + 1 ∧
      inWave c 1 = false ∧ inWave c 2 = true ∧ inWave c 3 = true ∧ (coreOf c 3).exec = some 13 ∧ (coreOf c 3).wave = true ∧ 1 + 1 < 3 ∧
      openCtx v = 6 ∧ openPart v = 0 ∧
      partExists s (openPart v) = true ∧ ctxUsable s 6 0 = true ∧ ctxUsable s 5 0 = false ∧
      s.weir.ops.any (fun o => o.desc.flow == 0 && o.desc.opid == 5) = true ∧ s.weir.ops.any (opNames s 5) = false ∧
      (ctxOf s 5).st ≠ .closed ∧ named.weir.ops.any (opNames named 5) = true ∧ 2 < 0xFFFF ∧ 2 ≠ maint.sid ∧
      (sessionOf s 2).isSome = true ∧ maint.sid ≠ 0xFFFF ∧ sessionOf s 77 = none ∧
      (List.replicate 32 (7 : Byte)).length = 32 ∧ (sess up).weir.ops = [] ∧
      (sess up).fabric.ctxs.all (fun c => c.2.st != .opened && c.2.st != .pendingOpen) = true ∧ s.weir.ops ≠ [] := by
  decide +kernel
theorem test_hyp_Cancel_auth :
    Authentic (sess (withOps [run7 0x02] (joined up))) req1 maint ∧ Authentic (sess up) req1 maint :=
  ⟨⟨by decide +kernel, by decide +kernel, by decide⟩, test_hyp_ObjectWrites_auth⟩
theorem test_hyp_FirmwareIsReplacedBankByBank :
    let s := sess up
    let v := { s with fw := { s.fw with valid1 := true } }
    let sw := wr { v with mgmt := { v.mgmt with silent := true } } oFW_STATE 0 3
    let busy := { s with regr := { jobs := [.row 0] } }
    let lane := { sw with regr := { deferred := [.lane 0 2, .core 5] } }
    (List.replicate 32768 (0 : Byte)).length = 32768 ∧ repairRuns s = false ∧ otherValid v = true ∧ repairRuns busy = true ∧
      otherValid s = false ∧ sw.mgmt.silent = true ∧ rd sw oFW_STATE 0 = 3 ∧ rd (wr sw oFW_STATE 0 0) oFW_STATE 0 ≠ 3 ∧
      s.mgmt.silent = false ∧ s.power.good = true ∧ rd (wr s oFW_STATE 0 3) oFW_STATE 0 = 3 ∧ lane.mgmt.silent = true ∧
      portUp lane 0 = true ∧ (portOf lane 0).spare = false ∧ rd lane oFW_STATE 0 = 3 := by
  refine ⟨List.length_replicate, ?_⟩
  decide +kernel
/-- A bank passes or not as the image's verification says (log 14): FW_ROLLBACK_MIN is 0 here. -/
theorem test_hyp_Firmware_passes :
    bankPasses (sess up) = Config.imageVerifies (otherBlocks (sess up)) := by
  have h : rd (sess up) oFW_ROLLBACK_MIN 0 = 0 := by decide +kernel
  simp [bankPasses, h]

/-! ### Witnesses: Stesto frames -/

/-- Frames from the network. -/
def client : Src := .net 1 5000
def dscFrame : List Byte := frameBytes 0x01 0 0 7 []
def openFrame (slot role : Nat) : List Byte := frameBytes 0x03 0 0 7 (leBytes 1 slot ++ leBytes 1 role ++ leBytes 2 0xFF ++ List.replicate 16 3)
theorem test_hyp_SessionsOpenByProof :
    Framed up client dscFrame 0x01 ∧ (parseFrame dscFrame).sid = 0 ∧ Framed up client (openFrame 1 3) 0x03 ∧
      (parseFrame (openFrame 1 3)).sid = 0 :=
  ⟨⟨by decide +kernel, by decide +kernel, by decide +kernel, by decide +kernel⟩, by decide +kernel,
    ⟨by decide +kernel, by decide +kernel, by decide +kernel, by decide +kernel⟩, by decide +kernel⟩
theorem test_hyp_SessionsOpen_cases :
    let p := (parseFrame (openFrame 1 3)).payload
    let q := (parseFrame (openFrame 9 3)).payload
    let full := { up with mgmt := { up.mgmt with sessions := (List.range 8).map (fun i => { maint with sid := i + 1 }) } }
    let tried := { up with mgmt := { up.mgmt with fails := List.replicate 7 (lockSource client, 0) } }
    numAt p 0 1 = 1 ∧ numAt p 1 1 = 3 ∧ 3 ≤ rd up oKEY_ROLE 1 ∧ sessionFree up client = true ∧ sessionFree full client = false ∧
      heard full client = true ∧ numAt q 0 1 = 9 ∧ recentFails up client < 7 ∧ 7 ≤ recentFails tried client ∧
      heard tried client = true ∧ heard { up with mgmt := { up.mgmt with locked := [lockSource client] } } client = false := by
  decide +kernel
/-- Bytes that are not those given. -/
def spoiled (b : List Byte) : List Byte := b.map (fun x => x + 1)
theorem spoiled_ne {b : List Byte} (h : b.length ≠ 0) : spoiled b ≠ b := by
  cases b with
  | nil => exact absurd rfl h
  | cons x r =>
    intro e
    have h1 : x + 1 = x := (List.cons.inj e).1
    bv_omega
/-- A challenged session, and a PROVE for it. -/
def asked : Session := { maint with accepted := false, key := [], nc := List.replicate 16 3, nd := List.replicate 16 4 }
def askedUp : State := { up with mgmt := { up.mgmt with sessions := [asked] } }
def proveFrame (p : List Byte) : List Byte := frameBytes 0x05 1 0 8 p
theorem prove_parsed (p : List Byte) (h : p.length = 32) : Framed askedUp client (proveFrame p) 0x05 ∧
    (parseFrame (proveFrame p)).sid = 1 ∧ (parseFrame (proveFrame p)).payload = p := by
  have hp := parseFrame_frameBytes (ftype := 0x05) (sid := 1) (fseq := 0) (txid := 8) (p := p) [] (by decide) (by decide)
    (by decide) (by decide) (by omega)
  rw [List.append_nil] at hp
  have hl : (frameBytes 0x05 1 0 8 p).length = 48 := by simp [frameBytes, h]
  unfold proveFrame
  refine ⟨⟨by decide +kernel, ?_, by rw [hp], by rw [hp]; simp [h, clientPayload]⟩, by rw [hp], by rw [hp]⟩
  unfold frameWellFormed
  rw [hp]
  simp [hl, h, hasTrailer, ftypeDefined, payloadClear]
theorem test_hyp_SessionsOpen_prove :
    (parseFrame (proveFrame (proofOf askedUp asked))).payload = proofOf askedUp asked ∧
      Framed askedUp client (proveFrame (proofOf askedUp asked)) 0x05 ∧
      (parseFrame (proveFrame (spoiled (proofOf askedUp asked)))).payload ≠ proofOf askedUp asked ∧
      Framed askedUp client (proveFrame (spoiled (proofOf askedUp asked))) 0x05 := by
  have h := hmac_length (slotKey askedUp asked.slot) (proveText ++ asked.nc ++ asked.nd ++ leBytes 1 asked.role ++ leBytes 2 asked.sid)
  have h' : (proofOf askedUp asked).length = 32 := h
  have hs : (spoiled (proofOf askedUp asked)).length = 32 := by simp [spoiled, h']
  refine ⟨(prove_parsed _ h').2.2, (prove_parsed _ h').1, ?_, (prove_parsed _ hs).1⟩
  rw [(prove_parsed _ hs).2.2]
  exact spoiled_ne (by omega)
theorem test_hyp_SessionsOpen_asked :
    askedUp.mgmt.sessions.find? (fun x => x.sid == 1) = some asked ∧ asked.accepted = false ∧ slotAllows askedUp asked.slot asked.role = true ∧
      slotAllows (wr askedUp oKEY_ROLE asked.slot 0) asked.slot asked.role = false ∧
      challengeLives askedUp asked = true ∧ challengeLives { askedUp with nowUs := 1000001 } asked = false := by decide +kernel
/-- A sealed frame of session 1. -/
def sealed1 (ftype fseq : Nat) (p : List Byte) : List Byte := sealFrame maint.key ftype maint.sid fseq 9 p
/-- The payload of a WRITE of POWER_ENV: offset, whole length, part. -/
def writePart (total : Nat) (p : List Byte) : List Byte := leBytes 2 oPOWER_ENV ++ leBytes 1 0 ++ [0] ++ leBytes 2 0 ++ leBytes 2 total ++ p
theorem sealed1_sealed (ftype : Nat) (p : List Byte) (h : ftype ∈ [0x07, 0x10, 0x12, 0x21]) (hp : p.length ≤ 480)
    (hc : clientPayload ftype p.length = true) (hr : numAt p 3 1 = 0) : Sealed (sess up) client (sealed1 ftype 1 p) ftype maint := by
  have hh : heard (sess up) client = true := by decide +kernel
  have hx : sessionOf (sess up) maint.sid = some maint := by decide +kernel
  have hd : ftypeDefined ftype = true ∧ ftype < 256 ∧ ftype ≠ 0x05 := by
    simp only [List.mem_cons, List.not_mem_nil, or_false] at h
    rcases h with rfl | rfl | rfl | rfl <;> decide
  exact sealed_sealFrame hh hx (by decide) (by decide) (by decide) (by decide) hp hd.1 hd.2.1 hd.2.2 hc hr
theorem test_hyp_SessionTraffic :
    Sealed (sess up) client (sealed1 0x10 1 (entry [oBOOT_STAGE])) 0x10 maint ∧
      Sealed (sess up) maint.src (sealed1 0x12 1 (writePart 2 [0x90, 1])) 0x12 maint ∧
      Sealed (sess up) maint.src (sealed1 0x12 1 (writePart 2 [0x90])) 0x12 maint ∧
      Sealed (sess up) client (sealed1 0x07 1 []) 0x07 maint ∧ Sealed (sess up) client (sealed1 0x21 1 []) 0x21 maint :=
  ⟨sealed1_sealed _ _ (by decide) (by decide) (by decide) (by decide), sealed1_sealed _ _ (by decide) (by decide) (by decide) (by decide),
    sealed1_sealed _ _ (by decide) (by decide) (by decide) (by decide), sealed1_sealed _ _ (by decide) (by decide) (by decide) (by decide),
    sealed1_sealed _ _ (by decide) (by decide) (by decide) (by decide)⟩
theorem sealed1_payload (ftype fseq : Nat) (p mac : List Byte) (h : ftype < 256) (hf : fseq < 2 ^ 32) (hp : p.length ≤ 480) :
    (parseFrame (frameBytes ftype 1 fseq 9 p ++ mac)).payload = p ∧ (parseFrame (frameBytes ftype 1 fseq 9 p ++ mac)).fseq = fseq ∧
      (parseFrame (frameBytes ftype 1 fseq 9 p ++ mac)).mac = mac ∧
      (parseFrame (frameBytes ftype 1 fseq 9 p ++ mac)).covered = frameBytes ftype 1 fseq 9 p := by
  rw [parseFrame_frameBytes mac h (by decide) hf (by decide) (by omega)]
  exact ⟨rfl, rfl, rfl, rfl⟩
theorem test_hyp_SessionTraffic_write :
    let whole := writePart 2 [0x90, 1]
    let part := writePart 2 [0x90]
    numAt whole 0 2 = oPOWER_ENV ∧ numAt whole 4 2 = 0 ∧ (whole.drop 8).length = numAt whole 6 2 ∧ numAt part 4 2 = 0 ∧
      (part.drop 8).length < numAt part 6 2 ∧ partRefusal (sess up) maint oPOWER_ENV 0 2 = 0 ∧
      (readObject (sess up) maint oBOOT_STAGE 0).1.isSome = true ∧ (readObject (sess up) maint 0xFFFF 0).1 = none := by
  decide +kernel
/-- A frame whose trailer is not its MAC. -/
theorem test_hyp_SessionTraffic_badMac :
    let b := frameBytes 0x10 1 1 9 (entry [oBOOT_STAGE])
    (parseFrame (b ++ spoiled (frameMac [1] b))).mac ≠ frameMac [1] (parseFrame (b ++ spoiled (frameMac [1] b))).covered := by
  intro b
  have h := sealed1_payload 0x10 1 (entry [oBOOT_STAGE]) (spoiled (frameMac [1] b)) (by decide) (by decide) (by decide)
  rw [h.2.2.1, h.2.2.2]
  exact spoiled_ne (by rw [frameMac_length]; decide)
theorem test_hyp_SessionTraffic_rest :
    let again := { sess up with mgmt := { (sess up).mgmt with sessions := [{ maint with rxHigh := 1, kept := [(1, [5])] }] } }
    let drop := { sess up with mgmt := { (sess up).mgmt with sessions := [{ maint with rxHigh := 9 }] } }
    let n : Note := { txid := 4, cls := 4, index := 0, sub := 0, value := 13, lost := 0, tries := 0, sent := true }
    let boxed := { maint with src := .mailbox 0 1, notes := [n] }
    let free := { sess up with mgmt := { (sess up).mgmt with sessions := [boxed] } }
    let full := setBox free 0 { notifyPending := true }
    let noted := { sess up with mgmt := { (sess up).mgmt with sessions := [{ maint with notes := [n] }] } }
    let gone := { up with mgmt := { up.mgmt with closing := [(1, [1])] } }
    (sessionOf again 1).map (fun x => x.kept.find? (fun k => k.1 == 1)) = some (some (1, [5])) ∧
      (sessionOf drop 1).map (fun x => x.kept.find? (fun k => k.1 == 1)) = some none ∧ sessionOf gone 1 = none ∧
      gone.mgmt.closing.find? (fun x => x.1 == 1) = some (1, [1]) ∧
      (sessionOf noted 1).map (fun x => x.notes.find? (fun m => m.txid == 4 && m.sent)) = some (some n) ∧
      sessionOf free 1 = some boxed ∧ (boxOf free 0).notifyPending = false ∧ sessionOf full 1 = some boxed ∧
      (boxOf full 0).notifyPending = true ∧
      n.tries < rd noted oNOTIFY_RETRIES 0 ∧ rd noted oNOTIFY_RETRIES 0 ≤ 20 ∧ maint.waiting = [] := by decide +kernel
theorem test_hyp_MailboxCommitAndTestPort :
    let own := setBox up 0 { owned := 1 }
    let queued := setBox up 0 { notifyPending := true, queue := [.frame [1]] }
    let n : Note := { txid := 4, cls := 4, index := 0, sub := 0, value := 13, lost := 0, tries := 0, sent := false }
    let noted := setBox { sess up with mgmt := { (sess up).mgmt with sessions := [{ maint with notes := [n] }] } } 0
      { notifyPending := true, queue := [.note 1 4] }
    let dirty := { up with nv := { up.nv with dirty := true } }
    let taken := { up with jtag := { control := true } }
    boxUsable up 0 = true ∧ dscFrame ≠ [] ∧ up.mgmt.silent = false ∧ (up.mgmt.locked.contains (.mailbox 0 0)) = false ∧
      (boxOf up 0).owned.testBit 0 = false ∧ frameWellFormed [1] = false ∧ frameWellFormed dscFrame = true ∧
      (parseFrame dscFrame).ftype = 0x01 ∧ (parseFrame dscFrame).len = 0 ∧ (boxOf own 0).owned.testBit 0 = true ∧
      (boxOf up 0).queue = [] ∧ (boxOf queued 0).queue = [.frame [1]] ∧ boxUsable noted 0 = true ∧
      (boxOf noted 0).queue = [.note 1 4] ∧ (sessionOf noted 1).map (fun x => x.notes.find? (fun n => n.txid == 4)) = some (some n) ∧
      mgmtRail up = true ∧ mgmtRail State.reset = false ∧ mgmtRail { State.reset with pins := up.pins } = true ∧
      [true, false, true, false, true, false, true, false, true, false].length = 10 ∧
      (1 : Nat).testBit 0 = true ∧ dirty.power.good = true ∧ dirty.nv.dirty = true ∧
      stestoUp up = true ∧ stestoUp State.reset = false ∧ rd (at_ 4) oBOOT_STAGE 0 < 13 ∧ 13 ≤ rd up oBOOT_STAGE 0 ∧
      up.jtag.control = false ∧ taken.jtag.control = true ∧ copiesOk taken.nv = true := by decide +kernel

/-! ### Witnesses: repairs -/

theorem test_hyp_RegrowthRepairs_cores :
    let s := running 0x02
    let none_ := { s with nv := { s.nv with repair := [.badSpare 16, .badSpare 33, .badSpare 50, .badSpare 67] } }
    let plan := setCore up 0 { retiring := true }
    let maps := { setCore up 0 { mapping := true } with regr := { jobs := [.core 0] } }
    let resets := setPart { setCore (withOps [op7 0x10] up) 0 { mapping := true } with regr := { jobs := [.core 0] } } 0
      { resetting := true }
    opsOk s.weir = true ∧ coreRuns s 0 = true ∧ mappingsOn s 0 < spareCount s 0 ∧ coreRuns none_ 0 = true ∧
      ¬(mappingsOn none_ 0 < spareCount none_ 0) ∧ (coreOf plan 0).retiring = true ∧ onCore plan 0 (fun _ => true) = [] ∧
      mappingsOn plan 0 < spareCount plan 0 ∧ (coreOf s 0).retiring = false ∧ (coreOf s 0).load ≠ some .coreReset ∧
      maps.regr.jobs.contains (.core 0) = true ∧ corePart maps 0 = some 0 ∧ (partOf maps 0).resetting = false ∧
      spareChoice maps (homeQuad 0) = some 16 ∧ opsOk resets.weir = true ∧ resets.regr.jobs.contains (.core 0) = true ∧
      spareChoice resets (homeQuad 0) = some 16 ∧ corePart resets 0 = some 0 ∧ (partOf resets 0).resetting = true ∧
      paused (after (.spareMappingDone 0 []) resets) 0 = false ∧
      (passSpare [16, 33, 50, 67] (homeQuad 0) 4 (endJob maps (.core 0))).2 = none ∧ coreRuns plan 0 = true := by
  decide +kernel
theorem test_hyp_RegrowthRepairs_memory :
    let banks := { up with nv := { up.nv with repair := [.badSpare 3, .bankRemoved 0 48, .bankRemoved 0 49] } }
    up.power.compute = true ∧ (2 ^ 60 : Nat) % 256 = 0 ∧ addressLaidOut (2 ^ 60) = true ∧ poisoned up (2 ^ 60) = false ∧
      space (2 ^ 60) = 1 ∧ bankSpares up (poolDie (2 ^ 60)) ≠ [] ∧ bankSpares banks 0 = [] ∧ bankBusy banks 0 0 = false ∧
      addressLaidOut (2 * 2 ^ 60) = true ∧ space (2 * 2 ^ 60) = 2 ∧ poisoned (poisonLine up (2 ^ 60)) (2 ^ 60) = true ∧
      space 0x100 = 0 ∧ addressLaidOut 0x100 = true ∧ space (3 * 2 ^ 60) = 3 := by decide +kernel
/-- A row whose bank has spare rows left, one whose bank has none; a move under way, a channel that fails a retraining. -/
theorem test_hyp_RegrowthRepairs_rows :
    let moves := { up with regr := { jobs := [.move 0 4 0] } }
    let repairing := { up with regr := { jobs := [.row (rowOf 0x100)] } }
    hasJob repairing (.row (rowOf 0x100)) = true ∧ canMove up 0 4 = true ∧ moveOf moves 0 4 = some (.move 0 4 0) ∧
      idleChannels moves 0 = 32 :: [33] ∧ moveOf up 0 4 = none ∧ channelServes up 0 4 = true ∧
      movesOn up 0 < (idleChannels up 0).length ∧ up.mgmt.silent = false ∧ channelServes up 0 32 = false ∧ up.mem.reads = [] ∧
      up.cores = [] ∧ up.nv.repair = [] := by decide +kernel
/-- Which bank a row lies in is open: with four rows of it repaired it has no spare left, with none it has. -/
def rowsTaken : State := { up with nv := { up.nv with repair := List.replicate 4 (.row (rowOf 0x100) 0) } }
theorem test_hyp_RegrowthRepairs_bankRows : bankRows up 0x100 < 4 ∧ 4 ≤ bankRows rowsTaken 0x100 := by
  have h : rowChannel rowsTaken 0x100 = 0 := by decide +kernel
  refine ⟨by simp [bankRows, show up.nv.repair = [] from rfl, show up.regr = {} from rfl], ?_⟩
  rw [bankRows, h]
  simp [sameBank, rowsTaken, show dramStack (rowOf 256) = dramStack 256 from rfl, show rowOf (rowOf 256) = rowOf 256 from rfl]
theorem test_hyp_RegrowthRepairs_jobs :
    let bank := { up with regr := { jobs := [.bank 0 3 48] } }
    let row := { up with regr := { jobs := [.row 0] } }
    let relay := { up with regr := { jobs := [.relay 2 5] } }
    bank.regr.jobs.find? (fun j => match j with
      | .bank d' b' _ => d' == 0 && b' == 3
      | _ => false) = some (.bank 0 3 48) ∧ row.regr.jobs.contains (.row (rowOf 0)) = true ∧
      idleChannels up 0 = [32, 33] ∧ stackUsable up 0 = true ∧ (deadChannels up 0).contains 4 = false ∧
      (idleChannels up 0).contains 4 = false ∧ relay.regr.jobs.find? (fun j => match j with
        | .relay k' _ => k' == 2
        | _ => false) = some (.relay 2 5) ∧ rd up oPART_STATE 1 = 1 ∧ epFitted up 0 = true ∧ epFitted up 1 = true := by
  decide +kernel
/-! ### Results, their values from the manual's worked examples and tables -/

/-- spec/00, "reading a field from a little-endian word". -/
theorem test_field : field 0x00123456 23 8 = 0x1234 ∧ leBytes 4 0x00123456 = [0x56, 0x34, 0x12, 0x00] := by decide
/-- spec/07, "one LG8 product and its error": codes 0x0B and 0xFB, draw 0x3A10; −6889 × 2^−12 = −1.681884765625. -/
theorem test_lg8_product :
    tableFraction lg8 6 = 183017369 ∧
      product lg8 (ldecode lg8 0x0B) (ldecode lg8 0xFB) 0x3A10 = some (.fin true 6889 (-12)) ∧
      product lg8 (ldecode lg8 0x0B) (ldecode lg8 0xFB) 40857 = some (.fin true 6888 (-12)) := by decide +kernel
/-- spec/07 Table LOG-4: an infinity is stored as NaR. -/
theorem test_lg8_infinity : storeElem 4 (.inf false) = (lencode lg8 .nar, true) := by decide +kernel
/-- spec/17 Table HOST-9: the first refusal record, OPID 0x51F0_0040, class BULK, flow 72, SEQ 64, PHASE 1. -/
theorem test_refusalRecord :
    recordBytes (refusalRecord { desc 0x02 with opid := 0x51F00040, cls := 3, flow := 72, seq := 64 } stREFUSED_FULL true) =
      [0x40, 0x00, 0xF0, 0x51, 0x04, 0x03, 0x00, 0x80, 0xFF, 0xFF, 0xFF, 0x00, 0xFF, 0xFF, 0xFF, 0xFF,
       0x00, 0x00, 0x48, 0x00, 0x00, 0x00, 0x00, 0x00, 0x00, 0x00, 0x00, 0x00, 0x40, 0x00, 0x00, 0x00] := by decide +kernel
/-- spec/17, the same example: rings of 1024 records and of 256 descriptors, partition 9 by its defaults. -/
theorem test_rings :
    ringDepth 0x000000400020000A = 1024 ∧ ringAddr 0x000000400020000A = 0x4000200000 ∧
      ringDepth 0x0000004000100008 = 256 ∧ iqIndex up 9 0 = 288 ∧ cqIndex up 9 0 = 288 ∧ rd up oFLOW_BASE 10 = 72 := by
  decide +kernel
/-- spec/18 Table STESTO-7: the WRITE frame of the P-level request, before its MAC. -/
theorem test_writeFrame :
    frameBytes 0x12 7 42 0x0105 ([0x10, 0x20, 0x03] ++ [0] ++ leBytes 2 0 ++ leBytes 2 1 ++ [3]) =
      [0x01, 0x12, 0x07, 0x00, 0x2A, 0x00, 0x00, 0x00, 0x05, 0x01, 0x09, 0x00, 0x00, 0x00, 0x00, 0x00,
       0x10, 0x20, 0x03, 0x00, 0x00, 0x00, 0x01, 0x00, 0x03] ∧
      writeReplyPayload oPLEVEL_REQ 3 0 = [0x10, 0x20, 0x03, 0x00, 0x00, 0x00, 0x00, 0x00] := by decide +kernel
/-- spec/18, the same example: value 3 is taken, value 9 leaves PLEVEL_REQ.3 as it was. -/
theorem test_plevelReqWrite :
    rd (after (.plevelReqWrite req1 2 3) (sess up)) oPLEVEL_REQ 3 = 3 ∧
      rd (after (.plevelReqWrite req1 2 9) (wr (sess up) oPLEVEL_REQ 3 5)) oPLEVEL_REQ 3 = 5 := by decide +kernel
/-- spec/03, "quadrant 2 of CD0 from P5 to P3": the rail of P4 and the wait for it to settle, then divisor 3. -/
theorem test_sequencer :
    let s := setSeq (wr up oPLEVEL_REQ 3 3) 2 { level := 5, phase := .rampUp, railMv := 640 }
    let t := after (.railRampDone 2) s
    seqOf t 2 = { level := 5, phase := .settle, railMv := 680 } ∧ seqOf (after (.railSettleEnd 2) t) 2 = { level := 4, phase := .idle, railMv := 680 } ∧
      rd (after (.railSettleEnd 2) t) oMC_DIVISOR 3 = 3 := by decide +kernel
/-- spec/19, "a core check on core 37": CORE_PLACE 0x2A on its quadrant's spare, 0x20 on quadrant 0's. -/
theorem test_spareMappingDone :
    let s := { wr up oSTACK_PC_ACTIVE 3 32 with regr := { jobs := [.core 37] } }
    corePlace (after (.spareMappingDone 37 []) s) 37 = 0x2A ∧ corePlace (after (.spareMappingDone 37 [50]) s) 37 = 0x20 := by
  decide +kernel
/-- spec/04 Table BASK-2: V48_LOW at 36 V to below 40 V only. -/
theorem test_v48Low : rd (after (.v48Low 39999) up) oPWR_STATUS 0 = 1 ∧ after (.v48Low 40000) up = up := by decide +kernel
/-- spec/05 Table BOOT-1: BOOT_STAGE 4 after power good, with the straps sampled. -/
theorem test_powerGoodRise :
    rd (after (.powerGoodRise true 5) State.reset) oBOOT_STAGE 0 = 4 ∧
      rd (after (.powerGoodRise true 5) State.reset) oPLCA_NODE_ID 0 = 5 := by decide +kernel
/-- spec/05 R99: Request Retry Status until step 13. -/
theorem test_configRequest :
    (after (.configRequest 0 .serial) (wr up oDEVICE_SERIAL 0 77)).out = [.config 0 true 77] ∧
      (after (.configRequest 0 .serial) (wr up oBOOT_STAGE 0 12)).out = [.config 0 false] := by decide +kernel
/-- spec/17 R402: tail 3 on an empty ring of 16 logs a batch of 3; tail 16 lies outside it. -/
theorem test_iqDoorbell :
    (iqOf (after (.iqDoorbell 0 0 3 []) (queues iq0)) 0).log = [3] ∧
      (iqOf (after (.iqDoorbell 0 0 16 []) (queues iq0)) 0).overrun = true := by decide +kernel
/-- spec/10 R203: a flow outside the partition's range ends ACCESS_DENIED; a good descriptor is issued. -/
theorem test_issue :
    ((opOf? (after (.issue 7) copyState) 7).map (fun o => (o.phase, o.m, o.n))) = some (.issued, 1, 16) ∧
      ((opOf? (after (.issue 7) (withOps [{ copy7 with desc := { copy7.desc with flow := 8 } }] copyState)) 7).map
        (fun o => (o.phase, o.status))) = some (.ended, stACCESS_DENIED) := by decide +kernel
/-- spec/10 R214: COPY of binary32 to binary32 keeps every bit; bytes beyond N stay. -/
theorem test_copy :
    readBytes (after (.copy 7) copyReady) (2 ^ 60 + 0x2000) 6 = [1, 2, 3, 4, 0, 0] ∧
      ((opOf? (after (.copy 7) copyReady) 7).map (fun o => (o.dataDone, o.status))) = some (true, stOK) := by decide +kernel
/-- 3 × 5 in binary32: a MATMUL of one element with both codes exact powers' sums is 2^1 × 2^2 = 8 (LG16, no remainder). -/
def matmul7 : Op :=
  { run7 0x10 with
    desc := { desc 0x10 with fmt0 := 6, fmt1 := 6, fmt2 := 0, cap := mnk 1 1 1 }, precision := 3, m := 1, n := 1, k := 1
    entries := [[2 ^ 60 + 0x1000, 2 ^ 60 + 0x1040, 2 ^ 60 + 0x2000, 0]] }
/-- spec/07 R141 to R143: log codes of 2 and 4 multiply to 8, 0x41000000 in binary32, whatever the draw. -/
theorem test_matmul :
    let two := leBytes 2 (lencode lg16 (.val false 512))
    let four := leBytes 2 (lencode lg16 (.val false 1024))
    let s := setCore (withOps [matmul7] (pool [(0x1000, two), (0x1040, four)] up)) 0 { exec := some 7, wave := true }
    readNum (after (.matmul 7) s) (2 ^ 60 + 0x2000) 4 = 0x41000000 := by decide +kernel
/-- spec/15 Table IMG-3, one group: an index out of range under GFP 0 gives PARTIAL_FAULT and names the lane. -/
theorem test_gather :
    ((opOf? (after (.gather 7) (gather7 0x58 5 false).2) 7).map (fun o => (o.status, o.faultIndex, o.faultCount))) =
        some (stPARTIAL_FAULT, 0, 1) ∧
      ((opOf? (after (.gather 7) (gather7 0x58 5 true).2) 7).map (fun o => (o.phase, o.status))) =
        some (.ended, stMEM_ERROR) := by decide +kernel
/-- spec/08 R162, R165: bytes in the Eddy are what a read returns, before and after they drain. -/
theorem test_eddy :
    let s := withOps [{ run7 0x02 with outs := [(0x4000, 256)] }] up
    let t := after (.eddyWrite 7 0x4010 [5, 6]) s
    readBytes t 0x4010 2 = [5, 6] ∧ readBytes (after (.eddyDrainDone 0 0x4000 .clean) (after (.eddyAgeExpiry 0 0x4000) t)) 0x4010 2 = [5, 6] ∧
      rd (after (.eddyDrainDone 0 0x4000 .clean) (after (.eddyAgeExpiry 0 0x4000) t)) oEDDY_RMW_COUNT 1 = 1 := by decide +kernel
/-- spec/06 R133 to R135: the stall limit ends the executing operation ABANDONED. -/
theorem test_stallTimerExpiry :
    let urgent : Op := { op7 0x02 with id := 8, phase := .placed, core := some 0 }
    let u := setCore (withOps [run7 0x10, urgent] up) 0 { exec := some 7, wave := true, load := some (.preempt 8), stall := some 500 }
    ((opOf? (after (.stallTimerExpiry 0 1) u) 7).map (fun o => (o.phase, o.status))) = some (.ended, stABANDONED) ∧
      (coreOf (after (.stallTimerExpiry 0 1) u) 0).exec = some 8 := by decide +kernel
/-- spec/16 R367, R368: a WRITE lands and its write group counts it; no port leads to the peer, so its ACK is not sent. -/
theorem test_writeMsg :
    let s := setCtx (pool [] up) 5 { st := .opened, peerChip := 2, peerCtx := 9, part := 0, credits := 4 }
    let t := after (.writeMsg (msg mtWRITE 0 [1, 2, 3, 4] remotePool)) s
    readBytes t (2 ^ 60 + 0x1000) 4 = [1, 2, 3, 4] ∧ landedOf t 5 0 = 1 := by decide +kernel
/-- spec/20 R482: BYPASS shifts a 0; IDCODE's fixed bits. -/
theorem test_jtag :
    (after (.bypass 0xFF) up).out = [.tdo 0] ∧ (after .idcode up).jtag.ir = 2 := by decide +kernel
/-- A step takes the command at the front; an empty queue idles for a microsecond (log 3). -/
theorem test_step :
    (match step { up with pending := [.bypass 0xFF, .idcode] } with
      | .next t => (t.pending, t.out)
      | _ => ([], [])) = ([.idcode], [.tdo 0]) ∧
      (match step up with
        | .next t => t.nowUs
        | _ => 0) = up.nowUs + 1 := by decide +kernel
/-- No row of the table gives bits: no word spells a command. -/
theorem test_decodeTableWord : decodeTableWord 8 0x5A = none ∧ up.withFetchWord 8 0x5A = up := by decide +kernel

end Sys2Proof.Tests
end

/-! PROOF. O12: what the built-in self test and the DRAM training make of the repair map (R101 to R103, R158, R159). -/

namespace Sys2Proof.Machine

open Sys2Proof

/-! ### A start-up step: it adds to the repair map, stores objects and raises faults -/

/-- A state with another repair map. -/
def withRepair (s : State) (l : List Repair) : State := { s with nv := { s.nv with repair := l } }

theorem Told.nv {ks : List Nat} {s t : State} (h : Told ks s t) : t.nv = s.nv := (congrArg State.nv h.rest :)

theorem Told.withRepair {ks : List Nat} {s t : State} (h : Told ks s t) (l : List Repair) :
    Told ks (withRepair s l) (withRepair t l) :=
  ⟨congrArg (Machine.withRepair · l) h.rest, h.objs, h.sessions, h.boxes, h.fns, h.out⟩

/-- From `s` to `t` the repair map gains entries that meet `P`, bits of BOOT_FAULT are only set, and nothing else changes but
objects of the listed keys and what notifications change. -/
structure BootStep (P : Repair → Prop) (ks : List Nat) (s t : State) : Prop where
  entries : ∃ l, t.nv.repair = s.nv.repair ++ l ∧ ∀ r ∈ l, P r
  told : Told ks (withRepair s t.nv.repair) t
  faults : ∀ i, (rd s oBOOT_FAULT 0).testBit i = true → (rd t oBOOT_FAULT 0).testBit i = true

theorem BootStep.refl (P : Repair → Prop) (ks : List Nat) (s : State) : BootStep P ks s s :=
  ⟨⟨[], by simp⟩, Told.refl _ _, fun _ h => h⟩

theorem BootStep.trans {P : Repair → Prop} {ks : List Nat} {s t u : State} (h : BootStep P ks s t) (h' : BootStep P ks t u) :
    BootStep P ks s u := by
  obtain ⟨l, hl, hP⟩ := h.entries
  obtain ⟨m, hm, hP'⟩ := h'.entries
  refine ⟨⟨l ++ m, by rw [hm, hl, List.append_assoc], fun r hr => ?_⟩, ?_, fun i hi => h'.faults i (h.faults i hi)⟩
  · exact (List.mem_append.mp hr).elim (hP r) (hP' r)
  · exact ((h.told.withRepair u.nv.repair).trans h'.told).mono (by simp)

theorem BootStep.mono {P Q : Repair → Prop} {ks ls : List Nat} {s t : State} (h : BootStep P ks s t) (hPQ : ∀ r, P r → Q r)
    (hs : ks ⊆ ls) : BootStep Q ls s t := by
  obtain ⟨l, hl, hP⟩ := h.entries
  exact ⟨⟨l, hl, fun r hr => hPQ r (hP r hr)⟩, h.told.mono hs, h.faults⟩

theorem BootStep.foldl {α : Type} {P : Repair → Prop} {ks : List Nat} {f : State → α → State} {l : List α}
    (hf : ∀ t, ∀ x ∈ l, BootStep P ks t (f t x)) (s : State) : BootStep P ks s (l.foldl f s) := by
  induction l generalizing s with
  | nil => exact BootStep.refl P ks s
  | cons x l ih =>
    exact (hf s x List.mem_cons_self).trans (ih (fun t y hy => hf t y (List.mem_cons_of_mem x hy)) (f s x))

theorem BootStep.rd {P : Repair → Prop} {ks : List Nat} {s t : State} (h : BootStep P ks s t) {o sub : Nat}
    (hk : objKey o sub ∉ objKey oNOTIFY_LOST 0 :: ks) : rd t o sub = rd s o sub := h.told.rd hk

theorem BootStep.repair_grows {P : Repair → Prop} {ks : List Nat} {s t : State} (h : BootStep P ks s t) :
    s.nv.repair <+: t.nv.repair := by
  obtain ⟨l, hl, -⟩ := h.entries
  exact ⟨l, hl.symm⟩

/-- An entry of the repair map stays. -/
theorem BootStep.any {P : Repair → Prop} {ks : List Nat} {s t : State} (h : BootStep P ks s t) {p : Repair → Bool}
    (hp : s.nv.repair.any p = true) : t.nv.repair.any p = true := by
  obtain ⟨l, hl, -⟩ := h.entries
  rw [hl, List.any_append, hp, Bool.true_or]

/-- The map answers as before where no new entry meets `p`. -/
theorem BootStep.any_eq {P : Repair → Prop} {ks : List Nat} {s t : State} (h : BootStep P ks s t) {p : Repair → Bool}
    (hp : ∀ r, P r → p r = false) : t.nv.repair.any p = s.nv.repair.any p := by
  obtain ⟨l, hl, hP⟩ := h.entries
  have hany : l.any p = false := List.any_eq_false.mpr (fun r hr => by simp [hp r (hP r hr)])
  rw [hl, List.any_append, hany, Bool.or_false]

theorem Told.bootStep {ks : List Nat} {s t : State} (h : Told ks s t) (hk : objKey oBOOT_FAULT 0 ∉ objKey oNOTIFY_LOST 0 :: ks)
    (P : Repair → Prop) : BootStep P ks s t := by
  refine ⟨⟨[], by simp [h.nv]⟩, ?_, fun i hi => by rw [h.rd hk]; exact hi⟩
  rw [h.nv]
  exact h

theorem bootStep_addRepair {P : Repair → Prop} (s : State) {r : Repair} (hr : P r) (ks : List Nat) :
    BootStep P ks s (addRepair s r) :=
  ⟨⟨[r], rfl, by simpa using hr⟩, Told.refl ks (addRepair s r), fun _ h => h⟩

theorem bootStep_bootFault (P : Repair → Prop) (s : State) (i : Nat) : BootStep P [objKey oBOOT_FAULT 0] s (bootFault s i) := by
  refine ⟨⟨[], by simp [bootFault]⟩, told_wr s oBOOT_FAULT 0 _, fun j hj => ?_⟩
  rw [bootFault, rd_wr_self]
  by_cases h : j = i
  · rw [h, testBit_setBit_self]
  · rw [testBit_setBit_ne _ _ h, hj]

@[simp] theorem testBit_bootFault (s : State) (i : Nat) : (rd (bootFault s i) oBOOT_FAULT 0).testBit i = true := by
  simp [bootFault]

theorem bootStep_stage (P : Repair → Prop) (s : State) (v : Nat) : BootStep P [objKey oBOOT_STAGE 0] s (stage s v) :=
  (told_wrNote s 4 oBOOT_STAGE 0 v).bootStep (by decide) P

theorem rd_stage (s : State) (v : Nat) : rd (stage s v) oBOOT_STAGE 0 = v := rd_wrNote s 4 oBOOT_STAGE 0 v (by decide)

theorem foldl_addRepair {α : Type} (f : α → Repair) (l : List α) (s : State) :
    l.foldl (fun t x => addRepair t (f x)) s = withRepair s (s.nv.repair ++ l.map f) := by
  induction l generalizing s with
  | nil => simp [withRepair]
  | cons x l ih =>
    rw [List.foldl_cons, ih, addRepair_nv, List.map_cons, ← List.append_cons]
    rfl

/-! ### Where a core and a Pool bank stand -/

/-- The logical core that an entry of the repair map speaks of. -/
def Repair.coreSubject : Repair → Option Nat
  | .core c _ => some c
  | .coreRetired c => some c
  | _ => none

/-- The Pool bank that an entry speaks of. -/
def Repair.bankSubject : Repair → Option (Nat × Nat)
  | .bank d b _ => some (d, b)
  | .bankRemoved d b => some (d, b)
  | _ => none

/-- The stack whose pseudo-channels an entry speaks of. -/
def Repair.stackSubject : Repair → Option Nat
  | .channel k _ _ => some k
  | .channelRetired k _ => some k
  | _ => none

/-- The physical core of a logical core, unless it is retired without replacement. -/
def coreSeat (s : State) (c : Nat) : Option Nat := if coreRetired s c then none else some (physOf s c)

/-- The physical bank of a Pool bank (die, bank), numbered 50 d + b as BUILT_IN_SELF_TEST does, unless it is removed. -/
def bankSeat (s : State) (x : Nat × Nat) : Option Nat :=
  if bankRemoved s x.1 x.2 then none else some (50 * x.1 + bankIn s.nv.repair x.1 x.2 x.2)

theorem coreSeat_eq_none {s : State} {c : Nat} : coreSeat s c = none ↔ coreRetired s c = true := by
  simp [coreSeat]

theorem coreSeat_eq_some {s : State} {c ph : Nat} : coreSeat s c = some ph ↔ coreRetired s c = false ∧ physOf s c = ph := by
  simp [coreSeat]

theorem bankSeat_eq_none {s : State} {x : Nat × Nat} : bankSeat s x = none ↔ bankRemoved s x.1 x.2 = true := by
  simp [bankSeat]

theorem bankSeat_eq_some {s : State} {x : Nat × Nat} {ph : Nat} :
    bankSeat s x = some ph ↔ bankRemoved s x.1 x.2 = false ∧ 50 * x.1 + bankIn s.nv.repair x.1 x.2 x.2 = ph := by
  simp [bankSeat]

theorem physIn_append (l m : List Repair) (c cur : Nat) : physIn (l ++ m) c cur = physIn m c (physIn l c cur) := by
  induction l generalizing cur with
  | nil => rfl
  | cons r l ih => cases r <;> simp [physIn, ih]

theorem bankIn_append (l m : List Repair) (d b cur : Nat) : bankIn (l ++ m) d b cur = bankIn m d b (bankIn l d b cur) := by
  induction l generalizing cur with
  | nil => rfl
  | cons r l ih => cases r <;> simp [bankIn, ih]

theorem physIn_of_coreSubject_ne {l : List Repair} {c : Nat} (h : ∀ r ∈ l, r.coreSubject ≠ some c) (cur : Nat) :
    physIn l c cur = cur := by
  induction l with
  | nil => rfl
  | cons r l ih =>
    obtain ⟨hr, hl⟩ := List.forall_mem_cons.mp h
    cases r with
    | core c' ph =>
      have hc : c' ≠ c := by simpa [Repair.coreSubject] using hr
      rw [physIn, if_neg hc, ih hl]
    | _ => exact ih hl

theorem bankIn_of_bankSubject_ne {l : List Repair} {d b : Nat} (h : ∀ r ∈ l, r.bankSubject ≠ some (d, b)) (cur : Nat) :
    bankIn l d b cur = cur := by
  induction l with
  | nil => rfl
  | cons r l ih =>
    obtain ⟨hr, hl⟩ := List.forall_mem_cons.mp h
    cases r with
    | bank d' b' sp =>
      have hc : ¬(d' = d ∧ b' = b) := by simpa [Repair.bankSubject] using hr
      rw [bankIn, if_neg hc, ih hl]
    | _ => exact ih hl

/-- A core stays where it is under entries that do not speak of it. -/
theorem BootStep.coreSeat {P : Repair → Prop} {ks : List Nat} {s t : State} (h : BootStep P ks s t) {c : Nat}
    (hP : ∀ r, P r → r.coreSubject ≠ some c) : coreSeat t c = coreSeat s c := by
  obtain ⟨l, hl, hr⟩ := h.entries
  have hl' : ∀ r ∈ l, r.coreSubject ≠ some c := fun r hm => hP r (hr r hm)
  have hret : coreRetired t c = coreRetired s c :=
    h.any_eq (fun r hPr => beq_eq_false_iff_ne.mpr (fun e => hP r hPr (by rw [e]; rfl)))
  have hphys : physOf t c = physOf s c := by rw [physOf, hl, physIn_append, physIn_of_coreSubject_ne hl']; rfl
  rw [Machine.coreSeat, Machine.coreSeat, hret, hphys]

/-- A Pool bank stays where it is under entries that do not speak of it. -/
theorem BootStep.bankSeat {P : Repair → Prop} {ks : List Nat} {s t : State} (h : BootStep P ks s t) {x : Nat × Nat}
    (hP : ∀ r, P r → r.bankSubject ≠ some x) : bankSeat t x = bankSeat s x := by
  obtain ⟨l, hl, hr⟩ := h.entries
  have hl' : ∀ r ∈ l, r.bankSubject ≠ some x := fun r hm => hP r (hr r hm)
  have hrem : bankRemoved t x.1 x.2 = bankRemoved s x.1 x.2 :=
    h.any_eq (fun r hPr => beq_eq_false_iff_ne.mpr (fun e => hP r hPr (by rw [e]; rfl)))
  rw [Machine.bankSeat, Machine.bankSeat, hrem, hl, bankIn_append, bankIn_of_bankSubject_ne hl']

/-! ### The self test of cores, and of banks: one argument for both (R102) -/

/-- A unit that has left service, or whose physical place did not fail. -/
def SeatPassed (failed : List Nat) (seat : Option Nat) : Prop := ∀ ph, seat = some ph → ph ∉ failed

/-- What the self test makes of units of one kind: one that passed stays in its place, and one that is then without a place
has set its bit of BOOT_FAULT. -/
structure Retested {α : Type} (seat : State → α → Option Nat) (units : List α) (failed : List Nat) (bit : Nat)
    (P : Repair → Prop) (s t : State) : Prop where
  step : BootStep P [objKey oBOOT_FAULT 0] s t
  kept : ∀ x ∈ units, SeatPassed failed (seat s x) → seat t x = seat s x
  alarm : ∀ x ∈ units, seat s x ≠ none → seat t x = none → (rd t oBOOT_FAULT 0).testBit bit = true

section Retested

variable {α : Type} {seat : State → α → Option Nat} {units : List α} {failed : List Nat} {bit : Nat} {P : Repair → Prop}

theorem Retested.of_seats {s t : State} (h : BootStep P [objKey oBOOT_FAULT 0] s t) (hs : ∀ x ∈ units, seat t x = seat s x) :
    Retested seat units failed bit P s t :=
  ⟨h, fun x hx _ => hs x hx, fun x hx hne hn => absurd (hs x hx ▸ hn) hne⟩

/-- A unit that failed is given a place that passed, or it loses its place with an alarm; the others stay. -/
theorem Retested.of_moved {s t : State} {x : α} (h : BootStep P [objKey oBOOT_FAULT 0] s t)
    (hx : ¬SeatPassed failed (seat s x)) (hs : ∀ y, y ≠ x → y ∈ units → seat t y = seat s y)
    (hm : (∃ ph, seat t x = some ph ∧ ph ∉ failed) ∨ (seat t x = none ∧ (rd t oBOOT_FAULT 0).testBit bit = true)) :
    Retested seat units failed bit P s t ∧ SeatPassed failed (seat t x) := by
  refine ⟨⟨h, fun y hy hp => hs y (fun e => hx (e ▸ hp)) hy, fun y hy hne hn => ?_⟩, fun ph' hs' => ?_⟩
  · by_cases e : y = x
    · subst e
      rcases hm with ⟨ph, hph, -⟩ | ⟨-, hb⟩
      · simp [hph] at hn
      · exact hb
    · exact absurd (hs y e hy ▸ hn) hne
  · rcases hm with ⟨ph, hph, hnot⟩ | ⟨hnone, -⟩
    · obtain rfl : ph = ph' := by simpa [hph] using hs'
      exact hnot
    · simp [hnone] at hs'

theorem Retested.trans {s t u : State} (h : Retested seat units failed bit P s t) (h' : Retested seat units failed bit P t u) :
    Retested seat units failed bit P s u := by
  refine ⟨h.step.trans h'.step, fun x hx hp => ?_, fun x hx hne hn => ?_⟩
  · have ht := h.kept x hx hp
    rw [h'.kept x hx (ht ▸ hp), ht]
  · by_cases ht : seat t x = none
    · exact h'.step.faults bit (h.alarm x hx hne ht)
    · exact h'.alarm x hx ht hn

/-- A pass over units, each of which is left in a place that passed, leaves all of them so: what passed is not moved again. -/
theorem retested_foldl {f : State → α → State} {Known : State → Prop}
    (hKnown : ∀ s t, BootStep P [objKey oBOOT_FAULT 0] s t → Known s → Known t)
    (hf : ∀ s, Known s → ∀ x ∈ units, Retested seat units failed bit P s (f s x) ∧ SeatPassed failed (seat (f s x) x)) :
    ∀ (l : List α) (s : State), l ⊆ units → Known s →
      Retested seat units failed bit P s (l.foldl f s) ∧ ∀ x ∈ l, SeatPassed failed (seat (l.foldl f s) x) := by
  intro l
  induction l with
  | nil => exact fun s _ _ => ⟨Retested.of_seats (BootStep.refl _ _ s) (fun _ _ => rfl), by simp⟩
  | cons x l ih =>
    intro s hl hs
    obtain ⟨hxu, hlu⟩ := List.cons_subset.mp hl
    obtain ⟨hstep, hx⟩ := hf s hs x hxu
    obtain ⟨hrest, hpass⟩ := ih (f s x) hlu (hKnown _ _ hstep.step hs)
    refine ⟨hstep.trans hrest, List.forall_mem_cons.mpr ⟨?_, hpass⟩⟩
    rw [List.foldl_cons, hrest.kept x hxu hx]
    exact hx

end Retested

/-! ### Cores (R27, R102) -/

/-- One core of the pass `bistCores`. -/
def bistCore (failed : List Nat) (s : State) (c : Nat) : State :=
  if !(coreRetired s c) && failed.contains (physOf s c) then
    if coreRetired (remapCore s c) c then bootFault (remapCore s c) 2 else remapCore s c
  else s

theorem bistCores_eq_foldl (failed l : List Nat) (s : State) : bistCores failed l s = l.foldl (bistCore failed) s := by
  induction l generalizing s with
  | nil => rfl
  | cons c l ih =>
    rw [List.foldl_cons, ← ih, bistCores, bistCore]
    split <;> rfl

/-- Every failed spare core is used or recorded. -/
def SparesKnown (failed : List Nat) (s : State) : Prop :=
  ∀ ph ∈ failed, ph % 17 = 16 → s.nv.repair.any (takesSpare ph) = true

theorem spareChoice_spec {s : State} {q ph : Nat} (h : spareChoice s q = some ph) :
    ph % 17 = 16 ∧ s.nv.repair.any (takesSpare ph) = false := by
  obtain ⟨i, hi, rfl⟩ := Option.map_eq_some_iff.mp h
  have hfree := List.find?_some hi
  exact ⟨by omega, by simpa [spareFree] using hfree⟩

/-- A free spare is none of those that failed. -/
theorem SparesKnown.spareChoice_notMem {failed : List Nat} {s : State} {q ph : Nat} (hk : SparesKnown failed s)
    (h : spareChoice s q = some ph) : ph ∉ failed := by
  obtain ⟨hmod, hfree⟩ := spareChoice_spec h
  exact fun hm => absurd (hk ph hm hmod) (by simp [hfree])

theorem bootStep_bistSpares (s : State) (failed : List Nat) :
    BootStep (fun r => r.coreSubject = none ∧ r.bankSubject = none) [objKey oBOOT_FAULT 0] s (bistSpares s failed) :=
  BootStep.foldl (fun t _ _ => bootStep_addRepair t ⟨rfl, rfl⟩ _) s

theorem sparesKnown_bistSpares (s : State) (failed : List Nat) : SparesKnown failed (bistSpares s failed) := by
  intro ph hm hmod
  by_cases h : s.nv.repair.any (takesSpare ph) = true
  · exact (bootStep_bistSpares s failed).any h
  · rw [bistSpares, foldl_addRepair]
    refine List.any_eq_true.mpr ⟨.badSpare ph, ?_, by simp [takesSpare]⟩
    simp only [withRepair, List.mem_append, List.mem_map, List.mem_filter]
    exact .inr ⟨ph, ⟨hm, by simp [hmod, h]⟩, rfl⟩

theorem coreSeat_addRepair_core {s : State} {c : Nat} (h : coreRetired s c = false) (ph : Nat) :
    coreSeat (addRepair s (.core c ph)) c = some ph := by
  rw [coreSeat_eq_some]
  exact ⟨by simpa [coreRetired] using h, by simp [physOf, physIn_append, physIn]⟩

@[simp] theorem coreSeat_addRepair_coreRetired (s : State) (c : Nat) : coreSeat (addRepair s (.coreRetired c)) c = none := by
  simp [coreSeat_eq_none, coreRetired]

theorem seatPassed_coreSeat {failed : List Nat} {s : State} {c : Nat} :
    SeatPassed failed (coreSeat s c) ↔ coreRetired s c = true ∨ physOf s c ∉ failed := by
  unfold SeatPassed coreSeat
  cases coreRetired s c <;> simp

/-- What the self test does with a core: nothing; a mapping onto a free spare; or it is retired without replacement. -/
theorem bistCore_cases (failed : List Nat) (s : State) (c : Nat) :
    (SeatPassed failed (coreSeat s c) ∧ bistCore failed s c = s) ∨
      (¬SeatPassed failed (coreSeat s c) ∧
        ((∃ q ph, spareChoice s q = some ph ∧ coreSeat (addRepair s (.core c ph)) c = some ph ∧
            bistCore failed s c = addRepair s (.core c ph)) ∨
          bistCore failed s c = bootFault (addRepair s (.coreRetired c)) 2)) := by
  by_cases hp : SeatPassed failed (coreSeat s c)
  · refine .inl ⟨hp, if_neg ?_⟩
    simpa [seatPassed_coreSeat, imp_iff_not_or] using hp
  · refine .inr ⟨hp, ?_⟩
    obtain ⟨hret, hfail⟩ : coreRetired s c = false ∧ physOf s c ∈ failed := by simpa [seatPassed_coreSeat] using hp
    have hgo : bistCore failed s c = if coreRetired (remapCore s c) c then bootFault (remapCore s c) 2 else remapCore s c :=
      if_pos (by simp [hret, hfail])
    rw [hgo, remapCore]
    cases hch : spareChoice s (homeQuad c) with
    | some ph =>
      have hseat := coreSeat_addRepair_core hret ph
      exact .inl ⟨_, ph, hch, hseat, if_neg (by simp [(coreSeat_eq_some.mp hseat).1])⟩
    | none => exact .inr (if_pos (coreSeat_eq_none.mp (coreSeat_addRepair_coreRetired s c)))

theorem bootStep_bistCore (failed : List Nat) (s : State) (c : Nat) :
    BootStep (fun r => r.coreSubject = some c ∧ r.bankSubject = none) [objKey oBOOT_FAULT 0] s (bistCore failed s c) := by
  rcases bistCore_cases failed s c with ⟨-, h⟩ | ⟨-, ⟨_, ph, -, -, h⟩ | h⟩
  · rw [h]; exact BootStep.refl _ _ s
  · rw [h]; exact bootStep_addRepair s ⟨rfl, rfl⟩ _
  · rw [h]; exact (bootStep_addRepair s ⟨rfl, rfl⟩ _).trans (bootStep_bootFault _ _ 2)

theorem coreSeat_bootFault (s : State) (i c : Nat) : coreSeat (bootFault s i) c = coreSeat s c := rfl

theorem retested_bistCore {failed : List Nat} {s : State} (hk : SparesKnown failed s) (units : List Nat) (c : Nat) :
    Retested coreSeat units failed 2 (fun r => r.bankSubject = none) s (bistCore failed s c) ∧
      SeatPassed failed (coreSeat (bistCore failed s c) c) := by
  have hstep := bootStep_bistCore failed s c
  have hothers : ∀ y, y ≠ c → coreSeat (bistCore failed s c) y = coreSeat s y := fun y hy =>
    hstep.coreSeat (fun r hr => by simpa [hr.1] using hy.symm)
  have hstep' := hstep.mono (Q := fun r => r.bankSubject = none) (fun _ hr => hr.2) (List.Subset.refl _)
  rcases bistCore_cases failed s c with ⟨hp, h⟩ | ⟨hp, hmoved⟩
  · rw [h] at hstep' ⊢
    exact ⟨Retested.of_seats hstep' (fun _ _ => rfl), hp⟩
  · refine Retested.of_moved hstep' hp (fun y hy _ => hothers y hy) ?_
    rcases hmoved with ⟨q, ph, hch, hs, h⟩ | h
    · exact .inl ⟨ph, by rw [h, hs], hk.spareChoice_notMem hch⟩
    · exact .inr (by rw [h, coreSeat_bootFault]; simp)

/-- The self test of every core: each one passes then, and none is moved that passed. -/
theorem retested_bistCores (s : State) (failed : List Nat) :
    Retested coreSeat (List.range 128) failed 2 (fun r => r.bankSubject = none) s
        (bistCores failed (List.range 128) (bistSpares s failed)) ∧
      ∀ c ∈ List.range 128, SeatPassed failed (coreSeat (bistCores failed (List.range 128) (bistSpares s failed)) c) := by
  have hspares := bootStep_bistSpares s failed
  obtain ⟨hcores, hpass⟩ := retested_foldl (fun _ _ h hk ph hm hmod => h.any (hk ph hm hmod))
    (fun _ hk c _ => retested_bistCore hk (List.range 128) c) (List.range 128) (bistSpares s failed)
    (List.Subset.refl _) (sparesKnown_bistSpares s failed)
  rw [bistCores_eq_foldl]
  refine ⟨Retested.trans (Retested.of_seats (hspares.mono (fun _ hr => hr.2) (List.Subset.refl _)) ?_) hcores, hpass⟩
  exact fun c _ => hspares.coreSeat (fun r hr => by simp [hr.1])

/-! ### Pool banks (R102) -/

theorem mem_poolBanks {d b : Nat} : (d, b) ∈ poolBanks ↔ d < 2 ∧ b < 48 := by
  simp only [poolBanks, List.mem_flatMap, List.mem_map, List.mem_range, Prod.mk.injEq, List.mem_pair]
  constructor
  · rintro ⟨d', hd, b', hb, rfl, rfl⟩; omega
  · rintro ⟨hd, hb⟩; exact ⟨d, by omega, b, hb, rfl, rfl⟩

/-- Every failed spare bank is used or recorded. -/
def BanksKnown (failed : List Nat) (s : State) : Prop :=
  ∀ ph ∈ failed, 48 ≤ ph % 50 → s.nv.repair.any (takesBank (ph / 50) (ph % 50)) = true

theorem bankSpares_spec {s : State} {d sp : Nat} (h : sp ∈ bankSpares s d) :
    (sp = 48 ∨ sp = 49) ∧ s.nv.repair.any (takesBank d sp) = false := by
  obtain ⟨hsp, hfree⟩ := List.mem_filter.mp h
  exact ⟨by simpa using hsp, by simpa using (Bool.and_eq_true_iff.mp hfree).1⟩

/-- A free spare bank is none of those that failed. -/
theorem BanksKnown.spare_notMem {failed : List Nat} {s : State} {d sp : Nat} (hk : BanksKnown failed s)
    (h : sp ∈ bankSpares s d) : 50 * d + sp ∉ failed := by
  obtain ⟨hsp, hfree⟩ := bankSpares_spec h
  have hdiv : (50 * d + sp) / 50 = d := by omega
  have hmod : (50 * d + sp) % 50 = sp := by omega
  intro hm
  have hused := hk _ hm (by omega)
  rw [hdiv, hmod, hfree] at hused
  exact Bool.false_ne_true hused

/-- The entry of a spare bank that failed speaks of no bank of the Pool. -/
theorem bootStep_bistSpareBanks (s : State) (failed : List Nat) :
    BootStep (fun r => r.coreSubject = none ∧ ∀ x ∈ poolBanks, r.bankSubject ≠ some x) [objKey oBOOT_FAULT 0] s
      (bistSpareBanks s failed) := by
  refine BootStep.foldl (fun t ph hph => bootStep_addRepair t ⟨rfl, ?_⟩ _) s
  have hspare : 48 ≤ ph % 50 := by
    have h := (List.mem_filter.mp hph).2
    rw [Bool.and_eq_true_iff, decide_eq_true_iff] at h
    exact h.1
  rintro ⟨d, b⟩ hx he
  simp only [Repair.bankSubject, Option.some.injEq, Prod.mk.injEq] at he
  rw [mem_poolBanks] at hx
  omega

theorem banksKnown_bistSpareBanks (s : State) (failed : List Nat) : BanksKnown failed (bistSpareBanks s failed) := by
  intro ph hm hmod
  by_cases h : s.nv.repair.any (takesBank (ph / 50) (ph % 50)) = true
  · exact (bootStep_bistSpareBanks s failed).any h
  · rw [bistSpareBanks, foldl_addRepair]
    refine List.any_eq_true.mpr ⟨.bankRemoved (ph / 50) (ph % 50), ?_, by simp [takesBank]⟩
    simp only [withRepair, List.mem_append, List.mem_map, List.mem_filter]
    exact .inr ⟨ph, ⟨hm, by simp [hmod, h]⟩, rfl⟩

theorem bankSeat_addRepair_bank {s : State} {x : Nat × Nat} (h : bankRemoved s x.1 x.2 = false) (sp : Nat) :
    bankSeat (addRepair s (.bank x.1 x.2 sp)) x = some (50 * x.1 + sp) := by
  rw [bankSeat_eq_some]
  exact ⟨by simpa [bankRemoved] using h, by simp [bankIn_append, bankIn]⟩

@[simp] theorem bankSeat_addRepair_bankRemoved (s : State) (x : Nat × Nat) :
    bankSeat (addRepair s (.bankRemoved x.1 x.2)) x = none := by
  simp [bankSeat_eq_none, bankRemoved]

theorem bankSeat_bootFault (s : State) (i : Nat) (x : Nat × Nat) : bankSeat (bootFault s i) x = bankSeat s x := rfl

theorem seatPassed_bankSeat {failed : List Nat} {s : State} {x : Nat × Nat} :
    SeatPassed failed (bankSeat s x) ↔
      bankRemoved s x.1 x.2 = true ∨ 50 * x.1 + bankIn s.nv.repair x.1 x.2 x.2 ∉ failed := by
  unfold SeatPassed bankSeat
  cases bankRemoved s x.1 x.2 <;> simp

/-- What the self test does with a Pool bank: nothing; a spare bank takes its place; or it leaves the Pool. -/
theorem bistBank_cases (failed : List Nat) (s : State) (x : Nat × Nat) :
    (SeatPassed failed (bankSeat s x) ∧ bistBank failed s x = s) ∨
      (¬SeatPassed failed (bankSeat s x) ∧
        ((∃ sp ∈ bankSpares s x.1, bankSeat (addRepair s (.bank x.1 x.2 sp)) x = some (50 * x.1 + sp) ∧
            bistBank failed s x = addRepair s (.bank x.1 x.2 sp)) ∨
          bistBank failed s x = bootFault (addRepair s (.bankRemoved x.1 x.2)) 3)) := by
  by_cases hp : SeatPassed failed (bankSeat s x)
  · refine .inl ⟨hp, if_neg ?_⟩
    simpa [seatPassed_bankSeat, imp_iff_not_or] using hp
  · refine .inr ⟨hp, ?_⟩
    obtain ⟨hrem, hfail⟩ : bankRemoved s x.1 x.2 = false ∧ 50 * x.1 + bankIn s.nv.repair x.1 x.2 x.2 ∈ failed := by
      simpa [seatPassed_bankSeat] using hp
    rw [bistBank, if_pos (by simp [hrem, hfail])]
    cases bankSpares s x.1 with
    | cons sp l => exact .inl ⟨sp, List.mem_cons_self, bankSeat_addRepair_bank hrem sp, rfl⟩
    | nil => exact .inr rfl

theorem bootStep_bistBank (failed : List Nat) (s : State) (x : Nat × Nat) :
    BootStep (fun r => r.bankSubject = some x ∧ r.coreSubject = none) [objKey oBOOT_FAULT 0] s (bistBank failed s x) := by
  rcases bistBank_cases failed s x with ⟨-, h⟩ | ⟨-, ⟨sp, -, -, h⟩ | h⟩
  · rw [h]; exact BootStep.refl _ _ s
  · rw [h]; exact bootStep_addRepair s ⟨rfl, rfl⟩ _
  · rw [h]; exact (bootStep_addRepair s ⟨rfl, rfl⟩ _).trans (bootStep_bootFault _ _ 3)

theorem retested_bistBank {failed : List Nat} {s : State} (hk : BanksKnown failed s) (units : List (Nat × Nat)) (x : Nat × Nat) :
    Retested bankSeat units failed 3 (fun r => r.coreSubject = none) s (bistBank failed s x) ∧
      SeatPassed failed (bankSeat (bistBank failed s x) x) := by
  have hstep := bootStep_bistBank failed s x
  have hstep' := hstep.mono (Q := fun r => r.coreSubject = none) (fun _ hr => hr.2) (List.Subset.refl _)
  rcases bistBank_cases failed s x with ⟨hp, h⟩ | ⟨hp, hmoved⟩
  · rw [h] at hstep' ⊢
    exact ⟨Retested.of_seats hstep' (fun _ _ => rfl), hp⟩
  · refine Retested.of_moved hstep' hp (fun y hy _ => hstep.bankSeat (fun r hr => by simpa [hr.1] using hy.symm)) ?_
    rcases hmoved with ⟨sp, hsp, hs, h⟩ | h
    · exact .inl ⟨50 * x.1 + sp, by rw [h, hs], hk.spare_notMem hsp⟩
    · exact .inr (by rw [h, bankSeat_bootFault]; simp)

/-- The self test of every Pool bank. -/
theorem retested_poolBanks (s : State) (failed : List Nat) :
    Retested bankSeat poolBanks failed 3 (fun r => r.coreSubject = none) s
        (poolBanks.foldl (bistBank failed) (bistSpareBanks s failed)) ∧
      ∀ x ∈ poolBanks, SeatPassed failed (bankSeat (poolBanks.foldl (bistBank failed) (bistSpareBanks s failed)) x) := by
  have hspares := bootStep_bistSpareBanks s failed
  obtain ⟨hbanks, hpass⟩ := retested_foldl (fun _ _ h hk ph hm hmod => h.any (hk ph hm hmod))
    (fun _ hk x _ => retested_bistBank hk poolBanks x) poolBanks (bistSpareBanks s failed)
    (List.Subset.refl _) (banksKnown_bistSpareBanks s failed)
  refine ⟨Retested.trans (Retested.of_seats (hspares.mono (fun _ hr => hr.1) (List.Subset.refl _)) ?_) hbanks, hpass⟩
  exact fun x hx => hspares.bankSeat (fun r hr => hr.2 x hx)

/-! ### BUILT_IN_SELF_TEST -/

/-- The state that BUILT_IN_SELF_TEST at stage 8 leaves. -/
def selfTested (cores banks : List Nat) (s : State) : State :=
  stage (poolBanks.foldl (bistBank banks) (bistSpareBanks (bistCores cores (List.range 128) (bistSpares s cores)) banks)) 9

theorem exec_builtInSelfTest {s : State} (h : atStage s 8 = true) (cores banks : List Nat) :
    exec (.builtInSelfTest cores banks) s = .next (selfTested cores banks s) :=
  congrArg Host.Outcome.next (if_pos h)

/-- The objects the self test stores. -/
def selfTestKeys : List Nat := [objKey oBOOT_STAGE 0, objKey oBOOT_FAULT 0]

/-- Cores are tested first; what follows leaves them where they are. -/
theorem retested_selfTested_cores (cores banks : List Nat) (s : State) :
    (∀ c, c < 128 → SeatPassed cores (coreSeat (selfTested cores banks s) c)) ∧
      (∀ c, c < 128 → SeatPassed cores (coreSeat s c) → coreSeat (selfTested cores banks s) c = coreSeat s c) ∧
      ∀ c, c < 128 → coreSeat s c ≠ none → coreSeat (selfTested cores banks s) c = none →
        (rd (selfTested cores banks s) oBOOT_FAULT 0).testBit 2 = true := by
  obtain ⟨hcores, hpass⟩ := retested_bistCores s cores
  have hrest : BootStep (fun r => r.coreSubject = none) selfTestKeys (bistCores cores (List.range 128) (bistSpares s cores))
      (selfTested cores banks s) :=
    ((retested_poolBanks _ banks).1.step.mono (fun _ h => h) (by simp [selfTestKeys])).trans
      ((bootStep_stage _ _ 9).mono (fun _ h => h) (by simp [selfTestKeys]))
  have hseat : ∀ c, coreSeat (selfTested cores banks s) c = _ := fun c => hrest.coreSeat (fun r hr => by simp [hr])
  simp only [hseat, ← List.mem_range]
  exact ⟨hpass, hcores.kept, fun c hc hne hn => hrest.faults 2 (hcores.alarm c hc hne hn)⟩

/-- Banks are tested after the cores, which leaves them where they were. -/
theorem retested_selfTested_banks (cores banks : List Nat) (s : State) :
    (∀ x ∈ poolBanks, SeatPassed banks (bankSeat (selfTested cores banks s) x)) ∧
      (∀ x ∈ poolBanks, SeatPassed banks (bankSeat s x) → bankSeat (selfTested cores banks s) x = bankSeat s x) ∧
      ∀ x ∈ poolBanks, bankSeat s x ≠ none → bankSeat (selfTested cores banks s) x = none →
        (rd (selfTested cores banks s) oBOOT_FAULT 0).testBit 3 = true := by
  have hcores := (retested_bistCores s cores).1.step
  obtain ⟨hbanks, hpass⟩ := retested_poolBanks (bistCores cores (List.range 128) (bistSpares s cores)) banks
  have hstage := bootStep_stage (fun _ => False)
    (poolBanks.foldl (bistBank banks) (bistSpareBanks (bistCores cores (List.range 128) (bistSpares s cores)) banks)) 9
  have hbefore : ∀ x, bankSeat s x = bankSeat (bistCores cores (List.range 128) (bistSpares s cores)) x := fun x =>
    (hcores.bankSeat (fun r hr => by simp [hr])).symm
  have hafter : ∀ x, bankSeat (selfTested cores banks s) x = _ := fun x => hstage.bankSeat (fun _ h => h.elim)
  simp only [hbefore, hafter]
  exact ⟨hpass, hbanks.kept, fun x hx hne hn => hstage.faults 3 (hbanks.alarm x hx hne hn)⟩

theorem bootStep_selfTested (cores banks : List Nat) (s : State) :
    BootStep (fun _ => True) selfTestKeys s (selfTested cores banks s) :=
  (((retested_bistCores s cores).1.step.mono (fun _ _ => trivial) (by simp [selfTestKeys])).trans
    ((retested_poolBanks _ banks).1.step.mono (fun _ _ => trivial) (by simp [selfTestKeys]))).trans
    ((bootStep_stage _ _ 9).mono (fun _ h => h) (by simp [selfTestKeys]))

/-! ### Pseudo-channels of a stack (R103, R158, R159) -/

/-- Whether an entry puts channel `c` of stack `k` out of use. -/
def losesChannel (k c : Nat) : Repair → Bool
  | .channel k' c' _ => k' == k && c' == c
  | .channelRetired k' c' => k' == k && c' == c
  | _ => false

/-- Whether an entry gives a channel's data to channel `c` of stack `k`. -/
def fillsChannel (k c : Nat) : Repair → Bool
  | .channel k' _ c' => k' == k && c' == c
  | _ => false

theorem deadChannels_eq (s : State) (k : Nat) :
    deadChannels s k = (List.range 34).filter (fun c => s.nv.repair.any (losesChannel k c)) := rfl

theorem idleChannels_eq (s : State) (k : Nat) : idleChannels s k =
    [32, 33].filter (fun c => !((deadChannels s k).contains c) && !(s.nv.repair.any (fillsChannel k c))) := rfl

theorem mem_deadChannels {s : State} {k c : Nat} :
    c ∈ deadChannels s k ↔ c < 34 ∧ s.nv.repair.any (losesChannel k c) = true := by
  rw [deadChannels_eq, List.mem_filter, List.mem_range]

theorem losesChannel_of_stackSubject_ne {r : Repair} {k : Nat} (h : r.stackSubject ≠ some k) (c : Nat) :
    losesChannel k c r = false := by
  cases r with
  | channel k' _ _ => simp [losesChannel, show k' ≠ k by simpa [Repair.stackSubject] using h]
  | channelRetired k' _ => simp [losesChannel, show k' ≠ k by simpa [Repair.stackSubject] using h]
  | _ => rfl

theorem fillsChannel_of_stackSubject_ne {r : Repair} {k : Nat} (h : r.stackSubject ≠ some k) (c : Nat) :
    fillsChannel k c r = false := by
  cases r with
  | channel k' _ _ => simp [fillsChannel, show k' ≠ k by simpa [Repair.stackSubject] using h]
  | _ => rfl

/-- Entries of other stacks leave the channels of a stack as they are. -/
theorem BootStep.channels {P : Repair → Prop} {ks : List Nat} {s t : State} (h : BootStep P ks s t) {k : Nat}
    (hP : ∀ r, P r → r.stackSubject ≠ some k) :
    deadChannels t k = deadChannels s k ∧ idleChannels t k = idleChannels s k := by
  have hdead : deadChannels t k = deadChannels s k := by
    simp only [deadChannels_eq, h.any_eq (fun r hr => losesChannel_of_stackSubject_ne (hP r hr) _)]
  refine ⟨hdead, ?_⟩
  simp only [idleChannels_eq, hdead, h.any_eq (fun r hr => fillsChannel_of_stackSubject_ne (hP r hr) _)]

/-- A channel out of use stays so. -/
theorem BootStep.mem_deadChannels {P : Repair → Prop} {ks : List Nat} {s t : State} (h : BootStep P ks s t) {k c : Nat}
    (hc : c ∈ deadChannels s k) : c ∈ deadChannels t k := by
  obtain ⟨hlt, hany⟩ := Machine.mem_deadChannels.mp hc
  exact Machine.mem_deadChannels.mpr ⟨hlt, h.any hany⟩

theorem retireChannel_cases (s : State) (k c : Nat) :
    (c ∈ deadChannels s k ∧ retireChannel s k c = s) ∨
      ∃ r, r.stackSubject = some k ∧ losesChannel k c r = true ∧ retireChannel s k c = addRepair s r := by
  by_cases hdead : c ∈ deadChannels s k
  · exact .inl ⟨hdead, if_pos (by simpa using hdead)⟩
  · refine .inr ?_
    rw [retireChannel, if_neg (by simpa using hdead)]
    split
    · exact ⟨.channelRetired k c, rfl, by simp [losesChannel], rfl⟩
    · split
      · next sp _ _ => exact ⟨.channel k c sp, rfl, by simp [losesChannel], rfl⟩
      · exact ⟨.channelRetired k c, rfl, by simp [losesChannel], rfl⟩

theorem bootStep_retireChannel (ks : List Nat) (s : State) (k c : Nat) :
    BootStep (fun r => r.stackSubject = some k) ks s (retireChannel s k c) := by
  rcases retireChannel_cases s k c with ⟨-, h⟩ | ⟨r, hr, -, h⟩
  · rw [h]; exact BootStep.refl _ _ s
  · rw [h]; exact bootStep_addRepair s hr ks

theorem mem_deadChannels_retireChannel (s : State) (k : Nat) {c : Nat} (hc : c < 34) :
    c ∈ deadChannels (retireChannel s k c) k := by
  rcases retireChannel_cases s k c with ⟨hdead, h⟩ | ⟨r, -, hr, h⟩
  · rw [h]; exact hdead
  · rw [h, mem_deadChannels]
    exact ⟨hc, by simp [hr]⟩

/-- Channels of one stack that failed, retired one after the other. -/
def retireChannels (l : List Nat) (s : State) (k : Nat) : State := l.foldl (fun t c => retireChannel t k c) s

theorem bootStep_retireChannels (ks : List Nat) (l : List Nat) (s : State) (k : Nat) :
    BootStep (fun r => r.stackSubject = some k) ks s (retireChannels l s k) :=
  BootStep.foldl (fun t c _ => bootStep_retireChannel ks t k c) s

theorem mem_deadChannels_retireChannels {l : List Nat} {c : Nat} (hm : c ∈ l) (hc : c < 34) (s : State) (k : Nat) :
    c ∈ deadChannels (retireChannels l s k) k := by
  induction l generalizing s with
  | nil => simp at hm
  | cons x l ih =>
    rcases List.mem_cons.mp hm with rfl | hm
    · exact (bootStep_retireChannels [] l (retireChannel s k c) k).mem_deadChannels (mem_deadChannels_retireChannel s k hc)
    · exact ih hm (retireChannel s k x)

/-! ### Training of one stack (R103) -/

/-- STACK_PC_ACTIVE and STACK_SPARE_FREE of a stack. -/
def stackKeys (k : Nat) : List Nat := [objKey oSTACK_PC_ACTIVE (k + 1), objKey oSTACK_SPARE_FREE (k + 1)]

/-- Both objects stored, as `storeChannels` does with the counts of the repair map. -/
def storeCounts (s : State) (k active spare : Nat) : State :=
  wr (wr s oSTACK_PC_ACTIVE (k + 1) active) oSTACK_SPARE_FREE (k + 1) spare

theorem rd_storeCounts_active (s : State) (k active spare : Nat) :
    rd (storeCounts s k active spare) oSTACK_PC_ACTIVE (k + 1) = active := by
  rw [storeCounts, rd_wr_ne _ _ (by simp [objKey]), rd_wr_self]

theorem rd_storeCounts_spare (s : State) (k active spare : Nat) :
    rd (storeCounts s k active spare) oSTACK_SPARE_FREE (k + 1) = spare := rd_wr_self _ _ _ _

theorem bootStep_storeCounts (P : Repair → Prop) (s : State) {k : Nat} (hk : k < 8) (active spare : Nat) :
    BootStep P (stackKeys k) s (storeCounts s k active spare) :=
  ((told_wr s _ _ _).trans (told_wr _ _ _ _)).bootStep (by simp [objKey]; omega) P

/-- The channels of stack `k` among those that fail. -/
def failedOf (failed : List (Nat × Nat)) (k : Nat) : List Nat := (failed.filter (fun x => x.1 == k)).map (fun x => x.2)

theorem mem_failedOf {failed : List (Nat × Nat)} {k c : Nat} : c ∈ failedOf failed k ↔ (k, c) ∈ failed := by
  simp [failedOf]

/-- No channel of the stack trains: each fails now or is out of use. -/
def nothingTrains (failed : List (Nat × Nat)) (s : State) (k : Nat) : Bool :=
  (List.range 34).all (fun c => failed.contains (k, c) || (deadChannels s k).contains c)

/-- The repair map with the failed channels of a stack retired, failed spares first. -/
def channelsRetired (failed : List (Nat × Nat)) (s : State) (k : Nat) : State :=
  retireChannels (failedOf failed k) (retireChannels ((failedOf failed k).filter (fun c => (idleChannels s k).contains c)) s k) k

theorem bootStep_channelsRetired (ks : List Nat) (failed : List (Nat × Nat)) (s : State) (k : Nat) :
    BootStep (fun r => r.stackSubject = some k) ks s (channelsRetired failed s k) :=
  (bootStep_retireChannels ks _ s k).trans (bootStep_retireChannels ks _ _ k)

theorem trainStack_of_not_fitted (failed : List (Nat × Nat)) {s : State} {k : Nat} (h : stackFitted s k = false) :
    trainStack failed s k = storeCounts s k 0 0 := if_pos (by simp [h])

theorem trainStack_of_fitted (failed : List (Nat × Nat)) {s : State} {k : Nat} (h : stackFitted s k = true) :
    trainStack failed s k =
      if nothingTrains failed s k then bootFault (storeCounts s k 0 0) 5
      else if rd (storeChannels (channelsRetired failed s k) k) oSTACK_PC_ACTIVE (k + 1) < 32 then
        bootFault (storeChannels (channelsRetired failed s k) k) 4
      else storeChannels (channelsRetired failed s k) k := by
  have hc : ∀ c, (failedOf failed k).contains c = failed.contains (k, c) := fun c => by
    rw [Bool.eq_iff_iff, List.contains_iff_mem, List.contains_iff_mem, mem_failedOf]
  have hall : nothingTrains failed s k =
      (List.range 34).all (fun c => (failedOf failed k).contains c || (deadChannels s k).contains c) := by
    simp only [nothingTrains, hc]
  rw [hall]
  exact if_neg (by simp [h])

theorem bootStep_trainStack (failed : List (Nat × Nat)) (s : State) {k : Nat} (hk : k < 8) :
    BootStep (fun r => r.stackSubject = some k) (objKey oBOOT_FAULT 0 :: stackKeys k) s (trainStack failed s k) := by
  have hcounts : ∀ u active spare, BootStep (fun r => r.stackSubject = some k) (objKey oBOOT_FAULT 0 :: stackKeys k) u
      (storeCounts u k active spare) := fun u active spare =>
    (bootStep_storeCounts _ u hk active spare).mono (fun _ h => h) (List.subset_cons_self _ _)
  have hfault : ∀ u i, BootStep (fun r => r.stackSubject = some k) (objKey oBOOT_FAULT 0 :: stackKeys k) u (bootFault u i) :=
    fun u i => (bootStep_bootFault _ u i).mono (fun _ h => h) (by simp)
  have hstored : BootStep (fun r => r.stackSubject = some k) (objKey oBOOT_FAULT 0 :: stackKeys k) s
      (storeChannels (channelsRetired failed s k) k) :=
    (bootStep_channelsRetired _ failed s k).trans (hcounts (channelsRetired failed s k) _ _)
  cases hfit : stackFitted s k with
  | false => rw [trainStack_of_not_fitted failed hfit]; exact hcounts s 0 0
  | true =>
    rw [trainStack_of_fitted failed hfit]
    split
    · exact (hcounts s 0 0).trans (hfault _ 5)
    · split
      · exact hstored.trans (hfault _ 4)
      · exact hstored

/-- What training has made of stack `k`, from the state `s` before it to a state `t` after it. -/
def StackTrained (failed : List (Nat × Nat)) (s t : State) (k : Nat) : Prop :=
  if stackFitted s k = false then rd t oSTACK_PC_ACTIVE (k + 1) = 0
  else if nothingTrains failed s k = true then
    rd t oSTACK_PC_ACTIVE (k + 1) = 0 ∧ (rd t oBOOT_FAULT 0).testBit 5 = true
  else (∀ c, c < 34 → (k, c) ∈ failed → c ∈ deadChannels t k) ∧
    rd t oSTACK_PC_ACTIVE (k + 1) = 34 - (deadChannels t k).length - (idleChannels t k).length ∧
    rd t oSTACK_SPARE_FREE (k + 1) = (idleChannels t k).length ∧
    (rd t oSTACK_PC_ACTIVE (k + 1) < 32 → (rd t oBOOT_FAULT 0).testBit 4 = true)

/-- What is trained stays so under steps that touch neither its entries nor its objects. -/
theorem StackTrained.of_step_after {failed : List (Nat × Nat)} {s t u : State} {k : Nat} {P : Repair → Prop} {ks : List Nat}
    (ht : StackTrained failed s t k) (h : BootStep P ks t u) (hP : ∀ r, P r → r.stackSubject ≠ some k)
    (hks : ∀ key ∈ stackKeys k, key ∉ objKey oNOTIFY_LOST 0 :: ks) : StackTrained failed s u k := by
  obtain ⟨hdead, hidle⟩ := h.channels hP
  have hactive := h.rd (hks (objKey oSTACK_PC_ACTIVE (k + 1)) (by simp [stackKeys]))
  have hspare := h.rd (hks (objKey oSTACK_SPARE_FREE (k + 1)) (by simp [stackKeys]))
  unfold StackTrained at ht ⊢
  rw [hdead, hidle, hactive, hspare]
  split_ifs at ht ⊢ with hfit hnone
  · exact ht
  · exact ⟨ht.1, h.faults 5 ht.2⟩
  · exact ⟨ht.1, ht.2.1, ht.2.2.1, fun hlt => h.faults 4 (ht.2.2.2 hlt)⟩

theorem BootStep.stackFitted {P : Repair → Prop} {ks : List Nat} {s t : State} (h : BootStep P ks s t)
    (hk : objKey oPKG_VARIANT 0 ∉ objKey oNOTIFY_LOST 0 :: ks) (k : Nat) : stackFitted t k = stackFitted s k := by
  rw [Machine.stackFitted, Machine.stackFitted, variantOf, variantOf, h.rd hk]

/-- Steps before the training of a stack that touch neither its entries nor the variant make no difference. -/
theorem StackTrained.of_step_before {failed : List (Nat × Nat)} {s t u : State} {k : Nat} {P : Repair → Prop} {ks : List Nat}
    (h : BootStep P ks s t) (hP : ∀ r, P r → r.stackSubject ≠ some k)
    (hk : objKey oPKG_VARIANT 0 ∉ objKey oNOTIFY_LOST 0 :: ks) (ht : StackTrained failed t u k) : StackTrained failed s u k := by
  unfold StackTrained nothingTrains at ht ⊢
  rw [h.stackFitted hk, (h.channels hP).1] at ht
  exact ht

theorem rd_bootFault_stack (s : State) (i : Nat) {k : Nat} (hk : k < 8) :
    rd (bootFault s i) oSTACK_PC_ACTIVE (k + 1) = rd s oSTACK_PC_ACTIVE (k + 1) ∧
      rd (bootFault s i) oSTACK_SPARE_FREE (k + 1) = rd s oSTACK_SPARE_FREE (k + 1) :=
  ⟨rd_wr_ne s _ (by simp [objKey]; omega), rd_wr_ne s _ (by simp [objKey]; omega)⟩

theorem stackTrained_trainStack (failed : List (Nat × Nat)) (s : State) {k : Nat} (hk : k < 8) :
    StackTrained failed s (trainStack failed s k) k := by
  set v := storeChannels (channelsRetired failed s k) k with hv
  have hdead : ∀ c, c < 34 → (k, c) ∈ failed → c ∈ deadChannels v k := fun c hc hm =>
    mem_deadChannels_retireChannels (mem_failedOf.mpr hm) hc _ k
  have hactive : rd v oSTACK_PC_ACTIVE (k + 1) = 34 - (deadChannels v k).length - (idleChannels v k).length :=
    rd_storeCounts_active _ k _ _
  have hspare : rd v oSTACK_SPARE_FREE (k + 1) = (idleChannels v k).length := rd_storeCounts_spare _ k _ _
  unfold StackTrained
  split_ifs with hfit hnone
  · rw [trainStack_of_not_fitted failed hfit, rd_storeCounts_active]
  · rw [trainStack_of_fitted failed (Bool.not_eq_false _ ▸ hfit), if_pos hnone, (rd_bootFault_stack _ 5 hk).1]
    exact ⟨rd_storeCounts_active s k 0 0, testBit_bootFault _ 5⟩
  · rw [trainStack_of_fitted failed (Bool.not_eq_false _ ▸ hfit), if_neg hnone, ← hv]
    split_ifs with hfew
    · obtain ⟨ha, hs⟩ := rd_bootFault_stack v 4 hk
      rw [ha, hs]
      exact ⟨hdead, hactive, hspare, fun _ => testBit_bootFault v 4⟩
    · exact ⟨hdead, hactive, hspare, fun hlt => absurd hlt hfew⟩

/-- The objects that training stores for the stacks of a list. -/
def trainKeys (l : List Nat) : List Nat := objKey oBOOT_FAULT 0 :: l.flatMap stackKeys

/-- Stacks trained one after the other: entries of none but these, and their objects only. -/
theorem bootStep_trainStacks (failed : List (Nat × Nat)) {l : List Nat} (hl : ∀ k ∈ l, k < 8) (s : State) :
    BootStep (fun r => ∃ k ∈ l, r.stackSubject = some k) (trainKeys l) s (l.foldl (trainStack failed) s) := by
  refine BootStep.foldl (fun t k hk => ?_) s
  refine (bootStep_trainStack failed t (hl k hk)).mono (fun r hr => ⟨k, hk, hr⟩) ?_
  exact List.cons_subset_cons _ (fun key hkey => List.mem_flatMap.mpr ⟨k, hk, hkey⟩)

theorem mem_stackKeys {k key : Nat} : key ∈ stackKeys k ↔ key = 256 * 0x5001 + (k + 1) ∨ key = 256 * 0x5002 + (k + 1) := by
  simp [stackKeys, objKey, oSTACK_PC_ACTIVE, oSTACK_SPARE_FREE]

theorem mem_trainKeys {l : List Nat} {key : Nat} :
    key ∈ objKey oNOTIFY_LOST 0 :: trainKeys l ↔ key = 256 * 0x1222 ∨ key = 256 * 0x7001 ∨ ∃ k ∈ l, key ∈ stackKeys k := by
  simp [trainKeys, objKey, oNOTIFY_LOST, oBOOT_FAULT]

theorem variant_notMem_trainKeys (l : List Nat) :
    objKey oPKG_VARIANT 0 ∉ objKey oNOTIFY_LOST 0 :: trainKeys l := by
  have hval : objKey oPKG_VARIANT 0 = 256 * 0x1100 := rfl
  rw [hval, mem_trainKeys]
  rintro (h | h | ⟨k, hk, h⟩)
  · omega
  · omega
  · rw [mem_stackKeys] at h; omega

theorem stackKeys_notMem_trainKeys {k : Nat} (hk : k < 8) {l : List Nat} (hl : ∀ j ∈ l, j < 8) (hkl : k ∉ l) :
    ∀ key ∈ stackKeys k, key ∉ objKey oNOTIFY_LOST 0 :: trainKeys l := by
  intro key hkey
  rw [mem_stackKeys] at hkey
  rw [mem_trainKeys]
  rintro (h | h | ⟨j, hj, h⟩)
  · omega
  · omega
  · have hj8 := hl j hj
    have hjk : j ≠ k := fun e => hkl (e ▸ hj)
    rw [mem_stackKeys] at h
    omega

theorem stackTrained_foldl (failed : List (Nat × Nat)) {l : List Nat} (hl : ∀ k ∈ l, k < 8) (hnd : l.Nodup) (s : State) :
    ∀ k ∈ l, StackTrained failed s (l.foldl (trainStack failed) s) k := by
  induction l generalizing s with
  | nil => simp
  | cons j l ih =>
    obtain ⟨hj, hl'⟩ := List.forall_mem_cons.mp hl
    obtain ⟨hjl, hnd'⟩ := List.nodup_cons.mp hnd
    refine List.forall_mem_cons.mpr ⟨?_, fun k hk => ?_⟩
    · refine (stackTrained_trainStack failed s hj).of_step_after (bootStep_trainStacks failed hl' _) ?_
        (stackKeys_notMem_trainKeys hj hl' hjl)
      rintro r ⟨k, hk, hr⟩ he
      rw [hr] at he
      exact hjl (Option.some_inj.mp he ▸ hk)
    · have hjk : j ≠ k := fun e => hjl (e ▸ hk)
      refine StackTrained.of_step_before (bootStep_trainStack failed s hj) (fun r hr => by simpa [hr] using hjk) ?_
        (ih hl' hnd' (trainStack failed s j) k hk)
      simpa [trainKeys] using variant_notMem_trainKeys [j]

/-! ### Fabric ports (Table BOOT-1, step 12) -/

theorem portCode_setPortCode_self (s : State) (n code : Nat) (hn : n < 16) : portCode (setPortCode s n code) n = code % 8 := by
  have hrd : ∀ v, rd (wrNote s 5 oPORT_STATE (n + 1) v) oPORT_STATE (n + 1) = v := fun v =>
    rd_wrNote s 5 oPORT_STATE (n + 1) v (by simp [objKey]; omega)
  rw [portCode, setPortCode, hrd]
  split <;> omega

theorem told_setPortCode (s : State) (n code : Nat) : Told [objKey oPORT_STATE (n + 1)] s (setPortCode s n code) :=
  told_wrNote _ _ _ _ _

theorem portCode_setPortCode_ne (s : State) {n m : Nat} (code : Nat) (h : m ≠ n) (hm : m < 16) :
    portCode (setPortCode s n code) m = portCode s m := by
  rw [portCode, portCode, (told_setPortCode s n code).rd (by simp [objKey]; omega)]

/-- The objects of the fabric ports. -/
def portKeys : List Nat := (List.range 16).map (fun n => objKey oPORT_STATE (n + 1))

theorem bootStep_startPorts (P : Repair → Prop) (s : State) : BootStep P portKeys s (startPorts s) := by
  refine BootStep.foldl (fun t n hn => ?_) s
  have hn : n < 16 := List.mem_range.mp (List.mem_of_mem_filter hn)
  refine ((told_setPortCode t n 1).bootStep (by simp [objKey]; omega) P).mono (fun _ h => h) ?_
  exact List.cons_subset.mpr ⟨List.mem_map.mpr ⟨n, List.mem_range.mpr hn, rfl⟩, List.nil_subset _⟩

theorem portCode_foldl_setPortCode {l : List Nat} (hl : ∀ n ∈ l, n < 16) (s : State) :
    ∀ n, n < 16 → (n ∈ l ∨ portCode s n = 1) → portCode (l.foldl (fun t n => setPortCode t n 1) s) n = 1 := by
  induction l generalizing s with
  | nil => simp
  | cons m l ih =>
    obtain ⟨hm, hl'⟩ := List.forall_mem_cons.mp hl
    intro n hn h
    refine ih hl' (setPortCode s m 1) n hn ?_
    by_cases e : n = m
    · exact .inr (by rw [e, portCode_setPortCode_self s m 1 hm])
    · rw [portCode_setPortCode_ne s 1 e hn]
      simpa [e] using h

theorem portCount_le (s : State) : portCount s ≤ 16 := by
  unfold portCount; split <;> omega

theorem portCode_startPorts (s : State) {n : Nat} (hn : n < portCount s) : portCode (startPorts s) n = 1 := by
  have h16 : n < 16 := lt_of_lt_of_le hn (portCount_le s)
  refine portCode_foldl_setPortCode (fun m hm => List.mem_range.mp (List.mem_of_mem_filter hm)) s n h16 (.inl ?_)
  simpa using ⟨h16, hn⟩

/-! ### DRAM_TRAINING -/

/-- The state that DRAM_TRAINING at stage 9 leaves. -/
def dramTrained (failed : List (Nat × Nat)) (s : State) : State :=
  startPorts (stage ((List.range 8).foldl (trainStack failed) s) 10)

theorem exec_dramTraining {s : State} (h : atStage s 9 = true) (failed : List (Nat × Nat)) :
    exec (.dramTraining failed) s = .next (dramTrained failed s) :=
  congrArg Host.Outcome.next (if_pos h)

/-- The objects that follow the training of the stacks. -/
def stageKeys : List Nat := objKey oBOOT_STAGE 0 :: portKeys

theorem bootStep_startPorts_stage (P : Repair → Prop) (s : State) (v : Nat) : BootStep P stageKeys s (startPorts (stage s v)) :=
  ((bootStep_stage P s v).mono (fun _ h => h) (by simp [stageKeys])).trans
    ((bootStep_startPorts P _).mono (fun _ h => h) (List.subset_cons_self _ _))

theorem bootStep_dramTrained (failed : List (Nat × Nat)) (s : State) :
    BootStep (fun _ => True) (trainKeys (List.range 8) ++ stageKeys) s (dramTrained failed s) :=
  ((bootStep_trainStacks failed (fun _ => List.mem_range.mp) s).mono (fun _ _ => trivial) (List.subset_append_left _ _)).trans
    ((bootStep_startPorts_stage _ _ 10).mono (fun _ h => h) (List.subset_append_right _ _))

theorem stackTrained_dramTrained (failed : List (Nat × Nat)) (s : State) {k : Nat} (hk : k < 8) :
    StackTrained failed s (dramTrained failed s) k := by
  have htrained := stackTrained_foldl failed (fun _ => List.mem_range.mp) List.nodup_range s k (List.mem_range.mpr hk)
  refine htrained.of_step_after (bootStep_startPorts_stage (fun _ => False) _ 10) (fun _ h => h.elim) ?_
  intro key hkey
  rw [mem_stackKeys] at hkey
  simp only [stageKeys, portKeys, objKey, List.mem_cons, List.mem_map, List.mem_range, not_or, not_exists, not_and,
    oNOTIFY_LOST, oBOOT_STAGE, oPORT_STATE]
  exact ⟨by omega, by omega, fun n hn => by omega⟩

theorem rd_bootStage_dramTrained (failed : List (Nat × Nat)) (s : State) : rd (dramTrained failed s) oBOOT_STAGE 0 = 10 := by
  have h := (bootStep_startPorts (fun _ => True) (stage ((List.range 8).foldl (trainStack failed) s) 10)).rd
    (o := oBOOT_STAGE) (sub := 0) (by decide)
  rw [dramTrained, h, rd_stage]

theorem portCount_congr {s t : State} (h : rd t oPKG_VARIANT 0 = rd s oPKG_VARIANT 0) : portCount t = portCount s := by
  rw [portCount, portCount, twoX, twoX, variantOf, variantOf, h]

theorem portCode_dramTrained (failed : List (Nat × Nat)) (s : State) {n : Nat} (hn : n < portCount s) :
    portCode (dramTrained failed s) n = 1 := by
  have htrain := (bootStep_trainStacks failed (fun _ => List.mem_range.mp) s).rd
    (variant_notMem_trainKeys (List.range 8))
  have hstage := (bootStep_stage (fun _ => True) ((List.range 8).foldl (trainStack failed) s) 10).rd
    (o := oPKG_VARIANT) (sub := 0) (by decide)
  exact portCode_startPorts _ (by rw [portCount_congr (hstage.trans htrain)]; exact hn)

/-! ### The obligation -/

/-- Settles O12: each pass over cores, Pool banks and stacks leaves alone what it does not speak of, and what passed is not
moved again. The entries of failed spares, made first, keep them from being chosen. -/
theorem selfTestAndTraining : Obligations.SelfTestAndTraining := by
  intro s
  refine ⟨fun cores banks hs => ?_, fun failed hs => ?_⟩
  · obtain ⟨hcPass, hcKept, hcAlarm⟩ := retested_selfTested_cores cores banks s
    obtain ⟨hbPass, hbKept, hbAlarm⟩ := retested_selfTested_banks cores banks s
    have hstep := bootStep_selfTested cores banks s
    refine ⟨selfTested cores banks s, exec_builtInSelfTest hs cores banks, rd_stage _ 9,
      fun c hc => seatPassed_coreSeat.mp (hcPass c hc), fun c hc hin hok => ?_, fun c hc hin hout => ?_,
      fun d b hd hb hin => ⟨fun hok => ?_, fun hbad => ?_⟩, hstep.repair_grows, hstep.told⟩
    · have hkept := hcKept c hc (seatPassed_coreSeat.mpr (.inr hok))
      exact coreSeat_eq_some.mp (hkept.trans (coreSeat_eq_some.mpr ⟨hin, rfl⟩))
    · exact hcAlarm c hc (by simp [coreSeat_eq_none, hin]) (coreSeat_eq_none.mpr hout)
    · have hkept := hbKept (d, b) (mem_poolBanks.mpr ⟨hd, hb⟩) (seatPassed_bankSeat.mpr (.inr hok))
      have hplace : bankSeat s (d, b) = some (50 * d + bankIn s.nv.repair d b b) := bankSeat_eq_some.mpr ⟨hin, rfl⟩
      obtain ⟨hrem, hstay⟩ := bankSeat_eq_some.mp (hkept.trans hplace)
      exact ⟨hrem, hstay⟩
    · cases hrem : bankRemoved (selfTested cores banks s) d b with
      | false =>
        have hpass := seatPassed_bankSeat.mp (hbPass (d, b) (mem_poolBanks.mpr ⟨hd, hb⟩))
        exact .inl ⟨rfl, hpass.resolve_left (by simp [hrem])⟩
      | true =>
        exact .inr ⟨rfl, hbAlarm (d, b) (mem_poolBanks.mpr ⟨hd, hb⟩) (by simp [bankSeat_eq_none, hin])
          (bankSeat_eq_none.mpr hrem)⟩
  · have hstep := bootStep_dramTrained failed s
    exact ⟨dramTrained failed s, exec_dramTraining hs failed, rd_bootStage_dramTrained failed s,
      fun k hk => stackTrained_dramTrained failed s hk, fun n hn => portCode_dramTrained failed s hn, hstep.repair_grows,
      hstep.told.mono (by decide)⟩

end Sys2Proof.Machine

/-! PROOF. O22: meters and measurements (R34, R75, R82 to R85). -/

namespace Sys2Proof.Machine

open Sys2Proof

/-! ### The list of operations with one replaced -/

theorem nodup_of_ascending {l : List Nat} (h : ascending l = true) : l.Nodup := by
  induction l with
  | nil => exact List.nodup_nil
  | cons x r ih =>
    obtain ⟨hx, hr⟩ := ascending_cons.mp h
    exact List.nodup_cons.mpr ⟨fun hm => Nat.lt_irrefl x (hx x hm), ih hr⟩

theorem nodup_ids_of_opsOk {w : Weir} (h : opsOk w = true) : (w.ops.map (fun o => o.id)).Nodup :=
  nodup_of_ascending (Bool.and_eq_true_iff.mp h).1

/-- Where numbers are used once, replacing an operation is a map over the list. -/
theorem replaceOp_eq_map {l : List Op} (h : (l.map (fun x => x.id)).Nodup) (o : Op) :
    replaceOp o l = l.map (fun x => if x.id = o.id then o else x) := by
  induction l with
  | nil => rfl
  | cons x r ih =>
    obtain ⟨hx, hr⟩ := List.nodup_cons.mp h
    rw [replaceOp, List.map_cons]
    split
    · next he =>
      refine congrArg (o :: ·) ((List.map_id r).symm.trans (List.map_congr_left fun y hy => ?_))
      have hne : y.id ≠ o.id := fun hy' => hx (List.mem_map.mpr ⟨y, hy, hy'.trans he.symm⟩)
      simp [hne]
    · rw [ih hr]

/-! ### Energy metered (R82, R83) -/

theorem objKey_ne {o o' sub sub' : Nat} (h : o ≠ o') (hs : sub < 256) (hs' : sub' < 256) : objKey o sub ≠ objKey o' sub' :=
  fun e => h ((objKey_inj hs hs').mp e).1

/-- The meters of the partitions. -/
def meterKeys : List Nat := (List.range 128).map (fun p => objKey oPART_ENERGY_UJ (p + 1))

theorem meterKey_mem {p : Nat} (hp : p < 128) : objKey oPART_ENERGY_UJ (p + 1) ∈ meterKeys :=
  List.mem_map.mpr ⟨p, List.mem_range.mpr hp, rfl⟩

theorem notMem_meterKeys {o sub : Nat} (ho : o ≠ oPART_ENERGY_UJ) (hs : sub < 256) : objKey o sub ∉ meterKeys := by
  intro hk
  obtain ⟨p, hp, he⟩ := List.mem_map.mp hk
  have := List.mem_range.mp hp
  exact objKey_ne ho hs (by omega) he.symm

/-- From `s` to `t` each existing partition's meter has gained `part p` and each operation's energy `op id`, and nothing else has
changed. -/
structure Metered (s t : State) (part op : Nat → Nat) : Prop where
  rest : t = { s with dict := t.dict, weir := { s.weir with ops := t.weir.ops } }
  objs : SameObjs meterKeys s t
  parts : ∀ p, p < 128 →
    rd t oPART_ENERGY_UJ (p + 1) = rd s oPART_ENERGY_UJ (p + 1) + if partExists s p then part p else 0
  ops : t.weir.ops = s.weir.ops.map (fun o => { o with energyUj := o.energyUj + op o.id })

section Metered

variable {s t u : State} {f g f' g' : Nat → Nat}

theorem Metered.refl (s : State) : Metered s s (fun _ => 0) (fun _ => 0) :=
  ⟨rfl, SameObjs.refl _ s, fun _ _ => by simp, by simp⟩

theorem Metered.congr (h : Metered s t f g) (hf : ∀ p, f p = f' p) (hg : ∀ i, g i = g' i) : Metered s t f' g' :=
  (funext hf : f = f') ▸ (funext hg : g = g') ▸ h

theorem Metered.partExists (h : Metered s t f g) {p : Nat} (hp : p < 128) : partExists t p = partExists s p := by
  rw [Machine.partExists, Machine.partExists, h.objs.rd (notMem_meterKeys (by decide) (by omega))]

theorem Metered.corePart (h : Metered s t f g) (c : Nat) : corePart t c = corePart s c := by
  refine List.find?_congr fun p hp => ?_
  have hp := List.mem_range.mp hp
  rw [h.partExists hp, h.objs.rd (notMem_meterKeys (by decide) (by omega))]

theorem Metered.ids (h : Metered s t f g) : t.weir.ops.map (fun o => o.id) = s.weir.ops.map (fun o => o.id) := by
  rw [h.ops, List.map_map]
  rfl

theorem Metered.trans (h : Metered s t f g) (h' : Metered t u f' g') :
    Metered s u (fun p => f p + f' p) (fun i => g i + g' i) := by
  refine ⟨?_, (h.objs.trans h'.objs).mono (by simp), fun p hp => ?_, ?_⟩
  · have h1 := h'.rest
    rw [h.rest] at h1
    exact h1
  · rw [h'.parts p hp, h.parts p hp, h.partExists hp]
    split <;> omega
  · rw [h'.ops, h.ops, List.map_map]
    simp [Function.comp_def, Nat.add_assoc]

theorem metered_addPartUj (s : State) (p uj : Nat) : Metered s (addPartUj s p uj) (fun q => if q = p then uj else 0) (fun _ => 0) := by
  unfold addPartUj
  split
  · next h =>
    refine ⟨rfl, (sameObjs_wr s _ _ _).mono (by simpa using meterKey_mem h.1), fun q hq => ?_, by simp⟩
    by_cases e : q = p
    · subst e; simp [h.2]
    · rw [rd_wr_ne _ _ (by simp [objKey]; omega)]; simp [e]
  · next h =>
    refine ⟨rfl, SameObjs.refl _ s, fun q hq => ?_, by simp⟩
    by_cases e : q = p
    · subst e; simp [show Machine.partExists s q = false by simpa [hq] using h]
    · simp [e]

theorem metered_addOpUj (hs : (s.weir.ops.map (fun o => o.id)).Nodup) (id uj : Nat) :
    Metered s (addOpUj s id uj) (fun _ => 0) (fun i => if i = id then uj else 0) := by
  unfold addOpUj
  split
  · next o ho =>
    have hid : o.id = id := by simpa using List.find?_some ho
    refine ⟨rfl, SameObjs.refl _ s, fun p _ => (by simp; rfl), ?_⟩
    rw [setOp, replaceOp_eq_map hs]
    refine List.map_congr_left fun x hx => ?_
    by_cases e : x.id = o.id
    · have hxo : x = o := List.inj_on_of_nodup_map hs hx (List.mem_of_find?_eq_some ho) e
      subst hxo; simp [hid]
    · simp [e, hid ▸ e]
  · next ho =>
    refine ⟨rfl, SameObjs.refl _ s, fun p _ => by simp, ?_⟩
    refine (List.map_id _).symm.trans (List.map_congr_left fun x hx => ?_)
    have hx : x.id ≠ id := by simpa using List.find?_eq_none.mp ho x hx
    simp [hx]

/-- Gains over a list add up, each item's taken on the state before the list. -/
theorem Metered.foldl {α : Type} {step : State → α → State} {l : List α} {fs gs : α → Nat → Nat} (h : Metered s t f g)
    (hstep : ∀ u f g, Metered s u f g → ∀ x ∈ l, Metered u (step u x) (fs x) (gs x)) :
    Metered s (l.foldl step t) (fun p => f p + (l.map (fun x => fs x p)).sum) (fun i => g i + (l.map (fun x => gs x i)).sum) := by
  induction l generalizing t f g with
  | nil => simpa using h
  | cons x l ih =>
    have hx := h.trans (hstep t f g h x List.mem_cons_self)
    refine (ih hx fun u f g hu y hy => hstep u f g hu y (List.mem_cons_of_mem x hy)).congr (fun p => ?_) (fun i => ?_)
    · simp [Nat.add_assoc]
    · simp [Nat.add_assoc]

end Metered

theorem sum_filter_map {α : Type} (l : List α) (p : α → Bool) (f : α → Nat) :
    ((l.filter p).map f).sum = (l.map (fun x => if p x then f x else 0)).sum := by
  rw [List.sum_map_ite]
  simp

/-! ### A core's share (R83) -/

/-- What a core's share adds to a partition, and to an operation. -/
def corePartGain (s : State) (x : Nat × Nat × CoreUse) (p : Nat) : Nat :=
  if corePart s x.2.2.core == some p then shareUj x.1 (coreShakes x.2.2) x.2.1 else 0
def coreOpGain (s : State) (x : Nat × Nat × CoreUse) (id : Nat) : Nat :=
  if (corePart s x.2.2.core).isSome then ((x.2.2.ran.filter (fun r => r.1 == id)).map (fun r => shareUj x.1 r.2 x.2.1)).sum else 0

theorem metered_coreEnergy {s : State} (hs : (s.weir.ops.map (fun o => o.id)).Nodup) (x : Nat × Nat × CoreUse) :
    Metered s (coreEnergy x.1 x.2.1 s x.2.2) (corePartGain s x) (coreOpGain s x) := by
  unfold coreEnergy
  split
  · next p hp =>
    have hpart := metered_addPartUj s p (shareUj x.1 (coreShakes x.2.2) x.2.1)
    refine (hpart.foldl (fun u f g hu r _ => metered_addOpUj (hu.ids ▸ hs) r.1 (shareUj x.1 r.2 x.2.1))).congr
      (fun q => ?_) (fun i => ?_)
    · simp [corePartGain, hp, @eq_comm Nat p]
    · simp [coreOpGain, hp, sum_filter_map, @eq_comm Nat i]
  · next hp =>
    exact (Metered.refl s).congr (fun p => by simp [corePartGain, hp]) (fun i => by simp [coreOpGain, hp])

theorem corePartGain_congr {s t : State} {f g : Nat → Nat} (h : Metered s t f g) :
    corePartGain t = corePartGain s ∧ coreOpGain t = coreOpGain s := by
  constructor <;> funext x p <;> simp [corePartGain, coreOpGain, h.corePart]

/-! ### A user's share of a shared part (R83) -/

/-- One user's share added. -/
def payUser (s : State) (x : Nat × Option Nat × Nat) : State :=
  match x.2.1 with
  | some id => addOpUj (addPartUj s x.1 x.2.2) id x.2.2
  | none => addPartUj s x.1 x.2.2

theorem metered_payUser {s : State} (hs : (s.weir.ops.map (fun o => o.id)).Nodup) (x : Nat × Option Nat × Nat) :
    Metered s (payUser s x) (fun p => if x.1 == p then x.2.2 else 0) (fun i => if x.2.1 == some i then x.2.2 else 0) := by
  have hpart := metered_addPartUj s x.1 x.2.2
  unfold payUser
  split
  · next id hid =>
    refine (hpart.trans (metered_addOpUj (hpart.ids ▸ hs) id x.2.2)).congr (fun p => ?_) (fun i => ?_)
    · simp [@eq_comm Nat p]
    · simp [hid, @eq_comm Nat i]
  · next hid => exact hpart.congr (fun p => by simp [@eq_comm Nat p]) (fun i => by simp [hid])

/-! ### The cores and users of an interval, one after the other -/

/-- The cores of the rails, each with its rail's energy and handshakes. -/
def quadUsers (quads : List QuadUse) : List (Nat × Nat × CoreUse) :=
  quads.flatMap (fun q => q.cores.map (fun c => (q.uj, quadShakes q.cores, c)))

/-- The users of the shared parts, each with its share. -/
def sharedUsers (shared : List SharedUse) : List (Nat × Option Nat × Nat) :=
  shared.flatMap (fun u => u.users.map (fun x => (x.1, x.2.1, shareUj u.uj x.2.2 (u.users.map (fun y => y.2.2)).sum)))

theorem foldl_quadEnergy (quads : List QuadUse) (s : State) :
    quads.foldl quadEnergy s = (quadUsers quads).foldl (fun t x => coreEnergy x.1 x.2.1 t x.2.2) s := by
  simp only [quadUsers, List.foldl_flatMap, List.foldl_map]
  rfl

theorem foldl_sharedEnergy (shared : List SharedUse) (s : State) :
    shared.foldl sharedEnergy s = (sharedUsers shared).foldl payUser s := by
  have hsum : ∀ l : List (Nat × Option Nat × Nat), l.foldl (fun a x => a + x.2.2) 0 = (l.map (fun y => y.2.2)).sum := fun l => by
    rw [List.sum_eq_foldl, List.foldl_map]
  simp only [sharedUsers, List.foldl_flatMap, List.foldl_map, ← hsum]
  rfl

/-- The state after the shares of an interval, before the unattributed rest is stored. -/
def energyShared (quads : List QuadUse) (shared : List SharedUse) (s : State) : State :=
  shared.foldl sharedEnergy (quads.foldl quadEnergy s)

theorem metered_energyShared {s : State} (hs : (s.weir.ops.map (fun o => o.id)).Nodup) (quads : List QuadUse)
    (shared : List SharedUse) :
    Metered s (energyShared quads shared s)
      (fun p => ((quadUsers quads).map (fun x => corePartGain s x p)).sum +
        ((sharedUsers shared).map (fun x => if x.1 == p then x.2.2 else 0)).sum)
      (fun i => ((quadUsers quads).map (fun x => coreOpGain s x i)).sum +
        ((sharedUsers shared).map (fun x => if x.2.1 == some i then x.2.2 else 0)).sum) := by
  rw [energyShared, foldl_quadEnergy, foldl_sharedEnergy]
  have hcores := (Metered.refl s).foldl (l := quadUsers quads) (step := fun t x => coreEnergy x.1 x.2.1 t x.2.2)
    (fs := corePartGain s) (gs := coreOpGain s) (fun u f g hu x _ => by
      obtain ⟨hp, ho⟩ := corePartGain_congr hu
      exact hp ▸ ho ▸ metered_coreEnergy (hu.ids ▸ hs) x)
  exact (hcores.foldl (fun u f g hu x _ => metered_payUser (hu.ids ▸ hs) x)).congr (fun p => by simp) (fun i => by simp)

/-- The sum of the partition meters depends on them alone. -/
theorem partEnergy_congr {s t : State} (h : ∀ p, p < 128 → rd t oPART_ENERGY_UJ (p + 1) = rd s oPART_ENERGY_UJ (p + 1)) :
    partEnergy t = partEnergy s :=
  List.foldl_ext _ _ _ fun a p hp => by rw [h p (List.mem_range.mp hp)]

/-- PKG_ENERGY_UJ and UNATTR_ENERGY_UJ are not among the partition meters. -/
theorem rd_partEnergy_wr_total (s : State) {o : Nat} (ho : o = oPKG_ENERGY_UJ ∨ o = oUNATTR_ENERGY_UJ) (v : Nat) {p : Nat}
    (hp : p < 128) : rd (wr s o 0 v) oPART_ENERGY_UJ (p + 1) = rd s oPART_ENERGY_UJ (p + 1) :=
  rd_wr_ne s v (objKey_ne (by rcases ho with rfl | rfl <;> decide) (by omega) (by decide))

/-! ### Replica rates (R34) -/

/-- Consecutive subindices of one object stored. -/
theorem rd_foldl_wr_zipIdx (o : Nat) (l : List Nat) (k : Nat) (s : State) :
    let t := (l.zipIdx k).foldl (fun t x => wr t o (x.2 + 1) x.1) s
    SameObjs ((List.range' k l.length).map (fun i => objKey o (i + 1))) s t ∧ t = { s with dict := t.dict } ∧
      ∀ i, i < l.length → rd t o (k + i + 1) = l.getD i 0 := by
  induction l generalizing k s with
  | nil => exact ⟨SameObjs.refl _ s, rfl, by simp⟩
  | cons v l ih =>
    obtain ⟨hobjs, hrest, hrd⟩ := ih (k + 1) (wr s o (k + 1) v)
    refine ⟨((sameObjs_wr s o (k + 1) v).trans hobjs).mono (by simp [List.range'_succ]), hrest, fun i hi => ?_⟩
    cases i with
    | zero =>
      refine (hobjs.rd ?_).trans (rd_wr_self _ _ _ _)
      simp [objKey, List.mem_range']
      omega
    | succ i =>
      have h := hrd i (by simpa using hi)
      rw [show k + 1 + i + 1 = k + (i + 1) + 1 by omega] at h
      simpa using h

theorem foldl_min_headD {l : List Nat} (h : l ≠ []) : l.min? = some (l.foldl min (l.headD 0)) := by
  cases l with
  | nil => exact absurd rfl h
  | cons x r => rw [List.min?_cons', List.headD_cons, List.foldl_cons, Nat.min_self]

/-! ### The obligation -/

theorem powerMeasured (s : State) (mv mw : Nat) (h : s.power.good = true) :
    exec (.powerMeasurementUpdate mv mw) s = .next (wr (wr s oV48_MV 0 mv) oPKG_POWER_MW 0 mw) :=
  congrArg Host.Outcome.next (if_pos h)

/-- The state that ENERGY_METER_UPDATE leaves. -/
def energyMetered (pkgUj : Nat) (quads : List QuadUse) (shared : List SharedUse) (s : State) : State :=
  let t := energyShared quads shared (wr s oPKG_ENERGY_UJ 0 (rd s oPKG_ENERGY_UJ 0 + pkgUj))
  wr t oUNATTR_ENERGY_UJ 0 (rd t oPKG_ENERGY_UJ 0 - partEnergy t)

theorem exec_energyMeterUpdate {s : State} (h : s.power.good = true) (pkgUj : Nat) (quads : List QuadUse)
    (shared : List SharedUse) :
    exec (.energyMeterUpdate pkgUj quads shared) s = .next (energyMetered pkgUj quads shared s) :=
  congrArg Host.Outcome.next (if_pos h)

/-- The state that REPLICA_MEASUREMENT leaves. -/
def replicasMeasured (rates : List Nat) (s : State) : State :=
  wr (rates.zipIdx.foldl (fun t x => wr t oREPLICA_RATE (x.2 + 1) x.1) s) oREPLICA_MIN 0 (rates.foldl min (rates.headD 0))

theorem exec_replicaMeasurement {s : State} {rates : List Nat} (h : s.power.compute = true) (hl : rates.length = 8) :
    exec (.replicaMeasurement rates) s = .next (replicasMeasured rates s) :=
  congrArg Host.Outcome.next (if_pos ⟨h, hl⟩)

/-- Settles O22: shares are paid core by core and user by user, and the gains of each payment add up. -/
theorem metersAndMeasurements : Obligations.MetersAndMeasurements := by
  intro s
  refine ⟨fun mv mw hs => ?_, fun pkgUj quads shared hs hops => ?_, fun rates hs hl => ?_⟩
  · refine ⟨_, powerMeasured s mv mw hs, ?_, rd_wr_self _ _ _ _, (sameObjs_wr s _ _ _).trans (sameObjs_wr _ _ _ _), rfl⟩
    rw [rd_wr_ne _ _ (by decide), rd_wr_self]
  · intro cores users partGain opGain
    set s1 := wr s oPKG_ENERGY_UJ 0 (rd s oPKG_ENERGY_UJ 0 + pkgUj) with hs1
    set s2 := energyShared quads shared s1 with hs2
    have hexists : ∀ p, p < 128 → partExists s1 p = partExists s p := fun p hp => by
      rw [partExists, partExists, hs1, rd_wr_ne _ _ (objKey_ne (by decide) (by omega) (by decide))]
    have hcore : ∀ c, corePart s1 c = corePart s c := fun c => List.find?_congr fun p hp => by
      rw [hexists p (List.mem_range.mp hp), hs1, rd_wr_ne _ _ (objKey_ne (by decide) (by have := List.mem_range.mp hp; omega) (by decide))]
    have hm : Metered s1 s2 partGain opGain := (metered_energyShared (s := s1) (nodup_ids_of_opsOk hops) quads shared).congr
      (fun p => by simp only [partGain, sum_filter_map, corePartGain, hcore]; rfl)
      (fun i => by
        simp only [opGain, sum_filter_map, coreOpGain, hcore, List.flatMap, List.sum_flatten, List.map_map,
          Function.comp_def]; rfl)
    have hparts : ∀ p, p < 128 → rd (energyMetered pkgUj quads shared s) oPART_ENERGY_UJ (p + 1) =
        rd s oPART_ENERGY_UJ (p + 1) + if partExists s p then partGain p else 0 := fun p hp => by
      rw [energyMetered, rd_partEnergy_wr_total _ (.inr rfl) _ hp, hm.parts p hp, hs1,
        rd_partEnergy_wr_total _ (.inl rfl) _ hp, ← hs1, hexists p hp]
    have htotal : rd s2 oPKG_ENERGY_UJ 0 = rd s oPKG_ENERGY_UJ 0 + pkgUj := by
      rw [hm.objs.rd (notMem_meterKeys (by decide) (by decide)), hs1, rd_wr_self]
    have htotal' : rd (energyMetered pkgUj quads shared s) oPKG_ENERGY_UJ 0 = rd s2 oPKG_ENERGY_UJ 0 :=
      rd_wr_ne _ _ (by decide)
    refine ⟨_, exec_energyMeterUpdate hs pkgUj quads shared, htotal'.trans htotal, fun p hp he => ?_, fun p hp he => ?_, ?_,
      hm.ops, ?_, ?_⟩
    · rw [hparts p hp, if_pos he]
    · rw [hparts p hp, if_neg (by simp [he]), Nat.add_zero]
    · have hsum : partEnergy (energyMetered pkgUj quads shared s) = partEnergy s2 :=
        partEnergy_congr fun p hp => rd_partEnergy_wr_total s2 (.inr rfl) _ hp
      rw [htotal', hsum]
      exact rd_wr_self _ _ _ _
    · refine (((sameObjs_wr s _ _ _).trans hm.objs).trans (sameObjs_wr s2 _ _ _)).mono ?_
      intro k hk
      simp only [meterKeys, List.mem_append, List.mem_cons] at hk ⊢
      tauto
    · have hrest := hm.rest
      exact congrArg (fun u => wr u oUNATTR_ENERGY_UJ 0 (rd s2 oPKG_ENERGY_UJ 0 - partEnergy s2)) hrest
  · have hne : rates ≠ [] := fun h => by simp [h] at hl
    obtain ⟨hmem, hle⟩ := List.min?_eq_some_iff.mp (foldl_min_headD hne)
    obtain ⟨hobjs, hrest, hrd⟩ := rd_foldl_wr_zipIdx oREPLICA_RATE rates 0 s
    have hmin : rd (replicasMeasured rates s) oREPLICA_MIN 0 = rates.foldl min (rates.headD 0) := rd_wr_self _ _ _ _
    refine ⟨_, exec_replicaMeasurement hs hl, fun i hi => ?_, fun r hr => hmin ▸ hle r hr, hmin ▸ hmem, ?_, ?_⟩
    · rw [replicasMeasured, rd_wr_ne _ _ (objKey_ne (by decide) (by omega) (by decide))]
      simpa using hrd i (hl ▸ hi)
    · refine (hobjs.trans (sameObjs_wr _ _ _ _)).mono ?_
      intro k hk
      simp only [hl, ← List.range_eq_range', List.mem_append, List.mem_cons] at hk ⊢
      tauto
    · exact congrArg (fun u => wr u oREPLICA_MIN 0 (rates.foldl min (rates.headD 0))) hrest

end Sys2Proof.Machine

/-! PROOF. O45: flits received and sent on a port (spec/16 R356 to R358, R361, R362, R369, Table FAB-1). -/

namespace Sys2Proof.Machine

open Sys2Proof

/-! ### Striping (R356) -/

theorem txLanes_length (x : Port) : (txLanes x).length = 4 := rfl

theorem stripe_lanes (x : Port) (b : List Byte) : (stripe x b).map (fun l => l.1) = txLanes x := rfl

/-- What a flit is striped to depends on the lanes alone. -/
theorem stripe_congr {x y : Port} (h : y.swapped = x.swapped) (b : List Byte) : stripe y b = stripe x b := by
  rw [stripe, stripe, txLanes, txLanes, h]

/-- The bytes of a flit that go to the lane at place `j`. -/
def laneBytes (b : List Byte) (j : Nat) : List Byte := (List.range (b.length / 4)).map (fun i => b.getD (4 * i + j) 0)

theorem stripe_bytes (x : Port) (b : List Byte) : (stripe x b).map (fun l => l.2) = (List.range 4).map (laneBytes b) := rfl

theorem stripe_total (x : Port) (b : List Byte) : (stripe x b).foldl (fun a l => a + l.2.length) 0 = 4 * (b.length / 4) := by
  have h : (stripe x b).foldl (fun a l => a + l.2.length) 0 = ((stripe x b).map (fun l => l.2)).foldl (fun a l => a + l.length) 0 :=
    List.foldl_map.symm
  rw [h, stripe_bytes]
  simp [laneBytes, List.range_succ]
  omega

theorem unstripe_stripe (x : Port) {b : List Byte} (h : b.length % 4 = 0) : unstripe (stripe x b) = b := by
  have hlen : 4 * (b.length / 4) = b.length := by omega
  rw [unstripe, stripe_total, stripe_bytes, hlen]
  refine List.ext_getElem (by simp) fun i hi hb => ?_
  have hmod : i % 4 < 4 := Nat.mod_lt _ (by decide)
  have hdiv : i / 4 < b.length / 4 := by omega
  simp [laneBytes, hmod, hdiv, Nat.div_add_mod, hb]

/-! ### Nothing waits to be sent -/

/-- No operation has messages still to send: nothing goes on. -/
theorem flagsOn_of_quiet {s : State} (h : ∀ o ∈ s.weir.ops, o.putting = false) : flagsOn s = s := by
  have hids : opIds s (fun o => o.putting) = [] := by
    rw [opIds, List.filter_eq_nil_iff.mpr fun o ho => by simp [h o ho], List.map_nil]
  rw [flagsOn, hids]
  rfl

/-- No message, flit or PUT waits to be sent. -/
structure Calm (s : State) : Prop where
  stuck : s.fabric.stuck = []
  fifo : ∀ k, (portOf s k).fifo = []
  quiet : ∀ o ∈ s.weir.ops, o.putting = false

/-- From `s` to `t` nothing changes but port `n`, numeric objects and what is emitted. -/
structure OnPort (n : Nat) (s t : State) : Prop where
  ports : ∀ m, m ≠ n → portOf t m = portOf s m
  rest : t = { s with dict := t.dict, fabric := { s.fabric with ports := t.fabric.ports }, out := t.out }

theorem OnPort.refl (n : Nat) (s : State) : OnPort n s s := ⟨fun _ _ => rfl, rfl⟩

theorem OnPort.trans {n : Nat} {s t u : State} (h : OnPort n s t) (h' : OnPort n t u) : OnPort n s u := by
  refine ⟨fun m hm => (h'.ports m hm).trans (h.ports m hm), ?_⟩
  have hr := h'.rest
  rw [h.rest] at hr
  exact hr

theorem onPort_setPort (s : State) (n : Nat) (x : Port) : OnPort n s (setPort s n x) := ⟨fun _ hm => portOf_setPort_ne s x hm, rfl⟩

theorem onPort_emit (n : Nat) (s : State) (e : Emit) : OnPort n s (emit s e) := ⟨fun _ _ => rfl, rfl⟩

theorem OnPort.calm {n : Nat} {s t : State} (h : OnPort n s t) (hs : Calm s) (hn : (portOf t n).fifo = []) : Calm t := by
  refine ⟨?_, fun k => ?_, ?_⟩
  · rw [h.rest]; exact hs.stuck
  · by_cases e : k = n
    · rw [e, hn]
    · rw [h.ports k e, hs.fifo k]
  · rw [h.rest]; exact hs.quiet

/-- An empty FIFO gives the link nothing. -/
theorem pump_of_empty {s : State} {n : Nat} (h : (portOf s n).fifo = []) :
    (∀ k, portOf (pump s n) k = portOf s k) ∧ ∃ ps, pump s n = { s with fabric := { s.fabric with ports := ps } } := by
  have hp : pump s n = setPort s n (portOf s n) := by
    rw [pump, h, pumpFlits, ← h]
  rw [hp]
  refine ⟨fun k => ?_, _, rfl⟩
  by_cases e : k = n
  · rw [e, portOf_setPort_self]
  · exact portOf_setPort_ne s _ e

theorem pumps_of_empty (l : List Nat) {s : State} (h : ∀ k, (portOf s k).fifo = []) :
    (∀ k, portOf (l.foldl pump s) k = portOf s k) ∧ ∃ ps, l.foldl pump s = { s with fabric := { s.fabric with ports := ps } } := by
  induction l generalizing s with
  | nil => exact ⟨fun _ => rfl, _, rfl⟩
  | cons n l ih =>
    obtain ⟨hk, ps, hps⟩ := pump_of_empty (h n)
    obtain ⟨hk', ps', hps'⟩ := ih fun k => by rw [hk k, h k]
    exact ⟨fun k => (hk' k).trans (hk k), ps', by rw [List.foldl_cons, hps', hps]⟩

/-- Where nothing waits, nothing goes on. -/
theorem moveOn_of_calm {s : State} (h : Calm s) :
    (∀ k, portOf (moveOn s) k = portOf s k) ∧ ∃ ps, moveOn s = { s with fabric := { s.fabric with ports := ps } } := by
  obtain ⟨hk, ps, hps⟩ := pumps_of_empty (List.range 16) h.fifo
  have hun : unstick s = (List.range 16).foldl pump s := by
    rw [unstick, hps, h.stuck, List.foldl_nil, ← h.stuck]
  have hquiet : ∀ o ∈ (unstick s).weir.ops, o.putting = false := by
    rw [hun, hps]; exact h.quiet
  rw [moveOn, flagsOn_of_quiet hquiet, hun]
  exact ⟨hk, ps, hps⟩

theorem onPort_moveOn {s : State} (h : Calm s) (n : Nat) : OnPort n s (moveOn s) := by
  obtain ⟨hk, ps, hps⟩ := moveOn_of_calm h
  exact ⟨fun m _ => hk m, by rw [hps]⟩

theorem moveOn_out_dict {s : State} (h : Calm s) : (moveOn s).out = s.out ∧ (moveOn s).dict = s.dict := by
  obtain ⟨-, ps, hps⟩ := moveOn_of_calm h
  rw [hps]
  exact ⟨rfl, rfl⟩

/-! ### Acknowledgement, NAK and credits of a flit (R358) -/

theorem foldl_emitFlit (n : Nat) (r : List (Nat × List Byte)) (s : State) :
    r.foldl (fun t x => emitFlit t n x.2) s =
      { s with out := (r.map (fun x => Emit.flit n (stripe (portOf s n) x.2))).reverse ++ s.out } := by
  induction r generalizing s with
  | nil => rfl
  | cons x r ih =>
    rw [List.foldl_cons, ih]
    simp [emitFlit, emit, portOf]

/-- The credits of a flit taken, as a port holds them. -/
def Port.took (x : Port) (b : List Byte) : Port := { x with room0 := x.room0 + numAt b 6 1, room1 := x.room1 + numAt b 7 1 }

/-- The flits that a flit acknowledges freed, as a port holds them. -/
def Port.acked (x : Port) (b : List Byte) : Port := { x with replay := ackReplay x.replay (flitAck b) }

theorem takeCredits_eq (s : State) (n : Nat) (b : List Byte) : takeCredits s n b = setPort s n ((portOf s n).took b) := rfl

/-- What the acknowledgement and the NAK of a flit leave, from a state in which nothing waits. -/
structure AckTaken (n : Nat) (b : List Byte) (s t : State) : Prop where
  on : OnPort n s t
  port : portOf t n = (portOf s n).acked b
  plain : flitNak b = false → t.out = s.out ∧ t.dict = s.dict
  replays : flitNak b = true →
    let r := ackReplay (portOf s n).replay (flitAck b)
    t.out = (r.map (fun x => Emit.flit n (stripe (portOf s n) x.2))).reverse ++ s.out ∧
      rd t oPORT_REPLAYS (n + 1) = (rd s oPORT_REPLAYS (n + 1) + r.length) % 2 ^ 64 ∧ SameObjs [objKey oPORT_REPLAYS (n + 1)] s t

theorem replayAll_eq (s : State) (n : Nat) :
    replayAll s n = wr { s with out := ((portOf s n).replay.map (fun x => Emit.flit n (stripe (portOf s n) x.2))).reverse ++ s.out }
      oPORT_REPLAYS (n + 1) ((rd s oPORT_REPLAYS (n + 1) + (portOf s n).replay.length) % 2 ^ 64) := by
  rw [replayAll, foldl_emitFlit]
  rfl

theorem takeAck_spec {s : State} (h : Calm s) (n : Nat) (b : List Byte) : AckTaken n b s (takeAck s n b) := by
  have hset := onPort_setPort s n ((portOf s n).acked b)
  have hport := portOf_setPort_self s n ((portOf s n).acked b)
  set s1 := setPort s n ((portOf s n).acked b) with hs1
  have hcalm : Calm s1 := hset.calm h (by rw [hport]; exact h.fifo n)
  cases hnak : flitNak b with
  | false =>
    have ht : takeAck s n b = moveOn s1 := by rw [takeAck, hnak]; rfl
    obtain ⟨hk, -⟩ := moveOn_of_calm hcalm
    rw [ht]
    exact ⟨hset.trans (onPort_moveOn hcalm n), (hk n).trans hport, fun _ => moveOn_out_dict hcalm, fun h => by simp [hnak] at h⟩
  | true =>
    have ht : takeAck s n b = moveOn (replayAll s1 n) := by rw [takeAck, hnak]; rfl
    have hrep : OnPort n s1 (replayAll s1 n) := by rw [replayAll_eq]; exact ⟨fun _ _ => rfl, rfl⟩
    have hrport : portOf (replayAll s1 n) n = (portOf s n).acked b := by rw [replayAll_eq]; exact hport
    have hcalm' : Calm (replayAll s1 n) := hrep.calm hcalm (by rw [hrport]; exact h.fifo n)
    obtain ⟨hk, -⟩ := moveOn_of_calm hcalm'
    obtain ⟨hout, hdict⟩ := moveOn_out_dict hcalm'
    rw [ht]
    refine ⟨(hset.trans hrep).trans (onPort_moveOn hcalm' n), (hk n).trans hrport, fun h => by simp [hnak] at h, fun _ => ⟨?_, ?_, ?_⟩⟩
    · rw [hout, replayAll_eq, hport]
      rfl
    · rw [rd, hdict, replayAll_eq, hport]
      exact rd_wr_self s1 _ _ _
    · intro k hk
      rw [hdict, replayAll_eq]
      exact sameObjs_wr s1 _ _ _ k hk

/-! ### A DATA flit accepted (R358, R369) -/

/-- A message taken in is delivered internally, and the credits of its flits are due, as a port holds them. -/
def Port.owing (x : Port) (vc k : Nat) : Port :=
  { x with cred0 := if vc = 1 then x.cred0 else x.cred0 + k, cred1 := if vc = 1 then x.cred1 + k else x.cred1 }

theorem takeMsg_local {s : State} (n vc : Nat) {m : Msg} (h : m.dstChip = s.fabric.chipId ∨ isFlooded m = true) :
    takeMsg s n vc m = emit (setPort s n ((portOf s n).owing vc (msgFlits m).length)) (.internal m) := by
  unfold takeMsg
  split
  · rfl
  · next hf => exact if_pos ⟨rfl, h.resolve_right hf⟩

/-- What stands in the receive buffer of a virtual channel with a flit's payload added. -/
def rxWith (x : Port) (vc : Nat) (p : List Byte) : List Byte := (if vc = 1 then x.rx1 else x.rx0) ++ p

/-- The bytes of a message are all there. -/
def wholeMsg (w : List Byte) : Bool := decide (32 + field (numAt w 18 2) 12 0 ≤ w.length)

/-- A port whose receive buffer of a channel holds what it is given. -/
def Port.withRx (x : Port) (vc : Nat) (keep : List Byte) : Port :=
  { x with rx0 := if vc = 1 then x.rx0 else keep, rx1 := if vc = 1 then keep else x.rx1 }

/-- The port that an accepted flit leaves. -/
def Port.accepted (x : Port) (b : List Byte) : Port :=
  let w := rxWith x (flitVc b) (slice b 8 240)
  let y := { x with rxSeq := (x.rxSeq + 1) % 4096 }.withRx (flitVc b) (if wholeMsg w then [] else w)
  if wholeMsg w then y.owing (flitVc b) (msgFlits (parseMsg w)).length else y

theorem Port.accepted_eq (x : Port) (b : List Byte) :
    let vc := flitVc b
    let w := rxWith x vc (slice b 8 240)
    x.accepted b = { x with
      rxSeq := (x.rxSeq + 1) % 4096
      rx0 := if vc = 1 then x.rx0 else if wholeMsg w then [] else w, rx1 := if vc = 1 then (if wholeMsg w then [] else w) else x.rx1
      cred0 := if wholeMsg w && decide (vc ≠ 1) then x.cred0 + (msgFlits (parseMsg w)).length else x.cred0
      cred1 := if wholeMsg w && decide (vc = 1) then x.cred1 + (msgFlits (parseMsg w)).length else x.cred1 } := by
  intro vc w
  cases hw : wholeMsg w with
  | false => simp [Port.accepted, Port.withRx, w, vc, hw]
  | true =>
    have hw : wholeMsg (rxWith x (flitVc b) (slice b 8 240)) = true := hw
    by_cases hvc : flitVc b = 1
    · rw [hvc] at hw
      simp [Port.accepted, Port.withRx, Port.owing, w, vc, hw, hvc]
    · simp [Port.accepted, Port.withRx, Port.owing, w, vc, hw, hvc]

theorem acceptFlit_spec (s : State) (n : Nat) (b : List Byte)
    (h : let w := rxWith (portOf s n) (flitVc b) (slice b 8 240)
      wholeMsg w = false ∨ (parseMsg w).dstChip = s.fabric.chipId ∨ isFlooded (parseMsg w) = true) :
    OnPort n s (acceptFlit s n b) ∧ portOf (acceptFlit s n b) n = (portOf s n).accepted b ∧
      (acceptFlit s n b).dict = s.dict ∧
      let w := rxWith (portOf s n) (flitVc b) (slice b 8 240)
      (acceptFlit s n b).out = if wholeMsg w then .internal (parseMsg w) :: s.out else s.out := by
  set w := rxWith (portOf s n) (flitVc b) (slice b 8 240) with hw
  set x := { portOf s n with rxSeq := ((portOf s n).rxSeq + 1) % 4096 } with hx
  set y := x.withRx (flitVc b) (if wholeMsg w then [] else w) with hy
  have hset := (onPort_setPort s n x).trans (onPort_setPort (setPort s n x) n y)
  have haccept : acceptFlit s n b =
      if wholeMsg w then takeMsg (setPort (setPort s n x) n y) n (flitVc b) (parseMsg w) else setPort (setPort s n x) n y := by
    unfold acceptFlit takePayload
    simp only [portOf_setPort_self]
    rfl
  rw [haccept, Port.accepted, ← hw]
  cases hwhole : wholeMsg w with
  | false =>
    rw [hwhole] at hy
    simp only [Bool.false_eq_true, if_false]
    refine ⟨hset, ?_, rfl, by rw [hwhole]; rfl⟩
    rw [portOf_setPort_self, hy]
    rfl
  | true =>
    have hlocal := takeMsg_local (s := setPort (setPort s n x) n y) n (flitVc b) (h.resolve_left (by simp [hwhole]))
    rw [hwhole] at hy
    simp only [if_true]
    rw [hlocal]
    refine ⟨(hset.trans (onPort_setPort _ _ _)).trans (onPort_emit _ _ _), ?_, rfl, by rw [hwhole]; rfl⟩
    refine (portOf_setPort_self _ _ _).trans ?_
    rw [portOf_setPort_self, hy]
    rfl

/-! ### The commands -/

theorem exec_dataFlit_untrained {s : State} {n : Nat} (h : portTrained s n = false) (b : List Byte) :
    exec (.dataFlitReceive n b) s = .next s ∧ exec (.idleFlit n b) s = .next s :=
  ⟨congrArg Host.Outcome.next (if_pos (by simp [h])), congrArg Host.Outcome.next (if_neg (by simp [h]))⟩

theorem exec_dataFlit_bad {s : State} {n : Nat} (h : portTrained s n = true) {b : List Byte} (hb : flitOk b = false) :
    exec (.dataFlitReceive n b) s = .next (setPort s n { portOf s n with nak := true }) :=
  congrArg Host.Outcome.next ((if_neg (by simp [h])).trans (if_pos (by simp [hb])))

theorem exec_dataFlit_good {s : State} {n : Nat} (h : portTrained s n = true) {b : List Byte} (hb : flitOk b = true)
    (hd : flitType b = 0) : exec (.dataFlitReceive n b) s = .next (
      let accepted := decide (flitSeq b = (portOf s n).rxSeq)
      let s := takeAck (if accepted then takeCredits s n b else s) n b
      if accepted then acceptFlit s n b else setPort s n { portOf s n with nak := true }) :=
  congrArg Host.Outcome.next ((if_neg (by simp [h])).trans ((if_neg (by simp [hb])).trans (if_neg (by simp [hd]))))

theorem exec_dataFlit_late {s : State} {n : Nat} (h : portTrained s n = true) {b : List Byte} (hb : flitOk b = true)
    (hd : flitType b = 0) (hseq : flitSeq b ≠ (portOf s n).rxSeq) : exec (.dataFlitReceive n b) s =
      .next (setPort (takeAck s n b) n { portOf (takeAck s n b) n with nak := true }) := by
  rw [exec_dataFlit_good h hb hd]
  simp [hseq]

theorem exec_dataFlit_inOrder {s : State} {n : Nat} (h : portTrained s n = true) {b : List Byte} (hb : flitOk b = true)
    (hd : flitType b = 0) (hseq : flitSeq b = (portOf s n).rxSeq) : exec (.dataFlitReceive n b) s =
      .next (acceptFlit (takeAck (takeCredits s n b) n b) n b) := by
  rw [exec_dataFlit_good h hb hd]
  simp [hseq]

theorem exec_idleFlit_good {s : State} {n : Nat} (h : portTrained s n = true) {b : List Byte} (hb : flitOk b = true)
    (hd : flitType b = 1) : exec (.idleFlit n b) s = .next (takeAck (takeCredits s n b) n b) :=
  congrArg Host.Outcome.next (if_pos (by simp [h, hb, hd]))

theorem exec_idleFlitSend {s : State} {n : Nat} (h : portUp s n = true) :
    exec (.idleFlitSend n) s =
      .next (emitFlit (setPort s n (answered (portOf s n))) n (plainFlit (portOf s n) 1)) :=
  congrArg Host.Outcome.next (if_pos h)

/-- At most one of the four active lanes is under repair (R362). -/
theorem holdLanes_ne_nil (x : Port) : ∃ l r, holdLanes x = l :: r := by
  have hz : (List.range 4).zip (txLanes x) = [0, 1, 2, 3].map (fun l => (l, if x.swapped = some l then 4 else l)) := rfl
  refine List.exists_cons_of_ne_nil fun h => ?_
  rw [holdLanes, hz, List.filterMap_eq_nil_iff] at h
  have h0 := h (0, _) (List.mem_map_of_mem (by decide))
  have h1 := h (1, _) (List.mem_map_of_mem (by decide))
  simp at h0 h1
  simp [h0] at h1

theorem foldl_emit (f : Nat → Emit) (r : List Nat) (s : State) :
    r.foldl (fun t k => emit t (f k)) s = { s with out := (r.map f).reverse ++ s.out } := by
  induction r generalizing s with
  | nil => rfl
  | cons k r ih =>
    rw [List.foldl_cons, ih]
    simp [emit]

theorem exec_holdFlitSend {s : State} {n : Nat} (h : portCode s n = 3 ∨ portCode s n = 4) {l : Nat} {r : List Nat}
    (hl : holdLanes (portOf s n) = l :: r) : exec (.holdFlitSend n) s = .next { setPort s n (answered (portOf s n)) with
      out := (r.map (fun k => Emit.laneFlit n k (flitBytes 2 0 0 ((portOf s n).rxSeq + 4095) false 0 0 []))).reverse ++
        .laneFlit n l (plainFlit (portOf s n) 2) :: s.out } := by
  refine congrArg Host.Outcome.next ((if_pos h).trans ?_)
  simp only [hl]
  rw [foldl_emit]
  rfl

/-- Settles O45: with nothing waiting, `moveOn` leaves every port as it is, so a flit changes its own port alone. -/
theorem flitsInOrderAndIdle : Obligations.FlitsInOrderAndIdle := by
  refine ⟨fun x b hb => ⟨unstripe_stripe x hb, stripe_lanes x b, txLanes_length x⟩, fun s n => ?_⟩
  intro p others calm took
  have hothers : ∀ {t}, OnPort n s t → others t := fun h => ⟨h.ports, h.rest⟩
  have hcalm : calm → Calm s := fun ⟨hst, hf, hq⟩ => ⟨hst, hf, hq⟩
  refine ⟨fun b h => exec_dataFlit_untrained h b, fun b h hb => ?_, fun b h hb hd hnak hc hseq => ?_,
    fun b h hb hd hnak hc hseq => ?_, fun b h hb hd hc => ?_, fun hup => ?_, fun hcode => ?_⟩
  · exact ⟨_, exec_dataFlit_bad h hb, hothers (onPort_setPort s n _), portOf_setPort_self s n _, rfl, rfl⟩
  · have hack := takeAck_spec (hcalm hc) n b
    obtain ⟨hout, hdict⟩ := hack.plain hnak
    refine ⟨_, exec_dataFlit_late h hb hd hseq, hothers (hack.on.trans (onPort_setPort _ n _)), ?_, ?_, ?_⟩
    · rw [portOf_setPort_self, hack.port]
      rfl
    · rw [setPort_out, hout]
    · rw [setPort_dict, hdict]
  · intro vc w whole hw
    have hset := onPort_setPort s n (p.took b)
    have hport : portOf (takeCredits s n b) n = p.took b := portOf_setPort_self s n _
    have hack := takeAck_spec (hset.calm (hcalm hc) (by rw [portOf_setPort_self]; exact (hcalm hc).fifo n)) n b
    rw [← takeCredits_eq] at hack
    have hport' : portOf (takeAck (takeCredits s n b) n b) n = (p.took b).acked b := by rw [hack.port, hport]
    obtain ⟨hout, hdict⟩ := hack.plain hnak
    have hrx : rxWith ((p.took b).acked b) (flitVc b) (slice b 8 240) = w := rfl
    have hchip : (takeAck (takeCredits s n b) n b).fabric.chipId = s.fabric.chipId := by rw [hack.on.rest]; rfl
    obtain ⟨hon, hacc, hd', ho'⟩ := acceptFlit_spec (takeAck (takeCredits s n b) n b) n b
      (by rw [hport', hrx, hchip]; exact hw)
    rw [hport', hrx, hout] at ho'
    refine ⟨_, exec_dataFlit_inOrder h hb hd hseq, hothers ((hset.trans hack.on).trans hon), hd'.trans hdict, ?_, ho'⟩
    rw [hacc, hport', Port.accepted_eq]
    rfl
  · have hset := onPort_setPort s n (p.took b)
    have hport : portOf (takeCredits s n b) n = p.took b := portOf_setPort_self s n _
    have hack := takeAck_spec (hset.calm (hcalm hc) (by rw [portOf_setPort_self]; exact (hcalm hc).fifo n)) n b
    rw [← takeCredits_eq] at hack
    refine ⟨_, exec_idleFlit_good h hb hd, hothers (hset.trans hack.on), ?_, hack.plain, fun hnak => ?_⟩
    · rw [hack.port, hport]
      rfl
    · have hrep := hack.replays hnak
      simp only [hport] at hrep
      exact hrep
  · have hstripe : stripe (answered p) (plainFlit p 1) = stripe p (plainFlit p 1) := stripe_congr rfl _
    refine ⟨_, exec_idleFlitSend hup, hothers ((onPort_setPort s n _).trans (onPort_emit n _ _)), rfl, portOf_setPort_self s n _, ?_⟩
    rw [emitFlit, portOf_setPort_self, hstripe]
    rfl
  · obtain ⟨l, r, hl⟩ := holdLanes_ne_nil p
    refine ⟨_, l, r, exec_holdFlitSend hcode hl, hothers ?_, rfl, portOf_setPort_self s n _, hl, rfl⟩
    exact ⟨fun m hm => portOf_setPort_ne s _ hm, rfl⟩

end Sys2Proof.Machine

/-! PROOF. O32 and O36 refuted: each speaks of every state, so of one whose operation contradicts its phase or its core, too. -/

namespace Sys2Proof.Machine

open Sys2Proof

/-- A descriptor of an OPC with every other field zero, but for its class. -/
def plainDesc (opc cls : Nat) : Desc :=
  { opc := opc, cls := cls, prec := 0, bndsrc := 0, gfp := false, spillOk := false, flow := 0, tol := 0, seq := 0, opid := 0, waits := [],
    signal := 0, tail := 0, wgroup := 0, scope := 0, seed := 0, lcount := 1, count := 0, bnd := 0, opl := 0, remoteSignal := 0, fmt0 := 0,
    fmt1 := 0, fmt2 := 0, fmt3 := 0, tailScale := 0, cap := 0 }

/-- A package in full mode, stack 0 with 32 pseudo-channels, with one operation and one core in use. -/
def fullWith (o : Op) (x : Core) (reads : List LineRead) : State :=
  wr { power := { good := true, compute := true, fullMode := true }, weir := { ops := [o], nextOp := 1 }, cores := [(0, x)]
       mem := { reads := reads } } oSTACK_PC_ACTIVE 1 32

/-! ### O32: a placed operation whose data effect has taken place -/

/-- A COPY of one host piece, placed on core 0, with its data effect marked as done. -/
def doneCopy : Op :=
  { id := 0, part := 0, queue := 0, desc := plainDesc 0x02 1, phase := .placed, core := some 0, ins := [(3 * 2 ^ 60, 4)], dataDone := true }

/-- Its dispatch leaves the host read unasked, with every credit of the link free. -/
theorem dispatch_doneCopy : ∃ t, exec (.dispatch 0) (fullWith doneCopy {} []) = .next t ∧
    (opOf? t 0).map (fun y => y.due) = some [⟨3 * 2 ^ 60, 4, 0, 0, false⟩] ∧ linkCredits t 0 = 1024 :=
  ⟨_, rfl, by decide +kernel⟩

/-- Refutes O32: of a placed operation whose data effect is marked as done nothing is asked for, so a host read stays due while
the link to the I/O die holds credits for it. The statement lacks the premise that the data effect is still to come. -/
theorem not_dispatchTakesTheArrays : ¬ Obligations.DispatchTakesTheArrays := by
  intro h
  obtain ⟨t, ht, hdue, hcredits⟩ := dispatch_doneCopy
  obtain ⟨-, -, hgo⟩ := h (fullWith doneCopy {} []) 0 0 doneCopy (by decide +kernel) rfl rfl (by decide +kernel) rfl rfl
    (by decide +kernel) (by decide +kernel) (.inr (by decide +kernel))
  obtain ⟨t', y, l, ht', hy, -, -, -, -, -, -, -, -, -, -, -, -, hlink, -⟩ := hgo (by decide) (by decide +kernel)
  obtain rfl : t = t' := by simpa [ht] using ht'
  have hlt := hlink ⟨3 * 2 ^ 60, 4, 0, 0, false⟩ [] (by simpa [hy] using hdue)
  rw [hcredits] at hlt
  exact absurd hlt (by decide)

/-! ### O36: an operation that executes on a core other than its own -/

/-- A COPY of one line, which names core 64 of the other die as its core. -/
def farCopy : Op :=
  { id := 0, part := 0, queue := 0, desc := plainDesc 0x02 1, phase := .dispatched, core := some 64, ins := [(0x100, 256)] }

/-- A line request of it, sent by core 0. -/
def nearRead : LineRead := { core := 0, op := 0, line := 0, urgent := false, reserved := true }

/-- The package in which core 0 executes it. -/
def astray : State := fullWith farCopy { exec := some 0 } [nearRead]

theorem rowsSettled_astray : RowsSettled astray := by
  intro c v hv
  obtain ⟨i, -, hi⟩ := Option.bind_eq_some_iff.mp hv
  have hmem : v ∈ [farCopy] := List.mem_of_find?_eq_some hi
  rw [List.mem_singleton.mp hmem]
  exact .inl (by decide)

/-- The line served, the next one is asked for by core 64. -/
theorem lineRead_astray : ∃ t, exec (.dramLineRead 0 0 .clean) astray = .next t ∧
    t.mem.reads = [{ core := 64, op := 0, line := 0x100, urgent := false, reserved := true }] :=
  ⟨_, rfl, by decide +kernel⟩

/-- Refutes O36: where core 0 executes an operation that names a core of the other die as its own, the line asked for after
DRAM_LINE_READ is asked for by that other core. The statement lacks the premise that an operation executes on its own core. -/
theorem not_dataLandsInTheBuffers : ¬ Obligations.DataLandsInTheBuffers := by
  intro h
  obtain ⟨t, ht, hreads⟩ := lineRead_astray
  obtain ⟨-, -, -, hline, -⟩ := h
  obtain ⟨hclean, -⟩ := hline astray 0 0 farCopy nearRead (by decide +kernel) (.inl rfl) (by decide +kernel) (by decide +kernel)
    rowsSettled_astray
  obtain ⟨t', ht', -, ⟨l, hl, hcore⟩, -⟩ := hclean (by decide +kernel)
  obtain rfl : t = t' := by simpa [ht] using ht'
  rw [hreads] at hl
  have hmem : ({ core := 64, op := 0, line := 0x100, urgent := false, reserved := true } : LineRead) ∈ l := by
    have hnil : (astray.mem.reads.erase nearRead).filter (fun x => space x.line == 0) = [] := by decide +kernel
    simp only [hnil, List.nil_append] at hl
    rw [← hl]
    decide +kernel
  exact absurd (hcore _ hmem).1 (by decide)

end Sys2Proof.Machine

/-! PROOF. What a write that reaches the Eddy, and an entry that leaves it, make of every byte read (spec/08 R162 to R166). -/

namespace Sys2Proof.Machine

open Sys2Proof

/-! ### Lines and addresses -/

theorem lineOf_eq (a : Nat) : lineOf a = 256 * (a / 256) := by
  unfold lineOf; omega

theorem lineOf_lineOf (a : Nat) : lineOf (lineOf a) = lineOf a := by
  rw [lineOf_eq, lineOf_eq]; omega

theorem lineOf_of_aligned {l : Nat} (h : l % 256 = 0) : lineOf l = l := by
  rw [lineOf, h, Nat.sub_zero]

/-- Addresses of one line lie in one SPACE, and of DRAM in one stack. -/
theorem space_congr {x y : Nat} (h : lineOf x = lineOf y) : space x = space y := by
  rw [lineOf_eq, lineOf_eq] at h
  have hdiv : x / 256 = y / 256 := by omega
  rw [space, space, show (2 : Nat) ^ 60 = 256 * 2 ^ 52 by norm_num, ← Nat.div_div_eq_div_mul, ← Nat.div_div_eq_div_mul, hdiv]

theorem dramStack_congr {x y : Nat} (h : lineOf x = lineOf y) : dramStack x = dramStack y := by
  rw [lineOf_eq, lineOf_eq] at h
  have hdiv : x / 256 = y / 256 := by omega
  rw [dramStack, dramStack, field, field, Nat.shiftRight_eq_div_pow, Nat.shiftRight_eq_div_pow,
    show (2 : Nat) ^ 35 = 256 * 2 ^ 27 by norm_num, ← Nat.div_div_eq_div_mul, ← Nat.div_div_eq_div_mul, hdiv]

theorem lineOf_add {a i : Nat} (h : a % 256 + i < 256) : lineOf (a + i) = lineOf a := by
  rw [lineOf_eq, lineOf_eq]; omega

/-- A run of bytes put: its own bytes inside it, every other key as before. -/
theorem tabGet?_tabPutAll {α : Type} (t : Tab α) (i : Nat) (vs : List α) (j : Nat) :
    tabGet? (tabPutAll t i vs) j = if i ≤ j ∧ j < i + vs.length then vs[j - i]? else tabGet? t j := by
  induction vs generalizing t i with
  | nil => rw [if_neg (by simp), tabPutAll]
  | cons v vs ih =>
    rw [tabPutAll, ih]
    by_cases hin : i + 1 ≤ j ∧ j < i + 1 + vs.length
    · obtain ⟨k, rfl⟩ : ∃ k, j = i + 1 + k := ⟨j - (i + 1), by omega⟩
      rw [if_pos hin, if_pos ⟨by omega, by simp only [List.length_cons]; omega⟩, show i + 1 + k - i = k + 1 by omega,
        show i + 1 + k - (i + 1) = k by omega, List.getElem?_cons_succ]
    · rw [if_neg hin, tabGet?_tabPut]
      by_cases hj : j = i
      · subst hj
        simp
      · rw [if_neg hj, if_neg (by simp only [List.length_cons]; omega)]

/-! ### Writes that wait -/

/-- A write within one line of DRAM. -/
def InLine (w : EddyWait) : Prop := space w.addr = 0 ∧ w.addr % 256 + w.bytes.length ≤ 256

/-- The byte that a write gives an address. -/
def writeByte? (w : EddyWait) (x : Nat) : Option Byte :=
  if w.addr ≤ x ∧ x < w.addr + w.bytes.length then w.bytes[x - w.addr]? else none

theorem waitByte?_cons (w : EddyWait) (l : List EddyWait) (x : Nat) :
    waitByte? (w :: l) x = (waitByte? l x).or (writeByte? w x) := by
  rw [waitByte?]
  cases waitByte? l x <;> rfl

theorem waitByte?_append (l m : List EddyWait) (x : Nat) : waitByte? (l ++ m) x = (waitByte? m x).or (waitByte? l x) := by
  induction l with
  | nil => simp [waitByte?]
  | cons w l ih => rw [List.cons_append, waitByte?_cons, waitByte?_cons, ih, Option.or_assoc]

theorem InLine.lineOf_eq {w : EddyWait} (h : InLine w) {x : Nat} (hx : w.addr ≤ x ∧ x < w.addr + w.bytes.length) :
    lineOf x = lineOf w.addr := by
  obtain ⟨-, hlen⟩ := h
  obtain ⟨i, rfl⟩ : ∃ i, x = w.addr + i := ⟨x - w.addr, by omega⟩
  exact lineOf_add (by omega)

/-- A write gives no byte to another line. -/
theorem writeByte?_of_ne {w : EddyWait} (h : InLine w) {x : Nat} (hx : lineOf x ≠ lineOf w.addr) : writeByte? w x = none :=
  if_neg fun hin => hx (h.lineOf_eq hin)

theorem writeByte?_of_space {w : EddyWait} (h : InLine w) {x : Nat} (hx : space x ≠ 0) : writeByte? w x = none :=
  writeByte?_of_ne h fun e => hx ((space_congr e).trans h.1)

/-- What the writes that wait give an address is what those of its line give it. -/
theorem waitByte?_filter {l : List EddyWait} (h : ∀ w ∈ l, InLine w) (x : Nat) :
    waitByte? (l.filter (fun w => lineOf w.addr == lineOf x)) x = waitByte? l x := by
  induction l with
  | nil => rfl
  | cons w l ih =>
    obtain ⟨hw, hl⟩ := List.forall_mem_cons.mp h
    rw [List.filter_cons, waitByte?_cons]
    split
    · rw [waitByte?_cons, ih hl]
    · next hne =>
      have hne : lineOf x ≠ lineOf w.addr := fun e => hne (by rw [e]; exact beq_self_eq_true _)
      rw [ih hl, writeByte?_of_ne hw hne, Option.or_none]

theorem waitByte?_of_none_waits {l : List EddyWait} (h : ∀ w ∈ l, InLine w) {x : Nat}
    (hx : l.any (fun w => lineOf w.addr == lineOf x) = false) : waitByte? l x = none := by
  rw [← waitByte?_filter h, List.filter_eq_nil_iff.mpr fun w hw => by simpa using List.any_eq_false.mp hx w hw]
  rfl

theorem waitByte?_of_space {l : List EddyWait} (h : ∀ w ∈ l, InLine w) {x : Nat} (hx : space x ≠ 0) : waitByte? l x = none := by
  refine waitByte?_of_none_waits h (List.any_eq_false.mpr fun w hw => ?_)
  have hne : lineOf w.addr ≠ lineOf x := fun e => hx ((space_congr e).symm.trans (h w hw).1)
  simpa using hne

/-! ### What a read sees -/

/-- The masked bytes that the Eddies hold of a line. -/
def maskOf (s : State) (line : Nat) : Option (Tab Byte) := (eddyEntry? s line).map (fun e => e.bytes)

/-- A byte under the masked bytes of its line. -/
def overlaid (m : Option (Tab Byte)) (x : Nat) (b : Byte) : Byte :=
  match m with
  | some t => (tabGet? t (x % 256)).getD b
  | none => b

theorem eddyByte_eq (s : State) (x : Nat) : eddyByte s x = overlaid (maskOf s (lineOf x)) x (storedByte s.mem x) := by
  rw [eddyByte, maskOf]
  cases eddyEntry? s (lineOf x) <;> rfl

theorem readByte_dram {s : State} {x : Nat} (h : space x = 0) :
    readByte s x = (waitByte? s.mem.eddyWait x).getD (eddyByte s x) := if_pos h

theorem readByte_other {s : State} {x : Nat} (h : space x ≠ 0) : readByte s x = storedByte s.mem x := if_neg h

/-- What a read sees depends on what is stored, on the masked bytes and on the writes that wait. -/
theorem readByte_congr {s t : State} {x : Nat} (hc : storedByte t.mem x = storedByte s.mem x)
    (hm : maskOf t (lineOf x) = maskOf s (lineOf x)) (hw : waitByte? t.mem.eddyWait x = waitByte? s.mem.eddyWait x) :
    readByte t x = readByte s x := by
  rw [readByte, readByte, eddyByte_eq, eddyByte_eq, hc, hm, hw]

theorem readByte_of_mem {s t : State} (h : t.mem = s.mem) (x : Nat) : readByte t x = readByte s x := by
  refine readByte_congr (by rw [h]) ?_ (by rw [h])
  rw [maskOf, maskOf, eddyEntry?, eddyEntry?, h]

/-- Line requests are no part of what a read sees. -/
theorem readByte_of_reads {s t : State} (h : t.mem = { s.mem with reads := t.mem.reads }) (x : Nat) : readByte t x = readByte s x := by
  refine readByte_congr (by rw [h]; rfl) ?_ (by rw [h])
  rw [maskOf, maskOf, eddyEntry?, eddyEntry?, h]

theorem maskOf_setEddy (s : State) (k : Nat) (es : List EddyEntry) (line : Nat) :
    maskOf (setEddy s k es) line =
      if dramStack line = k then (es.find? (fun e => e.line == line)).map (fun e => e.bytes) else maskOf s line := by
  rw [maskOf, eddyEntry?]
  by_cases h : dramStack line = k
  · subst h
    rw [if_pos rfl]
    exact congrArg (fun l : List EddyEntry => (l.find? (fun e => e.line == line)).map (fun e => e.bytes)) (tabGet_tabPut_self [] _ _ _)
  · rw [if_neg h]
    exact congrArg (fun l : List EddyEntry => (l.find? (fun e => e.line == line)).map (fun e => e.bytes))
      (tabGet_tabPut_ne [] _ _ h)

theorem maskOf_eq (s : State) (line : Nat) :
    maskOf s line = ((entriesOn s (dramStack line)).find? (fun e => e.line == line)).map (fun e => e.bytes) := rfl

/-- Entries whose line and masked bytes stay are found with the same masked bytes. -/
theorem find_map_bytes {es : List EddyEntry} {f : EddyEntry → EddyEntry} (hl : ∀ e ∈ es, (f e).line = e.line)
    (hb : ∀ e ∈ es, (f e).bytes = e.bytes) (l : Nat) :
    ((es.map f).find? (fun e => e.line == l)).map (fun e => e.bytes) = (es.find? (fun e => e.line == l)).map (fun e => e.bytes) := by
  induction es with
  | nil => rfl
  | cons e es ih =>
    obtain ⟨hle, hls⟩ := List.forall_mem_cons.mp hl
    obtain ⟨hbe, hbs⟩ := List.forall_mem_cons.mp hb
    rw [List.map_cons, List.find?_cons, List.find?_cons, hle]
    split
    · exact congrArg some hbe
    · exact ih hls hbs

/-- An entry put in the place of the one of its line is the one found. -/
theorem find_replaceEntry_self {es : List EddyEntry} {e n : EddyEntry} {line : Nat}
    (h : es.find? (fun x => x.line == line) = some e) (hn : n.line = line) :
    (es.map (fun x => if x.line = line then n else x)).find? (fun x => x.line == line) = some n := by
  induction es with
  | nil => exact absurd h (by simp)
  | cons x es ih =>
    rw [List.map_cons]
    by_cases hx : x.line = line
    · rw [if_pos hx, List.find?_cons_of_pos (by simp [hn])]
    · rw [if_neg hx, List.find?_cons_of_neg (by simpa using hx)]
      exact ih (by rwa [List.find?_cons_of_neg (by simpa using hx)] at h)

/-- Other lines keep their entries. -/
theorem find_replaceEntry_ne {es : List EddyEntry} {n : EddyEntry} {line l : Nat} (hn : n.line = line) (hl : l ≠ line) :
    (es.map (fun x => if x.line = line then n else x)).find? (fun x => x.line == l) = es.find? (fun x => x.line == l) := by
  induction es with
  | nil => rfl
  | cons x es ih =>
    rw [List.map_cons]
    by_cases hx : x.line = line
    · rw [if_pos hx, List.find?_cons_of_neg (by simpa [hn] using hl.symm), List.find?_cons_of_neg (by simpa [hx] using hl.symm), ih]
    · rw [if_neg hx, List.find?_cons, List.find?_cons, ih]

theorem find_append_ne {es : List EddyEntry} {n : EddyEntry} {l : Nat} (hl : l ≠ n.line) :
    (es ++ [n]).find? (fun x => x.line == l) = es.find? (fun x => x.line == l) := by
  rw [List.find?_append, List.find?_cons_of_neg (by simpa using hl.symm), List.find?_nil, Option.or_none]

theorem find_append_self {es : List EddyEntry} {n : EddyEntry} (h : es.find? (fun x => x.line == n.line) = none) :
    (es ++ [n]).find? (fun x => x.line == n.line) = some n := by
  rw [List.find?_append, h, Option.none_or, List.find?_cons_of_pos (by simp)]

/-- The oldest entry becoming due moves no byte. -/
theorem find_dueOldest (es : List EddyEntry) (l : Nat) :
    ((dueOldest es).find? (fun e => e.line == l)).map (fun e => e.bytes) = (es.find? (fun e => e.line == l)).map (fun e => e.bytes) := by
  cases es with
  | nil => rfl
  | cons e es =>
    rw [dueOldest, List.find?_cons, List.find?_cons]
    cases e.line == l <;> rfl

/-! ### One write at the Eddy (R162, R163, R166) -/

/-- A write stands back: the controllers' clock is gated, or one of its line waits (R43). -/
def standsBack (s : State) (w : EddyWait) : Bool :=
  s.clock.rootGated || s.mem.eddyWait.any (fun x => lineOf x.addr == lineOf w.addr)

/-- The entries of the stack of a write. -/
def entriesFor (s : State) (w : EddyWait) : List EddyEntry := entriesOn s (dramStack w.addr)

/-- A write of a whole line clears its poison. -/
def cleanFor (s : State) (w : EddyWait) : State := if w.bytes.length = 256 then cleanLine s (lineOf w.addr) else s

/-- An entry with a write merged into it; with every mask bit set it is due. -/
def mergedWith (e : EddyEntry) (w : EddyWait) : EddyEntry :=
  { mergeEntry e w.op (w.addr % 256) w.bytes with due := e.due || entryFull (mergeEntry e w.op (w.addr % 256) w.bytes) }

/-- A fresh entry of a write; with every mask bit set it is due. -/
def openedBy (s : State) (w : EddyWait) : EddyEntry :=
  { freshEntry s (lineOf w.addr) w.op (w.addr % 256) w.bytes with
    due := entryFull (freshEntry s (lineOf w.addr) w.op (w.addr % 256) w.bytes) }

theorem eddyPut_behind {s : State} {w : EddyWait} (h : standsBack s w = true) : eddyPut s w = waitWrite s w := if_pos h

theorem eddyPut_merged {s : State} {w : EddyWait} {e : EddyEntry} (h : standsBack s w = false)
    (he : (entriesFor s w).find? (fun x => x.line == lineOf w.addr) = some e) :
    eddyPut s w = setEddy (cleanFor s w) (dramStack w.addr)
      ((entriesFor s w).map (fun x => if x.line = lineOf w.addr then mergedWith e w else x)) := by
  rw [entriesFor, entriesOn] at he
  rw [eddyPut, if_neg (by rw [standsBack] at h; simp [h])]
  simp only [he]
  rfl

theorem eddyPut_crowded {s : State} {w : EddyWait} (h : standsBack s w = false)
    (he : (entriesFor s w).find? (fun x => x.line == lineOf w.addr) = none) (hn : 64 ≤ (entriesFor s w).length) :
    eddyPut s w = waitWrite (setEddy s (dramStack w.addr) (dueOldest (entriesFor s w))) w := by
  rw [entriesFor, entriesOn] at he hn
  rw [eddyPut, if_neg (by rw [standsBack] at h; simp [h])]
  simp only [he, if_pos hn]
  rfl

theorem eddyPut_opened {s : State} {w : EddyWait} (h : standsBack s w = false)
    (he : (entriesFor s w).find? (fun x => x.line == lineOf w.addr) = none) (hn : (entriesFor s w).length < 64) :
    eddyPut s w = setEddy (cleanFor s w) (dramStack w.addr) (entriesFor s w ++ [openedBy s w]) := by
  rw [entriesFor, entriesOn] at he hn
  rw [eddyPut, if_neg (by rw [standsBack] at h; simp [h])]
  simp only [he, if_neg (Nat.not_le.mpr hn)]
  rfl

/-- What a write can do at the Eddy: wait, or enter it. -/
inductive EddyStep (s : State) (w : EddyWait) : State → Prop
  | behind (h : standsBack s w = true) : EddyStep s w (waitWrite s w)
  | merged (e : EddyEntry) (h : standsBack s w = false)
      (he : (entriesFor s w).find? (fun x => x.line == lineOf w.addr) = some e) :
      EddyStep s w (setEddy (cleanFor s w) (dramStack w.addr)
        ((entriesFor s w).map (fun x => if x.line = lineOf w.addr then mergedWith e w else x)))
  | crowded (h : standsBack s w = false) (he : (entriesFor s w).find? (fun x => x.line == lineOf w.addr) = none)
      (hn : 64 ≤ (entriesFor s w).length) :
      EddyStep s w (waitWrite (setEddy s (dramStack w.addr) (dueOldest (entriesFor s w))) w)
  | opened (h : standsBack s w = false) (he : (entriesFor s w).find? (fun x => x.line == lineOf w.addr) = none)
      (hn : (entriesFor s w).length < 64) :
      EddyStep s w (setEddy (cleanFor s w) (dramStack w.addr) (entriesFor s w ++ [openedBy s w]))

theorem eddyPut_step (s : State) (w : EddyWait) : EddyStep s w (eddyPut s w) := by
  cases h : standsBack s w with
  | true => rw [eddyPut_behind h]; exact .behind h
  | false =>
    cases he : (entriesFor s w).find? (fun x => x.line == lineOf w.addr) with
    | some e => rw [eddyPut_merged h he]; exact .merged e h he
    | none =>
      by_cases hn : 64 ≤ (entriesFor s w).length
      · rw [eddyPut_crowded h he hn]; exact .crowded h he hn
      · rw [eddyPut_opened h he (by omega)]; exact .opened h he (by omega)

theorem cleanFor_eq (s : State) (w : EddyWait) :
    cleanFor s w = { s with mem := { s.mem with poison := (cleanFor s w).mem.poison } } := by
  rw [cleanFor]; split <;> rfl

theorem maskOf_cleanFor (s : State) (w : EddyWait) (l : Nat) : maskOf (cleanFor s w) l = maskOf s l := by
  rw [cleanFor_eq]; rfl

theorem poisoned_cleanFor_self (s : State) (w : EddyWait) :
    poisoned (cleanFor s w) (lineOf w.addr) = (poisoned s (lineOf w.addr) && w.bytes.length != 256) := by
  rw [cleanFor]
  split
  · next h => simp [h, poisoned_cleanLine]
  · next h => simp [h]

theorem poisoned_cleanFor_ne {s : State} {w : EddyWait} {l : Nat} (h : l ≠ lineOf w.addr) :
    poisoned (cleanFor s w) l = poisoned s l := by
  rw [cleanFor]
  split
  · simp [poisoned_cleanLine, h]
  · rfl

/-- Of the state only the Eddies, the writes that wait and the poison marks change. -/
theorem eddyPut_frame (s : State) (w : EddyWait) : eddyPut s w = { s with mem := { s.mem with
    eddies := (eddyPut s w).mem.eddies, eddyWait := (eddyPut s w).mem.eddyWait, poison := (eddyPut s w).mem.poison } } := by
  have hstep := eddyPut_step s w
  generalize eddyPut s w = t at hstep ⊢
  cases hstep with
  | behind | crowded => rfl
  | merged | opened => rw [cleanFor_eq]; rfl

/-- The masked bytes of the line of a write that enters take its bytes; other lines keep theirs. -/
theorem maskOf_merged {s : State} {w : EddyWait} {e : EddyEntry}
    (he : (entriesFor s w).find? (fun x => x.line == lineOf w.addr) = some e) (l : Nat) :
    maskOf (setEddy (cleanFor s w) (dramStack w.addr)
      ((entriesFor s w).map (fun x => if x.line = lineOf w.addr then mergedWith e w else x))) l =
      if l = lineOf w.addr then some (tabPutAll ((maskOf s l).getD []) (w.addr % 256) w.bytes) else maskOf s l := by
  have hstack : dramStack (lineOf w.addr) = dramStack w.addr := dramStack_congr (lineOf_lineOf _)
  have hel : e.line = lineOf w.addr := by simpa using List.find?_some he
  rw [maskOf_setEddy, maskOf_cleanFor]
  by_cases hl : l = lineOf w.addr
  · subst hl
    rw [if_pos hstack, if_pos rfl, find_replaceEntry_self (n := mergedWith e w) he hel, maskOf_eq, hstack]
    exact congrArg (fun x : Option EddyEntry => some (tabPutAll ((x.map (fun e => e.bytes)).getD []) (w.addr % 256) w.bytes)) he.symm
  · rw [if_neg hl, find_replaceEntry_ne (n := mergedWith e w) hel hl]
    split
    · next hk => rw [maskOf_eq, hk]; rfl
    · rfl

theorem maskOf_opened {s : State} {w : EddyWait} (he : (entriesFor s w).find? (fun x => x.line == lineOf w.addr) = none) (l : Nat) :
    maskOf (setEddy (cleanFor s w) (dramStack w.addr) (entriesFor s w ++ [openedBy s w])) l =
      if l = lineOf w.addr then some (tabPutAll ((maskOf s l).getD []) (w.addr % 256) w.bytes) else maskOf s l := by
  have hstack : dramStack (lineOf w.addr) = dramStack w.addr := dramStack_congr (lineOf_lineOf _)
  rw [maskOf_setEddy, maskOf_cleanFor]
  by_cases hl : l = lineOf w.addr
  · subst hl
    rw [if_pos hstack, if_pos rfl, maskOf_eq, hstack]
    rw [show entriesOn s (dramStack w.addr) = entriesFor s w from rfl, he]
    exact congrArg (fun x : Option EddyEntry => x.map (fun e => e.bytes)) (find_append_self (n := openedBy s w) he)
  · rw [if_neg hl, find_append_ne (n := openedBy s w) hl]
    split
    · next hk => rw [maskOf_eq, hk]; rfl
    · rfl

/-- Bytes of a write over the masked bytes of its line are read in front of what was read. -/
theorem overlaid_put {w : EddyWait} {x : Nat} (hx : lineOf x = lineOf w.addr) (m : Option (Tab Byte)) (b : Byte) :
    overlaid (some (tabPutAll (m.getD []) (w.addr % 256) w.bytes)) x b = (writeByte? w x).getD (overlaid m x b) := by
  rw [lineOf_eq, lineOf_eq] at hx
  have hrange : (w.addr % 256 ≤ x % 256 ∧ x % 256 < w.addr % 256 + w.bytes.length) ↔ w.addr ≤ x ∧ x < w.addr + w.bytes.length := by omega
  have hold : ((tabGet? (m.getD []) (x % 256)).getD b) = overlaid m x b := by cases m <;> rfl
  rw [overlaid, tabGet?_tabPutAll, writeByte?]
  by_cases hin : w.addr ≤ x ∧ x < w.addr + w.bytes.length
  · have hsome : x - w.addr < w.bytes.length := by omega
    rw [if_pos (hrange.mpr hin), if_pos hin, show x % 256 - w.addr % 256 = x - w.addr by omega, List.getElem?_eq_getElem hsome]
    rfl
  · rw [if_neg (mt hrange.mp hin), if_neg hin, hold]
    rfl

/-- A write that enters is read in front of what was read. -/
theorem readByte_entered {s t : State} {w : EddyWait} (hw : InLine w) (hs : ∀ v ∈ s.mem.eddyWait, InLine v)
    (hno : standsBack s w = false) (hc : t.mem.cells = s.mem.cells ∧ t.mem.fills = s.mem.fills ∧ t.mem.epoch = s.mem.epoch)
    (hwait : t.mem.eddyWait = s.mem.eddyWait)
    (hm : ∀ l, maskOf t l = if l = lineOf w.addr then some (tabPutAll ((maskOf s l).getD []) (w.addr % 256) w.bytes) else maskOf s l)
    (x : Nat) : readByte t x = (writeByte? w x).getD (readByte s x) := by
  obtain ⟨hcells, hfills, hepoch⟩ := hc
  have hstored : storedByte t.mem x = storedByte s.mem x := by
    rw [storedByte, storedByte, blankByte, blankByte, hcells, hfills, hepoch]
  by_cases hx : lineOf x = lineOf w.addr
  · have hspace : space x = 0 := (space_congr hx).trans hw.1
    have hnone : waitByte? s.mem.eddyWait x = none :=
      waitByte?_of_none_waits hs (by rw [hx]; exact (Bool.or_eq_false_iff.mp hno).2)
    rw [readByte_dram hspace, readByte_dram hspace, hwait, hnone, Option.getD_none, Option.getD_none, eddyByte_eq, eddyByte_eq,
      hstored, hm, if_pos hx, overlaid_put hx]
  · rw [writeByte?_of_ne hw hx, Option.getD_none]
    exact readByte_congr hstored (by rw [hm, if_neg hx]) (by rw [hwait])

/-- A write that waits is read in front of what was read. -/
theorem readByte_waitWrite {s t : State} {w : EddyWait} (hw : InLine w) (hst : ∀ x, storedByte t.mem x = storedByte s.mem x)
    (hm : ∀ l, maskOf t l = maskOf s l) (hwait : t.mem.eddyWait = s.mem.eddyWait ++ [w]) (x : Nat) :
    readByte t x = (writeByte? w x).getD (readByte s x) := by
  by_cases hspace : space x = 0
  · rw [readByte_dram hspace, readByte_dram hspace, eddyByte_eq, eddyByte_eq, hst, hm, hwait, waitByte?_append, waitByte?_cons]
    cases writeByte? w x <;> rfl
  · rw [readByte_other hspace, readByte_other hspace, hst, writeByte?_of_space hw hspace]
    rfl

theorem maskOf_dueOldest (s : State) (k l : Nat) : maskOf (setEddy s k (dueOldest (entriesOn s k))) l = maskOf s l := by
  rw [maskOf_setEddy, find_dueOldest]
  split
  · next hk => rw [maskOf_eq, hk]
  · rfl

/-- Once a write has reached the Eddy, every read of one of its bytes returns it, and every other address reads as before. -/
theorem readByte_eddyPut {s : State} {w : EddyWait} (hw : InLine w) (hs : ∀ v ∈ s.mem.eddyWait, InLine v) (x : Nat) :
    readByte (eddyPut s w) x = (writeByte? w x).getD (readByte s x) := by
  have hstep := eddyPut_step s w
  generalize eddyPut s w = t at hstep ⊢
  cases hstep with
  | behind h => exact readByte_waitWrite (s := s) (t := waitWrite s w) hw (fun _ => rfl) (fun _ => rfl) rfl x
  | merged e h he =>
    refine readByte_entered hw hs h ?_ ?_ (maskOf_merged he) x <;> rw [cleanFor_eq]
    · exact ⟨rfl, rfl, rfl⟩
    · rfl
  | crowded h he hn =>
    exact readByte_waitWrite (s := s)
      (t := waitWrite (setEddy s (dramStack w.addr) (dueOldest (entriesFor s w))) w) hw (fun _ => rfl) (maskOf_dueOldest s _) rfl x
  | opened h he hn =>
    refine readByte_entered hw hs h ?_ ?_ (maskOf_opened he) x <;> rw [cleanFor_eq]
    · exact ⟨rfl, rfl, rfl⟩
    · rfl

/-- What waits stays in its lines. -/
theorem inLine_eddyPut {s : State} {w : EddyWait} (hw : InLine w) (hs : ∀ v ∈ s.mem.eddyWait, InLine v) :
    ∀ v ∈ (eddyPut s w).mem.eddyWait, InLine v := by
  have hmore : ∀ v ∈ s.mem.eddyWait ++ [w], InLine v := List.forall_mem_append.mpr ⟨hs, by simpa using hw⟩
  have hstep := eddyPut_step s w
  generalize eddyPut s w = t at hstep ⊢
  cases hstep with
  | behind | crowded => exact hmore
  | merged | opened => rw [cleanFor_eq]; exact hs

/-- A write that does not stand back, and finds an entry of its line or a free one, enters. -/
theorem eddyPut_enters {s : State} {w : EddyWait} (h : standsBack s w = false)
    (hroom : (entriesFor s w).any (fun e => e.line == lineOf w.addr) = true ∨ (entriesFor s w).length < 64) :
    (eddyPut s w).mem.eddyWait = s.mem.eddyWait ∧ (eddyPut s w).mem.poison = (cleanFor s w).mem.poison ∧
      ∀ e, eddyEntry? (eddyPut s w) (lineOf w.addr) = some e → e.bytes.length = 256 → e.due = true := by
  have hstack : dramStack (lineOf w.addr) = dramStack w.addr := dramStack_congr (lineOf_lineOf _)
  cases he : (entriesFor s w).find? (fun x => x.line == lineOf w.addr) with
  | some e =>
    have hel : e.line = lineOf w.addr := by simpa using List.find?_some he
    rw [eddyPut_merged h he]
    refine ⟨by rw [cleanFor_eq]; rfl, rfl, fun x hx hfull => ?_⟩
    rw [eddyEntry?, hstack, setEddy, tabGet_tabPut_self, find_replaceEntry_self (n := mergedWith e w) he hel] at hx
    obtain rfl := Option.some.inj hx
    have hf : entryFull (mergeEntry e w.op (w.addr % 256) w.bytes) = true := beq_iff_eq.mpr hfull
    rw [mergedWith, hf, Bool.or_true]
  | none =>
    have hlt : (entriesFor s w).length < 64 := hroom.resolve_left fun hany => by
      obtain ⟨e, hmem, hline⟩ := List.any_eq_true.mp hany
      exact List.find?_eq_none.mp he e hmem hline
    rw [eddyPut_opened h he hlt]
    refine ⟨by rw [cleanFor_eq]; rfl, rfl, fun x hx hfull => ?_⟩
    rw [eddyEntry?, hstack, setEddy, tabGet_tabPut_self,
      show lineOf w.addr = (openedBy s w).line from rfl, find_append_self (n := openedBy s w) he] at hx
    obtain rfl := Option.some.inj hx
    exact beq_iff_eq.mpr hfull

/-- A write that stands back, or finds the Eddy occupied, waits, and poison stays. -/
theorem eddyPut_waits {s : State} {w : EddyWait}
    (h : standsBack s w = true ∨ ((entriesFor s w).any (fun e => e.line == lineOf w.addr) = false ∧ 64 ≤ (entriesFor s w).length)) :
    (eddyPut s w).mem.poison = s.mem.poison ∧ (eddyPut s w).mem.eddyWait = s.mem.eddyWait ++ [w] := by
  cases hb : standsBack s w with
  | true => rw [eddyPut_behind hb]; exact ⟨rfl, rfl⟩
  | false =>
    obtain ⟨hno, hn⟩ := h.resolve_left (by rw [hb]; exact Bool.false_ne_true)
    have he : (entriesFor s w).find? (fun x => x.line == lineOf w.addr) = none :=
      List.find?_eq_none.mpr fun e hmem => List.any_eq_false.mp hno e hmem
    rw [eddyPut_crowded hb he hn]
    exact ⟨rfl, rfl⟩

/-- Where all entries are occupied the oldest is due. -/
theorem eddyPut_oldest_due {s : State} {w : EddyWait} (hb : standsBack s w = false)
    (hno : (entriesFor s w).any (fun e => e.line == lineOf w.addr) = false) (hn : 64 ≤ (entriesFor s w).length) :
    ∃ e, (entriesOn (eddyPut s w) (dramStack w.addr)).head? = some e ∧ e.due = true := by
  have he : (entriesFor s w).find? (fun x => x.line == lineOf w.addr) = none :=
    List.find?_eq_none.mpr fun e hmem => List.any_eq_false.mp hno e hmem
  have hent : entriesOn (waitWrite (setEddy s (dramStack w.addr) (dueOldest (entriesFor s w))) w) (dramStack w.addr) =
      dueOldest (entriesFor s w) := tabGet_tabPut_self [] _ _ _
  rw [eddyPut_crowded hb he hn, hent]
  cases hes : entriesFor s w with
  | nil => simp [hes] at hn
  | cons e es => exact ⟨{ e with due := true }, rfl, rfl⟩

theorem poisoned_eddyPut_ne {s : State} {w : EddyWait} {l : Nat} (hl : l ≠ lineOf w.addr) :
    poisoned (eddyPut s w) l = poisoned s l := by
  have hstep := eddyPut_step s w
  generalize eddyPut s w = t at hstep ⊢
  cases hstep with
  | behind | crowded => rfl
  | merged | opened => exact poisoned_cleanFor_ne hl

/-! ### EDDY_WRITE and EDDY_AGE_EXPIRY -/

/-- The write that EDDY_WRITE makes. -/
def theWrite (o : Op) (op a c : Nat) (b : List Byte) : EddyWait :=
  { addr := a, bytes := b, op := op, core := some c, urgent := o.desc.cls == 0 }

theorem exec_eddyWrite {s : State} {op a c : Nat} {b : List Byte} {o : Op} (ho : opOf? s op = some o) (hc : o.core = some c)
    (hph : o.phase = .dispatched) (hsp : space a = 0) (hb : b ≠ []) (hlen : a % 256 + b.length ≤ 256)
    (hout : o.outs.any (fun r => decide (r.1 ≤ a ∧ a + b.length ≤ r.1 + r.2)) = true)
    (hcred : 0 < lineCredits s c (o.desc.cls == 0)) :
    exec (.eddyWrite op a b) s = .next (eddyPut (setOp s { o with wrote := true }) (theWrite o op a c b)) := by
  have hne : b.isEmpty = false := by simpa using hb
  show execEddyWrite op a b s = _
  rw [execEddyWrite]
  simp only [ho, hc]
  exact congrArg Host.Outcome.next (if_pos (by simp only [hph, hsp, hne, hlen, hout, hcred]; rfl))

theorem writeByte?_in {o : Op} {op a c : Nat} {b : List Byte} {i : Nat} (h : i < b.length) :
    writeByte? (theWrite o op a c b) (a + i) = some (b.getD i 0) := by
  rw [writeByte?, theWrite, if_pos ⟨Nat.le_add_right _ _, Nat.add_lt_add_left h _⟩]
  simp [h]

theorem writeByte?_out {o : Op} {op a c : Nat} {b : List Byte} {x : Nat} (h : x < a ∨ a + b.length ≤ x) :
    writeByte? (theWrite o op a c b) x = none := if_neg (by simp only [theWrite]; omega)

theorem inLine_of_eddiesOk {s : State} (h : eddiesOk s.mem = true) : ∀ v ∈ s.mem.eddyWait, InLine v := by
  intro v hv
  have hv := List.all_eq_true.mp (Bool.and_eq_true_iff.mp h).2 v hv
  simpa [InLine] using hv

/-- EDDY_AGE_EXPIRY makes due. -/
theorem exec_eddyAgeExpiry {s : State} {k line : Nat} (h : (entriesOn s k).any (fun e => e.line == line) = true) :
    exec (.eddyAgeExpiry k line) s =
      .next (setEddy s k ((entriesOn s k).map (fun e => if e.line = line then { e with due := true } else e))) :=
  congrArg Host.Outcome.next (if_pos h)

/-- Entries that become due move no byte. -/
theorem readByte_ageExpiry (s : State) (k line x : Nat) :
    readByte (setEddy s k ((entriesOn s k).map (fun e => if e.line = line then { e with due := true } else e))) x = readByte s x := by
  refine readByte_congr rfl ?_ rfl
  rw [maskOf_setEddy, find_map_bytes (fun e _ => by split <;> rfl) (fun e _ => by split <;> rfl)]
  split
  · next hk => rw [maskOf_eq, hk]
  · rfl

/-- EDDY_WRITE (R35, R162 to R166). -/
theorem eddyWrite_settled (s : State) (op a c : Nat) (b : List Byte) (o : Op) (ho : opOf? s op = some o) (hc : o.core = some c)
    (hph : o.phase = .dispatched) (hsp : space a = 0) (hb : b ≠ []) (hlen : a % 256 + b.length ≤ 256)
    (hout : o.outs.any (fun r => decide (r.1 ≤ a ∧ a + b.length ≤ r.1 + r.2)) = true)
    (hcred : 0 < lineCredits s c (o.desc.cls == 0)) (hok : eddiesOk s.mem = true) :
    let k := dramStack a
    let has := (entriesOn s k).any (fun e => e.line == lineOf a)
    let behind := s.clock.rootGated || s.mem.eddyWait.any (fun w => lineOf w.addr == lineOf a)
    ∃ t, exec (.eddyWrite op a b) s = .next t ∧
      t = { s with weir := { s.weir with ops := t.weir.ops }, mem := { s.mem with
        eddies := t.mem.eddies, eddyWait := t.mem.eddyWait, poison := t.mem.poison } } ∧
      opOf? t op = some { o with wrote := true } ∧ OthersKept op s t ∧
      (∀ i, i < b.length → readByte t (a + i) = b.getD i 0) ∧
      (∀ c, (c < a ∨ a + b.length ≤ c) → readByte t c = readByte s c) ∧
      (∀ l, l ≠ lineOf a → poisoned t l = poisoned s l) ∧
      (behind = false → (has = true ∨ (entriesOn s k).length < 64) → t.mem.eddyWait = s.mem.eddyWait ∧
        poisoned t (lineOf a) = (poisoned s (lineOf a) && b.length != 256) ∧
        (∀ e, eddyEntry? t (lineOf a) = some e → e.bytes.length = 256 → e.due = true)) ∧
      (behind = true ∨ (has = false ∧ 64 ≤ (entriesOn s k).length) → t.mem.poison = s.mem.poison ∧
        t.mem.eddyWait = s.mem.eddyWait ++ [theWrite o op a c b]) ∧
      (behind = false → has = false → 64 ≤ (entriesOn s k).length → ∃ e, (entriesOn t k).head? = some e ∧ e.due = true) := by
  obtain rfl : o.id = op := by simpa using List.find?_some ho
  have hin : InLine (theWrite o o.id a c b) := ⟨hsp, hlen⟩
  have hwaits : ∀ v ∈ (setOp s { o with wrote := true }).mem.eddyWait, InLine v := inLine_of_eddiesOk hok
  have hframe := eddyPut_frame (setOp s { o with wrote := true }) (theWrite o o.id a c b)
  have hread : ∀ x, readByte (eddyPut (setOp s { o with wrote := true }) (theWrite o o.id a c b)) x =
      (writeByte? (theWrite o o.id a c b) x).getD (readByte s x) := fun x => by
    rw [readByte_eddyPut hin hwaits, readByte_of_mem (s := s) (t := setOp s { o with wrote := true }) rfl]
  have hweir : (eddyPut (setOp s { o with wrote := true }) (theWrite o o.id a c b)).weir = (setOp s { o with wrote := true }).weir := by
    rw [hframe]
  refine ⟨_, exec_eddyWrite ho hc hph hsp hb hlen hout hcred, ?_, ?_, ?_, ?_, ?_, fun l hl => poisoned_eddyPut_ne hl, ?_, ?_, ?_⟩
  · rw [hframe]; rfl
  · rw [opOf?, hweir]
    exact opOf?_setOp_self s { o with wrote := true } (by rw [ho]; rfl)
  · exact othersKept_trans (othersKept_setOp s { o with wrote := true }) (othersKept_of_weir hweir)
  · intro i hi
    rw [hread, writeByte?_in hi, Option.getD_some]
  · intro x hx
    rw [hread, writeByte?_out hx, Option.getD_none]
  · intro hbehind hroom
    obtain ⟨hwait, hpoison, hdue⟩ := eddyPut_enters (s := setOp s { o with wrote := true }) (w := theWrite o o.id a c b) hbehind hroom
    refine ⟨hwait, ?_, hdue⟩
    rw [poisoned, hpoison]
    exact poisoned_cleanFor_self (setOp s { o with wrote := true }) (theWrite o o.id a c b)
  · exact eddyPut_waits (s := setOp s { o with wrote := true }) (w := theWrite o o.id a c b)
  · exact eddyPut_oldest_due (s := setOp s { o with wrote := true }) (w := theWrite o o.id a c b)

/-- EDDY_AGE_EXPIRY (R163). -/
theorem eddyAgeExpiry_settled (s : State) (k line : Nat) (h : (entriesOn s k).any (fun e => e.line == line) = true) :
    ∃ t, exec (.eddyAgeExpiry k line) s = .next t ∧ (∀ a, readByte t a = readByte s a) ∧
      (∀ e ∈ entriesOn t k, e.line = line → e.due = true) ∧
      (entriesOn t k).map (fun e => { e with due := true }) = (entriesOn s k).map (fun e => { e with due := true }) ∧
      t = { s with mem := { s.mem with eddies := t.mem.eddies } } := by
  have hent : entriesOn (setEddy s k ((entriesOn s k).map (fun e => if e.line = line then { e with due := true } else e))) k =
      (entriesOn s k).map (fun e => if e.line = line then { e with due := true } else e) := tabGet_tabPut_self [] _ _ _
  refine ⟨_, exec_eddyAgeExpiry h, readByte_ageExpiry s k line, ?_, ?_, rfl⟩
  · rw [hent, List.forall_mem_map]
    intro e _ hline
    by_cases he : e.line = line
    · rw [if_pos he]
    · rw [if_neg he] at hline
      exact absurd hline he
  · rw [hent, List.map_map]
    refine List.map_congr_left fun e _ => ?_
    by_cases he : e.line = line <;> simp [he]

end Sys2Proof.Machine

/-! PROOF. An entry drained leaves every byte read as it was (spec/08 R163 to R166). -/

namespace Sys2Proof.Machine

open Sys2Proof

/-! ### One entry -/

/-- An entry as a stack's Eddy holds it: of a line of that stack, its masked bytes by rising offset. -/
structure EntryOk (k : Nat) (e : EddyEntry) : Prop where
  space : space e.line = 0
  aligned : e.line % 256 = 0
  stack : dramStack e.line = k
  sorted : tabSorted e.bytes = true
  within : ∀ b ∈ e.bytes, b.1 < 256

/-- The entries of a stack in their canonical form: of different lines. -/
structure EntriesOk (s : State) (k : Nat) : Prop where
  lines : ((entriesOn s k).map (fun e => e.line)).Nodup
  each : ∀ e ∈ entriesOn s k, EntryOk k e

theorem nodup_of_hasRepeat {l : List Nat} (h : hasRepeat l = false) : l.Nodup := by
  induction l with
  | nil => exact List.nodup_nil
  | cons x l ih =>
    obtain ⟨hx, hl⟩ := Bool.or_eq_false_iff.mp h
    exact List.nodup_cons.mpr ⟨by simpa using hx, ih hl⟩

theorem entriesOk_of_eddiesOk {s : State} (h : eddiesOk s.mem = true) (k : Nat) : EntriesOk s k := by
  have hall := List.all_eq_true.mp (Bool.and_eq_true_iff.mp h).1
  cases hk : tabGet? s.mem.eddies k with
  | none =>
    have hnil : entriesOn s k = [] := by rw [entriesOn, tabGet, hk]; rfl
    exact ⟨by rw [hnil]; exact List.nodup_nil, by rw [hnil]; exact fun _ h => absurd h List.not_mem_nil⟩
  | some es =>
    have hes : entriesOn s k = es := by rw [entriesOn, tabGet, hk]; rfl
    obtain ⟨hlines, heach⟩ := Bool.and_eq_true_iff.mp (hall _ (mem_of_tabGet? hk))
    refine ⟨by rw [hes]; exact nodup_of_hasRepeat (by simpa using hlines), fun e he => ?_⟩
    have hok := List.all_eq_true.mp heach e (hes ▸ he)
    simp only [Bool.and_eq_true, beq_iff_eq, List.all_eq_true, decide_eq_true_eq] at hok
    obtain ⟨⟨⟨⟨hspace, haligned⟩, hstack⟩, hsorted⟩, hwithin⟩ := hok
    exact ⟨hspace, haligned, hstack, hsorted, hwithin⟩

theorem EntriesOk.unique {s : State} {k : Nat} (h : EntriesOk s k) {x y : EddyEntry} (hx : x ∈ entriesOn s k) (hy : y ∈ entriesOn s k)
    (hxy : x.line = y.line) : x = y := List.inj_on_of_nodup_map h.lines hx hy hxy

/-- An entry listed is the one found by its line. -/
theorem EntriesOk.find {s : State} {k : Nat} (h : EntriesOk s k) {e : EddyEntry} (he : e ∈ entriesOn s k) :
    (entriesOn s k).find? (fun x => x.line == e.line) = some e := by
  obtain ⟨x, hx⟩ := Option.isSome_iff_exists.mp ((List.find?_isSome (p := fun x => x.line == e.line)).mpr ⟨e, he, beq_self_eq_true _⟩)
  rw [hx, h.unique (List.mem_of_find?_eq_some hx) he (by simpa using List.find?_some hx)]

/-- Masked bytes put behind the Eddy are what is stored there; every other byte stays. -/
theorem storedByte_putMasked {m : Mem} (hm : m.wf = true) (line : Nat) {t : Tab Byte} (ht : tabSorted t = true) (x : Nat) :
    storedByte (putMasked m line t) x = if line ≤ x then (tabGet? t (x - line)).getD (storedByte m x) else storedByte m x := by
  induction t generalizing m with
  | nil => simp [putMasked]
  | cons y r ih =>
    obtain ⟨o, b⟩ := y
    have hr := (tabSorted_cons.mp ht).2
    have hnone : tabGet? r o = none := by simpa [tabDel] using tabGet?_tabDel_self ht o
    rw [putMasked, ih (wf_putCell hm _ _) hr, tabGet?_cons]
    by_cases hx : x = line + o
    · subst hx
      rw [if_pos (Nat.le_add_right _ _), if_pos (Nat.le_add_right _ _), Nat.add_sub_cancel_left, hnone,
        storedByte_putCell_self ((Mem.wf_iff m).mp hm).1, if_pos rfl]
      rfl
    · rw [storedByte_putCell_ne m b hx]
      by_cases hle : line ≤ x
      · rw [if_pos hle, if_pos hle, if_neg (by omega)]
      · rw [if_neg hle, if_neg hle]

/-- A table with keys below a bound holds none from it on. -/
theorem tabGet?_eq_none_of_bound {t : Tab Byte} (h : ∀ b ∈ t, b.1 < 256) {i : Nat} (hi : 256 ≤ i) : tabGet? t i = none := by
  cases hg : tabGet? t i with
  | none => rfl
  | some v => exact absurd (h _ (mem_of_tabGet? hg)) (Nat.not_lt.mpr hi)

/-- What an entry drained stores: its masked bytes in its line. -/
theorem storedByte_drained {m : Mem} (hm : m.wf = true) {k : Nat} {e : EddyEntry} (he : EntryOk k e) (x : Nat) :
    storedByte (putMasked m e.line e.bytes) x =
      if lineOf x = e.line then (tabGet? e.bytes (x % 256)).getD (storedByte m x) else storedByte m x := by
  have haligned := he.aligned
  rw [storedByte_putMasked hm _ he.sorted]
  by_cases hx : lineOf x = e.line
  · rw [lineOf_eq] at hx
    rw [if_pos (by omega), if_pos (by rw [lineOf_eq]; omega), show x - e.line = x % 256 by omega]
  · rw [if_neg hx]
    rw [lineOf_eq] at hx
    by_cases hle : e.line ≤ x
    · rw [if_pos hle, tabGet?_eq_none_of_bound he.within (by omega), Option.getD_none]
    · rw [if_neg hle]

/-- What an entry drained adds to the read-modify-writes of its stack. -/
def rmwOf (e : EddyEntry) : Nat := if entryFull e then 0 else 1

/-- Entries of a stack drained: the Eddy is without their lines, every byte reads as before, each partial one is counted. -/
structure Drained (k : Nat) (ds : List EddyEntry) (s t : State) : Prop where
  read : ∀ x, readByte t x = readByte s x
  entries : entriesOn t k = (entriesOn s k).filter (fun x => !(ds.any (fun d => d.line == x.line)))
  others : ∀ j, j ≠ k → entriesOn t j = entriesOn s j
  wf : t.mem.wf = true
  count : rd s oEDDY_RMW_COUNT (k + 1) < 2 ^ 64 →
    rd t oEDDY_RMW_COUNT (k + 1) = (rd s oEDDY_RMW_COUNT (k + 1) + (ds.map rmwOf).sum) % 2 ^ 64
  frame : t = { s with dict := t.dict, mem := { s.mem with cells := t.mem.cells, eddies := t.mem.eddies } }

/-- Of memory, bytes put behind the Eddy change the listed bytes only. -/
theorem putMasked_eq (m : Mem) (line : Nat) (t : Tab Byte) : putMasked m line t = { m with cells := (putMasked m line t).cells } := by
  induction t generalizing m with
  | nil => rfl
  | cons x r ih => rw [putMasked, ih]; rfl

/-- Memory once an entry of a stack has drained. -/
def drainedMem (m : Mem) (k : Nat) (e : EddyEntry) : Mem :=
  putMasked { m with eddies := tabPut m.eddies k ((tabGet [] m.eddies k).filter (fun x => x.line != e.line)) } e.line e.bytes

theorem drainEntry_mem (s : State) (k : Nat) (e : EddyEntry) : (drainEntry s k e).mem = drainedMem s.mem k e := by
  rw [drainEntry]; split <;> rfl

theorem drainEntry_frame (s : State) (k : Nat) (e : EddyEntry) :
    drainEntry s k e = { s with dict := (drainEntry s k e).dict, mem := drainedMem s.mem k e } := by
  rw [drainEntry]; split <;> rfl

theorem drainEntry_count (s : State) (k : Nat) (e : EddyEntry) (h : rd s oEDDY_RMW_COUNT (k + 1) < 2 ^ 64) :
    rd (drainEntry s k e) oEDDY_RMW_COUNT (k + 1) = (rd s oEDDY_RMW_COUNT (k + 1) + rmwOf e) % 2 ^ 64 := by
  rw [drainEntry, rmwOf]
  dsimp only
  split
  · exact (Nat.mod_eq_of_lt h).symm
  · exact rd_wr_self _ _ _ _

theorem drained_nil {k : Nat} {s : State} (h : s.mem.wf = true) : Drained k [] s s := by
  refine ⟨fun _ => rfl, by simp, fun _ _ => rfl, h, fun hc => ?_, rfl⟩
  simpa using (Nat.mod_eq_of_lt hc).symm

theorem entriesOn_drainEntry_self (s : State) (k : Nat) (e : EddyEntry) :
    entriesOn (drainEntry s k e) k = (entriesOn s k).filter (fun x => x.line != e.line) := by
  rw [entriesOn, drainEntry_mem, drainedMem, putMasked_eq]
  exact tabGet_tabPut_self [] _ _ _

theorem entriesOn_drainEntry_ne {s : State} {k j : Nat} (e : EddyEntry) (h : j ≠ k) :
    entriesOn (drainEntry s k e) j = entriesOn s j := by
  rw [entriesOn, drainEntry_mem, drainedMem, putMasked_eq]
  exact tabGet_tabPut_ne [] _ _ h

/-- The masked bytes of the line of an entry drained are gone; other lines keep theirs. -/
theorem maskOf_drainEntry {s : State} {k : Nat} {e : EddyEntry} (he : EntryOk k e) (l : Nat) :
    maskOf (drainEntry s k e) l = if l = e.line then none else maskOf s l := by
  rw [maskOf_eq, maskOf_eq]
  by_cases hl : l = e.line
  · rw [hl, he.stack, entriesOn_drainEntry_self, if_pos rfl, List.find?_filter]
    simp
  · rw [if_neg hl]
    by_cases hk : dramStack l = k
    · rw [hk, entriesOn_drainEntry_self, List.find?_filter]
      congr 2
      funext x
      by_cases hx : x.line = l <;> simp [hx, hl]
    · rw [entriesOn_drainEntry_ne e hk]

/-- An entry drained leaves every byte read as it was. -/
theorem readByte_drainEntry {s : State} {k : Nat} {e : EddyEntry} (hm : s.mem.wf = true) (hs : EntriesOk s k)
    (he : e ∈ entriesOn s k) (x : Nat) : readByte (drainEntry s k e) x = readByte s x := by
  have hok := hs.each e he
  have hstored : storedByte (drainEntry s k e).mem x =
      if lineOf x = e.line then (tabGet? e.bytes (x % 256)).getD (storedByte s.mem x) else storedByte s.mem x := by
    rw [drainEntry_mem]
    exact storedByte_drained (wf_setEddy hm k _) hok x
  have hwait : (drainEntry s k e).mem.eddyWait = s.mem.eddyWait := by rw [drainEntry_mem, drainedMem, putMasked_eq]
  by_cases hx : lineOf x = e.line
  · have hspace : space x = 0 := (space_congr (by rw [hx, lineOf_of_aligned hok.aligned])).trans hok.space
    have hmask : maskOf s (lineOf x) = some e.bytes := by rw [maskOf_eq, hx, hok.stack, hs.find he]; rfl
    rw [readByte_dram hspace, readByte_dram hspace, hwait, eddyByte_eq, eddyByte_eq, maskOf_drainEntry hok, hmask, if_pos hx, hstored,
      if_pos hx]
    rfl
  · exact readByte_congr (by rw [hstored, if_neg hx]) (by rw [maskOf_drainEntry hok, if_neg hx]) (by rw [hwait])

theorem entriesOk_drainEntry {s : State} {k : Nat} (h : EntriesOk s k) (e : EddyEntry) : EntriesOk (drainEntry s k e) k := by
  refine ⟨?_, fun x hx => ?_⟩
  · rw [entriesOn_drainEntry_self]
    exact h.lines.sublist (List.filter_sublist.map _)
  · rw [entriesOn_drainEntry_self] at hx
    exact h.each x (List.mem_of_mem_filter hx)

/-! ### Several entries -/

/-- Entries of a stack, of different lines, drained one after the other. -/
theorem drained_foldl {k : Nat} {ds : List EddyEntry} {s : State} (hm : s.mem.wf = true) (hs : EntriesOk s k)
    (hds : ∀ d ∈ ds, d ∈ entriesOn s k) (hn : (ds.map (fun d => d.line)).Nodup) :
    Drained k ds s (ds.foldl (fun t x => drainEntry t k x) s) := by
  induction ds generalizing s with
  | nil => exact drained_nil hm
  | cons d ds ih =>
    obtain ⟨hd, hrest⟩ := List.forall_mem_cons.mp hds
    obtain ⟨hfresh, hn⟩ := List.nodup_cons.mp hn
    have hkeep : ∀ x ∈ ds, x ∈ entriesOn (drainEntry s k d) k := fun x hx => by
      rw [entriesOn_drainEntry_self]
      have hne : x.line ≠ d.line := fun hxd => hfresh (List.mem_map.mpr ⟨x, hx, hxd⟩)
      exact List.mem_filter.mpr ⟨hrest x hx, by simpa using hne⟩
    obtain ⟨hread, hent, hoth, hwf, hcount, hframe⟩ := ih (wf_drainEntry hm k d) (entriesOk_drainEntry hs d) hkeep hn
    rw [List.foldl_cons]
    refine ⟨fun x => (hread x).trans (readByte_drainEntry hm hs hd x), ?_, ?_, hwf, fun hc => ?_, ?_⟩
    · rw [hent, entriesOn_drainEntry_self, List.filter_filter]
      refine List.filter_congr fun x _ => ?_
      rw [List.any_cons, Bool.not_or, Bool.and_comm]
      simp [bne, BEq.comm]
    · exact fun j hj => (hoth j hj).trans (entriesOn_drainEntry_ne d hj)
    · rw [hcount (by rw [drainEntry_count s k d hc]; omega), drainEntry_count s k d hc, List.map_cons, List.sum_cons]
      omega
    · rw [hframe, drainEntry_frame, drainedMem, putMasked_eq]

/-- Entries that are due in a row run (R163). -/
def dueIn (s : State) (k line : Nat) : List EddyEntry := (entriesOn s k).filter (fun x => x.due && rowOf x.line == rowOf line)

/-- The entries of a burst: one that is due, and the others of its row run. -/
def burstOf (s : State) (k : Nat) (e : EddyEntry) : List EddyEntry :=
  e :: (entriesOn s k).filter (fun x => x.due && rowOf x.line == rowOf e.line && x.line != e.line)

theorem burst_perm {s : State} {k : Nat} {e : EddyEntry} (hs : EntriesOk s k) (he : e ∈ entriesOn s k) (hdue : e.due = true) :
    (burstOf s k e).Perm (dueIn s k e.line) := by
  have hnodup : (entriesOn s k).Nodup := hs.lines.of_map
  refine (List.perm_ext_iff_of_nodup (l₂ := dueIn s k e.line) ?_ (hnodup.filter _)).mpr fun x => ?_
  · exact List.nodup_cons.mpr ⟨by simp, hnodup.filter _⟩
  · rw [burstOf, dueIn, List.mem_cons, List.mem_filter, List.mem_filter]
    by_cases hx : x = e
    · subst hx; simp [he, hdue]
    · have hline : x ∈ entriesOn s k → x.line ≠ e.line := fun hmem hl => hx (hs.unique hmem he hl)
      simp only [hx, false_or, Bool.and_eq_true, bne_iff_ne]
      tauto

/-- A burst drains every due entry of the row run (R163). -/
theorem drained_burst {s : State} {k : Nat} {e : EddyEntry} (hm : s.mem.wf = true) (hs : EntriesOk s k) (he : e ∈ entriesOn s k)
    (hdue : e.due = true) : Drained k (burstOf s k e) s (drainBurst s k e) := by
  have hperm := burst_perm hs he hdue
  refine drained_foldl hm hs (fun d hd => List.mem_of_mem_filter (hperm.mem_iff.mp hd)) ?_
  exact (hperm.map _).nodup_iff.mpr (hs.lines.sublist (List.filter_sublist.map _))

theorem sum_rmwOf (ds : List EddyEntry) : (ds.map rmwOf).sum = (ds.filter (fun x => !(entryFull x))).length := by
  induction ds with
  | nil => rfl
  | cons d ds ih =>
    rw [List.map_cons, List.sum_cons, List.filter_cons, ih, rmwOf]
    cases entryFull d <;> simp [Nat.add_comm]

/-- The lines of a burst are those of the due entries of the row run. -/
theorem burst_lines {s : State} {k : Nat} {e : EddyEntry} (hs : EntriesOk s k) (he : e ∈ entriesOn s k) (hdue : e.due = true)
    {x : EddyEntry} (hx : x ∈ entriesOn s k) :
    (burstOf s k e).any (fun d => d.line == x.line) = (x.due && rowOf x.line == rowOf e.line) := by
  rw [Bool.eq_iff_iff, List.any_eq_true]
  constructor
  · rintro ⟨d, hd, hline⟩
    obtain ⟨hmem, hd⟩ := List.mem_filter.mp ((burst_perm hs he hdue).mem_iff.mp hd)
    obtain rfl := hs.unique hmem hx (by simpa using hline)
    exact hd
  · exact fun h => ⟨x, (burst_perm hs he hdue).mem_iff.mpr (List.mem_filter.mpr ⟨hx, h⟩), beq_self_eq_true _⟩

end Sys2Proof.Machine

/-! PROOF. Writes that waited are tried again: the order within a line stays, so no byte read changes (spec/02 R43, R258). -/

namespace Sys2Proof.Machine

open Sys2Proof

/-! ### The order of writes to a line -/

/-- A write of a line. -/
def ofLine (line : Nat) (w : EddyWait) : Bool := lineOf w.addr == line

theorem splitWaits_ahead {held : List Nat} {w : EddyWait} (h : (w.urgent && !(held.contains (lineOf w.addr))) = true)
    (r : List EddyWait) : splitWaits held (w :: r) = (w :: (splitWaits held r).1, (splitWaits held r).2) := if_pos h

theorem splitWaits_back {held : List Nat} {w : EddyWait} (h : (w.urgent && !(held.contains (lineOf w.addr))) = false)
    (r : List EddyWait) : splitWaits held (w :: r) =
      ((splitWaits (lineOf w.addr :: held) r).1, w :: (splitWaits (lineOf w.addr :: held) r).2) := if_neg (by rw [h]; simp)

/-- Of a line that stands back no write goes ahead. -/
theorem splitWaits_held {held : List Nat} {line : Nat} (hline : line ∈ held) (ws : List EddyWait) :
    (splitWaits held ws).1.filter (ofLine line) = [] := by
  induction ws generalizing held with
  | nil => rfl
  | cons w ws ih =>
    cases hw : w.urgent && !(held.contains (lineOf w.addr)) with
    | true =>
      have hne : ofLine line w = false := by
        have hfree : lineOf w.addr ∉ held := by simpa using (Bool.and_eq_true_iff.mp hw).2
        exact beq_eq_false_iff_ne.mpr fun e => hfree (e ▸ hline)
      rw [splitWaits_ahead hw, List.filter_cons_of_neg (by rw [hne]; exact Bool.false_ne_true), ih hline]
    | false =>
      rw [splitWaits_back hw]
      exact ih (List.mem_cons_of_mem _ hline)

/-- Those of URGENT operations first, the writes to a line keep their order (R43). -/
theorem splitWaits_ofLine (held : List Nat) (line : Nat) (ws : List EddyWait) :
    ((splitWaits held ws).1 ++ (splitWaits held ws).2).filter (ofLine line) = ws.filter (ofLine line) := by
  induction ws generalizing held with
  | nil => rfl
  | cons w ws ih =>
    cases hw : w.urgent && !(held.contains (lineOf w.addr)) with
    | true =>
      rw [splitWaits_ahead hw, List.cons_append, List.filter_cons, List.filter_cons, ih]
    | false =>
      have hrest := ih (lineOf w.addr :: held)
      rw [List.filter_append] at hrest
      rw [splitWaits_back hw, List.filter_append, List.filter_cons, List.filter_cons]
      cases hl : ofLine line w with
      | false => exact hrest
      | true =>
        have hnone := splitWaits_held (List.mem_cons.mpr (.inl (beq_iff_eq.mp hl).symm)) (held := lineOf w.addr :: held) ws
        rw [hnone, List.nil_append] at hrest
        rw [hnone, if_pos rfl, if_pos rfl, hrest, List.nil_append]

/-- The writes that wait, in the order in which they are tried again. -/
def retryOrder (ws : List EddyWait) : List EddyWait := (splitWaits [] ws).1 ++ (splitWaits [] ws).2

theorem mem_retryOrder {ws : List EddyWait} {w : EddyWait} (h : w ∈ retryOrder ws) : w ∈ ws := by
  have hmem : w ∈ (retryOrder ws).filter (ofLine (lineOf w.addr)) := List.mem_filter.mpr ⟨h, beq_self_eq_true _⟩
  rw [retryOrder, splitWaits_ofLine] at hmem
  exact List.mem_of_mem_filter hmem

theorem waitByte?_retryOrder {ws : List EddyWait} (h : ∀ w ∈ ws, InLine w) (x : Nat) :
    waitByte? (retryOrder ws) x = waitByte? ws x := by
  rw [← waitByte?_filter (fun w hw => h w (mem_retryOrder hw)), ← waitByte?_filter h]
  exact congrArg (waitByte? · x) (splitWaits_ofLine [] (lineOf x) ws)

/-! ### Tried again -/

theorem readByte_foldl_eddyPut {l : List EddyWait} {s : State} (hl : ∀ w ∈ l, InLine w) (hs : ∀ w ∈ s.mem.eddyWait, InLine w)
    (x : Nat) : readByte (l.foldl eddyPut s) x = (waitByte? l x).getD (readByte s x) := by
  induction l generalizing s with
  | nil => rfl
  | cons w l ih =>
    obtain ⟨hw, hl⟩ := List.forall_mem_cons.mp hl
    rw [List.foldl_cons, ih hl (inLine_eddyPut hw hs), readByte_eddyPut hw hs, waitByte?_cons]
    cases waitByte? l x <;> rfl

/-- Writes tried again leave every byte read as it was. -/
theorem readByte_retryWaits {s : State} (h : ∀ w ∈ s.mem.eddyWait, InLine w) (x : Nat) : readByte (retryWaits s) x = readByte s x := by
  show readByte ((retryOrder s.mem.eddyWait).foldl eddyPut { s with mem := { s.mem with eddyWait := [] } }) x = _
  rw [readByte_foldl_eddyPut (fun w hw => h w (mem_retryOrder hw)) (fun _ hw => absurd hw List.not_mem_nil), waitByte?_retryOrder h]
  by_cases hspace : space x = 0
  · rw [readByte_dram hspace, readByte_dram hspace]; rfl
  · rw [waitByte?_of_space h hspace, readByte_other hspace, readByte_other hspace]; rfl

/-- Of the state only the Eddies, the writes that wait and the poison marks change. -/
def EddyOnly (s t : State) : Prop := t = { s with mem := { s.mem with
  eddies := t.mem.eddies, eddyWait := t.mem.eddyWait, poison := t.mem.poison } }

theorem EddyOnly.trans {s t u : State} (h : EddyOnly s t) (h' : EddyOnly t u) : EddyOnly s u := by
  unfold EddyOnly at *
  rw [h', h]

theorem eddyOnly_foldl (l : List EddyWait) (s : State) : EddyOnly s (l.foldl eddyPut s) := by
  induction l generalizing s with
  | nil => rfl
  | cons w l ih => exact EddyOnly.trans (eddyPut_frame s w) (ih _)

theorem eddyOnly_retryWaits (s : State) : EddyOnly s (retryWaits s) :=
  EddyOnly.trans (t := { s with mem := { s.mem with eddyWait := [] } }) rfl (eddyOnly_foldl _ _)

theorem retryWaits_of_none {s : State} (h : s.mem.eddyWait = []) : retryWaits s = s := by
  rw [retryWaits, h]
  show { s with mem := { s.mem with eddyWait := [] } } = s
  rw [← h]

end Sys2Proof.Machine

/-! PROOF. What cores that go on asking for operands change (spec/02 R35, R44, R45; spec/06 R122). -/

namespace Sys2Proof.Machine

open Sys2Proof

/-! ### Operations but for what they ask -/

/-- From `s` to `t` cores have gone on asking: of the operations only what they have asked for and what has come in changes, of the
cores only the weights they hold, of memory only the line requests. -/
structure Asking (s t : State) : Prop where
  frame : t = { s with weir := { s.weir with ops := t.weir.ops }, cores := t.cores, mem := { s.mem with reads := t.mem.reads } }
  ops : t.weir.ops.map Op.asks = s.weir.ops.map Op.asks
  cores : ∀ c, (coreOf t c).exec = (coreOf s c).exec ∧ (coreOf t c).arrays.rill = (coreOf s c).arrays.rill

theorem Asking.refl (s : State) : Asking s s := ⟨rfl, rfl, fun _ => ⟨rfl, rfl⟩⟩

theorem Asking.trans {s t u : State} (h : Asking s t) (h' : Asking t u) : Asking s u := by
  refine ⟨?_, h'.ops.trans h.ops, fun c => ⟨(h'.cores c).1.trans (h.cores c).1, (h'.cores c).2.trans (h.cores c).2⟩⟩
  rw [h'.frame, h.frame]

/-- An operation found after is one found before, but for what it asks. -/
theorem Asking.opOf? {s t : State} (h : Asking s t) (i : Nat) : (opOf? t i).map Op.asks = (opOf? s i).map Op.asks := by
  have hfind : ∀ l : List Op, (l.find? (fun o => o.id == i)).map Op.asks = (l.map Op.asks).find? (fun o => o.id == i) := fun l => by
    rw [List.find?_map]; rfl
  rw [Machine.opOf?, Machine.opOf?, hfind, hfind, h.ops]

theorem readsAhead_asks (o : Op) : readsAhead o.asks = readsAhead o := rfl

/-- The rows in the Rills stay as they are, and so do those they belong to. -/
theorem Asking.rowsSettled {s t : State} (h : Asking s t) (hs : RowsSettled s) : RowsSettled t := by
  intro c v hv
  obtain ⟨i, hi, hop⟩ := Option.bind_eq_some_iff.mp hv
  have hasks := h.opOf? i
  rw [hop] at hasks
  obtain ⟨u, hu, huv⟩ := Option.map_eq_some_iff.mp hasks.symm
  rw [(h.cores c).2, ← readsAhead_asks v, ← huv, readsAhead_asks]
  exact hs c u (Option.bind_eq_some_iff.mpr ⟨i, (h.cores c).1 ▸ hi, hu⟩)

theorem map_asks_replaceOp {l : List Op} {o v : Op} (h : l.find? (fun x => x.id == o.id) = some v) (ha : o.asks = v.asks) :
    (replaceOp o l).map Op.asks = l.map Op.asks := by
  induction l with
  | nil => rfl
  | cons x r ih =>
    rw [replaceOp]
    by_cases hx : x.id = o.id
    · rw [List.find?_cons_of_pos (by simpa using hx)] at h
      rw [if_pos hx, List.map_cons, List.map_cons, Option.some.inj h, ha]
    · rw [List.find?_cons_of_neg (by simpa using hx)] at h
      rw [if_neg hx, List.map_cons, List.map_cons, ih h]

/-- An operation stored that differs from the one found only in what it asks. -/
theorem asking_setOp {s : State} {o v : Op} (h : opOf? s o.id = some v) (ha : o.asks = v.asks) : Asking s (setOp s o) :=
  ⟨rfl, map_asks_replaceOp h ha, fun _ => ⟨rfl, rfl⟩⟩

theorem id_of_opOf? {s : State} {i : Nat} {o : Op} (h : opOf? s i = some o) : o.id = i :=
  beq_iff_eq.mp (List.find?_some (l := s.weir.ops) (p := fun x : Op => x.id == i) h)

/-! ### Lines and host reads -/

/-- A line lands in buffers of an operation. -/
theorem asking_landLine {s : State} {o v : Op} (h : opOf? s o.id = some v) (ha : o.asks = v.asks) (line : Nat) :
    Asking s (landLine s o line) := by
  rw [landLine]
  split
  · exact Asking.refl s
  · generalize tabPutAll o.landed line (readBytes s line 256) = l
    exact asking_setOp h ha

theorem asking_reads (s : State) (r : List LineRead) : Asking s { s with mem := { s.mem with reads := r } } :=
  ⟨rfl, rfl, fun _ => ⟨rfl, rfl⟩⟩

theorem asking_askLines (id n : Nat) (s : State) : Asking s (askLines id n s) := by
  induction n generalizing s with
  | zero => exact Asking.refl s
  | succ n ih =>
    rw [askLines]
    cases hop : opOf? s id with
    | none => exact Asking.refl s
    | some o =>
      have hid := id_of_opOf? hop
      subst hid
      dsimp only
      split
      · next c line hc hline =>
        have hmore : Asking s (setOp s { o with asked := o.asked + 1 }) := asking_setOp (v := o) hop rfl
        have hfound : opOf? (setOp s { o with asked := o.asked + 1 }) o.id = some { o with asked := o.asked + 1 } :=
          opOf?_setOp_self s { o with asked := o.asked + 1 } (by rw [hop]; rfl)
        split
        · refine Asking.trans ?_ (ih _)
          exact hmore.trans (asking_landLine (o := { o with asked := o.asked + 1 }) hfound rfl line)
        · split
          · exact Asking.refl s
          · refine Asking.trans ?_ (ih _)
            exact (asking_reads s _).trans (asking_setOp (v := o) hop rfl)
      · exact Asking.refl s

theorem asking_askHost (id n : Nat) (s : State) : Asking s (askHost id n s) := by
  induction n generalizing s with
  | zero => exact Asking.refl s
  | succ n ih =>
    rw [askHost]
    cases hop : opOf? s id with
    | none => exact Asking.refl s
    | some o =>
      have hid := id_of_opOf? hop
      subst hid
      dsimp only
      split
      · split
        · refine Asking.trans ?_ (ih _)
          exact asking_setOp (v := o) hop rfl
        · exact Asking.refl s
      · exact Asking.refl s

theorem opOf?_of_executingOn {s : State} {c : Nat} {o : Op} (h : executingOn s c = some o) : opOf? s o.id = some o := by
  obtain ⟨i, -, hop⟩ := Option.bind_eq_some_iff.mp h
  rw [id_of_opOf? hop, hop]

theorem asking_retile (s : State) (c : Nat) : Asking s (retile s c) := by
  rw [retile]
  split
  · next o ho =>
    split
    · exact asking_setOp (v := o) (opOf?_of_executingOn ho) rfl
    · exact Asking.refl s
  · exact Asking.refl s

/-! ### The next tile -/

/-- A core stored with the operation it executes and its Rill as they were. -/
theorem asking_setCore {s : State} {c : Nat} {x : Core} (he : x.exec = (coreOf s c).exec)
    (hr : x.arrays.rill = (coreOf s c).arrays.rill) : Asking s (setCore s c x) := by
  refine ⟨rfl, rfl, fun d => ?_⟩
  by_cases hd : d = c
  · subst hd
    rw [coreOf_setCore_self]
    exact ⟨he, hr⟩
  · rw [coreOf_setCore_ne s x hd]
    exact ⟨rfl, rfl⟩

/-- No row leaves an empty Rill. -/
theorem drainTo_empty {s : State} {c : Nat} (h : (coreOf s c).arrays.rill = []) (keep : Nat) (o : Op) :
    (drainTo keep c s o).2 = o ∧ Asking s (drainTo keep c s o).1 := by
  rw [drainTo, h, List.take_nil]
  exact ⟨rfl, asking_setCore rfl (by rw [h]; exact List.drop_nil)⟩

/-- A tile that enters the arrays without rows leaving before it. -/
theorem asking_enterTile {s : State} {c : Nat} {o : Op} (h : readsAhead o = true ∨ (coreOf s c).arrays.rill = []) (t : Nat) :
    (enterTile c t s o).2 = o ∧ Asking s (enterTile c t s o).1 := by
  have hy : (if readsAhead o then (s, o) else drainTo 0 c s o).2 = o ∧ Asking s (if readsAhead o then (s, o) else drainTo 0 c s o).1 := by
    cases hra : readsAhead o with
    | true => exact ⟨rfl, Asking.refl s⟩
    | false => exact drainTo_empty (h.resolve_left (by rw [hra]; exact Bool.false_ne_true)) 0 o
  obtain ⟨hop, hask⟩ := hy
  rw [enterTile]
  generalize (if readsAhead o then (s, o) else drainTo 0 c s o) = y at hop hask ⊢
  dsimp only
  split
  · exact ⟨hop, hask⟩
  · exact ⟨hop, hask.trans (asking_setCore rfl rfl)⟩

theorem asking_startTile {s : State} {c : Nat} (h : RowsSettled s) : Asking s (startTile c s) := by
  rw [startTile]
  dsimp only
  split
  · next o ho =>
    split
    · obtain ⟨hop, hask⟩ := asking_enterTile (h c o ho) o.tile
      obtain ⟨u, hu, huo⟩ := Option.map_eq_some_iff.mp ((hask.opOf? o.id).trans (by rw [opOf?_of_executingOn ho]; rfl))
      rw [hop]
      exact hask.trans (asking_setOp hu huo.symm)
    · exact Asking.refl s
  · exact Asking.refl s

/-- The operation of a core asks for more. -/
theorem asking_askMore {s : State} (c : Nat) (h : RowsSettled s) : Asking s (askMore s c) := by
  rw [askMore]
  split
  · next o ho =>
    split
    · exact Asking.refl s
    · have hask := ((asking_askHost o.id o.due.length s).trans (asking_askLines o.id (lineCount o.ins) _)).trans (asking_retile _ c)
      exact hask.trans (asking_startTile (hask.rowsSettled h))
  · exact Asking.refl s

theorem asking_foldl_askMore (cs : List Nat) {s : State} (h : RowsSettled s) : Asking s (cs.foldl askMore s) := by
  induction cs generalizing s with
  | nil => exact Asking.refl s
  | cons c cs ih =>
    have hone := asking_askMore c h
    exact hone.trans (ih (hone.rowsSettled h))

theorem Asking.readByte {s t : State} (h : Asking s t) (x : Nat) : readByte t x = readByte s x :=
  readByte_of_reads (by rw [h.frame]) x

theorem EddyOnly.rowsSettled {s t : State} (h : EddyOnly s t) (hs : RowsSettled s) : RowsSettled t := by
  rw [EddyOnly] at h
  intro c v hv
  rw [h] at hv ⊢
  exact hs c v hv

end Sys2Proof.Machine

/-! PROOF. EDDY_DRAIN_DONE, and the Eddy's statement (spec/08 R162 to R167; spec/19 R458). -/

namespace Sys2Proof.Machine

open Sys2Proof

/-! ### An error met on reading a line -/

theorem dramStack_lt (a : Nat) : dramStack a < 8 := by
  rw [dramStack, field]
  exact Nat.mod_lt _ (by decide)

/-- From `s` to `t` an error may have been counted, logged and told, and lines been poisoned: operations, cores and what is stored stay,
and so do the counts of read-modify-writes. -/
structure Found (s t : State) : Prop where
  weir : t.weir = s.weir
  cores : t.cores = s.cores
  mem : t.mem = { s.mem with poison := t.mem.poison }
  count : ∀ k, k < 8 → rd t oEDDY_RMW_COUNT (k + 1) = rd s oEDDY_RMW_COUNT (k + 1)
  poison : ∀ l, poisoned s l = true → poisoned t l = true

theorem Found.refl (s : State) : Found s s := ⟨rfl, rfl, rfl, fun _ _ => rfl, fun _ h => h⟩

theorem Found.trans {s t u : State} (h : Found s t) (h' : Found t u) : Found s u := by
  refine ⟨h'.weir.trans h.weir, h'.cores.trans h.cores, ?_, fun k hk => (h'.count k hk).trans (h.count k hk),
    fun l hl => h'.poison l (h.poison l hl)⟩
  rw [h'.mem, h.mem]

theorem Found.regr {s t : State} (h : Found s t) (r : Regr) : Found s { t with regr := r } := ⟨h.weir, h.cores, h.mem, h.count, h.poison⟩

theorem Found.power {s t : State} (h : Found s t) (p : Power) : Found s { t with power := p } := ⟨h.weir, h.cores, h.mem, h.count, h.poison⟩

theorem Found.poisonLine {s t : State} (h : Found s t) (line : Nat) : Found s (poisonLine t line) := by
  refine ⟨h.weir, h.cores, ?_, h.count, fun l hl => ?_⟩
  · rw [Machine.poisonLine, h.mem]
  · rw [poisoned_poisonLine, h.poison l hl, Bool.or_true]

theorem Found.wrBytesP {s t : State} (h : Found s t) (o sub : Nat) (b : List Byte) : Found s (wrBytesP t o sub b) :=
  ⟨h.weir, h.cores, h.mem, h.count, h.poison⟩

theorem Found.wrP {s t : State} (h : Found s t) {o sub : Nat} (v : Nat) (ho : o ≠ oEDDY_RMW_COUNT) (hsub : sub < 256) :
    Found s (wrP t o sub v) :=
  ⟨h.weir, h.cores, h.mem, fun k hk => (rd_wrP_ne t v (objKey_ne ho.symm (by omega) hsub)).trans (h.count k hk), h.poison⟩

theorem Found.count32P {s t : State} (h : Found s t) {o sub : Nat} (n : Nat) (ho : o ≠ oEDDY_RMW_COUNT) (hsub : sub < 256) :
    Found s (count32P t o sub n) := h.wrP _ ho hsub

theorem Found.notify {s t : State} (h : Found s t) (cls index sub value : Nat) : Found s (notify t cls index sub value) := by
  have htold := told_notify t cls index sub value
  refine ⟨?_, ?_, ?_, fun k hk => (htold.rd ?_).trans (h.count k hk), ?_⟩
  · rw [htold.rest]; exact h.weir
  · rw [htold.rest]; exact h.cores
  · rw [htold.rest]; exact h.mem
  · rw [List.mem_singleton]
    exact objKey_ne (by decide) (by omega) (by decide)
  · rw [htold.rest]; exact h.poison

theorem Found.logError {s t : State} (h : Found s t) (cls scope cause location addr action : Nat) :
    Found s (logError t cls scope cause location addr action) := by
  rw [Machine.logError]
  split
  · exact ((h.wrBytesP _ _ _).regr _).notify _ _ _ _
  · refine Found.notify (Found.regr (Found.wrP (Found.wrBytesP ?_ _ _ _) _ (by decide) (by decide)) _) _ _ _ _
    split
    · exact h.wrP _ (by decide) (by decide)
    · exact h

theorem Found.contained {s t : State} (h : Found s t) (scope cause location addr action : Nat) :
    Found s (contained t scope cause location addr action) := by
  rw [Machine.contained]
  exact ((h.count32P 1 (by decide) (by decide)).power _).logError _ _ _ _ _ _

theorem Found.startJob {s t : State} (h : Found s t) (j : RegrJob) : Found s (startJob t j) := by
  rw [Machine.startJob]
  split
  · exact h.regr _
  · exact h.regr _

theorem Found.startRow {s t : State} (h : Found s t) (line : Nat) : Found s (startRow t line) := by
  rw [Machine.startRow, startMove]
  split
  · exact h
  · split
    · exact h.startJob _
    · split
      · exact h
      · exact h.startJob _

/-- An uncorrectable error of a line that is not poisoned yet: poisoned, then counted, logged and told. -/
theorem found_raised (s : State) (line : Nat) (h : poisoned s line = false) : Found (poisonLine s line) (dramUe s line) := by
  have hsub := dramStack_lt line
  rw [dramUe, h, if_neg Bool.false_ne_true]
  exact (((Found.refl _).count32P 1 (by decide) (by omega)).contained _ _ _ _ _).startRow line

theorem found_dramUe (s : State) (line : Nat) : Found s (dramUe s line) := by
  cases h : poisoned s line with
  | true => rw [dramUe, if_pos h]; exact Found.refl s
  | false => exact ((Found.refl s).poisonLine line).trans (found_raised s line h)

/-- An uncorrectable error leaves its line poisoned. -/
theorem poisoned_dramUe (s : State) (line : Nat) : poisoned (dramUe s line) line = true := by
  cases h : poisoned s line with
  | true => rw [dramUe, if_pos h, h]
  | false => exact (found_raised s line h).poison line (by rw [poisoned_poisonLine]; simp)

theorem found_lineErr (s : State) (line : Nat) (err : LineErr) : Found s (lineErr s line err) := by
  have hsub := dramStack_lt line
  cases err with
  | clean => exact Found.refl s
  | corrected => exact (Found.refl s).count32P 1 (by decide) (by omega)
  | uncorrectable => exact found_dramUe s line

theorem Found.readByte {s t : State} (h : Found s t) (x : Nat) : readByte t x = readByte s x := by
  refine readByte_congr (by rw [h.mem]; rfl) ?_ (by rw [h.mem])
  rw [maskOf, maskOf, eddyEntry?, eddyEntry?, h.mem]

theorem rowsSettled_congr {s t : State} (hw : t.weir = s.weir) (hc : t.cores = s.cores) (h : RowsSettled s) : RowsSettled t := by
  have hop : opOf? t = opOf? s := funext fun i => by rw [opOf?, opOf?, hw]
  have hco : ∀ c, coreOf t c = coreOf s c := fun c => by rw [coreOf, coreOf, hc]
  intro c v hv
  rw [executingOn, hop, hco] at hv
  rw [hco]
  exact h c v hv

/-! ### EDDY_DRAIN_DONE -/

/-- The state once a burst has drained, what its first entry's read met found, and before the writes that waited are tried again. -/
def drainedState (s : State) (k line : Nat) (e : EddyEntry) (err : LineErr) : State :=
  if entryFull e then drainBurst s k e else lineErr (drainBurst s k e) line err

theorem exec_eddyDrainDone_held {s : State} {k line : Nat} {e : EddyEntry} (err : LineErr)
    (he : (entriesOn s k).find? (fun x => x.line == line && x.due) = some e)
    (hheld : (selfRefresh s k || repairHolds s line 256) = true) : exec (.eddyDrainDone k line err) s = .next s := by
  show execEddyDrainDone k line err s = _
  rw [execEddyDrainDone]
  simp only [he]
  refine congrArg Host.Outcome.next (if_pos ?_)
  rcases Bool.or_eq_true_iff.mp hheld with h | h <;> simp [h]

theorem exec_eddyDrainDone {s : State} {k line : Nat} {e : EddyEntry} (err : LineErr)
    (he : (entriesOn s k).find? (fun x => x.line == line && x.due) = some e) (hpow : s.power.compute = true)
    (hheld : (selfRefresh s k || repairHolds s line 256) = false) :
    exec (.eddyDrainDone k line err) s = .next (retryAll (drainedState s k line e err)) := by
  obtain ⟨hself, hrepair⟩ := Bool.or_eq_false_iff.mp hheld
  show execEddyDrainDone k line err s = _
  rw [execEddyDrainDone]
  simp only [he]
  exact congrArg Host.Outcome.next (if_neg (by simp [hself, hrepair, hpow]))

theorem found_drainedState (s : State) (k line : Nat) (e : EddyEntry) (err : LineErr) :
    Found (drainBurst s k e) (drainedState s k line e err) := by
  rw [drainedState]
  split
  · exact Found.refl _
  · exact found_lineErr _ _ _

theorem retryAll_of_none {s : State} (h : s.mem.eddyWait = []) : retryAll s = s := by
  rw [retryAll, retryWaits_of_none h, h]
  rfl

/-- Writes that waited tried again, and the cores that made them asking for more, change no byte read. -/
theorem asking_retryAll {s : State} (h : RowsSettled s) : Asking (retryWaits s) (retryAll s) :=
  asking_foldl_askMore _ ((eddyOnly_retryWaits s).rowsSettled h)

/-- EDDY_DRAIN_DONE of a due entry that may drain (R163, R164). -/
theorem eddyDrainDone_settled {s : State} {k line : Nat} {e : EddyEntry} {err : LineErr} (hwf : s.mem.wf = true)
    (hok : eddiesOk s.mem = true) (he : (entriesOn s k).find? (fun x => x.line == line && x.due) = some e)
    (hpow : s.power.compute = true) (hheld : (selfRefresh s k || repairHolds s line 256) = false) (hrows : RowsSettled s)
    (hcount : rd s oEDDY_RMW_COUNT (k + 1) < 2 ^ 64) :
    ∃ t, exec (.eddyDrainDone k line err) s = .next t ∧ (∀ a, readByte t a = readByte s a) ∧
      rd t oEDDY_RMW_COUNT (k + 1) =
        (rd s oEDDY_RMW_COUNT (k + 1) + ((dueIn s k line).filter (fun x => !(entryFull x))).length) % 2 ^ 64 ∧
      t.weir.ops.map Op.asks = s.weir.ops.map Op.asks ∧
      (s.mem.eddyWait = [] → t.weir = s.weir ∧
        entriesOn t k = (entriesOn s k).filter (fun x => !(x.due && rowOf x.line == rowOf line)) ∧
        (∀ j, j ≠ k → entriesOn t j = entriesOn s j) ∧
        (err = .uncorrectable → entryFull e = false → poisoned t line = true)) := by
  have hs := entriesOk_of_eddiesOk hok k
  have hmem : e ∈ entriesOn s k := List.mem_of_find?_eq_some he
  obtain ⟨hline, hdue⟩ : e.line = line ∧ e.due = true := by simpa using List.find?_some he
  subst hline
  have hk : k < 8 := (hs.each e hmem).stack ▸ dramStack_lt e.line
  obtain ⟨hread, hent, hoth, -, hrmw, hframe⟩ := drained_burst hwf hs hmem hdue
  have hfound := found_drainedState s k e.line e err
  have hweir : (drainedState s k e.line e err).weir = s.weir := hfound.weir.trans (by rw [hframe])
  have hcores : (drainedState s k e.line e err).cores = s.cores := hfound.cores.trans (by rw [hframe])
  have hwait : (drainedState s k e.line e err).mem.eddyWait = s.mem.eddyWait := by rw [hfound.mem, hframe]
  have heddies : (drainedState s k e.line e err).mem.eddies = (drainBurst s k e).mem.eddies := by rw [hfound.mem]
  have hin : ∀ w ∈ (drainedState s k e.line e err).mem.eddyWait, InLine w := by rw [hwait]; exact inLine_of_eddiesOk hok
  have hask := asking_retryAll (rowsSettled_congr hweir hcores hrows)
  have honly := eddyOnly_retryWaits (drainedState s k e.line e err)
  have hdict : (retryAll (drainedState s k e.line e err)).dict = (drainedState s k e.line e err).dict := by
    rw [hask.frame, honly]
  refine ⟨_, exec_eddyDrainDone err he hpow hheld, fun a => ?_, ?_, ?_, fun hnone => ?_⟩
  · rw [hask.readByte, readByte_retryWaits hin, hfound.readByte, hread]
  · rw [rd_congr (s := drainedState s k e.line e err) (by rw [hdict]), hfound.count k hk, hrmw hcount, sum_rmwOf,
      ((burst_perm hs hmem hdue).filter _).length_eq]
  · rw [hask.ops, honly, ← hweir]
  · rw [retryAll_of_none (hwait.trans hnone)]
    refine ⟨hweir, ?_, fun j hj => ?_, fun herr hpart => ?_⟩
    · rw [entriesOn, heddies]
      exact hent.trans (List.filter_congr fun x hx => by rw [burst_lines hs hmem hdue hx])
    · rw [entriesOn, heddies]
      exact hoth j hj
    · rw [drainedState, hpart, herr, if_neg Bool.false_ne_true]
      exact poisoned_dramUe _ _

/-- Settles O37: a write at the Eddy is read in front of what was read, by the four things it can do there; an entry drained stores
its masked bytes, so that no read changes; writes tried again keep their order within a line. -/
theorem eddyHoldsWritesUntilTheyDrain : Obligations.EddyHoldsWritesUntilTheyDrain := by
  unfold Obligations.EddyHoldsWritesUntilTheyDrain
  refine ⟨?_, eddyAgeExpiry_settled, ?_⟩
  · intro s op a c b o ho hc hph hsp hb hlen hout hcred _ hok
    exact eddyWrite_settled s op a c b o ho hc hph hsp hb hlen hout hcred hok
  · intro s k line e err hwf hok he hpow
    exact ⟨exec_eddyDrainDone_held err he, fun hheld hrows hcount => eddyDrainDone_settled hwf hok he hpow hheld hrows hcount⟩

end Sys2Proof.Machine

/-! PROOF. What goes on once the root loop has locked again leaves power, clocks, the numbers of the operations and the objects of
clocks, stacks and ports alone (spec/03 R66, R69). -/

namespace Sys2Proof.Machine

open Sys2Proof

/-! ### What serving leaves alone -/

/-- From `s` to `t` requests have been served: power, clocks, what is held for the host and owed to it, the numbers of the operations
and every object below those of the collectives are as they were. -/
structure Serves (s t : State) : Prop where
  power : t.power = s.power
  clock : t.clock = s.clock
  held : t.hostHeld = s.hostHeld
  owed : t.outRecords = s.outRecords
  ids : t.weir.ops.map (fun o => o.id) = s.weir.ops.map (fun o => o.id)
  objs : ∀ k, k < objKey 0x6200 0 → tabGet? t.dict k = tabGet? s.dict k

theorem Serves.refl (s : State) : Serves s s := ⟨rfl, rfl, rfl, rfl, rfl, fun _ _ => rfl⟩

theorem Serves.trans {s t u : State} (h : Serves s t) (h' : Serves t u) : Serves s u :=
  ⟨h'.power.trans h.power, h'.clock.trans h.clock, h'.held.trans h.held, h'.owed.trans h.owed, h'.ids.trans h.ids,
    fun k hk => (h'.objs k hk).trans (h.objs k hk)⟩

theorem Serves.foldl {α : Type} {f : State → α → State} (hf : ∀ s x, Serves s (f s x)) (l : List α) (s : State) :
    Serves s (l.foldl f s) := by
  induction l generalizing s with
  | nil => exact Serves.refl s
  | cons x l ih => exact (hf s x).trans (ih (f s x))

theorem serves_mem (s : State) (m : Mem) : Serves s { s with mem := m } := ⟨rfl, rfl, rfl, rfl, rfl, fun _ _ => rfl⟩

theorem serves_cores (s : State) (c : Tab Core) : Serves s { s with cores := c } := ⟨rfl, rfl, rfl, rfl, rfl, fun _ _ => rfl⟩

theorem serves_fabric (s : State) (f : Fabric) : Serves s { s with fabric := f } := ⟨rfl, rfl, rfl, rfl, rfl, fun _ _ => rfl⟩

theorem serves_setOp (s : State) (o : Op) : Serves s (setOp s o) := ⟨rfl, rfl, rfl, rfl, ids_replaceOp o _, fun _ _ => rfl⟩

/-- An object stored of the collectives or above. -/
theorem serves_wr (s : State) {o : Nat} (ho : 0x6200 ≤ o) (sub v : Nat) : Serves s (wr s o sub v) := by
  refine ⟨rfl, rfl, rfl, rfl, rfl, fun k hk => tabGet?_tabPut_ne _ _ ?_⟩
  rw [objKey] at hk ⊢
  omega

theorem serves_of_ports {s t : State} (h : sameButPorts s t) : Serves s t := by
  rw [sameButPorts] at h
  rw [h]
  exact ⟨rfl, rfl, rfl, rfl, rfl, fun _ _ => rfl⟩

/-! ### Memory -/

theorem serves_drainEntry (s : State) (k : Nat) (e : EddyEntry) : Serves s (drainEntry s k e) := by
  rw [drainEntry]
  dsimp only
  split
  · exact serves_mem s _
  · exact (serves_mem s _).trans (serves_wr _ (by decide) _ _)

theorem serves_drainBurst (s : State) (k : Nat) (e : EddyEntry) : Serves s (drainBurst s k e) :=
  Serves.foldl (fun t x => serves_drainEntry t k x) _ s

/-- Room made for a new entry: the oldest one drained. -/
theorem serves_makeRoom (s : State) (k : Nat) (es : List EddyEntry) :
    Serves s (if 64 ≤ es.length then
      match es.head? with
      | some oldest => drainBurst s k oldest
      | none => s
    else s) := by
  split
  · split
    · exact serves_drainBurst _ _ _
    · exact Serves.refl s
  · exact Serves.refl s

theorem serves_eddyEnter (s : State) (op a : Nat) (b : List Byte) : Serves s (eddyEnter s op a b) := by
  have hclean : Serves s (if b.length = 256 then cleanLine s (lineOf a) else s) := by
    split
    · exact serves_mem s _
    · exact Serves.refl s
  rw [eddyEnter]
  generalize (if b.length = 256 then cleanLine s (lineOf a) else s) = t at hclean ⊢
  refine hclean.trans ?_
  dsimp only
  split
  · split
    · exact Serves.trans (t := setEddy t _ _) (serves_mem t _) (serves_drainBurst _ _ _)
    · exact serves_mem t _
  · have hroom := serves_makeRoom t (dramStack a) (tabGet [] t.mem.eddies (dramStack a))
    generalize (if 64 ≤ (tabGet [] t.mem.eddies (dramStack a)).length then
        match (tabGet [] t.mem.eddies (dramStack a)).head? with
        | some oldest => drainBurst t (dramStack a) oldest
        | none => t
      else t) = u at hroom ⊢
    refine hroom.trans ?_
    split
    · exact Serves.trans (t := setEddy u _ _) (serves_mem u _) (serves_drainBurst _ _ _)
    · exact serves_mem u _

theorem serves_flushWaits (s : State) (k : Nat) : Serves s (flushWaits s k) :=
  (serves_mem s _).trans (Serves.foldl (fun (t : State) (w : EddyWait) => serves_eddyEnter t w.op w.addr w.bytes) _ _)

theorem serves_storeLine (s : State) (op a : Nat) (b : List Byte) : Serves s (storeLine s op a b) := by
  rw [storeLine, eddyStore, putLine]
  split
  · split
    · exact serves_eddyEnter _ _ _ _
    · exact (serves_flushWaits _ _).trans (serves_eddyEnter _ _ _ _)
  · split <;> exact serves_mem s _

theorem serves_hostStore (s : State) (fn a : Nat) (b : List Byte) : Serves s (hostStore s fn a b) :=
  Serves.foldl (fun t _ => serves_mem t _) _ s

theorem serves_storeBytes (s : State) (p op a : Nat) (b : List Byte) : Serves s (storeBytes s p op a b) := by
  rw [storeBytes]
  split
  · exact serves_hostStore _ _ _ _
  · exact Serves.refl s
  · exact Serves.foldl (fun (t : State) (x : Nat × List Byte) => serves_storeLine t op x.1 x.2) _ s

theorem serves_storeAll (s : State) (p op : Nat) (ws : List (Nat × List Byte)) : Serves s (storeAll s p op ws) :=
  Serves.foldl (fun (t : State) (w : Nat × List Byte) => serves_storeBytes t p op w.1 w.2) _ s

/-! ### Cores that ask for more -/

theorem serves_drainRill (l : List RillRow) (s : State) (o : Op) : Serves s (drainRill l s o).1 := by
  induction l generalizing s o with
  | nil => exact Serves.refl s
  | cons x l ih => exact (serves_storeAll _ _ _ _).trans (ih _ _)

theorem serves_drainTo (keep c : Nat) (s : State) (o : Op) : Serves s (drainTo keep c s o).1 :=
  (serves_drainRill _ s o).trans (serves_cores _ _)

theorem serves_enterTile (c t : Nat) (s : State) (o : Op) : Serves s (enterTile c t s o).1 := by
  have hy : Serves s (if readsAhead o then (s, o) else drainTo 0 c s o).1 := by
    split
    · exact Serves.refl s
    · exact serves_drainTo _ _ _ _
  rw [enterTile]
  generalize (if readsAhead o then (s, o) else drainTo 0 c s o) = y at hy ⊢
  dsimp only
  split
  · exact hy
  · exact hy.trans (serves_cores _ _)

theorem serves_startTile (c : Nat) (s : State) : Serves s (startTile c s) := by
  rw [startTile]
  dsimp only
  split
  · split
    · exact (serves_enterTile _ _ _ _).trans (serves_setOp _ _)
    · exact Serves.refl s
  · exact Serves.refl s

theorem Asking.serves {s t : State} (h : Asking s t) : Serves s t := by
  have hids : ∀ l : List Op, l.map (fun o => o.id) = (l.map Op.asks).map (fun o => o.id) := fun l => by rw [List.map_map]; rfl
  refine ⟨?_, ?_, ?_, ?_, ?_, fun k _ => ?_⟩
  · rw [h.frame]
  · rw [h.frame]
  · rw [h.frame]
  · rw [h.frame]
  · rw [hids, h.ops, ← hids]
  · rw [h.frame]

theorem serves_askMore (s : State) (c : Nat) : Serves s (askMore s c) := by
  rw [askMore]
  split
  · next o _ =>
    split
    · exact Serves.refl s
    · exact (((asking_askHost o.id o.due.length s).trans (asking_askLines o.id (lineCount o.ins) _)).trans
        (asking_retile _ c)).serves.trans (serves_startTile c _)
  · exact Serves.refl s

/-! ### Operations that end, messages that go on -/

theorem serves_freeSlot (s : State) (c : Nat) (slot : Option Nat) : Serves s (freeSlot s c slot) := by
  rw [freeSlot.eq_def]
  split
  · exact serves_cores s _
  · exact Serves.refl s

theorem serves_clearCore (s : State) (c : Nat) : Serves s (clearCore s c) :=
  (serves_cores s _).trans ((serves_mem _ _).trans (serves_mem _ _))

theorem serves_freeCore (s : State) (c id : Nat) : Serves s (freeCore s c id) := by
  rw [freeCore]
  dsimp only
  split
  · split
    · exact (serves_cores s _).trans (serves_clearCore _ c)
    · exact serves_cores s _
  · split
    · exact serves_cores s _
    · exact Serves.refl s

theorem serves_freeRegion (s : State) (p a n : Nat) : Serves s (freeRegion s p a n) := by
  rw [freeRegion]
  split
  · exact Serves.refl s
  · dsimp only
    split
    · exact (serves_mem s _).trans (serves_hostStore _ _ _ _)
    · exact serves_mem s _
    · exact serves_mem s _

theorem serves_breakGroup (s : State) (o : Op) (st : Nat) : Serves s (breakGroup s o st) := by
  rw [breakGroup]
  split
  · rw [breakOf]
    split
    · exact Serves.refl s
    · exact serves_wr s (by decide) _ _
  · exact Serves.refl s

theorem serves_endOp (s : State) (o : Op) (st : Nat) : Serves s (endOp s o st) := by
  unfold endOp
  extract_lets s1 s2 s3
  have h1 : Serves s s1 := by
    unfold s1
    split
    · exact (serves_freeCore _ _ _).trans (serves_freeSlot _ _ _)
    · exact Serves.refl s
  have h2 : Serves s1 s2 := by
    unfold s2
    split
    · exact Serves.foldl (fun (t : State) (r : Nat × Nat) => serves_freeRegion t o.part r.1 r.2) _ s1
    · exact Serves.refl s1
  exact ((h1.trans h2).trans (serves_breakGroup s2 o st)).trans (serves_setOp _ _)

theorem serves_xsend (s : State) (x : Nat) (m : Msg) (op part flow : Nat) : Serves s (xsend s x m op part flow) := by
  rw [xsend]
  dsimp only
  split
  · exact ((serves_fabric s _).trans (serves_fabric _ _)).trans (serves_of_ports (sendMsg_spec _ _ _).2)
  · exact (serves_fabric s _).trans (serves_fabric _ _)

theorem serves_flagOn (s : State) (o : Op) : Serves s (flagOn s o) := by
  rw [flagOn, sendFlag]
  split
  · split
    · exact (serves_xsend _ _ _ _ _ _).trans (serves_setOp _ _)
    · exact serves_endOp _ _ _
  · exact Serves.refl s

theorem serves_putLoop (n : Nat) (s : State) (o : Op) : Serves s (putLoop n s o) := by
  induction n generalizing s o with
  | zero => exact serves_setOp s o
  | succ n ih =>
    rw [putLoop]
    split
    · dsimp only
      split
      · exact serves_endOp _ _ _
      · split
        · exact serves_setOp _ _
        · exact (serves_xsend _ _ _ _ _ _).trans (ih _ _)
    · split
      · exact (serves_setOp _ _).trans (serves_flagOn _ _)
      · exact serves_setOp _ _

theorem serves_putOn (s : State) (o : Op) : Serves s (putOn s o) := by
  unfold putOn
  generalize (o.phase == .dispatched && (match o.core with
    | some c => (coreOf s c).load.isNone
    | none => false)) = goes
  cases goes with
  | false => exact Serves.refl s
  | true =>
    rw [if_pos rfl]
    split
    · exact serves_flagOn s o
    · exact serves_putLoop _ s o

theorem serves_flagsOn (s : State) : Serves s (flagsOn s) := by
  refine Serves.foldl (fun t id => ?_) _ s
  split
  · exact serves_putOn _ _
  · exact Serves.refl t

end Sys2Proof.Machine

/-! PROOF. ROOT_RELOCK: what the gap of the root loop held back goes on (spec/03 R66, R69). -/

namespace Sys2Proof.Machine

open Sys2Proof

/-! ### Messages that waited -/

theorem sameButPorts_foldl {α : Type} {f : State → α → State} (hf : ∀ s x, sameButPorts s (f s x)) (l : List α) (s : State) :
    sameButPorts s (l.foldl f s) := by
  induction l generalizing s with
  | nil => rfl
  | cons x l ih => exact sameButPorts_trans (hf s x) (ih (f s x))

theorem sameButPorts_freeRx (s : State) (w : Waiting) : sameButPorts s (freeRx s w) := by
  rw [freeRx]
  split <;> rfl

theorem sameButPorts_sendWaitingMsg (s : State) (w : Waiting) : sameButPorts s (sendWaitingMsg s w) := by
  rw [sendWaitingMsg]
  split
  · exact sameButPorts_trans (sameButPorts_freeRx s w) (sameButPorts_emit _ _)
  · split
    · split
      · exact sameButPorts_trans (sameButPorts_freeRx s w) (putOnPort_spec _ _ _ _ (msgFlits_ne_nil _)).2.frame
      · rfl
    · rfl

theorem sameButPorts_unstick (s : State) : sameButPorts s (unstick s) := by
  have hpump : sameButPorts s ((List.range 16).foldl pump s) := sameButPorts_foldl (fun t n => (pump_spec t n).1.frame) _ s
  rw [unstick]
  generalize (List.range 16).foldl pump s = t at hpump ⊢
  exact sameButPorts_trans hpump (sameButPorts_trans (t := { t with fabric := { t.fabric with stuck := [] } }) rfl
    (sameButPorts_foldl sameButPorts_sendWaitingMsg _ _))

/-! ### Records and vectors -/

/-- From `s` to `t` records have been delivered: queues, host memory and vectors alone change. -/
def Delivered (s t : State) : Prop := t = { s with
  iqs := t.iqs, cqs := t.cqs, fns := t.fns, out := t.out, mem := { s.mem with host := t.mem.host } }

theorem Delivered.refl (s : State) : Delivered s s := rfl

theorem Delivered.trans {s t u : State} (h : Delivered s t) (h' : Delivered t u) : Delivered s u := by
  unfold Delivered at *
  rw [h', h]

theorem Delivered.foldl {α : Type} {f : State → α → State} (hf : ∀ s x, Delivered s (f s x)) (l : List α) (s : State) :
    Delivered s (l.foldl f s) := by
  induction l generalizing s with
  | nil => exact Delivered.refl s
  | cons x l ih => exact (hf s x).trans (ih (f s x))

theorem Delivered.serves {s t : State} (h : Delivered s t) : Serves s t := by
  rw [Delivered] at h
  rw [h]
  exact ⟨rfl, rfl, rfl, rfl, rfl, fun _ _ => rfl⟩

theorem delivered_hostStore (s : State) (fn a : Nat) (b : List Byte) : Delivered s (hostStore s fn a b) :=
  Delivered.foldl (f := landPosted fn) (fun _ _ => rfl) _ s

theorem delivered_sendMsix (s : State) (fn v : Nat) : Delivered s (sendMsix s fn v) := by
  rw [sendMsix]
  split
  · rfl
  · split <;> rfl

theorem delivered_setCq (s : State) (q : Nat) (c : Cq) : Delivered s (setCq s q c) := rfl

theorem delivered_cqInterrupt (s : State) (q fn : Nat) : Delivered s (cqInterrupt s q fn) := by
  have hsignal : Delivered s (cqSignal s q fn) := (delivered_setCq s q _).trans (delivered_sendMsix _ _ _)
  rw [cqInterrupt]
  split
  · rfl
  · split
    · exact hsignal
    · split
      · exact hsignal
      · rfl

theorem delivered_deliver (s : State) (o : Op) (m : Measured) : Delivered s (deliver s o m) := by
  rw [deliver, postRecord]
  dsimp only
  split
  · rfl
  · exact ((Delivered.trans (t := setIq s o.queue _) rfl (delivered_hostStore _ _ _ _)).trans (delivered_setCq _ _ _)).trans
      (delivered_cqInterrupt _ _ _)

theorem delivered_sendRecords (s : State) : Delivered { s with outRecords := [] } (sendRecords s) :=
  Delivered.foldl (fun (t : State) (x : Op × Measured) => delivered_deliver t x.1 x.2) _ _

/-- Vectors sent change no queue and no memory. -/
def Signalled (s t : State) : Prop := t = { s with fns := t.fns, out := t.out }

theorem Signalled.trans {s t u : State} (h : Signalled s t) (h' : Signalled t u) : Signalled s u := by
  unfold Signalled at *
  rw [h', h]

theorem Signalled.foldl {α : Type} {f : State → α → State} (hf : ∀ s x, Signalled s (f s x)) (l : List α) (s : State) :
    Signalled s (l.foldl f s) := by
  induction l generalizing s with
  | nil => rfl
  | cons x l ih => exact (hf s x).trans (ih (f s x))

theorem signalled_flushMsix (s : State) (fn : Nat) : Signalled s (flushMsix s fn) := by
  rw [flushMsix]
  split
  · exact Signalled.trans (t := setFn s fn _) rfl (Signalled.foldl (f := fun t v => emit t (.msix fn v)) (fun _ _ => rfl) _ _)
  · rfl

theorem signalled_sendVectors (s : State) : Signalled s (sendVectors s) := Signalled.foldl signalled_flushMsix _ s

theorem Signalled.delivered {s t : State} (h : Signalled s t) : Delivered s t := by
  rw [Signalled] at h
  rw [Delivered, h]

/-! ### Objects stored for each stack -/

/-- An object stored for each of the first `n` stacks that a test picks. -/
def storeEach (o : Nat) (g : State → Nat → Bool) (v : State → Nat → Nat) (n : Nat) (s : State) : State :=
  (List.range n).foldl (fun t k => if g t k then wr t o (k + 1) (v t k) else t) s

/-- What is stored does not depend on what was stored of the same object. -/
structure Steady (o : Nat) (g : State → Nat → Bool) (v : State → Nat → Nat) : Prop where
  test : ∀ s j x k, j < 8 → k < 8 → g (wr s o (j + 1) x) k = g s k
  value : ∀ s j x k, j < 8 → k < 8 → v (wr s o (j + 1) x) k = v s k

theorem storeEach_succ (o : Nat) (g : State → Nat → Bool) (v : State → Nat → Nat) (n : Nat) (s : State) :
    storeEach o g v (n + 1) s =
      if g (storeEach o g v n s) n then wr (storeEach o g v n s) o (n + 1) (v (storeEach o g v n s) n) else storeEach o g v n s := by
  rw [storeEach, List.range_succ, List.foldl_append]
  rfl

theorem storeEach_steady {o : Nat} {g : State → Nat → Bool} {v : State → Nat → Nat} (h : Steady o g v) {n k : Nat} (hn : n ≤ 8)
    (hk : k < 8) (s : State) : g (storeEach o g v n s) k = g s k ∧ v (storeEach o g v n s) k = v s k := by
  induction n with
  | zero => exact ⟨rfl, rfl⟩
  | succ n ih =>
    rw [storeEach_succ]
    split
    · rw [h.test _ _ _ _ hn hk, h.value _ _ _ _ hn hk]
      exact ih (by omega)
    · exact ih (by omega)

/-- Each one picked has its value. -/
theorem rd_storeEach {o : Nat} {g : State → Nat → Bool} {v : State → Nat → Nat} (h : Steady o g v) {n k : Nat} (hn : n ≤ 8)
    (hk : k < n) (s : State) (hg : g s k = true) : rd (storeEach o g v n s) o (k + 1) = v s k := by
  induction n with
  | zero => exact absurd hk (Nat.not_lt_zero k)
  | succ n ih =>
    obtain ⟨htest, hvalue⟩ := storeEach_steady h (n := n) (k := n) (by omega) hn s
    rw [storeEach_succ, htest, hvalue]
    by_cases hkn : k = n
    · subst hkn
      rw [if_pos hg, rd_wr_self]
    · have hrest := ih (by omega) (by omega)
      split
      · rw [rd_wr_ne _ _ (by rw [objKey, objKey]; omega), hrest]
      · exact hrest

theorem told_storeEach (o : Nat) (g : State → Nat → Bool) (v : State → Nat → Nat) (n : Nat) (s : State) :
    Told ((List.range n).map (fun k => objKey o (k + 1))) s (storeEach o g v n s) := by
  induction n with
  | zero => exact Told.refl _ s
  | succ n ih =>
    rw [storeEach_succ, List.range_succ, List.map_append]
    split
    · exact ih.trans (told_wr _ _ _ _)
    · exact ih.mono (List.subset_append_left _ _)

/-- REFRESH_MODE of a stack as it is stored (R178). -/
def refreshOf (s : State) (k : Nat) : Nat := if selfRefresh s k then 2 else if stackOwn s k = .normal then 0 else 1

/-- MC_DIVISOR of a quadrant as it is stored (R66). -/
def divisorFor (s : State) (q : Nat) : Nat := if stackFitted s q then divisorOf (effLevel s q) else 0

theorem stackFitted_wr (s : State) {o j : Nat} (ho : o ≠ oPKG_VARIANT) (hj : j < 8) (x k : Nat) :
    stackFitted (wr s o (j + 1) x) k = stackFitted s k := by
  rw [stackFitted, stackFitted, variantOf, variantOf, rd_wr_ne s x (objKey_ne ho.symm (by decide) (by omega))]

theorem steady_refresh : Steady oREFRESH_MODE stackFitted refreshOf :=
  ⟨fun s _ x k hj _ => stackFitted_wr s (by decide) hj x k, fun _ _ _ _ _ _ => rfl⟩

theorem effLevel_wr_divisor (s : State) {j q : Nat} (hj : j < 8) (hq : q < 8) (x : Nat) :
    effLevel (wr s oMC_DIVISOR (j + 1) x) q = effLevel s q := by
  have hreq : rd (wr s oMC_DIVISOR (j + 1) x) oPLEVEL_REQ (q + 1) = rd s oPLEVEL_REQ (q + 1) :=
    rd_wr_ne s x (objKey_ne (by decide) (by omega) (by omega))
  have henv : rd (wr s oMC_DIVISOR (j + 1) x) oENV_DEMAND 0 = rd s oENV_DEMAND 0 :=
    rd_wr_ne s x (objKey_ne (by decide) (by decide) (by omega))
  have hbask : baskDemand (wr s oMC_DIVISOR (j + 1) x) q = baskDemand s q := by
    rw [baskDemand, baskDemand, hreq, henv]
    rfl
  rw [effLevel, effLevel, hreq, henv, hbask]
  rfl

theorem steady_divisor : Steady oMC_DIVISOR (fun t _ => t.power.compute) divisorFor := by
  refine ⟨fun _ _ _ _ _ _ => rfl, fun s j x q hj hq => ?_⟩
  rw [divisorFor, divisorFor, stackFitted_wr s (by decide) hj, effLevel_wr_divisor s hj hq]

end Sys2Proof.Machine

/-! PROOF. The root loop and a memory loop locked again (spec/03 R66, R67, R69, Table CLK-5). -/

namespace Sys2Proof.Machine

open Sys2Proof

/-! ### Bits of CLK_STATUS and ports -/

theorem told_clkBit (s : State) (i : Nat) (b : Bool) : Told [objKey oCLK_STATUS 0] s (clkBit s i b) := told_wrNote _ _ _ _ _

theorem clkIs_clkBit_self (s : State) (i : Nat) (b : Bool) : clkIs (clkBit s i b) i = b := by
  rw [clkIs, clkBit, rd_wrNote s 3 oCLK_STATUS 0 _ (by decide), testBit_setBit_self]

theorem clkIs_clkBit_ne (s : State) {i j : Nat} (b : Bool) (h : j ≠ i) : clkIs (clkBit s i b) j = clkIs s j := by
  rw [clkIs, clkBit, rd_wrNote s 3 oCLK_STATUS 0 _ (by decide), testBit_setBit_ne _ _ h, clkIs]

theorem Told.clkIs {ks : List Nat} {s t : State} (h : Told ks s t) (hk : objKey oCLK_STATUS 0 ∉ objKey oNOTIFY_LOST 0 :: ks) (i : Nat) :
    clkIs t i = clkIs s i := by
  rw [Machine.clkIs, Machine.clkIs, h.rd hk]

/-- A state with other clocks. -/
def withClock (s : State) (c : Clock) : State := { s with clock := c }

theorem rd_withClock (s : State) (c : Clock) (o sub : Nat) : rd (withClock s c) o sub = rd s o sub := rfl

theorem clock_withClock (s : State) (c : Clock) : (withClock s c).clock = c := rfl

theorem power_withClock (s : State) (c : Clock) : (withClock s c).power = s.power := rfl

theorem portOf_withClock (s : State) (c : Clock) (n : Nat) : portOf (withClock s c) n = portOf s n := rfl

theorem Told.withClock {ks : List Nat} {s t : State} (h : Told ks s t) (c : Clock) : Told ks (withClock s c) (withClock t c) :=
  ⟨congrArg (Machine.withClock · c) h.rest, h.objs, h.sessions, h.boxes, h.fns, h.out⟩

theorem Told.power {ks : List Nat} {s t : State} (h : Told ks s t) : t.power = s.power := by rw [h.rest]

theorem Told.clock {ks : List Nat} {s t : State} (h : Told ks s t) : t.clock = s.clock := by rw [h.rest]

theorem Told.therm {ks : List Nat} {s t : State} (h : Told ks s t) : t.therm = s.therm := by rw [h.rest]

theorem Told.portOf {ks : List Nat} {s t : State} (h : Told ks s t) (n : Nat) : portOf t n = portOf s n := by
  rw [Machine.portOf, Machine.portOf, h.rest]

/-- A read of another object than those of the stacks, quadrants or ports that were stored. -/
theorem Told.rd_keys {s t : State} {o o' sub n : Nat} (h : Told ((List.range n).map (fun k => objKey o' (k + 1))) s t)
    (ho : o ≠ o') (hlost : o ≠ oNOTIFY_LOST) (hsub : sub < 256) (hn : n < 256) : Machine.rd t o sub = Machine.rd s o sub := by
  refine h.rd fun hmem => ?_
  rcases List.mem_cons.mp hmem with heq | hmem
  · exact objKey_ne hlost hsub (by decide) heq
  · obtain ⟨k, hk, heq⟩ := List.mem_map.mp hmem
    have hk := List.mem_range.mp hk
    exact objKey_ne ho hsub (by omega) heq.symm

theorem rd_clkBit_ne (s : State) (i : Nat) (b : Bool) {o sub : Nat} (ho : o ≠ oCLK_STATUS) (hlost : o ≠ oNOTIFY_LOST)
    (hsub : sub < 256) : rd (clkBit s i b) o sub = rd s o sub := by
  refine (told_clkBit s i b).rd fun hmem => ?_
  rcases List.mem_cons.mp hmem with heq | hmem
  · exact objKey_ne hlost hsub (by decide) heq
  · exact objKey_ne ho hsub (by decide) (List.mem_singleton.mp hmem)

theorem told_ports {l : List Nat} (hl : ∀ n ∈ l, n < 16) (f : State → Nat → Nat) (s : State) :
    Told portKeys s (l.foldl (fun t n => setPortCode t n (f t n)) s) := by
  induction l generalizing s with
  | nil => exact Told.refl _ s
  | cons n l ih =>
    obtain ⟨hn, hl⟩ := List.forall_mem_cons.mp hl
    refine ((told_setPortCode s n _).trans (ih hl _)).mono (List.append_subset.mpr ⟨?_, List.Subset.refl _⟩)
    exact List.cons_subset.mpr ⟨List.mem_map.mpr ⟨n, List.mem_range.mpr hn, rfl⟩, List.nil_subset _⟩

theorem told_ungatePorts (s : State) : Told portKeys s (ungatePorts s) :=
  told_ports (fun _ hn => List.mem_range.mp (List.mem_of_mem_filter hn)) (fun t n => (portOf t n).before) s

/-- Each port of a list is put back in its former state. -/
theorem portCode_foldl_before {l : List Nat} (hl : ∀ n ∈ l, n < 16) (s : State) {n : Nat} (hn : n < 16)
    (h : n ∈ l ∨ portCode s n = (portOf s n).before % 8) :
    portCode (l.foldl (fun t n => setPortCode t n (portOf t n).before) s) n = (portOf s n).before % 8 := by
  induction l generalizing s with
  | nil => simpa using h
  | cons m l ih =>
    obtain ⟨hm, hl⟩ := List.forall_mem_cons.mp hl
    have hport := (told_setPortCode s m (portOf s m).before).portOf n
    rw [List.foldl_cons, ← hport]
    refine ih hl _ ?_
    by_cases hnm : n = m
    · subst hnm
      exact .inr (by rw [portCode_setPortCode_self s n _ hn, hport])
    · rw [portCode_setPortCode_ne s _ hnm hn, hport]
      exact h.imp_left fun hmem => (List.mem_cons.mp hmem).resolve_left hnm

/-- Every gated port is back in the state it had. -/
theorem portCode_ungatePorts (s : State) {n : Nat} (hn : n < 16) (h : portCode s n = 4) :
    portCode (ungatePorts s) n = (portOf s n).before % 8 :=
  portCode_foldl_before (fun _ hm => List.mem_range.mp (List.mem_of_mem_filter hm)) s hn
    (.inl (List.mem_filter.mpr ⟨List.mem_range.mpr hn, by rw [h]; rfl⟩))

/-! ### The domains run again -/

/-- The objects that name the divisors and the refresh modes. -/
def divisorKeys : List Nat := (List.range 8).map (fun k => objKey oMC_DIVISOR (k + 1))
def refreshKeys : List Nat := (List.range 8).map (fun k => objKey oREFRESH_MODE (k + 1))

/-- The divisors set. -/
def dividedState (s : State) : State := storeEach oMC_DIVISOR (fun t _ => t.power.compute) divisorFor 8 s

/-- Then the bits of the loop that has locked. -/
def lockedState (s : State) : State := clkBit (clkBit (clkBit (dividedState s) 3 true) 8 false) 7 false

/-- Then the domains ungated, and the ports. -/
def ungatedState (s : State) : State := ungatePorts (withClock (lockedState s) { (lockedState s).clock with rootGated := false })

/-- Then the stacks' refresh brought up to date. -/
def refreshedState (s : State) : State := storeRefreshAll (ungatedState s)

theorem settle_of_none {s : State} (h : s.clock.rootNoted = false) (h0 : s.clock.noted0 = false) (h1 : s.clock.noted1 = false) :
    settle s = s := by
  rw [settle, h, h0, h1]
  rfl

theorem told_dividedState (s : State) : Told divisorKeys s (dividedState s) := told_storeEach _ _ _ 8 s

theorem told_lockedState (s : State) : Told (objKey oCLK_STATUS 0 :: divisorKeys) s (lockedState s) := by
  refine Told.mono (((told_dividedState s).trans (told_clkBit _ 3 true)).trans
    ((told_clkBit _ 8 false).trans (told_clkBit _ 7 false))) ?_
  decide

/-- The clocks once the root loop has locked. -/
def runningClock (s : State) : Clock := { s.clock with rootGated := false }

theorem told_ungatedState (s : State) :
    Told (objKey oCLK_STATUS 0 :: (divisorKeys ++ portKeys)) (withClock s (runningClock s)) (ungatedState s) := by
  have hlocked := told_lockedState s
  have hclock : { (lockedState s).clock with rootGated := false } = runningClock s := by rw [hlocked.rest]; rfl
  rw [ungatedState, hclock]
  exact (hlocked.withClock _).trans (told_ungatePorts _)

theorem told_storeRefreshAll (s : State) : Told refreshKeys s (storeRefreshAll s) := told_storeEach _ _ _ 8 s

theorem rd_storeRefreshAll (s : State) {k : Nat} (hk : k < 8) (h : stackFitted s k = true) :
    rd (storeRefreshAll s) oREFRESH_MODE (k + 1) = refreshOf s k := rd_storeEach steady_refresh (Nat.le_refl 8) hk s h

theorem told_refreshedState (s : State) :
    Told (objKey oCLK_STATUS 0 :: (divisorKeys ++ portKeys ++ refreshKeys)) (withClock s (runningClock s)) (refreshedState s) :=
  (told_ungatedState s).trans (told_storeRefreshAll _)

/-- Then the messages, line requests and writes that waited go on. -/
def resumedState (s : State) : State := retryWaits (takeReads (unstick (refreshedState s)))

theorem serves_retryWaits (s : State) : Serves s (retryWaits s) := by
  rw [eddyOnly_retryWaits s]
  exact serves_mem s _

theorem serves_takeReads (s : State) : Serves s (takeReads s) := by
  rw [takeReads]
  split
  · exact Serves.refl s
  · exact serves_mem s _

theorem serves_resumedState (s : State) : Serves (refreshedState s) (resumedState s) :=
  ((serves_of_ports (sameButPorts_unstick _)).trans (serves_takeReads _)).trans (serves_retryWaits _)

theorem power_refreshedState (s : State) : (refreshedState s).power = s.power :=
  (told_refreshedState s).power.trans (power_withClock s _)

theorem clock_refreshedState (s : State) : (refreshedState s).clock = runningClock s :=
  (told_refreshedState s).clock.trans (clock_withClock s _)

theorem rootRelocked_eq {s : State} (hchip : s.power.chipError = false) (hroot : s.clock.rootNoted = false)
    (h0 : s.clock.noted0 = false) (h1 : s.clock.noted1 = false) : rootRelocked s = resumedState s := by
  have hserves := serves_resumedState s
  have hunfold : rootRelocked s = settle (if (resumedState s).power.chipError then
      forOps (opIds (resumedState s) (fun _ => true)) chipEnds (resumedState s) else resumedState s) := by
    unfold rootRelocked
    extract_lets u1 u2 c u3 u4
    have hdivided : u1 = dividedState s := rfl
    have hlocked : u2 = lockedState s := by unfold u2 lockedState; rw [hdivided]
    have hungated : u3 = ungatedState s := by unfold u3 c ungatedState withClock; rw [hlocked]
    have hresumed : u4 = resumedState s := by unfold u4 resumedState refreshedState; rw [hungated]
    rw [hresumed]
  have hclock : (resumedState s).clock = runningClock s := hserves.clock.trans (clock_refreshedState s)
  rw [hunfold, hserves.power, power_refreshedState, hchip, if_neg Bool.false_ne_true]
  refine settle_of_none ?_ ?_ ?_ <;> rw [hclock]
  · exact hroot
  · exact h0
  · exact h1

theorem clkIs_dividedState (s : State) (i : Nat) : clkIs (dividedState s) i = clkIs s i := (told_dividedState s).clkIs (by decide) i

/-- The bits that a lock of the root loop leaves. -/
theorem clkIs_lockedState (s : State) (i : Nat) :
    clkIs (lockedState s) i = if i = 3 then true else if i = 7 ∨ i = 8 then false else clkIs s i := by
  rw [lockedState]
  by_cases h7 : i = 7
  · subst h7; exact clkIs_clkBit_self _ _ _
  · rw [clkIs_clkBit_ne _ _ h7]
    by_cases h8 : i = 8
    · subst h8; exact clkIs_clkBit_self _ _ _
    · rw [clkIs_clkBit_ne _ _ h8]
      by_cases h3 : i = 3
      · subst h3; exact clkIs_clkBit_self _ _ _
      · rw [clkIs_clkBit_ne _ _ h3, clkIs_dividedState, if_neg h3, if_neg (by tauto)]

theorem clkIs_refreshedState (s : State) (i : Nat) :
    clkIs (refreshedState s) i = if i = 3 then true else if i = 7 ∨ i = 8 then false else clkIs s i := by
  rw [← clkIs_lockedState, refreshedState, (told_storeRefreshAll _).clkIs (by decide), ungatedState,
    (told_ungatePorts _).clkIs (by decide), clkIs, rd_withClock, clkIs]

theorem rd_lockedState_ne (s : State) {o sub : Nat} (ho : o ≠ oCLK_STATUS) (hdiv : o ≠ oMC_DIVISOR) (hlost : o ≠ oNOTIFY_LOST)
    (hsub : sub < 256) : rd (lockedState s) o sub = rd s o sub := by
  rw [lockedState, rd_clkBit_ne _ _ _ ho hlost hsub, rd_clkBit_ne _ _ _ ho hlost hsub, rd_clkBit_ne _ _ _ ho hlost hsub]
  exact (told_dividedState s).rd_keys hdiv hlost hsub (by decide)

/-- Of the ports every gated one is back in the state it had. -/
theorem portCode_refreshedState (s : State) {n : Nat} (hn : n < 16) (h : portCode s n = 4) :
    portCode (refreshedState s) n = (portOf s n).before % 8 := by
  have hgated : portCode (withClock (lockedState s) { (lockedState s).clock with rootGated := false }) n = 4 := by
    rw [portCode, rd_withClock, rd_lockedState_ne s (by decide) (by decide) (by decide) (by omega)]
    exact h
  have hrefresh : portCode (refreshedState s) n = portCode (ungatedState s) n := by
    rw [portCode, portCode, refreshedState, (told_storeRefreshAll _).rd_keys (by decide) (by decide) (by omega) (by decide)]
  rw [hrefresh, ungatedState, portCode_ungatePorts _ hn hgated, portOf_withClock, (told_lockedState s).portOf]

/-- Each fitted stack's refresh is what the loop of its die and its own state ask for. -/
theorem rd_refreshedState (s : State) (hchip : s.power.chipError = false) {k : Nat} (hk : k < 8) (h : stackFitted s k = true) :
    rd (refreshedState s) oREFRESH_MODE (k + 1) =
      if (if k < 4 then s.clock.relock0 else s.clock.relock1) then 2 else if stackOwn s k = .normal then 0 else 1 := by
  have htold := told_ungatedState s
  have hfit : stackFitted (ungatedState s) k = true := by
    rw [stackFitted, variantOf, htold.rd (by decide)]
    exact h
  have hself : selfRefresh (ungatedState s) k = if k < 4 then s.clock.relock0 else s.clock.relock1 := by
    rw [selfRefresh, htold.rest]
    show (false || s.power.chipError || _) = _
    rw [hchip]
    rfl
  have hown : stackOwn (ungatedState s) k = stackOwn s k := by rw [stackOwn, htold.rest]; rfl
  rw [refreshedState, rd_storeRefreshAll _ hk hfit, refreshOf, hself, hown]

/-- With compute powered each divisor is that of the effective level. -/
theorem rd_divisor_refreshedState (s : State) (hpow : s.power.compute = true) {q : Nat} (hq : q < 8) :
    rd (refreshedState s) oMC_DIVISOR (q + 1) = divisorFor s q := by
  have hdivided : rd (dividedState s) oMC_DIVISOR (q + 1) = divisorFor s q := rd_storeEach steady_divisor (Nat.le_refl 8) hq s hpow
  have hsub : q + 1 < 256 := by omega
  rw [refreshedState, (told_storeRefreshAll _).rd_keys (by decide) (by decide) hsub (by decide), ungatedState,
    (told_ungatePorts _).rd_keys (by decide) (by decide) hsub (by decide), rd_withClock, lockedState,
    rd_clkBit_ne _ _ _ (by decide) (by decide) hsub, rd_clkBit_ne _ _ _ (by decide) (by decide) hsub,
    rd_clkBit_ne _ _ _ (by decide) (by decide) hsub, hdivided]

end Sys2Proof.Machine

/-! PROOF. The statement of the relock (spec/03 R66, R67, R69, Table CLK-5). -/

namespace Sys2Proof.Machine

open Sys2Proof

/-! ### Operations, cores, memory and queues -/

/-- From `s` to `t` operations, cores, memory, queues, and what is held for the host and owed to it stay as they are. -/
structure Rests (s t : State) : Prop where
  weir : t.weir = s.weir
  cores : t.cores = s.cores
  mem : t.mem = s.mem
  iqs : t.iqs = s.iqs
  cqs : t.cqs = s.cqs
  held : t.hostHeld = s.hostHeld
  owed : t.outRecords = s.outRecords

theorem Rests.trans {s t u : State} (h : Rests s t) (h' : Rests t u) : Rests s u :=
  ⟨h'.weir.trans h.weir, h'.cores.trans h.cores, h'.mem.trans h.mem, h'.iqs.trans h.iqs, h'.cqs.trans h.cqs, h'.held.trans h.held,
    h'.owed.trans h.owed⟩

theorem Told.rests {ks : List Nat} {s t : State} (h : Told ks s t) : Rests s t := by
  constructor <;> rw [h.rest]

theorem rests_of_ports {s t : State} (h : sameButPorts s t) : Rests s t := by
  rw [sameButPorts] at h
  constructor <;> rw [h]

theorem rests_withClock (s : State) (c : Clock) : Rests s (withClock s c) := ⟨rfl, rfl, rfl, rfl, rfl, rfl, rfl⟩

theorem rests_refreshedState (s : State) : Rests s (refreshedState s) :=
  (rests_withClock s _).trans (told_refreshedState s).rests

theorem rests_unstuck (s : State) : Rests s (unstick (refreshedState s)) :=
  (rests_refreshedState s).trans (rests_of_ports (sameButPorts_unstick _))

/-- The controllers have taken every line request that waited. -/
def takenReads (m : Mem) : Mem := { m with reads := m.reads.map (fun r => { r with reserved := true }) }

theorem takeReads_unstuck (s : State) :
    takeReads (unstick (refreshedState s)) = { unstick (refreshedState s) with mem := takenReads (unstick (refreshedState s)).mem } := by
  have hclock : (unstick (refreshedState s)).clock = runningClock s :=
    (serves_of_ports (sameButPorts_unstick _)).clock.trans (clock_refreshedState s)
  exact if_neg (by rw [hclock]; exact Bool.false_ne_true)

theorem resumedState_of_quiet {s : State} (h : s.mem.eddyWait = []) :
    resumedState s = { unstick (refreshedState s) with mem := takenReads s.mem } := by
  have hmem := (rests_unstuck s).mem
  rw [resumedState, takeReads_unstuck, hmem]
  exact retryWaits_of_none h

/-! ### ROOT_RELOCK -/

/-- The state once the cores whose writes waited have asked for more. -/
def askedState (s : State) : State := askWaiting (s.mem.eddyWait.filterMap (fun w => w.core)) (resumedState s)

/-- Then records and vectors have been sent, and flags that were due. -/
def servedState (s : State) : State := flagsOn (sendVectors (sendRecords (askedState s)))

theorem serves_askedState (s : State) : Serves (refreshedState s) (askedState s) :=
  (serves_resumedState s).trans (Serves.foldl serves_askMore _ _)

theorem serves_servedState (s : State) : Serves { askedState s with outRecords := [] } (servedState s) :=
  ((delivered_sendRecords _).serves.trans (signalled_sendVectors _).delivered.serves).trans (serves_flagsOn _)

theorem exec_rootRelock {s : State} (hchip : s.power.chipError = false) (hroot : s.clock.rootNoted = false)
    (h0 : s.clock.noted0 = false) (h1 : s.clock.noted1 = false) (hgated : s.clock.rootGated = true) (hfailed : s.clock.rootFailed = false) :
    exec .rootRelock s = .next (s.hostHeld.foldl perform { servedState s with hostHeld := [] }) := by
  have hheld : (servedState s).hostHeld = s.hostHeld :=
    ((serves_servedState s).held.trans (serves_askedState s).held).trans (rests_refreshedState s).held
  have hexec : execRootRelock s = .next (performHeld (servedState s)) := by
    rw [execRootRelock, rootRelocked_eq hchip hroot h0 h1, if_pos ⟨hgated, by simp [hfailed]⟩]
    rfl
  show execRootRelock s = _
  rw [hexec, performHeld, hheld]

/-- An object below those of the collectives reads as it did before what waited went on. -/
theorem rd_servedState (s : State) {o sub : Nat} (ho : o < 0x6200) (hsub : sub < 256) :
    rd (servedState s) o sub = rd (refreshedState s) o sub := by
  have hk : objKey o sub < objKey 0x6200 0 := by rw [objKey, objKey]; omega
  exact rd_congr (((serves_servedState s).objs _ hk).trans ((serves_askedState s).objs _ hk))

theorem power_servedState (s : State) : (servedState s).power = s.power :=
  ((serves_servedState s).power.trans (serves_askedState s).power).trans (power_refreshedState s)

theorem clock_servedState (s : State) : (servedState s).clock = runningClock s :=
  ((serves_servedState s).clock.trans (serves_askedState s).clock).trans (clock_refreshedState s)

theorem ids_servedState (s : State) : (servedState s).weir.ops.map (fun o => o.id) = s.weir.ops.map (fun o => o.id) := by
  rw [(serves_servedState s).ids, (serves_askedState s).ids, (rests_refreshedState s).weir]

theorem clkIs_servedState (s : State) (i : Nat) :
    clkIs (servedState s) i = if i = 3 then true else if i = 7 ∨ i = 8 then false else clkIs s i := by
  rw [← clkIs_refreshedState, clkIs, clkIs, rd_servedState s (by decide) (by decide)]

theorem askedState_of_quiet {s : State} (h : s.mem.eddyWait = []) :
    askedState s = { unstick (refreshedState s) with mem := takenReads s.mem } := by
  rw [askedState, h, List.filterMap_nil, askWaiting, List.eraseDups_nil, List.foldl_nil, resumedState_of_quiet h]

theorem Delivered.kept {s t : State} (h : Delivered s t) :
    t.weir = s.weir ∧ t.cores = s.cores ∧ t.mem = { s.mem with host := t.mem.host } := by
  rw [Delivered] at h
  refine ⟨?_, ?_, ?_⟩ <;> rw [h]

theorem Signalled.kept {s t : State} (h : Signalled s t) : t.mem = s.mem ∧ t.iqs = s.iqs ∧ t.cqs = s.cqs := by
  rw [Signalled] at h
  refine ⟨?_, ?_, ?_⟩ <;> rw [h]

theorem sendRecords_of_none {s : State} (h : s.outRecords = []) : sendRecords s = { s with outRecords := [] } := by
  rw [sendRecords, h, List.foldl_nil]

/-- Where no PUT and no write waits, only what the records are written to changes, and the line requests that waited. -/
theorem servedState_of_quiet {s : State} (hput : ∀ o ∈ s.weir.ops, o.putting = false) (h : s.mem.eddyWait = []) :
    (servedState s).weir = s.weir ∧ (servedState s).cores = s.cores ∧
      (servedState s).mem = { takenReads s.mem with host := (servedState s).mem.host } ∧
      (s.outRecords = [] → (servedState s).mem.host = s.mem.host ∧ (servedState s).iqs = s.iqs ∧ (servedState s).cqs = s.cqs) := by
  have hrests := rests_unstuck s
  have hasked := askedState_of_quiet h
  rw [servedState]
  generalize askedState s = u at hasked ⊢
  generalize unstick (refreshedState s) = v at hrests hasked
  have hmem : u.mem = takenReads s.mem := by rw [hasked]
  have hvectors := signalled_sendVectors (sendRecords u)
  obtain ⟨hweir, hcores, hhost⟩ := ((delivered_sendRecords u).trans hvectors.delivered).kept
  have hweir : (sendVectors (sendRecords u)).weir = s.weir := by rw [hweir, hasked]; exact hrests.weir
  rw [flagsOn_of_quiet (by rw [hweir]; exact hput)]
  refine ⟨hweir, ?_, ?_, fun hnone => ?_⟩
  · rw [hcores, hasked]; exact hrests.cores
  · rw [hhost, ← hmem]
  · have howed : u.outRecords = [] := by rw [hasked]; exact hrests.owed.trans hnone
    obtain ⟨hm, hi, hc⟩ := hvectors.kept
    rw [hm, hi, hc, sendRecords_of_none howed]
    refine ⟨?_, ?_, ?_⟩
    · exact (congrArg Mem.host hmem).trans rfl
    · rw [hasked]; exact hrests.iqs
    · rw [hasked]; exact hrests.cqs

/-! ### MEM_RELOCK -/

/-- The interface of a die is back on its loop. -/
def backOnLoop (s : State) (die : Nat) : State := setRelock (clkBit s (4 + die) true) die false

/-- The clocks once the loop of a die has locked. -/
def lockedClock (s : State) (die : Nat) : Clock :=
  { s.clock with relock0 := s.clock.relock0 && die != 0, relock1 := s.clock.relock1 && die != 1 }

/-- The bit of the fallback, clear once neither die relocks. -/
def offFallback (s : State) : State := if s.clock.relock0 || s.clock.relock1 then s else clkBit s 9 false

/-- Then the reference no longer lost, and the stacks out of self-refresh. -/
def memRelocked (s : State) (die : Nat) : State := storeRefreshAll (clkBit (offFallback (backOnLoop s die)) 7 false)

theorem told_backOnLoop (s : State) {die : Nat} (h : die < 2) :
    Told [objKey oCLK_STATUS 0] (withClock s (lockedClock s die)) (backOnLoop s die) := by
  have hbit := told_clkBit s (4 + die) true
  have hback : backOnLoop s die = withClock (clkBit s (4 + die) true) (lockedClock s die) := by
    have hclock := hbit.clock
    rw [backOnLoop, setRelock, withClock, lockedClock, hclock]
    interval_cases die <;> simp
  rw [hback]
  exact hbit.withClock _

theorem told_offFallback (s : State) : Told [objKey oCLK_STATUS 0] s (offFallback s) := by
  rw [offFallback]
  split
  · exact Told.refl _ s
  · exact told_clkBit s 9 false

theorem told_unrefreshed (s : State) {die : Nat} (h : die < 2) :
    Told [objKey oCLK_STATUS 0] (withClock s (lockedClock s die)) (clkBit (offFallback (backOnLoop s die)) 7 false) :=
  (((told_backOnLoop s h).trans (told_offFallback _)).trans (told_clkBit _ 7 false)).mono (by decide)

theorem told_memRelocked (s : State) {die : Nat} (h : die < 2) :
    Told (objKey oCLK_STATUS 0 :: refreshKeys) (withClock s (lockedClock s die)) (memRelocked s die) :=
  (told_unrefreshed s h).trans (told_storeRefreshAll _)

theorem clock_memRelocked (s : State) {die : Nat} (h : die < 2) : (memRelocked s die).clock = lockedClock s die :=
  (told_memRelocked s h).clock.trans (clock_withClock s _)

theorem exec_memRelock {s : State} (hroot : s.clock.rootNoted = false) (h0 : s.clock.noted0 = false) (h1 : s.clock.noted1 = false)
    {die : Nat} (h : die < 2) (hrelock : relocking s die = true) (hfailed : relockFailed s die = false) :
    exec (.memRelock die) s = .next (memRelocked s die) := by
  have hclock := clock_memRelocked s h
  have hexec : execMemRelock die s = .next (settle (memRelocked s die)) := by
    rw [execMemRelock, if_pos ⟨h, hrelock, by simp [hfailed]⟩]
    rfl
  show execMemRelock die s = _
  rw [hexec, settle_of_none] <;> rw [hclock]
  · exact hroot
  · exact h0
  · exact h1

/-- The loop of a die is no longer relocked; the other stays as it was. -/
theorem relock_lockedClock (s : State) {die : Nat} (h : die < 2) :
    ((lockedClock s die).relock0 || (lockedClock s die).relock1) = relocking s (1 - die) ∧
      (if die = 0 then (lockedClock s die).relock0 else (lockedClock s die).relock1) = false := by
  interval_cases die <;> simp [lockedClock, relocking]

theorem clkIs_backOnLoop (s : State) (die i : Nat) : clkIs (backOnLoop s die) i = clkIs (clkBit s (4 + die) true) i := by
  rw [backOnLoop, setRelock]
  split <;> rfl

/-- The bits that a lock of a memory loop leaves. -/
theorem clkIs_memRelocked (s : State) {die : Nat} (h : die < 2) (i : Nat) :
    clkIs (memRelocked s die) i =
      if i = 4 + die then true else if i = 7 then false else if i = 9 then clkIs s 9 && relocking s (1 - die) else clkIs s i := by
  have hclock : (backOnLoop s die).clock = lockedClock s die := (told_backOnLoop s h).clock.trans (clock_withClock s _)
  rw [memRelocked, (told_storeRefreshAll _).clkIs (by decide)]
  by_cases h7 : i = 7
  · subst h7
    rw [clkIs_clkBit_self, if_neg (by omega), if_pos rfl]
  · rw [clkIs_clkBit_ne _ _ h7, if_neg h7, offFallback, hclock, (relock_lockedClock s h).1]
    by_cases h9 : i = 9
    · subst h9
      rw [if_neg (show ¬ 9 = 4 + die by omega), if_pos (rfl : 9 = 9)]
      cases hother : relocking s (1 - die) with
      | true => rw [if_pos rfl, clkIs_backOnLoop, clkIs_clkBit_ne _ _ (by omega), Bool.and_true]
      | false => rw [if_neg Bool.false_ne_true, clkIs_clkBit_self, Bool.and_false]
    · rw [if_neg h9]
      have hrest : clkIs (if relocking s (1 - die) then backOnLoop s die else clkBit (backOnLoop s die) 9 false) i =
          clkIs (clkBit s (4 + die) true) i := by
        rw [← clkIs_backOnLoop]
        split
        · rfl
        · exact clkIs_clkBit_ne _ _ h9
      rw [hrest]
      by_cases h4 : i = 4 + die
      · subst h4
        rw [clkIs_clkBit_self, if_pos rfl]
      · rw [clkIs_clkBit_ne _ _ h4, if_neg h4]

/-- The fitted stacks of the die leave self-refresh. -/
theorem rd_memRelocked (s : State) {die k : Nat} (h : die < 2) (hk : k < 8) (hdie : k / 4 = die) (hfit : stackFitted s k = true)
    (hgated : s.clock.rootGated = false) (hchip : s.power.chipError = false) :
    rd (memRelocked s die) oREFRESH_MODE (k + 1) = if stackOwn s k = .normal then 0 else 1 := by
  have htold := told_unrefreshed s h
  rw [memRelocked]
  generalize clkBit (offFallback (backOnLoop s die)) 7 false = u at htold ⊢
  have hclock : u.clock = lockedClock s die := htold.clock.trans (clock_withClock s _)
  have hpower : u.power = s.power := htold.power.trans (power_withClock s _)
  have hown : stackOwn u k = stackOwn s k := by rw [stackOwn, htold.therm]; rfl
  have hfit : stackFitted u k = true := by
    rw [stackFitted, variantOf, htold.rd (by decide), rd_withClock]
    exact hfit
  have hside : (if k < 4 then (lockedClock s die).relock0 else (lockedClock s die).relock1) = false := by
    have hfree := (relock_lockedClock s h).2
    by_cases hlow : k < 4
    · rw [if_pos hlow]
      rwa [if_pos (by omega)] at hfree
    · rw [if_neg hlow]
      rwa [if_neg (by omega)] at hfree
  have hself : selfRefresh u k = false := by
    rw [selfRefresh, hclock, hpower, hchip, hside, show (lockedClock s die).rootGated = s.clock.rootGated from rfl, hgated]
    rfl
  rw [rd_storeRefreshAll u hk hfit, refreshOf, hself, if_neg Bool.false_ne_true, hown]

/-! ### Both -/

/-- Settles O18: from the state with divisors, bits, ports and stacks set, all that goes on leaves those objects alone, and where no
PUT and no write waits it is the delivery of records and vectors only. -/
theorem relockRestoresService : Obligations.RelockRestoresService := by
  unfold Obligations.RelockRestoresService
  intro s hchip hroot h0 h1
  refine ⟨fun hgated hfailed => ?_, fun die hdie hrelock hfailed => ?_⟩
  · have hbit := clkIs_servedState s
    refine ⟨_, exec_rootRelock hchip hroot h0 h1 hgated hfailed, rfl, ?_, hbit 3, hbit 8, hbit 7, fun i hi => ?_, ?_,
      power_servedState s, fun n hn hcode => ?_, fun k hk hfit => ?_, fun hpow q hq => ?_, ids_servedState s, ?_⟩
    · exact (serves_servedState s).owed
    · simp only [List.mem_cons, List.not_mem_nil, or_false, not_or] at hi
      obtain ⟨h3, h7, h8⟩ := hi
      exact (hbit i).trans (by rw [if_neg h3, if_neg (by tauto)]; rfl)
    · exact congrArg Clock.rootGated (clock_servedState s)
    · exact (congrArg (· % 8) (rd_servedState s (by decide) (by omega))).trans (portCode_refreshedState s hn hcode)
    · exact (rd_servedState s (by decide) (by omega)).trans (rd_refreshedState s hchip hk hfit)
    · exact (rd_servedState s (by decide) (by omega)).trans (rd_divisor_refreshedState s hpow hq)
    · exact servedState_of_quiet
  · have hbit := clkIs_memRelocked s hdie
    refine ⟨_, exec_memRelock hroot h0 h1 hdie hrelock hfailed, ?_, ?_, ?_, ?_, fun i hi => ?_, fun k hk hkd hfit hgated => ?_, ?_⟩
    · exact (hbit (4 + die)).trans (if_pos rfl)
    · exact (hbit 7).trans (by rw [if_neg (by omega), if_pos rfl])
    · rw [relocking, clock_memRelocked s hdie]
      exact (relock_lockedClock s hdie).2
    · exact (hbit 9).trans (by rw [if_neg (by omega), if_neg (by omega), if_pos rfl]; rfl)
    · simp only [List.mem_cons, List.not_mem_nil, or_false, not_or] at hi
      obtain ⟨h4, h7, h9⟩ := hi
      exact (hbit i).trans (by rw [if_neg h4, if_neg h7, if_neg h9]; rfl)
    · exact rd_memRelocked s hdie hk hkd hfit hgated hchip
    · exact told_memRelocked s hdie

end Sys2Proof.Machine

/-! PROOF. The sequencers of the quadrants (spec/03 R57 to R63). -/

namespace Sys2Proof.Machine

open Sys2Proof

/-- From `s` to `t` a quadrant's sequencer changes, objects of the listed keys, and nothing else. -/
structure OnQuad (q : Nat) (ks : List Nat) (s t : State) : Prop where
  others : ∀ r, r ≠ q → seqOf t r = seqOf s r
  objs : SameObjs ks s t
  rest : t = { s with dict := t.dict, clock := { s.clock with seqs := t.clock.seqs } }

theorem OnQuad.only {q : Nat} {ks : List Nat} {s t : State} (h : OnQuad q ks s t) :
    (∀ r, r ≠ q → seqOf t r = seqOf s r) ∧ SameObjs ks s t ∧
      t = { s with dict := t.dict, clock := { s.clock with seqs := t.clock.seqs } } := ⟨h.others, h.objs, h.rest⟩

theorem onQuad_setSeq (s : State) (q : Nat) (x : QuadSeq) : OnQuad q [] s (setSeq s q x) :=
  ⟨fun _ hr => seqOf_setSeq_ne s x hr, fun _ _ => rfl, rfl⟩

theorem onQuad_storeDivisor (s : State) (q level : Nat) (x : QuadSeq) :
    OnQuad q [objKey oMC_DIVISOR (q + 1)] s (storeDivisor (setSeq s q x) q level) :=
  ⟨fun _ hr => seqOf_setSeq_ne s x hr, sameObjs_wr (setSeq s q x) _ _ _, rfl⟩

theorem rd_storeDivisor_setSeq (s : State) (q level : Nat) (x : QuadSeq) :
    rd (storeDivisor (setSeq s q x) q level) oMC_DIVISOR (q + 1) = if stackFitted s q then divisorOf level else 0 :=
  rd_wr_self _ _ _ _

theorem seqOf_storeDivisor_setSeq (s : State) (q level : Nat) (x : QuadSeq) :
    seqOf (storeDivisor (setSeq s q x) q level) q = x :=
  seqOf_setSeq_self s q x

section SequencerRuns

variable {s : State} {q : Nat} (hruns : seqRuns s q = true)
include hruns

theorem exec_sequencerStepUp (hidle : (seqOf s q).phase = .idle) (h : effLevel s q < (seqOf s q).level) :
    exec (.sequencerStepUp q) s = .next (setSeq s q { seqOf s q with phase := .rampUp }) :=
  congrArg Host.Outcome.next (if_pos ⟨hruns, hidle, h⟩)

theorem exec_sequencerStepDown (hidle : (seqOf s q).phase = .idle) (h : (seqOf s q).level < effLevel s q) :
    exec (.sequencerStepDown q) s =
      .next (storeDivisor (setSeq s q { seqOf s q with phase := .rampDown }) q ((seqOf s q).level + 1)) :=
  congrArg Host.Outcome.next (if_pos ⟨hruns, hidle, h⟩)

theorem exec_railSettleEnd (h : (seqOf s q).phase = .settle) :
    exec (.railSettleEnd q) s = .next (storeDivisor
      (setSeq s q { seqOf s q with phase := .idle, level := (seqOf s q).level - 1 }) q ((seqOf s q).level - 1)) :=
  congrArg Host.Outcome.next (if_pos ⟨hruns, h⟩)

theorem exec_stepDownWaitEnd (h : (seqOf s q).phase = .wait) :
    exec (.stepDownWaitEnd q) s = .next (setSeq s q { seqOf s q with phase := .idle }) :=
  congrArg Host.Outcome.next (if_pos ⟨hruns, h⟩)

theorem exec_railRampDone_up (h : (seqOf s q).phase = .rampUp) :
    exec (.railRampDone q) s =
      .next (setSeq s q { seqOf s q with phase := .settle, railMv := railOf ((seqOf s q).level - 1) }) := by
  refine congrArg Host.Outcome.next ((if_pos hruns).trans ?_)
  simp only [h]

theorem exec_railRampDone_back (h : (seqOf s q).phase = .rampBack) :
    exec (.railRampDone q) s = .next (setSeq s q { seqOf s q with phase := .idle, railMv := railOf (seqOf s q).level }) := by
  refine congrArg Host.Outcome.next ((if_pos hruns).trans ?_)
  simp only [h]

theorem exec_railRampDone_down (h : (seqOf s q).phase = .rampDown) :
    exec (.railRampDone q) s = .next (setSeq s q
      { level := (seqOf s q).level + 1, phase := .wait, railMv := railOf ((seqOf s q).level + 1) }) := by
  refine congrArg Host.Outcome.next ((if_pos hruns).trans ?_)
  simp only [h]

end SequencerRuns

/-- Settles O20: each of the seven commands stores one sequencer, and those that change the divisor store it after. -/
theorem sequencerStepsOneLevel : Obligations.SequencerStepsOneLevel := by
  unfold Obligations.SequencerStepsOneLevel
  intro s q hruns
  refine ⟨fun hidle h => ?_, fun hidle h => ?_, fun h => ?_, fun h => ?_, fun h => ?_, fun h => ?_, fun h => ?_⟩
  · exact ⟨_, exec_sequencerStepUp hruns hidle h, seqOf_setSeq_self s q _, (onQuad_setSeq s q _).only⟩
  · exact ⟨_, exec_sequencerStepDown hruns hidle h, seqOf_storeDivisor_setSeq s q _ _, rd_storeDivisor_setSeq s q _ _,
      (onQuad_storeDivisor s q _ _).only⟩
  · exact ⟨_, exec_railRampDone_up hruns h, seqOf_setSeq_self s q _, (onQuad_setSeq s q _).only⟩
  · exact ⟨_, exec_railRampDone_down hruns h, seqOf_setSeq_self s q _, (onQuad_setSeq s q _).only⟩
  · exact ⟨_, exec_railRampDone_back hruns h, seqOf_setSeq_self s q _, (onQuad_setSeq s q _).only⟩
  · exact ⟨_, exec_railSettleEnd hruns h, seqOf_storeDivisor_setSeq s q _ _, rd_storeDivisor_setSeq s q _ _,
      (onQuad_storeDivisor s q _ _).only⟩
  · exact ⟨_, exec_stepDownWaitEnd hruns h, seqOf_setSeq_self s q _, (onQuad_setSeq s q _).only⟩

end Sys2Proof.Machine

/-! PROOF. Loss of the root loop, of a memory loop, of the reference (spec/03 R64 to R67, R71, Table CLK-5). -/

namespace Sys2Proof.Machine

open Sys2Proof

/-! ### Objects of other indices, causes of ALERT_N -/

/-- A key is not among keys of other indices. -/
theorem objKey_notMem {o sub : Nat} {ks : List Nat} (h : ks.all (fun k => k / 256 != o) = true) (hs : sub < 256) :
    objKey o sub ∉ ks := fun hk => by
  have hne := List.all_eq_true.mp h _ hk
  simp only [objKey, bne_iff_ne, ne_eq] at hne
  omega

/-- An object of an index that no listed key has keeps its value. -/
theorem Told.rd_index {ks : List Nat} {s t : State} (h : Told ks s t) {o sub : Nat}
    (ho : (objKey oNOTIFY_LOST 0 :: ks).all (fun k => k / 256 != o) = true) (hs : sub < 256) :
    Machine.rd t o sub = Machine.rd s o sub := h.rd (objKey_notMem ho hs)

/-- A cause of ALERT_N asserts the pin where it follows its causes. -/
theorem alerts_of_cause {t : State} (h : alertCause t = true) : Alerts t := by
  refine ⟨h, fun hrail hpins => ?_⟩
  rw [alertN, hrail, hpins, h]
  rfl

theorem stackFitted_congr {s t : State} (h : rd t oPKG_VARIANT 0 = rd s oPKG_VARIANT 0) (k : Nat) :
    stackFitted t k = stackFitted s k := by
  rw [stackFitted, stackFitted, variantOf, variantOf, h]

theorem Told.stackFitted {ks : List Nat} {s t : State} (h : Told ks s t)
    (ho : (objKey oNOTIFY_LOST 0 :: ks).all (fun k => k / 256 != oPKG_VARIANT) = true) (k : Nat) :
    stackFitted t k = stackFitted s k := stackFitted_congr (h.rd_index ho (by decide)) k

/-! ### Ports gated (R66) -/

/-- A state with other port records, the limit of a hold series set or not. -/
def withPorts (s : State) (f : Fabric) : State :=
  { s with fabric := { s.fabric with ports := f.ports, holdCapped := f.holdCapped } }

/-- Nothing changes but objects of the listed keys, port records, the limit of a hold series, and what notifications change. -/
def ToldPorts (ks : List Nat) (s t : State) : Prop := Told ks (withPorts s t.fabric) t

theorem Told.withPorts {ks : List Nat} {s t : State} (h : Told ks s t) (f : Fabric) :
    Told ks (withPorts s f) (withPorts t f) :=
  ⟨congrArg (Machine.withPorts · f) h.rest, h.objs, h.sessions, h.boxes, h.fns, h.out⟩

theorem Told.fabric {ks : List Nat} {s t : State} (h : Told ks s t) : t.fabric = s.fabric := by rw [h.rest]

theorem Told.toldPorts {ks : List Nat} {s t : State} (h : Told ks s t) : ToldPorts ks s t := by
  rw [ToldPorts, h.fabric]
  exact h

theorem ToldPorts.trans {ks ls : List Nat} {s t u : State} (h : ToldPorts ks s t) (h' : ToldPorts ls t u) :
    ToldPorts (ks ++ ls) s u := Told.trans (Told.withPorts h u.fabric) h'

theorem ToldPorts.mono {ks ls : List Nat} {s t : State} (h : ToldPorts ks s t) (hs : ks ⊆ ls) : ToldPorts ls s t :=
  Told.mono h hs

theorem toldPorts_setPort (s : State) (n : Nat) (x : Port) : ToldPorts [] s (setPort s n x) := Told.refl _ _

theorem toldPorts_beginHold (s : State) : ToldPorts [] s (beginHold s) := by
  unfold beginHold
  split
  · exact (Told.refl _ s).toldPorts
  · exact Told.refl _ _

/-- A port gated, its state remembered. -/
def gatePort (s : State) (n : Nat) : State := setPortCode (setPort s n { portOf s n with before := portCode s n }) n 4

theorem toldPorts_gatePort (s : State) {n : Nat} (hn : n < 16) : ToldPorts portKeys s (gatePort s n) := by
  refine ((toldPorts_setPort s n _).trans (told_setPortCode _ n 4).toldPorts).mono (List.cons_subset.mpr ⟨?_, List.nil_subset _⟩)
  exact List.mem_map.mpr ⟨n, List.mem_range.mpr hn, rfl⟩

theorem portCode_gatePort (s : State) {n m : Nat} (hm : m < 16) :
    portCode (gatePort s n) m = if m = n then 4 else portCode s m := by
  split
  · next h =>
    subst h
    exact portCode_setPortCode_self _ m 4 hm
  · next h => exact portCode_setPortCode_ne _ 4 h hm

theorem toldPorts_foldl_gatePort {l : List Nat} (hl : ∀ n ∈ l, n < 16) (s : State) :
    ToldPorts portKeys s (l.foldl gatePort s) := by
  induction l generalizing s with
  | nil => exact (Told.refl _ s).toldPorts
  | cons n l ih =>
    obtain ⟨hn, hl⟩ := List.forall_mem_cons.mp hl
    exact ((toldPorts_gatePort s hn).trans (ih hl _)).mono (List.append_subset.mpr ⟨fun _ h => h, fun _ h => h⟩)

theorem portCode_foldl_gatePort (l : List Nat) (s : State) {m : Nat} (hm : m < 16) :
    portCode (l.foldl gatePort s) m = if m ∈ l then 4 else portCode s m := by
  induction l generalizing s with
  | nil => rfl
  | cons n l ih =>
    rw [List.foldl_cons, ih, portCode_gatePort s hm]
    by_cases hl : m ∈ l <;> by_cases hn : m = n <;> simp [hl, hn]

theorem gatePorts_eq (s : State) : gatePorts s = ((List.range 16).filter (portTrained s)).foldl gatePort
    (if ((List.range 16).filter (portTrained s)).isEmpty then s else beginHold s) := rfl

theorem toldPorts_gatePorts (s : State) : ToldPorts portKeys s (gatePorts s) := by
  have hfold := fun u => toldPorts_foldl_gatePort (l := (List.range 16).filter (portTrained s))
    (fun n hn => List.mem_range.mp (List.mem_of_mem_filter hn)) u
  rw [gatePorts_eq]
  split
  · exact hfold s
  · exact (toldPorts_beginHold s).trans (hfold _)

theorem portCode_gatePorts (s : State) {n : Nat} (hn : n < 16) :
    portCode (gatePorts s) n = if portTrained s n = true then 4 else portCode s n := by
  have hcode : portCode (if ((List.range 16).filter (portTrained s)).isEmpty then s else beginHold s) n = portCode s n := by
    unfold beginHold
    split
    · rfl
    · split <;> rfl
  rw [gatePorts_eq, portCode_foldl_gatePort _ _ hn, hcode]
  simp [hn]

/-! ### The root loop (R64, R66) -/

/-- Loss of the root loop noted: bits, count, domains gated. -/
def rootLost (s : State) : State := countLoss (clkBit (clkBit s 3 false) 8 true) 0

/-- The clocks while the root-fed domains are gated. -/
def gatedClock (s : State) : Clock := { s.clock with rootGated := true }

/-- Then the ports gated. -/
def rootGatedState (s : State) : State := gatePorts (withClock (rootLost s) (gatedClock s))

theorem told_countLoss (s : State) (i : Nat) : Told [objKey oLOSS_COUNT (i + 1)] s (countLoss s i) := told_wr _ _ _ _

theorem told_rootLost (s : State) : Told [objKey oCLK_STATUS 0, objKey oLOSS_COUNT 1] s (rootLost s) :=
  Told.mono (((told_clkBit s 3 false).trans (told_clkBit _ 8 true)).trans (told_countLoss _ 0)) (by decide)

theorem clkIs_countLoss (s : State) {i : Nat} (hi : i < 3) (j : Nat) : clkIs (countLoss s i) j = clkIs s j :=
  (told_countLoss s i).clkIs (by interval_cases i <;> decide) j

theorem clkIs_rootLost (s : State) (i : Nat) : clkIs (rootLost s) i = if i = 8 then true else if i = 3 then false else clkIs s i := by
  rw [rootLost, clkIs_countLoss _ (by decide)]
  split
  · next h => rw [h, clkIs_clkBit_self]
  · next h8 =>
    rw [clkIs_clkBit_ne _ _ h8]
    split
    · next h => rw [h, clkIs_clkBit_self]
    · next h3 => rw [clkIs_clkBit_ne _ _ h3]

theorem toldPorts_rootGatedState (s : State) :
    ToldPorts ([objKey oCLK_STATUS 0, objKey oLOSS_COUNT 1] ++ portKeys) (withClock s (gatedClock s)) (rootGatedState s) :=
  ToldPorts.trans ((told_rootLost s).withClock (gatedClock s)).toldPorts (toldPorts_gatePorts _)

/-- The keys of what the loss of the root loop stores. -/
def rootLossKeys : List Nat := [objKey oCLK_STATUS 0, objKey oLOSS_COUNT 1] ++ portKeys ++ refreshKeys

theorem toldPorts_lossOfLockRoot (s : State) :
    ToldPorts rootLossKeys (withClock s (gatedClock s)) (storeRefreshAll (rootGatedState s)) :=
  (toldPorts_rootGatedState s).trans (told_storeRefreshAll _).toldPorts

theorem clkIs_lossOfLockRoot (s : State) (i : Nat) :
    clkIs (storeRefreshAll (rootGatedState s)) i = if i = 8 then true else if i = 3 then false else clkIs s i :=
  calc clkIs (storeRefreshAll (rootGatedState s)) i
      = clkIs (rootGatedState s) i := (told_storeRefreshAll _).clkIs (by decide) i
    _ = clkIs (withClock (rootLost s) (gatedClock s)) i := Told.clkIs (toldPorts_gatePorts _) (by decide) i
    _ = _ := clkIs_rootLost s i

theorem portTrained_congr {s t : State} (hv : rd t oPKG_VARIANT 0 = rd s oPKG_VARIANT 0) {n : Nat}
    (h : rd t oPORT_STATE (n + 1) = rd s oPORT_STATE (n + 1)) : portTrained t n = portTrained s n := by
  rw [portTrained, portTrained, portCode, portCode, h, portCount_congr hv]

theorem portTrained_rootLost (s : State) {n : Nat} (hn : n < 16) :
    portTrained (withClock (rootLost s) (gatedClock s)) n = portTrained s n :=
  portTrained_congr ((told_rootLost s).rd_index (by decide) (by decide)) ((told_rootLost s).rd_index (by decide) (by omega))

theorem portCode_lossOfLockRoot (s : State) {n : Nat} (hn : n < 16) :
    portCode (storeRefreshAll (rootGatedState s)) n = if portTrained s n = true then 4 else portCode s n := by
  have hlost : portCode (withClock (rootLost s) (gatedClock s)) n = portCode s n :=
    congrArg (· % 8) ((told_rootLost s).rd_index (by decide) (by omega))
  calc portCode (storeRefreshAll (rootGatedState s)) n
      = portCode (rootGatedState s) n := congrArg (· % 8) ((told_storeRefreshAll _).rd_index (by decide) (by omega))
    _ = _ := by rw [rootGatedState, portCode_gatePorts _ hn, portTrained_rootLost s hn, hlost]

theorem rd_lossCount_countLoss (s : State) (i : Nat) :
    rd (countLoss s i) oLOSS_COUNT (i + 1) = satAdd max32 (rd s oLOSS_COUNT (i + 1)) 1 := rd_wr_self _ _ _ _

theorem rd_lossCount_rootLost (s : State) : rd (rootLost s) oLOSS_COUNT 1 = satAdd max32 (rd s oLOSS_COUNT 1) 1 := by
  rw [rootLost, rd_lossCount_countLoss, rd_clkBit_ne _ _ _ (by decide) (by decide) (by decide),
    rd_clkBit_ne _ _ _ (by decide) (by decide) (by decide)]

theorem rd_lossCount_lossOfLockRoot (s : State) :
    rd (storeRefreshAll (rootGatedState s)) oLOSS_COUNT 1 = satAdd max32 (rd s oLOSS_COUNT 1) 1 :=
  calc rd (storeRefreshAll (rootGatedState s)) oLOSS_COUNT 1
      = rd (rootGatedState s) oLOSS_COUNT 1 := (told_storeRefreshAll _).rd_index (by decide) (by decide)
    _ = rd (rootLost s) oLOSS_COUNT 1 := Told.rd_index (toldPorts_gatePorts _) (by decide) (by decide)
    _ = _ := rd_lossCount_rootLost s

theorem clock_rootGatedState (s : State) : (rootGatedState s).clock = gatedClock s := Told.clock (toldPorts_rootGatedState s)

theorem rd_refresh_lossOfLockRoot (s : State) {k : Nat} (hk : k < 8) (hfit : stackFitted s k = true) :
    rd (storeRefreshAll (rootGatedState s)) oREFRESH_MODE (k + 1) = 2 := by
  have hfit' : stackFitted (rootGatedState s) k = true :=
    (Told.stackFitted (toldPorts_rootGatedState s) (by decide) k).trans hfit
  rw [rd_storeRefreshAll _ hk hfit', refreshOf, selfRefresh, clock_rootGatedState]
  rfl

theorem exec_lossOfLockRoot {s : State} (h : clkIs s 3 = true) :
    exec .lossOfLockRoot s = .next (storeRefreshAll (rootGatedState s)) := by
  have hclock : (rootLost s).clock = s.clock := (told_rootLost s).clock
  refine congrArg Host.Outcome.next ((if_pos h).trans ?_)
  rw [rootGatedState, withClock, gatedClock, ← hclock]
  rfl

/-! ### A memory loop (R64, R67) -/

/-- Loss of a memory loop noted: bits, count. -/
def memLost (s : State) (die : Nat) : State := countLoss (clkBit (clkBit s (4 + die) false) 9 true) (1 + die)

/-- The clocks while the loop of a die is being relocked. -/
def relockClock (s : State) (die : Nat) : Clock :=
  { s.clock with relock0 := s.clock.relock0 || die == 0, relock1 := s.clock.relock1 || die == 1 }

theorem setRelock_true (s : State) {die : Nat} (h : die < 2) : setRelock s die true = withClock s (relockClock s die) := by
  interval_cases die
  · simp [setRelock, withClock, relockClock]
  · simp [setRelock, withClock, relockClock]

theorem told_memLost (s : State) (die : Nat) : Told [objKey oCLK_STATUS 0, objKey oLOSS_COUNT (2 + die)] s (memLost s die) := by
  refine Told.mono (((told_clkBit s (4 + die) false).trans (told_clkBit _ 9 true)).trans (told_countLoss _ (1 + die))) ?_
  rw [show 1 + die + 1 = 2 + die by omega]
  simp

theorem clkIs_memLost (s : State) {die : Nat} (h : die < 2) (i : Nat) :
    clkIs (memLost s die) i = if i = 9 then true else if i = 4 + die then false else clkIs s i := by
  rw [memLost, clkIs_countLoss _ (by omega)]
  split
  · next h9 => rw [h9, clkIs_clkBit_self]
  · next h9 =>
    rw [clkIs_clkBit_ne _ _ h9]
    split
    · next hd => rw [hd, clkIs_clkBit_self]
    · next hd => rw [clkIs_clkBit_ne _ _ hd]

/-- A memory loop lost, its relock begun. -/
def memRelocking (s : State) (die : Nat) : State := withClock (memLost s die) (relockClock s die)

theorem exec_lossOfLockMemory {s : State} {die : Nat} (hdie : die < 2) (h : clkIs s (4 + die) = true) :
    exec (.lossOfLockMemory die) s = .next (storeRefreshAll (memRelocking s die)) := by
  have hclock : (memLost s die).clock = s.clock := (told_memLost s die).clock
  have hset : setRelock (memLost s die) die true = memRelocking s die := by
    rw [setRelock_true _ hdie, memRelocking, relockClock, relockClock, hclock]
  exact congrArg Host.Outcome.next ((if_pos ⟨hdie, h⟩).trans (congrArg storeRefreshAll hset))

/-- The keys of what the loss of a die's memory loop stores. -/
def memLossKeys (die : Nat) : List Nat := [objKey oCLK_STATUS 0, objKey oLOSS_COUNT (2 + die)] ++ refreshKeys

theorem told_memRelocking (s : State) (die : Nat) :
    Told [objKey oCLK_STATUS 0, objKey oLOSS_COUNT (2 + die)] (withClock s (relockClock s die)) (memRelocking s die) :=
  (told_memLost s die).withClock _

theorem told_lossOfLockMemory (s : State) (die : Nat) :
    Told (memLossKeys die) (withClock s (relockClock s die)) (storeRefreshAll (memRelocking s die)) :=
  (told_memRelocking s die).trans (told_storeRefreshAll _)

theorem clkIs_lossOfLockMemory (s : State) {die : Nat} (h : die < 2) (i : Nat) :
    clkIs (storeRefreshAll (memRelocking s die)) i = if i = 9 then true else if i = 4 + die then false else clkIs s i :=
  ((told_storeRefreshAll _).clkIs (by decide) i).trans (clkIs_memLost s h i)

theorem rd_lossCount_lossOfLockMemory (s : State) {die : Nat} (h : die < 2) :
    rd (storeRefreshAll (memRelocking s die)) oLOSS_COUNT (2 + die) = satAdd max32 (rd s oLOSS_COUNT (2 + die)) 1 := by
  have hsub : 1 + die + 1 = 2 + die := by omega
  have hcount := rd_lossCount_countLoss (clkBit (clkBit s (4 + die) false) 9 true) (1 + die)
  rw [hsub, rd_clkBit_ne _ _ _ (by decide) (by decide) (by omega), rd_clkBit_ne _ _ _ (by decide) (by decide) (by omega)] at hcount
  exact ((told_storeRefreshAll _).rd_index (by decide) (by omega)).trans hcount

theorem rd_refresh_lossOfLockMemory (s : State) {die k : Nat} (h : die < 2) (hk : k < 8) (hdie : k / 4 = die)
    (hfit : stackFitted s k = true) : rd (storeRefreshAll (memRelocking s die)) oREFRESH_MODE (k + 1) = 2 := by
  have hfit' : stackFitted (memRelocking s die) k = true :=
    ((told_memLost s die).stackFitted (by interval_cases die <;> decide) k).trans hfit
  have hself : selfRefresh (memRelocking s die) k = true := by
    rw [selfRefresh, (told_memRelocking s die).clock]
    have hside : (if k < 4 then (relockClock s die).relock0 else (relockClock s die).relock1) = true := by
      split <;> simp [relockClock] <;> omega
    rw [show (withClock s (relockClock s die)).clock = relockClock s die from rfl, hside, Bool.or_true]
  rw [rd_storeRefreshAll _ hk hfit', refreshOf, if_pos hself]

/-! ### The reference (R54, R65, R71) -/

/-- The reference noted as lost, where it had been qualified. -/
def referenceLost (s : State) : State := if clkIs s 2 ∧ !clkIs s 7 then clkBit s 7 true else s

/-- The crystal is the reference and has stopped. -/
def crystalGone (s : State) (stopped : Bool) : Bool := stopped && (rd s oCLK_MODE 0 == 0) && s.power.good

theorem told_referenceLost (s : State) : Told [objKey oCLK_STATUS 0] s (referenceLost s) := by
  unfold referenceLost
  split
  · exact told_clkBit s 7 true
  · exact (Told.refl [] s).mono (List.nil_subset _)

theorem clkIs_referenceLost (s : State) (i : Nat) :
    clkIs (referenceLost s) i = if i = 7 then clkIs s 7 || clkIs s 2 else clkIs s i := by
  unfold referenceLost
  split
  · next h =>
    split
    · next hi => rw [hi, clkIs_clkBit_self, h.1, Bool.or_true]
    · next hi => rw [clkIs_clkBit_ne _ _ hi]
  · next h =>
    split
    · next hi =>
      subst hi
      cases h2 : clkIs s 2 <;> cases h7 : clkIs s 7 <;> simp_all
    · rfl

theorem crystalGone_referenceLost (s : State) (stopped : Bool) : crystalGone (referenceLost s) stopped = crystalGone s stopped := by
  rw [crystalGone, crystalGone, (told_referenceLost s).power, (told_referenceLost s).rd_index (by decide) (by decide)]

/-- The state after REF_LOST. -/
def refLostState (s : State) (stopped : Bool) : State :=
  if crystalGone s stopped then crystalStops (referenceLost s) else referenceLost s

theorem exec_refLost (s : State) (stopped : Bool) : exec (.refLost stopped) s = .next (refLostState s stopped) := by
  refine congrArg Host.Outcome.next ?_
  rw [refLostState, ← crystalGone_referenceLost]
  refine if_congr ?_ rfl rfl
  rw [crystalGone, Bool.and_eq_true, Bool.and_eq_true, beq_iff_eq, and_assoc]
  rfl

theorem told_refLostState (s : State) (stopped : Bool) : Told [objKey oCLK_STATUS 0]
    (withClock s { s.clock with phyOn := s.clock.phyOn && !(crystalGone s stopped) }) (refLostState s stopped) := by
  have hlost := told_referenceLost s
  rw [refLostState]
  split
  · next h =>
    have hstop := (hlost.trans (told_clkBit (referenceLost s) 1 false)).withClock { s.clock with phyOn := false }
    rw [h, Bool.not_true, Bool.and_false, crystalStops, (hlost.trans (told_clkBit _ 1 false)).clock]
    exact hstop.mono (by decide)
  · next h =>
    rw [Bool.eq_false_iff.mpr h, Bool.not_false, Bool.and_true]
    exact hlost

theorem clkIs_refLostState (s : State) (stopped : Bool) (i : Nat) :
    clkIs (refLostState s stopped) i = if i = 1 then clkIs s 1 && !(crystalGone s stopped) else
      if i = 7 then clkIs s 7 || clkIs s 2 else clkIs s i := by
  have hlost := clkIs_referenceLost s i
  rw [refLostState]
  split
  · next h =>
    by_cases hi : i = 1
    · rw [if_pos hi, hi, h, Bool.not_true, Bool.and_false]
      exact clkIs_clkBit_self _ 1 false
    · rw [if_neg hi, ← hlost]
      exact clkIs_clkBit_ne _ false hi
  · next h =>
    rw [hlost, Bool.eq_false_iff.mpr h, Bool.not_false, Bool.and_true]
    by_cases hi : i = 1 <;> simp [hi]

theorem alerts_refLostState {s : State} {stopped : Bool} (h : crystalGone s stopped = true) : Alerts (refLostState s stopped) := by
  have hpower : (refLostState s stopped).power.good = true := by
    rw [(told_refLostState s stopped).power]
    exact (Bool.and_eq_true _ _ ▸ h).2
  have hphy : (refLostState s stopped).clock.phyOn = false := by
    rw [(told_refLostState s stopped).clock, h]
    exact Bool.and_false _
  refine alerts_of_cause ?_
  rw [alertCause, hpower, hphy]
  exact Bool.or_true _

/-! ### The obligation -/

/-- Settles O17: each loss stores its bits and its count, then gates ports or begins a relock, then stores the stacks' refresh; each of
these leaves the objects of the others alone. -/
theorem lossOfLockAndReference : Obligations.LossOfLockAndReference := by
  unfold Obligations.LossOfLockAndReference
  intro s
  refine ⟨fun h3 => ⟨_, exec_lossOfLockRoot h3, ?_⟩, fun die hdie hlocked => ⟨_, exec_lossOfLockMemory hdie hlocked, ?_⟩,
    fun stopped => ⟨_, exec_refLost s stopped, ?_⟩⟩
  · have hbit := clkIs_lossOfLockRoot s
    refine ⟨hbit 3, hbit 8, fun i h3 h8 => ?_, rd_lossCount_lossOfLockRoot s, fun n htr hn => ?_, fun n hn htr => ?_,
      fun k => rd_refresh_lossOfLockRoot s, toldPorts_lossOfLockRoot s⟩
    · exact (hbit i).trans (by rw [if_neg h8, if_neg h3]; rfl)
    · rw [portCode_lossOfLockRoot s hn, if_pos htr]
    · rw [portCode_lossOfLockRoot s hn, htr, if_neg Bool.false_ne_true]
  · have hbit := clkIs_lossOfLockMemory s hdie
    refine ⟨?_, hbit 9, fun i hd h9 => ?_, rd_lossCount_lossOfLockMemory s hdie, fun k => rd_refresh_lossOfLockMemory s hdie,
      told_lossOfLockMemory s die⟩
    · exact (hbit (4 + die)).trans (by rw [if_neg (by omega), if_pos rfl])
    · exact (hbit i).trans (by rw [if_neg h9, if_neg hd]; rfl)
  · have hbit := clkIs_refLostState s stopped
    refine ⟨hbit 7, fun i h7 h1 => ?_, hbit 1, alerts_refLostState, told_refLostState s stopped⟩
    exact (hbit i).trans (by rw [if_neg h1, if_neg h7]; rfl)

end Sys2Proof.Machine

/-! PROOF. Steps 5 to 8 of the power-on sequence (spec/05 R96 to R98, R100; spec/03 R51 to R57). -/

namespace Sys2Proof.Machine

open Sys2Proof

/-! ### Step 5: the crystal (R54, R425) -/

theorem told_stage (s : State) (v : Nat) : Told [objKey oBOOT_STAGE 0] s (stage s v) := told_wrNote _ _ _ _ _

theorem told_sendBeacons (s : State) : Told [] s (sendBeacons s) := by
  unfold sendBeacons
  split
  · exact told_emit s _
  · exact Told.refl [] s

/-- The crystal's bit set and the management port clocked. -/
def crystalRuns (s : State) : State := withClock (clkBit s 1 true) { s.clock with phyOn := true }

/-- The state after CRYSTAL_OSCILLATION. -/
def crystalStarted (s : State) : State := if s.clock.phyOn then crystalRuns s else sendBeacons (crystalRuns s)

theorem exec_crystalOscillation (s : State) : exec .crystalOscillation s = .next (crystalStarted s) := by
  have hclock := (told_clkBit s 1 true).clock
  refine congrArg Host.Outcome.next ?_
  rw [crystalStarted, crystalRuns, withClock, ← hclock]

theorem told_crystalStarted (s : State) :
    Told [objKey oCLK_STATUS 0] (withClock s { s.clock with phyOn := true }) (crystalStarted s) := by
  have hruns : Told [objKey oCLK_STATUS 0] (withClock s { s.clock with phyOn := true }) (crystalRuns s) :=
    (told_clkBit s 1 true).withClock _
  unfold crystalStarted
  split
  · exact hruns
  · exact hruns.trans (told_sendBeacons _)

theorem clkIs_crystalStarted (s : State) (i : Nat) : clkIs (crystalStarted s) i = clkIs (clkBit s 1 true) i := by
  unfold crystalStarted
  split
  · rfl
  · exact (told_sendBeacons (crystalRuns s)).clkIs (by decide) i

theorem head_crystalStarted {s : State} (hphy : s.clock.phyOn = false) (hgood : s.power.good = true)
    (hnode : rd s oPLCA_NODE_ID 0 = 0) : (crystalStarted s).out.head? = some (.beacons (rd s oPLCA_NODE_COUNT 0)) := by
  have hkeep : ∀ o, o ≠ oCLK_STATUS → o ≠ oNOTIFY_LOST → rd (crystalRuns s) o 0 = rd s o 0 :=
    fun o ho hlost => rd_clkBit_ne s 1 true ho hlost (by decide)
  have hpower : (crystalRuns s).power = s.power := (told_clkBit s 1 true).power
  have hcond : ((crystalRuns s).power.good && (crystalRuns s).clock.phyOn && rd (crystalRuns s) oPLCA_NODE_ID 0 == 0) = true := by
    rw [hpower, hgood, hkeep _ (by decide) (by decide), hnode]
    rfl
  rw [crystalStarted, hphy, if_neg Bool.false_ne_true, sendBeacons, if_pos hcond, hkeep _ (by decide) (by decide)]
  rfl

/-! ### Steps 6 and 7: the reference and the loops (R51, R55, R56) -/

theorem bootStage_of_atStage {s : State} {v : Nat} (h : atStage s v = true) : rd s oBOOT_STAGE 0 = v :=
  beq_iff_eq.mp (Bool.and_eq_true _ _ ▸ h).2

theorem clkIs_stage (s : State) (v i : Nat) : clkIs (stage s v) i = clkIs s i := (told_stage s v).clkIs (by decide) i

/-- A bit of CLK_STATUS set or cleared: what every bit then reads. -/
theorem clkIs_clkBit (s : State) (i j : Nat) (b : Bool) : clkIs (clkBit s i b) j = if j = i then b else clkIs s j := by
  split
  · next h => rw [h, clkIs_clkBit_self]
  · next h => exact clkIs_clkBit_ne s b h

theorem exec_referenceQualified {s : State} (h : atStage s 4 = true) (hmay : mayReach s 6 = true)
    (href : rd s oCLK_MODE 0 = 1 ∨ clkIs s 1 = true) :
    exec .referenceQualified s = .next (stage (clkBit s 2 true) 6) :=
  congrArg Host.Outcome.next (if_pos ⟨h, hmay, href⟩)

/-- A state whose power-on sequence has halted. -/
def haltedAt (s : State) : State := { s with power := { s.power with halted := true } }

theorem alerts_haltedAt (s : State) : Alerts (haltedAt s) := by
  refine alerts_of_cause ?_
  simp [alertCause, haltedAt]

theorem Told.haltedAt {ks : List Nat} {s t : State} (h : Told ks s t) : Told ks (haltedAt s) (haltedAt t) :=
  ⟨congrArg Machine.haltedAt h.rest, h.objs, h.sessions, h.boxes, h.fns, h.out⟩

theorem exec_refFault {s : State} (h : atStage s 4 = true) (hmay : mayReach s 6 = true) :
    exec .refFault s = .next (haltedAt (clkBit s 6 true)) :=
  congrArg Host.Outcome.next (if_pos ⟨h, hmay⟩)

/-- The bits of CLK_STATUS once every loop has locked. -/
def loopBits (s : State) : State := clkBit (clkBit (clkBit (clkBit s 3 true) 4 true) 5 true) 8 false

theorem exec_loopsLocked {s : State} (h : atStage s 6 = true) (hmay : mayReach s 7 = true) :
    exec .loopsLocked s = .next (stage (loopBits s) 7) :=
  congrArg Host.Outcome.next (if_pos ⟨h, hmay⟩)

theorem told_loopBits (s : State) : Told [objKey oCLK_STATUS 0] s (loopBits s) :=
  Told.mono ((((told_clkBit s 3 true).trans (told_clkBit _ 4 true)).trans (told_clkBit _ 5 true)).trans (told_clkBit _ 8 false))
    (by decide)

theorem clkIs_loopBits (s : State) (i : Nat) :
    clkIs (loopBits s) i = if i = 8 then false else if i = 5 then true else if i = 4 then true else if i = 3 then true else clkIs s i := by
  rw [loopBits, clkIs_clkBit, clkIs_clkBit, clkIs_clkBit, clkIs_clkBit]

/-! ### What halts steps 7 and 8 (R97) -/

theorem exec_loopLockFailure {s : State} (h : atStage s 6 = true) (hmay : mayReach s 7 = true) :
    exec .loopLockFailure s = .next (haltedAt (bootFault s 0)) :=
  congrArg Host.Outcome.next (if_pos ⟨h, hmay⟩)

theorem exec_railFailure {s : State} (h : atStage s 7 = true) (hmay : mayReach s 8 = true) :
    exec .railFailure s = .next (haltedAt (bootFault s 1)) :=
  congrArg Host.Outcome.next (if_pos ⟨h, hmay⟩)

/-! ### Step 8: the quadrants come up (R57, R72, R100) -/

/-- Nothing changes but objects of the listed keys, the sequencers, and what notifications change. -/
def ToldSeqs (ks : List Nat) (s t : State) : Prop := Told ks (withClock s { s.clock with seqs := t.clock.seqs }) t

theorem ToldSeqs.trans {ks ls : List Nat} {s t u : State} (h : ToldSeqs ks s t) (h' : ToldSeqs ls t u) : ToldSeqs (ks ++ ls) s u := by
  have hclock : t.clock = { s.clock with seqs := t.clock.seqs } := Told.clock h
  have hbase := Told.withClock h { t.clock with seqs := u.clock.seqs }
  have hsame : { t.clock with seqs := u.clock.seqs } = { s.clock with seqs := u.clock.seqs } := by rw [hclock]
  have hboth := hbase.trans h'
  rw [hsame] at hboth
  exact hboth

theorem ToldSeqs.power {ks : List Nat} {s t : State} (h : ToldSeqs ks s t) : t.power = s.power :=
  (Told.power h).trans (power_withClock s _)

theorem ToldSeqs.mono {ks ls : List Nat} {s t : State} (h : ToldSeqs ks s t) (hs : ks ⊆ ls) : ToldSeqs ls s t := Told.mono h hs

/-- A quadrant at P7: the rail, and then the divisor. -/
def startQuad (s : State) (q : Nat) : State := storeDivisor (setSeq s q { level := 7, phase := .idle, railMv := railOf 7 }) q 7

theorem toldSeqs_startQuad (s : State) {q : Nat} (hq : q < 8) : ToldSeqs divisorKeys s (startQuad s q) := by
  refine Told.mono (told_wr (setSeq s q _) oMC_DIVISOR (q + 1) _) (List.cons_subset.mpr ⟨?_, List.nil_subset _⟩)
  exact List.mem_map.mpr ⟨q, List.mem_range.mpr hq, rfl⟩

theorem stackFitted_startQuad (s : State) {q : Nat} (hq : q < 8) (k : Nat) : stackFitted (startQuad s q) k = stackFitted s k :=
  Told.stackFitted (toldSeqs_startQuad s hq) (by decide) k

theorem rd_divisor_startQuad (s : State) (q : Nat) {k : Nat} : rd (startQuad s q) oMC_DIVISOR (k + 1) =
    if k = q then (if stackFitted s k then 6 else 0) else rd s oMC_DIVISOR (k + 1) := by
  split
  · next h =>
    subst h
    exact rd_storeDivisor_setSeq s k 7 _
  · next h => exact rd_wr_ne (setSeq s q _) _ (by rw [objKey, objKey]; omega)

theorem toldSeqs_foldl_startQuad {l : List Nat} (hl : ∀ q ∈ l, q < 8) (s : State) :
    ToldSeqs divisorKeys s (l.foldl startQuad s) := by
  induction l generalizing s with
  | nil => exact Told.refl _ s
  | cons q l ih =>
    obtain ⟨hq, hl⟩ := List.forall_mem_cons.mp hl
    exact ((toldSeqs_startQuad s hq).trans (ih hl _)).mono (List.append_subset.mpr ⟨fun _ h => h, fun _ h => h⟩)

theorem seqOf_foldl_startQuad (l : List Nat) (s : State) (q : Nat) : seqOf (l.foldl startQuad s) q =
    if q ∈ l then { level := 7, phase := .idle, railMv := 550 } else seqOf s q := by
  induction l generalizing s with
  | nil => rfl
  | cons r l ih =>
    have hone : seqOf (startQuad s r) q = if q = r then { level := 7, phase := .idle, railMv := 550 } else seqOf s q := by
      split
      · next h =>
        subst h
        exact seqOf_storeDivisor_setSeq s q 7 _
      · next h => exact seqOf_setSeq_ne s _ h
    rw [List.foldl_cons, ih, hone]
    by_cases hl : q ∈ l <;> by_cases hr : q = r <;> simp [hl, hr]

theorem rd_divisor_foldl_startQuad {l : List Nat} (hl : ∀ q ∈ l, q < 8) (s : State) (k : Nat) :
    rd (l.foldl startQuad s) oMC_DIVISOR (k + 1) =
      if k ∈ l then (if stackFitted s k then 6 else 0) else rd s oMC_DIVISOR (k + 1) := by
  induction l generalizing s with
  | nil => rfl
  | cons q l ih =>
    obtain ⟨hq, hl⟩ := List.forall_mem_cons.mp hl
    rw [List.foldl_cons, ih hl, rd_divisor_startQuad, stackFitted_startQuad s hq]
    by_cases hmem : k ∈ l <;> by_cases hkq : k = q <;> simp [hmem, hkq]

/-- A state with other power. -/
def withPower (s : State) (p : Power) : State := { s with power := p }

theorem Told.withPower {ks : List Nat} {s t : State} (h : Told ks s t) (p : Power) : Told ks (withPower s p) (withPower t p) :=
  ⟨congrArg (Machine.withPower · p) h.rest, h.objs, h.sessions, h.boxes, h.fns, h.out⟩

/-- Power once compute runs, envelope and Bask with it. -/
def computePower (s : State) : Power := { s.power with compute := true, control := true }

/-- Every quadrant up, compute powered. -/
def quadsUp (s : State) : State := withPower (startQuads s) (computePower s)

theorem toldSeqs_startQuads (s : State) : ToldSeqs divisorKeys s (startQuads s) :=
  toldSeqs_foldl_startQuad (fun _ hq => List.mem_range.mp hq) s

theorem exec_computeRailsInRegulation {s : State} (h : atStage s 7 = true) (hmay : mayReach s 8 = true) :
    exec .computeRailsInRegulation s = .next (stage (storeRefreshAll (quadsUp s)) 8) := by
  have hpower : (startQuads s).power = s.power := (toldSeqs_startQuads s).power
  have hexec : exec .computeRailsInRegulation s = .next (stage (storeRefreshAll
      (withPower (startQuads s) { (startQuads s).power with compute := true, control := true })) 8) :=
    congrArg Host.Outcome.next (if_pos ⟨h, hmay⟩)
  rw [hexec, quadsUp, computePower, hpower]

theorem told_quadsRefreshed (s : State) :
    Told (refreshKeys ++ [objKey oBOOT_STAGE 0]) (quadsUp s) (stage (storeRefreshAll (quadsUp s)) 8) :=
  (told_storeRefreshAll _).trans (told_stage _ 8)

theorem seqOf_computeUp (s : State) (q : Nat) : seqOf (stage (storeRefreshAll (quadsUp s)) 8) q =
    if q < 8 then { level := 7, phase := .idle, railMv := 550 } else seqOf s q := by
  have hclock : (stage (storeRefreshAll (quadsUp s)) 8).clock = (startQuads s).clock := (told_quadsRefreshed s).clock
  have hseq := seqOf_foldl_startQuad (List.range 8) s q
  simp only [List.mem_range] at hseq
  rw [← hseq, seqOf, seqOf, hclock]
  rfl

theorem rd_divisor_computeUp (s : State) {q : Nat} (hq : q < 8) :
    rd (stage (storeRefreshAll (quadsUp s)) 8) oMC_DIVISOR (q + 1) = if stackFitted s q then 6 else 0 := by
  refine ((told_quadsRefreshed s).rd_index (by decide) (by omega)).trans ?_
  refine (rd_divisor_foldl_startQuad (fun _ h => List.mem_range.mp h) s q).trans (if_pos (List.mem_range.mpr hq))

theorem told_computeUp (s : State) :
    Told (divisorKeys ++ (refreshKeys ++ [objKey oBOOT_STAGE 0]))
      (withPower (withClock s { s.clock with seqs := (stage (storeRefreshAll (quadsUp s)) 8).clock.seqs }) (computePower s))
      (stage (storeRefreshAll (quadsUp s)) 8) := by
  have hclock : (stage (storeRefreshAll (quadsUp s)) 8).clock = (startQuads s).clock := (told_quadsRefreshed s).clock
  rw [hclock]
  exact (Told.withPower (toldSeqs_startQuads s) (computePower s)).trans (told_quadsRefreshed s)

/-! ### The obligation -/

/-- Settles O11: each step sets its bits and then BOOT_STAGE, or halts; a notification changes none of the objects named. -/
theorem powerOnSteps : Obligations.PowerOnSteps := by
  unfold Obligations.PowerOnSteps
  intro s
  have hfails : ∀ i, ∃ t, haltedAt (bootFault s i) = t ∧ (rd t oBOOT_FAULT 0).testBit i = true ∧ Alerts t ∧
      SameObjs [objKey oBOOT_FAULT 0] s t ∧ t = { s with dict := t.dict, power := { s.power with halted := true } } := fun i =>
    ⟨_, rfl, testBit_bootFault s i, alerts_haltedAt _, sameObjs_wr s _ _ _, rfl⟩
  refine ⟨⟨_, exec_crystalOscillation s, ?_⟩, fun h hmay href => ⟨_, exec_referenceQualified h hmay href, ?_⟩,
    fun h hmay => ⟨_, exec_refFault h hmay, ?_⟩, fun h hmay => ⟨_, exec_loopsLocked h hmay, ?_⟩, fun h hmay => ?_, fun h hmay => ?_,
    fun h hmay => ⟨_, exec_computeRailsInRegulation h hmay, ?_⟩⟩
  · have hbit := clkIs_crystalStarted s
    refine ⟨(hbit 1).trans (clkIs_clkBit_self s 1 true), fun i hi => (hbit i).trans (clkIs_clkBit_ne s true hi),
      head_crystalStarted, told_crystalStarted s⟩
  · have hbit := clkIs_stage (clkBit s 2 true) 6
    refine ⟨(hbit 2).trans (clkIs_clkBit_self s 2 true), fun i hi => (hbit i).trans (clkIs_clkBit_ne s true hi),
      rd_stage _ 6, (told_clkBit s 2 true).trans (told_stage _ 6)⟩
  · refine ⟨clkIs_clkBit_self s 6 true, fun i hi => clkIs_clkBit_ne s true hi, alerts_haltedAt _, ?_, (told_clkBit s 6 true).haltedAt⟩
    exact (rd_clkBit_ne s 6 true (by decide) (by decide) (by decide)).trans (bootStage_of_atStage h)
  · have hbit := fun i => (clkIs_stage (loopBits s) 7 i).trans (clkIs_loopBits s i)
    refine ⟨hbit 3, hbit 4, hbit 5, hbit 8, fun i hi => ?_, rd_stage _ 7, (told_loopBits s).trans (told_stage _ 7)⟩
    simp only [List.mem_cons, List.not_mem_nil, or_false, not_or] at hi
    obtain ⟨h3, h4, h5, h8⟩ := hi
    exact (hbit i).trans (by rw [if_neg h8, if_neg h5, if_neg h4, if_neg h3]; rfl)
  · obtain ⟨t, rfl, hrest⟩ := hfails 0
    exact ⟨_, exec_loopLockFailure h hmay, hrest⟩
  · obtain ⟨t, rfl, hrest⟩ := hfails 1
    exact ⟨_, exec_railFailure h hmay, hrest⟩
  · refine ⟨fun q hq => (seqOf_computeUp s q).trans (if_pos hq), fun q hq => (seqOf_computeUp s q).trans (if_neg (by omega)),
      fun q => rd_divisor_computeUp s, rd_stage _ 8, (told_computeUp s).mono (by decide)⟩

end Sys2Proof.Machine

/-! PROOF. Configuration requests (spec/05 R99; spec/17 R396, R397, R399, R415, Tables HOST-1 and HOST-2). -/

namespace Sys2Proof.Machine

open Sys2Proof

/-! ### Functions -/

@[simp] theorem fnOf_setFn_self (s : State) (fn : Nat) (r : FnRec) : fnOf (setFn s fn r) fn = r := tabGet_tabPut_self _ _ _ _

theorem fnOf_setFn_ne (s : State) {fn f : Nat} (r : FnRec) (h : f ≠ fn) : fnOf (setFn s fn r) f = fnOf s f :=
  tabGet_tabPut_ne _ _ _ h

theorem fnOf_foldl_emit {α : Type} (g : α → Emit) (l : List α) (s : State) (f : Nat) :
    fnOf (l.foldl (fun t v => emit t (g v)) s) f = fnOf s f := by
  induction l generalizing s with
  | nil => rfl
  | cons v l ih => exact ih (emit s (g v))

/-- Pending vectors sent: the function keeps the rest of its record. -/
theorem fnOf_flushMsix_self (s : State) (fn : Nat) :
    fnOf (flushMsix s fn) fn = { fnOf s fn with pending := (fnOf (flushMsix s fn) fn).pending } := by
  rw [flushMsix]
  split
  · rw [fnOf_foldl_emit, fnOf_setFn_self]
  · rfl

theorem fnOf_flushMsix_ne (s : State) {fn f : Nat} (h : f ≠ fn) : fnOf (flushMsix s fn) f = fnOf s f := by
  rw [flushMsix]
  split
  · rw [fnOf_foldl_emit, fnOf_setFn_ne _ _ h]
  · rfl

/-! ### What a request makes of a function -/

/-- From `s` to `t` one function changes, and vectors may be sent. -/
structure OnFn (fn : Nat) (s t : State) : Prop where
  others : ∀ f, f ≠ fn → fnOf t f = fnOf s f
  rest : Signalled s t

theorem OnFn.refl (fn : Nat) (s : State) : OnFn fn s s := ⟨fun _ _ => rfl, rfl⟩

theorem onFn_setFn (s : State) (fn : Nat) (r : FnRec) : OnFn fn s (setFn s fn r) := ⟨fun _ h => fnOf_setFn_ne s r h, rfl⟩

theorem onFn_flushMsix_setFn (s : State) (fn : Nat) (r : FnRec) : OnFn fn s (flushMsix (setFn s fn r) fn) :=
  ⟨fun _ h => (fnOf_flushMsix_ne _ h).trans (fnOf_setFn_ne s r h), Signalled.trans (t := setFn s fn r) rfl (signalled_flushMsix _ fn)⟩

theorem onFn_configure (s : State) (fn : Nat) (req : CfgReq) : OnFn fn s (configure s fn req) := by
  cases req with
  | read _ => exact OnFn.refl fn s
  | serial => exact OnFn.refl fn s
  | bar n base =>
    simp only [configure]
    split
    · exact onFn_setFn s fn _
    · split
      · exact onFn_setFn s fn _
      · exact OnFn.refl fn s
  | power d3 =>
    simp only [configure]
    split
    · exact onFn_setFn s fn _
    · exact OnFn.refl fn s
  | msix enable mask => exact onFn_flushMsix_setFn s fn _
  | vector v addr data masked =>
    simp only [configure]
    split
    · exact OnFn.refl fn s
    · exact onFn_flushMsix_setFn s fn _
  | payload bytes => exact onFn_setFn s fn _
  | vfs n =>
    simp only [configure]
    split
    · exact onFn_setFn s fn _
    · exact OnFn.refl fn s

/-- Pending vectors of a function sent once its record is stored: of that record only they change. -/
theorem fnOf_flushMsix_setFn (s : State) (fn : Nat) (r : FnRec) :
    fnOf (flushMsix (setFn s fn r) fn) fn = { r with pending := (fnOf (flushMsix (setFn s fn r) fn) fn).pending } := by
  rw [fnOf_flushMsix_self, fnOf_setFn_self]

theorem fnOf_configure_power {s : State} {fn : Nat} (h : fn % 256 = 0) (d3 : Bool) :
    fnOf (configure s fn (.power d3)) fn = { fnOf s fn with d3 := d3 } := by
  have hcap : hasCapability fn .powerManagement = true := beq_iff_eq.mpr h
  rw [configure, if_pos hcap, fnOf_setFn_self]

theorem fnOf_configure_vector {s : State} {fn v : Nat} (hon : fnOn s fn = true) (hv : v < msixVectors fn) (addr word : Nat)
    (masked : Bool) : fnOf (configure s fn (.vector v addr word masked)) fn = { fnOf s fn with
      vectors := tabPut (fnOf s fn).vectors v { addr := addr, data := word, masked := masked }
      pending := (fnOf (configure s fn (.vector v addr word masked)) fn).pending } := by
  have hlisted : (!(fnOn s fn) || decide (msixVectors fn ≤ v)) = false := by
    rw [hon, decide_eq_false (by omega)]
    rfl
  rw [configure, if_neg (by rw [hlisted]; exact Bool.false_ne_true)]
  exact fnOf_flushMsix_setFn s fn _

theorem fnOf_configure_vfs {s : State} {fn n : Nat} (h : fn % 256 = 0) (hn : n ≤ 127) (hnone : (fnOf s fn).vfs = 0) :
    fnOf (configure s fn (.vfs n)) fn = { fnOf s fn with vfs := n } := by
  have hmay : (hasCapability fn .sriov && (fnOf s fn).vfs == 0 && decide (n ≤ sriovNumbers.1)) = true := by
    rw [show hasCapability fn .sriov = true from beq_iff_eq.mpr h, hnone, decide_eq_true (show n ≤ sriovNumbers.1 from hn)]
    rfl
  rw [configure, if_pos hmay, fnOf_setFn_self]

/-! ### What a request returns -/

theorem cfgRead_ids (s : State) (fn : Nat) :
    cfgRead s fn 0 = (if fn % 256 = 0 then 0x4E0D else 0x4E0E) * 65536 + rd s oPCI_IDS 0 % 65536 := rfl

theorem cfgRead_class (s : State) (fn : Nat) : cfgRead s fn 8 / 256 = 0x120000 := by
  have hlow : Config.cfgHeader fn 8 % 256 < 256 := Nat.mod_lt _ (by decide)
  rw [show cfgRead s fn 8 = classCode * 256 + Config.cfgHeader fn 8 % 256 from rfl, show classCode = 0x120000 from rfl]
  omega

theorem barLow_barHigh (base : Nat) : barLow base + 2 ^ 32 * barHigh base = base % 2 ^ 64 + 4 := by
  rw [barLow, barHigh]
  omega

theorem configData_serial (s : State) (fn : Nat) :
    configData s fn .serial = if fn % 256 = 0 then rd s oDEVICE_SERIAL 0 else 0 :=
  if_congr (show hasCapability fn .serialNumber = true ↔ fn % 256 = 0 from beq_iff_eq) rfl rfl

/-! ### CONFIG_REQUEST -/

section LinkUp

variable {s : State} {fn : Nat} (hlink : (epOf s (fn / 256)).linkUp = true) (hfn : fn % 256 ≤ 127)
include hlink hfn

theorem exec_configRequest_gated (req : CfgReq) (hgated : s.clock.rootGated = true) :
    exec (.configRequest fn req) s = .next (holdHost s (.config fn req)) :=
  congrArg Host.Outcome.next ((if_pos ⟨hlink, hfn⟩).trans (if_pos hgated))

variable (hgated : s.clock.rootGated = false)
include hgated

theorem exec_configRequest (req : CfgReq) : exec (.configRequest fn req) s = .next (configNow s fn req) :=
  congrArg Host.Outcome.next ((if_pos ⟨hlink, hfn⟩).trans (if_neg (by rw [hgated]; exact Bool.false_ne_true)))

theorem exec_configRequest_retried (req : CfgReq) (hstage : rd s oBOOT_STAGE 0 ≠ 13) :
    exec (.configRequest fn req) s = .next (emit s (.config fn false)) := by
  rw [exec_configRequest hlink hfn hgated, configNow, if_neg hstage]

theorem exec_configRequest_answered (req : CfgReq) (hstage : rd s oBOOT_STAGE 0 = 13) :
    exec (.configRequest fn req) s = .next (emit (configure s fn req) (.config fn true (configData s fn req))) := by
  rw [exec_configRequest hlink hfn hgated, configNow, if_pos hstage]

end LinkUp

/-- Settles O14: a request is held, retried or answered; answered, it stores one function's record and sends vectors no longer
masked. -/
theorem configurationRetriedUntilStep13 : Obligations.ConfigurationRetriedUntilStep13 := by
  unfold Obligations.ConfigurationRetriedUntilStep13
  intro s fn req hlink hfn
  refine ⟨exec_configRequest_gated hlink hfn req, fun hgated => exec_configRequest_retried hlink hfn hgated req,
    fun hgated hstage => ?_⟩
  have hanswer := fun req => exec_configRequest_answered hlink hfn hgated req hstage
  refine ⟨fun reg => hanswer (.read reg), cfgRead_ids s fn, cfgRead_class s fn, barLow_barHigh _, barLow_barHigh _, ?_,
    _, configData s fn req, hanswer req, rfl, (onFn_configure s fn req).others, ?_, ?_⟩
  · rw [hanswer .serial, configData_serial]
    rfl
  · have hrest := (onFn_configure s fn req).rest
    rw [Signalled] at hrest
    rw [hrest]
    rfl
  · refine ⟨?_, ?_, ?_, ?_, ?_, ?_, ?_⟩
    · rintro base rfl
      exact fnOf_setFn_self s fn _
    · rintro base rfl
      exact fnOf_setFn_self s fn _
    · rintro bytes rfl
      exact fnOf_setFn_self s fn _
    · rintro on mask rfl
      exact fnOf_flushMsix_setFn s fn _
    · rintro v addr word masked rfl hon hv
      exact fnOf_configure_vector hon hv addr word masked
    · rintro d3 rfl h
      exact fnOf_configure_power h d3
    · rintro n rfl h hn hnone
      exact fnOf_configure_vfs h hn hnone

end Sys2Proof.Machine

/-! PROOF. Doorbells of intake queues (spec/17 R401 to R403, R187; spec/03 R69). -/

namespace Sys2Proof.Machine

open Sys2Proof

/-! ### What the host writes to its memory (R187, R399) -/

/-- Where a byte of a function's host memory is listed. -/
def hostCell (fn a : Nat) : Nat := fn * 2 ^ 60 + a % 2 ^ 60

/-- A state with other host memory. -/
def withHost (s : State) (h : List Host.Cell) : State := { s with mem := { s.mem with host := h } }

theorem hostByte_eq (s : State) (fn a : Nat) : hostByte s fn a =
    (tabGet? s.mem.host (hostCell fn a)).getD (Config.unwrittenByte 0 (2 ^ 72 + fn * 2 ^ 60 + a % 2 ^ 60)) := rfl

theorem hostByte_congr {s t : State} {fn a : Nat} (h : tabGet? t.mem.host (hostCell fn a) = tabGet? s.mem.host (hostCell fn a)) :
    hostByte t fn a = hostByte s fn a := by
  rw [hostByte_eq, hostByte_eq, h]

/-- One byte is one posted write, whatever the payload size. -/
theorem postedWrites_byte {n : Nat} (hn : 1 ≤ n) (a : Nat) (b : Byte) : postedWrites n 2 a [b] = [⟨a, [b], false⟩] := by
  have htake : ([b] : List Byte).take n = [b] := List.take_of_length_le hn
  have hdrop : ([b] : List Byte).drop n = [] := List.drop_of_length_le hn
  simp [postedWrites, htake, hdrop]

theorem hostStore_byte (s : State) (fn a : Nat) (b : Byte) :
    hostStore s fn a [b] = withHost s (tabPut s.mem.host (hostCell fn a) b) := by
  have hpay : 1 ≤ payloadOf s fn := by
    rw [payloadOf]
    omega
  rw [hostStore, List.length_singleton, postedWrites_byte hpay]
  rfl

/-- Host memory after a list of bytes written one after the other. -/
def hostPut (fn : Nat) (h : List Host.Cell) (w : List (Nat × Byte)) : List Host.Cell :=
  w.foldl (fun h e => tabPut h (hostCell fn e.1) e.2) h

theorem hostWrites_eq (s : State) (fn : Nat) (w : List (Nat × Byte)) : hostWrites s fn w = withHost s (hostPut fn s.mem.host w) := by
  induction w generalizing s with
  | nil => rfl
  | cons e w ih =>
    obtain ⟨a, b⟩ := e
    rw [hostWrites, hostStore_byte, ih]
    rfl

theorem tabGet?_hostPut_ne (fn : Nat) (h : List Host.Cell) {w : List (Nat × Byte)} {k : Nat} (hk : ∀ e ∈ w, hostCell fn e.1 ≠ k) :
    tabGet? (hostPut fn h w) k = tabGet? h k := by
  induction w generalizing h with
  | nil => rfl
  | cons e w ih =>
    obtain ⟨he, hw⟩ := List.forall_mem_cons.mp hk
    exact (ih (tabPut h (hostCell fn e.1) e.2) hw).trans (tabGet?_tabPut_ne h e.2 (Ne.symm he))

/-- The last write of an address stands. -/
theorem tabGet?_hostPut_last (fn : Nat) (h : List Host.Cell) (before : List (Nat × Byte)) (e : Nat × Byte) {after : List (Nat × Byte)}
    (hafter : ∀ x ∈ after, x.1 % 2 ^ 60 ≠ e.1 % 2 ^ 60) :
    tabGet? (hostPut fn h (before ++ e :: after)) (hostCell fn e.1) = some e.2 := by
  rw [hostPut, List.foldl_append, List.foldl_cons]
  refine (tabGet?_hostPut_ne fn _ fun x hx => ?_).trans (tabGet?_tabPut_self _ _ _)
  have hne := hafter x hx
  rw [hostCell, hostCell]
  omega

/-- What the host has written is what its memory reads. -/
theorem visible_withHost (s : State) (fn : Nat) (w : List (Nat × Byte)) {t : State} (ht : t.mem.host = hostPut fn s.mem.host w) :
    (∀ before e after, w = before ++ e :: after → (∀ x ∈ after, x.1 % 2 ^ 60 ≠ e.1 % 2 ^ 60) → hostByte t fn e.1 = e.2) ∧
      (∀ f a, (∀ e ∈ w, fn * 2 ^ 60 + e.1 % 2 ^ 60 ≠ f * 2 ^ 60 + a % 2 ^ 60) → hostByte t f a = hostByte s f a) := by
  refine ⟨fun before e after hw hafter => ?_, fun f a hne => hostByte_congr ?_⟩
  · subst hw
    rw [hostByte_eq, ht, tabGet?_hostPut_last fn s.mem.host before e hafter]
    rfl
  · rw [ht, tabGet?_hostPut_ne (k := hostCell f a) fn s.mem.host hne]

/-! ### IQ_DOORBELL -/

theorem exec_iqDoorbell (s : State) (fn i value : Nat) (w : List (Nat × Byte)) : exec (.iqDoorbell fn i value w) s =
    .next (fromHost (withHost s (hostPut fn s.mem.host w)) fn (.iqDoorbell fn i value) (doorbellAt fn i value)) :=
  congrArg (fun t => Host.Outcome.next (fromHost t fn (.iqDoorbell fn i value) (doorbellAt fn i value))) (hostWrites_eq s fn w)

theorem fromHost_gated {s : State} {fn : Nat} (hon : fnOn s fn = true) (hgated : s.clock.rootGated = true) (r : HostReq)
    (act : State → State) : fromHost s fn r act = holdHost s r :=
  if_pos (by rw [hon, hgated]; rfl)

theorem fromHost_running {s : State} (hgated : s.clock.rootGated = false) (fn : Nat) (r : HostReq) (act : State → State) :
    fromHost s fn r act = act s :=
  if_neg (by rw [hgated, Bool.and_false]; exact Bool.false_ne_true)

/-- A function whose registers the host reaches is bound to the partition and on, the PCIe core clocked. -/
theorem doorPart_eq_some {s : State} {fn p : Nat} (h : doorPart s fn = some p) :
    fnPart s fn = some p ∧ fnOn s fn = true ∧ s.clock.rootGated = false ∧ (partOf s p).resetting = false := by
  unfold doorPart at h
  cases hpart : fnPart s fn with
  | none => simp [hpart] at h
  | some r =>
    simp only [hpart] at h
    split at h
    · next hc =>
      cases h
      simp only [busUp, Bool.and_eq_true, Bool.not_eq_true'] at hc
      exact ⟨rfl, hc.1.1, hc.1.2, hc.2⟩
    · exact absurd h (by simp)

theorem exec_iqDoorbell_running {s : State} {fn i p : Nat} (h : doorPart s fn = some p) (hi : i < iqCount s p) (value : Nat)
    (w : List (Nat × Byte)) : exec (.iqDoorbell fn i value w) s = .next (setIq (withHost s (hostPut fn s.mem.host w)) (iqIndex s p i)
      (ringIq (iqOf s (iqIndex s p i)) (value % 65536))) := by
  obtain ⟨-, -, hgated, -⟩ := doorPart_eq_some h
  have hdoor : doorPart (withHost s (hostPut fn s.mem.host w)) fn = some p := h
  rw [exec_iqDoorbell, fromHost_running (s := withHost s (hostPut fn s.mem.host w)) hgated, doorbellAt, hdoor]
  exact congrArg Host.Outcome.next (if_pos hi)

/-! ### What a doorbell makes of a queue (R401, R403) -/

/-- A queue that takes doorbells. -/
def Iq.takesDoorbells (x : Iq) : Prop := x.enabled = true ∧ x.enable = true ∧ x.overrun = false

theorem ringIq_ignored {x : Iq} {tail : Nat} (h : ¬x.takesDoorbells ∨ tail = x.tail) : ringIq x tail = x := by
  refine if_pos ?_
  unfold Iq.takesDoorbells at h
  cases he : x.enabled <;> cases hen : x.enable <;> cases ho : x.overrun <;> simp_all

theorem ringIq_taken {x : Iq} {tail : Nat} (h : x.takesDoorbells) (hne : tail ≠ x.tail) : ringIq x tail =
    if doorbellBreach x tail then { x with overrun := true, enabled := x.current.isSome }
    else { x with tail := tail, log := x.log ++ [ringDist (ringDepth x.base) x.tail tail] } := by
  obtain ⟨hd, he, ho⟩ := h
  exact if_neg (by simp [hd, he, ho, hne])

theorem doorbellBreach_iff (x : Iq) (tail : Nat) : doorbellBreach x tail = true ↔ ringDepth x.base ≤ tail ∨
    ringDepth x.base ≤ ringDist (ringDepth x.base) x.head x.tail + ringDist (ringDepth x.base) x.tail tail ∨ 16 ≤ x.log.length := by
  simp only [doorbellBreach, Bool.or_eq_true, decide_eq_true_eq]
  omega

theorem ringIq_overrun {x : Iq} {tail : Nat} (h : x.takesDoorbells) (hne : tail ≠ x.tail) (hb : doorbellBreach x tail = true) :
    ringIq x tail = { x with overrun := true, enabled := x.current.isSome } := by
  rw [ringIq_taken h hne, if_pos hb]

theorem ringIq_logged {x : Iq} {tail : Nat} (h : x.takesDoorbells) (hne : tail ≠ x.tail) (hb : doorbellBreach x tail = false) :
    ringIq x tail = { x with tail := tail, log := x.log ++ [ringDist (ringDepth x.base) x.tail tail] } := by
  rw [ringIq_taken h hne, if_neg (by rw [hb]; exact Bool.false_ne_true)]

/-! ### The obligation -/

/-- Settles O24: the host's writes come first and do not touch the queues; of the queues the doorbell stores one. -/
theorem doorbellLogsOneBatch : Obligations.DoorbellLogsOneBatch := by
  unfold Obligations.DoorbellLogsOneBatch
  intro s fn i value p w
  refine ⟨fun hon hgated => ?_, fun hdoor hi => ?_⟩
  · have hheld : exec (.iqDoorbell fn i value w) s =
        .next (holdHost (withHost s (hostPut fn s.mem.host w)) (.iqDoorbell fn i value)) := by
      rw [exec_iqDoorbell, fromHost_gated (s := withHost s (hostPut fn s.mem.host w)) hon hgated]
    exact ⟨_, hheld, visible_withHost s fn w rfl, rfl, rfl⟩
  · have hself := iqOf_setIq_self (withHost s (hostPut fn s.mem.host w)) (iqIndex s p i)
      (ringIq (iqOf s (iqIndex s p i)) (value % 65536))
    refine ⟨_, exec_iqDoorbell_running hdoor hi value w, visible_withHost s fn w rfl, fun h => hself.trans (ringIq_ignored h),
      fun hopen hne hbreach => hself.trans (ringIq_overrun hopen hne ((doorbellBreach_iff _ _).mpr hbreach)),
      fun hopen hne htail hahead hlog => hself.trans (ringIq_logged hopen hne ?_),
      fun r hr => iqOf_setIq_ne _ _ hr, rfl⟩
    refine Bool.eq_false_iff.mpr fun hbreach => ?_
    rcases (doorbellBreach_iff _ _).mp hbreach with h | h | h <;> omega

end Sys2Proof.Machine

/-! PROOF. Writes of BAR0 registers (spec/17 R398, R400, R413, R418, R445, Tables HOST-3 to HOST-5; spec/03 R69). -/

namespace Sys2Proof.Machine

open Sys2Proof

/-! ### Accesses -/

theorem exec_bar0_bad {off size : Nat} (h : accessOk off size = false) (s : State) (fn v : Nat) :
    exec (.bar0RegisterWrite fn off size v) s = .next s :=
  congrArg Host.Outcome.next (if_neg (by rw [h]; exact Bool.false_ne_true))

theorem exec_bar0_gated {s : State} {fn off size : Nat} (h : accessOk off size = true) (hon : fnOn s fn = true)
    (hgated : s.clock.rootGated = true) (v : Nat) :
    exec (.bar0RegisterWrite fn off size v) s = .next (holdHost s (.bar0 fn off size v)) :=
  congrArg Host.Outcome.next ((if_pos h).trans (fromHost_gated hon hgated _ _))

theorem exec_bar0_running {s : State} (hgated : s.clock.rootGated = false) (fn v : Nat) {off size : Nat}
    (h : accessOk off size = true) : exec (.bar0RegisterWrite fn off size v) s = .next (bar0Write fn off size v s) :=
  congrArg Host.Outcome.next ((if_pos h).trans (fromHost_running hgated fn _ _))

/-- A write that changes no register changes nothing, whether or not the access is a good one. -/
theorem exec_bar0_same {s : State} (hgated : s.clock.rootGated = false) {fn v off size : Nat} (h : bar0Write fn off size v s = s) :
    exec (.bar0RegisterWrite fn off size v) s = .next s := by
  cases hok : accessOk off size with
  | false => exact exec_bar0_bad hok s fn v
  | true => rw [exec_bar0_running hgated fn v hok, h]

/-! ### Which register an offset names -/

/-- Register `r` of intake queue `i`. -/
theorem bar0Write_iq {s : State} {fn p i r : Nat} (hdoor : doorPart s fn = some p) (hi : i < 4096) (hr : r < 32) (size v : Nat) :
    bar0Write fn (0x10000 + 32 * i + r) size v s = if i < iqCount s p then writeIqReg s p i r size v else s := by
  have hqueue : (0x10000 + 32 * i + r - 0x10000) / 32 = i := by omega
  have hreg : (0x10000 + 32 * i + r) % 32 = r := by omega
  rw [bar0Write, if_neg (by omega), hdoor]
  simp only
  rw [if_pos (by omega), hqueue, hreg]

/-- Register `r` of completion queue `i`. -/
theorem bar0Write_cq {s : State} {fn p i r : Nat} (hdoor : doorPart s fn = some p) (hi : i < 4096) (hr : r < 32) (size v : Nat) :
    bar0Write fn (0x30000 + 32 * i + r) size v s = if i < cqCount s p then writeCqReg s p i r size v else s := by
  have hqueue : (0x30000 + 32 * i + r - 0x30000) / 32 = i := by omega
  have hreg : (0x30000 + 32 * i + r) % 32 = r := by omega
  rw [bar0Write, if_neg (by omega), hdoor]
  simp only
  rw [if_neg (by omega), if_pos (by omega), hqueue, hreg]

theorem bar0Write_unbound {s : State} {fn off : Nat} (hdoor : doorPart s fn = none) (hoff : off < 0x51000) (size v : Nat) :
    bar0Write fn off size v s = s := by
  rw [bar0Write, if_neg (by omega), hdoor]

theorem bar0Write_box {s : State} {fn off : Nat} (hlo : 0x51000 ≤ off) (hhi : off < 0x52000) (size v : Nat) :
    bar0Write fn off size v s = if fn % 256 = 0 then writeBoxReg s (fn / 256) off size v else s :=
  if_pos ⟨hlo, hhi⟩

/-! ### Registers of the queues -/

theorem writeIqReg_enabled {s : State} {p i r : Nat} (h : (iqOf s (iqIndex s p i)).enable = true) (hr : r < 16) (size v : Nat) :
    writeIqReg s p i r size v = s := by
  unfold writeIqReg
  by_cases h8 : r < 8 <;> simp [h8, hr, h]

theorem writeIqReg_base {s : State} {p i r : Nat} (h : (iqOf s (iqIndex s p i)).enable = false) (hr : r < 8) (size v : Nat) :
    writeIqReg s p i r size v = setIq s (iqIndex s p i) { iqOf s (iqIndex s p i) with
      base := maskBase (merge64 (iqOf s (iqIndex s p i)).base r size v) } := by
  simp [writeIqReg, hr, h]

theorem writeIqReg_headAddr {s : State} {p i r : Nat} (h : (iqOf s (iqIndex s p i)).enable = false) (hlo : 8 ≤ r) (hr : r < 16)
    (size v : Nat) : writeIqReg s p i r size v = setIq s (iqIndex s p i) { iqOf s (iqIndex s p i) with
      headAddr := merge64 (iqOf s (iqIndex s p i)).headAddr r size v / 4 * 4 } := by
  simp [writeIqReg, show ¬r < 8 by omega, hr, h]

theorem writeIqReg_reserved {r : Nat} (h : 17 ≤ r) (s : State) (p i size v : Nat) : writeIqReg s p i r size v = s := by
  simp [writeIqReg, show ¬r < 8 by omega, show ¬r < 16 by omega, show r ≠ 16 by omega]

theorem writeCqReg_enabled {s : State} {p i r : Nat} (h : (cqOf s (cqIndex s p i)).enabled = true) (hr : r < 8) (size v : Nat) :
    writeCqReg s p i r size v = s := by
  simp [writeCqReg, hr, h]

theorem writeCqReg_base {s : State} {p i r : Nat} (h : (cqOf s (cqIndex s p i)).enabled = false) (hr : r < 8) (size v : Nat) :
    writeCqReg s p i r size v = setCq s (cqIndex s p i) { cqOf s (cqIndex s p i) with
      base := maskBase (merge64 (cqOf s (cqIndex s p i)).base r size v) } := by
  simp [writeCqReg, hr, h]

theorem writeCqReg_reserved {r : Nat} (h : 9 ≤ r) (s : State) (p i size v : Nat) : writeCqReg s p i r size v = s := by
  simp [writeCqReg, show ¬r < 8 by omega, show r ≠ 8 by omega]

/-- An aligned access of 4 or 8 bytes. -/
theorem accessOk_of_dvd {off size : Nat} (hs : size = 4 ∨ size = 8) (h : off % size = 0) : accessOk off size = true := by
  rw [accessOk, h]
  rcases hs with rfl | rfl <;> rfl

theorem merge64_low (old r v : Nat) (h : r % 8 = 0) : merge64 old r 4 v = old / 2 ^ 32 * 2 ^ 32 + v % 2 ^ 32 := by
  rw [merge64, if_neg (by decide), if_pos h]

theorem merge64_high (old r v : Nat) (h : r % 8 ≠ 0) : merge64 old r 4 v = old % 2 ^ 32 + v % 2 ^ 32 * 2 ^ 32 := by
  rw [merge64, if_neg (by decide), if_neg h]

/-! ### Writes that reach a queue of the function -/

section Bound

variable {s : State} {fn p i : Nat} (hdoor : doorPart s fn = some p) (hi : i < 4096)
include hdoor hi

theorem exec_bar0_iq (hcount : i < iqCount s p) {r size : Nat} (hr : r < 32) (hok : accessOk (0x10000 + 32 * i + r) size = true)
    (v : Nat) : exec (.bar0RegisterWrite fn (0x10000 + 32 * i + r) size v) s = .next (writeIqReg s p i r size v) := by
  obtain ⟨-, -, hgated, -⟩ := doorPart_eq_some hdoor
  rw [exec_bar0_running hgated fn v hok, bar0Write_iq hdoor hi hr, if_pos hcount]

theorem exec_bar0_cq (hcount : i < cqCount s p) {r size : Nat} (hr : r < 32) (hok : accessOk (0x30000 + 32 * i + r) size = true)
    (v : Nat) : exec (.bar0RegisterWrite fn (0x30000 + 32 * i + r) size v) s = .next (writeCqReg s p i r size v) := by
  obtain ⟨-, -, hgated, -⟩ := doorPart_eq_some hdoor
  rw [exec_bar0_running hgated fn v hok, bar0Write_cq hdoor hi hr, if_pos hcount]

/-- A register that the write leaves alone, or a queue that the function does not have. -/
theorem exec_bar0_iq_same {r size v : Nat} (hr : r < 32) (h : i < iqCount s p → writeIqReg s p i r size v = s) :
    exec (.bar0RegisterWrite fn (0x10000 + 32 * i + r) size v) s = .next s := by
  obtain ⟨-, -, hgated, -⟩ := doorPart_eq_some hdoor
  refine exec_bar0_same hgated ?_
  rw [bar0Write_iq hdoor hi hr]
  split
  · next hcount => exact h hcount
  · rfl

theorem exec_bar0_cq_same {r size v : Nat} (hr : r < 32) (h : i < cqCount s p → writeCqReg s p i r size v = s) :
    exec (.bar0RegisterWrite fn (0x30000 + 32 * i + r) size v) s = .next s := by
  obtain ⟨-, -, hgated, -⟩ := doorPart_eq_some hdoor
  refine exec_bar0_same hgated ?_
  rw [bar0Write_cq hdoor hi hr]
  split
  · next hcount => exact h hcount
  · rfl

variable (v : Nat)

theorem exec_bar0_iqBase (hcount : i < iqCount s p) (hen : (iqOf s (iqIndex s p i)).enable = false) {r size w : Nat} (hr : r < 8)
    (hok : accessOk (0x10000 + 32 * i + r) size = true) (hw : merge64 (iqOf s (iqIndex s p i)).base r size v = w) :
    exec (.bar0RegisterWrite fn (0x10000 + 32 * i + r) size v) s =
      .next (setIq s (iqIndex s p i) { iqOf s (iqIndex s p i) with base := maskBase w }) := by
  rw [exec_bar0_iq hdoor hi hcount (by omega) hok, writeIqReg_base hen hr, hw]

theorem exec_bar0_iqHeadAddr (hcount : i < iqCount s p) (hen : (iqOf s (iqIndex s p i)).enable = false) {r size w : Nat} (hlo : 8 ≤ r)
    (hr : r < 16) (hok : accessOk (0x10000 + 32 * i + r) size = true)
    (hw : merge64 (iqOf s (iqIndex s p i)).headAddr r size v = w) :
    exec (.bar0RegisterWrite fn (0x10000 + 32 * i + r) size v) s =
      .next (setIq s (iqIndex s p i) { iqOf s (iqIndex s p i) with headAddr := w / 4 * 4 }) := by
  rw [exec_bar0_iq hdoor hi hcount (by omega) hok, writeIqReg_headAddr hen hlo hr, hw]

theorem exec_bar0_cqBase (hcount : i < cqCount s p) (hen : (cqOf s (cqIndex s p i)).enabled = false) {r size w : Nat} (hr : r < 8)
    (hok : accessOk (0x30000 + 32 * i + r) size = true) (hw : merge64 (cqOf s (cqIndex s p i)).base r size v = w) :
    exec (.bar0RegisterWrite fn (0x30000 + 32 * i + r) size v) s =
      .next (setCq s (cqIndex s p i) { cqOf s (cqIndex s p i) with base := maskBase w }) := by
  rw [exec_bar0_cq hdoor hi hcount (by omega) hok, writeCqReg_base hen hr, hw]

end Bound

/-! ### IQ_CTRL (R400, R405) -/

theorem testBit_zero_mod (v : Nat) : (v % 2 ^ 32).testBit 0 = v.testBit 0 := by
  rw [Nat.testBit_mod_two_pow, decide_eq_true (by decide), Bool.true_and]

/-- A write of IQ_CTRL is one of the two commands, by its ENABLE. -/
theorem exec_iqCtrl {s : State} (hgated : s.clock.rootGated = false) (fn i v : Nat) :
    exec (if v.testBit 0 then .iqEnable fn i (v % 2 ^ 32) else .iqDisable fn i (v % 2 ^ 32)) s =
      .next (iqCtrlAt fn i (v % 2 ^ 32) s) := by
  have hwrite : iqCtrlWrite s fn i (v % 2 ^ 32) = iqCtrlAt fn i (v % 2 ^ 32) s := fromHost_running hgated fn _ _
  split
  · next h => exact (congrArg Host.Outcome.next (if_pos ((testBit_zero_mod v).trans h))).trans (congrArg Host.Outcome.next hwrite)
  · next h =>
    exact (congrArg Host.Outcome.next (if_neg (by rw [testBit_zero_mod]; exact h))).trans (congrArg Host.Outcome.next hwrite)

theorem bar0Write_iqCtrl (s : State) (fn : Nat) {i : Nat} (hi : i < 4096) (size v : Nat) :
    bar0Write fn (0x10000 + 32 * i + 16) size v s = iqCtrlAt fn i (v % 2 ^ 32) s := by
  unfold iqCtrlAt
  cases hdoor : doorPart s fn with
  | none => exact bar0Write_unbound hdoor (by omega) size v
  | some p => exact bar0Write_iq hdoor hi (by decide) size v

/-! ### Offsets at which nothing is stored -/

theorem writeBoxReg_readOnly {off : Nat} (hoff : off < 0x51800) (hirq : off ≠ 0x51018) (s : State) (e size v : Nat) :
    writeBoxReg s e off size v = s := by
  unfold writeBoxReg
  simp [hirq, show ¬0x51800 ≤ off by omega]

/-- Queue and register that an offset among the queues' registers names. -/
theorem queueOffset (base off : Nat) (h : base ≤ off) (hb : base % 32 = 0) :
    off = base + 32 * ((off - base) / 32) + off % 32 := by
  omega

theorem exec_bar0_readOnly {s : State} (hgated : s.clock.rootGated = false) {fn off : Nat}
    (h : (0x10000 ≤ off ∧ off < 0x30000 ∧ 20 ≤ off % 32) ∨ (0x30000 ≤ off ∧ off < 0x50000 ∧ 12 ≤ off % 32) ∨
      (0x50000 ≤ off ∧ off < 0x51000) ∨ 0x52000 ≤ off ∨ (0x51000 ≤ off ∧ off < 0x51800 ∧ off ≠ 0x51018) ∨
      (fn % 256 ≠ 0 ∧ 0x51000 ≤ off ∧ off < 0x52000)) (size v : Nat) :
    exec (.bar0RegisterWrite fn off size v) s = .next s := by
  refine exec_bar0_same hgated ?_
  have hlt : off % 32 < 32 := Nat.mod_lt _ (by decide)
  rcases h with ⟨hlo, hhi, hr⟩ | ⟨hlo, hhi, hr⟩ | ⟨hlo, hhi⟩ | hlo | ⟨hlo, hhi, hirq⟩ | ⟨hvf, hlo, hhi⟩
  · cases hdoor : doorPart s fn with
    | none => exact bar0Write_unbound hdoor (by omega) size v
    | some p =>
      rw [queueOffset 0x10000 off hlo (by decide), bar0Write_iq hdoor (by omega) hlt, writeIqReg_reserved (by omega)]
      exact ite_self s
  · cases hdoor : doorPart s fn with
    | none => exact bar0Write_unbound hdoor (by omega) size v
    | some p =>
      rw [queueOffset 0x30000 off hlo (by decide), bar0Write_cq hdoor (by omega) hlt, writeCqReg_reserved (by omega)]
      exact ite_self s
  · cases hdoor : doorPart s fn with
    | none => exact bar0Write_unbound hdoor (by omega) size v
    | some p => simp [bar0Write, hdoor, show ¬0x51000 ≤ off by omega, show ¬off < 0x30000 by omega, show ¬off < 0x50000 by omega]
  · cases hdoor : doorPart s fn <;>
      simp [bar0Write, hdoor, show ¬off < 0x52000 by omega, show ¬off < 0x30000 by omega, show ¬off < 0x50000 by omega]
  · rw [bar0Write_box hlo (by omega), writeBoxReg_readOnly (by omega) hirq]
    exact ite_self s
  · rw [bar0Write_box hlo hhi, if_neg hvf]

/-! ### MB_IRQ (R418, R445) -/

theorem exec_bar0_boxIrq {s : State} {fn : Nat} (hpf : fn % 256 = 0) (hbox : boxUsable s (fn / 256) = true) (v : Nat) :
    exec (.bar0RegisterWrite fn 0x51018 8 v) s = .next (setBox s (fn / 256) { boxOf s (fn / 256) with
      irq := field v 15 15 * 32768 + field v 10 0 }) := by
  have hgated : s.clock.rootGated = false := by
    simp only [boxUsable, busUp, Bool.and_eq_true, Bool.not_eq_true'] at hbox
    exact hbox.1.2
  rw [exec_bar0_running hgated fn v (by decide), bar0Write_box (by decide) (by decide), if_pos hpf, writeBoxReg, hbox]
  rfl

/-! ### The obligation -/

/-- Settles O28: an offset names one register of one queue or of the mailbox; what is written there is stored, or nothing is. -/
theorem bar0RegisterWrites : Obligations.Bar0RegisterWrites := by
  unfold Obligations.Bar0RegisterWrites
  intro s fn i v hi
  have hfour : ∀ off, off % 4 = 0 → accessOk off 4 = true := fun off => accessOk_of_dvd (.inl rfl)
  have height : ∀ off, off % 8 = 0 → accessOk off 8 = true := fun off => accessOk_of_dvd (.inr rfl)
  refine ⟨fun p hdoor hcount hen => ?_, fun p r size hdoor hcount hen hr => ?_, fun p hdoor hcount hen => ?_,
    fun p r size hdoor hcount hen hr => ?_, fun hgated size hsize => ?_, fun hpf hbox => ?_, fun off size hgated h => ?_,
    fun p r size hdoor hr => ⟨fun hcount => ?_, fun hcount => ?_⟩, fun off size hgated hdoor hoff => ?_,
    fun off size hok hon hgated => exec_bar0_gated hok hon hgated v, fun off size h => exec_bar0_bad h s fn v⟩
  · exact ⟨exec_bar0_iqBase hdoor hi v hcount hen (r := 0) (by decide) (height _ (by omega)) rfl,
      exec_bar0_iqBase hdoor hi v hcount hen (r := 0) (by decide) (hfour _ (by omega)) (merge64_low _ 0 v rfl),
      exec_bar0_iqBase hdoor hi v hcount hen (by decide) (hfour _ (by omega)) (merge64_high _ 4 v (by decide)),
      exec_bar0_iqHeadAddr hdoor hi v hcount hen (by decide) (by decide) (height _ (by omega)) rfl,
      exec_bar0_iqHeadAddr hdoor hi v hcount hen (by decide) (by decide) (hfour _ (by omega)) (merge64_low _ 8 v rfl),
      exec_bar0_iqHeadAddr hdoor hi v hcount hen (by decide) (by decide) (hfour _ (by omega)) (merge64_high _ 12 v (by decide))⟩
  · exact exec_bar0_iq_same hdoor hi (by omega) fun _ => writeIqReg_enabled hen hr size v
  · exact ⟨exec_bar0_cqBase hdoor hi v hcount hen (r := 0) (by decide) (height _ (by omega)) rfl,
      exec_bar0_cqBase hdoor hi v hcount hen (r := 0) (by decide) (hfour _ (by omega)) (merge64_low _ 0 v rfl),
      exec_bar0_cqBase hdoor hi v hcount hen (by decide) (hfour _ (by omega)) (merge64_high _ 4 v (by decide))⟩
  · exact exec_bar0_cq_same hdoor hi (by omega) fun _ => writeCqReg_enabled hen hr size v
  · have hok : accessOk (0x10000 + 32 * i + 16) size = true := accessOk_of_dvd hsize (by rcases hsize with rfl | rfl <;> omega)
    exact ((exec_bar0_running hgated fn v hok).trans (congrArg Host.Outcome.next (bar0Write_iqCtrl s fn hi size v))).trans
      (exec_iqCtrl hgated fn i v).symm
  · exact ⟨_, exec_bar0_boxIrq hpf hbox v, boxOf_setBox_self s _ _, fun e he => boxOf_setBox_ne s _ he, rfl⟩
  · exact exec_bar0_readOnly hgated h size v
  · exact exec_bar0_iq_same hdoor hi hr fun h => absurd h (by omega)
  · exact exec_bar0_cq_same hdoor hi hr fun h => absurd h (by omega)
  · exact exec_bar0_same hgated (bar0Write_unbound hdoor hoff size v)

end Sys2Proof.Machine

/-! PROOF. A batch begun and its descriptors fetched (spec/17 R402, R404, R406 to R410, R414, Table HOST-7; spec/11 R227). -/

namespace Sys2Proof.Machine

open Sys2Proof

/-! ### Sums over a table of queues -/

theorem foldl_add_eq_sum {α : Type} (f : α → Nat) (l : List α) (a : Nat) :
    l.foldl (fun a x => a + f x) a = a + (l.map f).sum := by
  induction l generalizing a with
  | nil => rfl
  | cons x l ih => rw [List.foldl_cons, ih, List.map_cons, List.sum_cons, Nat.add_assoc]

theorem tabGet?_of_above {α : Type} {t : Tab α} {k i : Nat} (h : tabAbove k t) (hi : i ≤ k) : tabGet? t i = none := by
  induction t with
  | nil => rfl
  | cons e r ih =>
    have he : k < e.1 := h e List.mem_cons_self
    rw [tabGet?_cons, if_neg (by omega)]
    exact ih fun x hx => h x (List.mem_cons_of_mem _ hx)

/-- An entry put that weighs what the old one did leaves the sum of the weights. -/
theorem sum_tabPut {α : Type} {d : α} (w : Nat → α → Nat) (hd : ∀ k, w k d = 0) {t : Tab α} (ht : tabSorted t = true) {i : Nat} {v : α}
    (hv : w i v = w i (tabGet d t i)) : ((tabPut t i v).map (fun e => w e.1 e.2)).sum = (t.map (fun e => w e.1 e.2)).sum := by
  induction t with
  | nil =>
    rw [show tabGet d ([] : Tab α) i = d from rfl, hd] at hv
    simp [tabPut, hv]
  | cons e r ih =>
    obtain ⟨k, u⟩ := e
    obtain ⟨habove, hr⟩ := tabSorted_cons.mp ht
    rw [tabPut]
    split
    · next hik =>
      have hnone : tabGet? ((k, u) :: r) i = none := by
        rw [tabGet?_cons, if_neg (by omega)]
        exact tabGet?_of_above habove hik.le
      rw [tabGet, hnone, show (none : Option α).getD d = d from rfl, hd] at hv
      rw [List.map_cons, List.sum_cons, hv, Nat.zero_add]
    · split
      · next hik =>
        subst hik
        rw [tabGet, tabGet?_cons, if_pos rfl, Option.getD_some] at hv
        rw [List.map_cons, List.sum_cons, hv, List.map_cons, List.sum_cons]
      · next hne =>
        rw [tabGet, tabGet?_cons, if_neg (Ne.symm hne)] at hv
        rw [List.map_cons, List.sum_cons, ih hr hv, List.map_cons, List.sum_cons]

theorem creditsUsed_eq_sum (s : State) (die : Nat) :
    creditsUsed s die = (s.iqs.map (fun e => if queueDie e.1 == die then e.2.fetched.length else 0)).sum := by
  rw [creditsUsed, foldl_add_eq_sum, sum_filter_map, Nat.zero_add]

/-- A queue stored that holds as many descriptors as before uses as many credits. -/
theorem creditsUsed_setIq {s : State} (hs : tabSorted s.iqs = true) {q : Nat} {x : Iq}
    (hx : x.fetched.length = (iqOf s q).fetched.length) (die : Nat) : creditsUsed (setIq s q x) die = creditsUsed s die := by
  rw [creditsUsed_eq_sum, creditsUsed_eq_sum]
  refine sum_tabPut (d := {}) (fun k y => if queueDie k == die then y.fetched.length else 0) (fun _ => ite_self 0) hs ?_
  rw [hx]
  rfl

/-! ### One descriptor -/

/-- An intake queue without what fetching a descriptor moves on. -/
def Iq.still (x : Iq) : Iq := { x with head := 0, sinceHead := 0, current := none, enabled := false, fetched := [] }

/-- The state with an entry of the completion queue reserved and the queue moved on by one descriptor. -/
def fetchStep (s : State) (p q : Nat) (b : Batch) : State :=
  let x := iqOf s q
  let k := cqIndex s p x.cq
  setIq (setCq s k { cqOf s k with reserved := (cqOf s k).reserved + 1 }) q { x with
    head := (x.head + 1) % ringDepth x.base, sinceHead := x.sinceHead + 1
    current := if decide (b.left ≤ 1) then none else some { b with left := b.left - 1 }
    enabled := if decide (b.left ≤ 1) then x.enabled && x.enable && !x.overrun else x.enabled
    fetched := if b.refused.isNone then
      x.fetched ++ [(k, hostBytesAt s (partFn s p) (ringAddr x.base + 64 * x.head) 64)] else x.fetched }

/-- Then, where the batch is refused, the descriptor's record. -/
def refuseStep (s : State) (p q : Nat) (b : Batch) : State :=
  let x := iqOf s q
  match b.refused with
  | some st => postRecord (fetchStep s p q b) (cqIndex s p x.cq) (partFn s p)
      (refusalRecord (decodeDesc (hostBytesAt s (partFn s p) (ringAddr x.base + 64 * x.head) 64)) st)
  | none => fetchStep s p q b

/-- Whether the head is written back after a descriptor (R404). -/
def headDue (s : State) (q : Nat) (b : Batch) : Bool := decide (b.left ≤ 1) || decide (64 ≤ (iqOf s q).sinceHead + 1)

theorem fetchOne_eq (s : State) (p q : Nat) (b : Batch) :
    fetchOne s p q b = if headDue s q b then headBack (refuseStep s p q b) q (partFn s p) else refuseStep s p q b := rfl

theorem delivered_postRecord (s : State) (k fn : Nat) (r : Bool → Record) : Delivered s (postRecord s k fn r) := by
  rw [postRecord]
  dsimp only
  split
  · rfl
  · exact ((delivered_hostStore _ _ _ _).trans (delivered_setCq _ _ _)).trans (delivered_cqInterrupt _ _ _)

theorem iqs_sendMsix (s : State) (fn v : Nat) : (sendMsix s fn v).iqs = s.iqs := by
  rw [sendMsix]
  split
  · rfl
  · split <;> rfl

theorem iqs_cqInterrupt (s : State) (k fn : Nat) : (cqInterrupt s k fn).iqs = s.iqs := by
  have hsignal : (cqSignal s k fn).iqs = s.iqs := iqs_sendMsix _ _ _
  rw [cqInterrupt]
  split
  · rfl
  · split
    · exact hsignal
    · split
      · exact hsignal
      · rfl

theorem hostStore_eq (s : State) (fn a : Nat) (b : List Byte) :
    hostStore s fn a b = withHost s (hostStore s fn a b).mem.host := by
  unfold hostStore
  generalize postedWrites (payloadOf s fn) (b.length + 1) a b = l
  induction l generalizing s with
  | nil => rfl
  | cons w l ih => exact ih (landPosted fn s w)

theorem iqs_hostStore (s : State) (fn a : Nat) (b : List Byte) : (hostStore s fn a b).iqs = s.iqs := by rw [hostStore_eq]; rfl

theorem cqs_hostStore (s : State) (fn a : Nat) (b : List Byte) : (hostStore s fn a b).cqs = s.cqs := by rw [hostStore_eq]; rfl

theorem iqs_postRecord (s : State) (k fn : Nat) (r : Bool → Record) : (postRecord s k fn r).iqs = s.iqs := by
  rw [postRecord]
  dsimp only
  split
  · rfl
  · rw [iqs_cqInterrupt, setCq_iqs, iqs_hostStore]

theorem iqs_refuseStep (s : State) (p q : Nat) (b : Batch) : (refuseStep s p q b).iqs = (fetchStep s p q b).iqs := by
  rw [refuseStep]
  split
  · exact iqs_postRecord _ _ _ _
  · rfl

theorem delivered_refuseStep (s : State) (p q : Nat) (b : Batch) : Delivered s (refuseStep s p q b) := by
  have hstep : Delivered s (fetchStep s p q b) := rfl
  rw [refuseStep]
  split
  · exact hstep.trans (delivered_postRecord _ _ _ _)
  · exact hstep

theorem delivered_headBack (s : State) (q fn : Nat) : Delivered s (headBack s q fn) := by
  rw [headBack]
  split
  · rfl
  · exact Delivered.trans (t := setIq s q _) rfl (delivered_hostStore _ _ _ _)

theorem iqOf_headBack (s : State) (q fn : Nat) : iqOf (headBack s q fn) q = { iqOf s q with sinceHead := 0 } := by
  rw [headBack]
  split
  · exact iqOf_setIq_self s q _
  · rw [iqOf, iqs_hostStore]
    exact iqOf_setIq_self s q _

theorem cqs_headBack (s : State) (q fn : Nat) : (headBack s q fn).cqs = s.cqs := by
  rw [headBack]
  split
  · rfl
  · exact cqs_hostStore _ _ _ _

theorem host_headBack {s : State} {q : Nat} (h : (iqOf s q).headAddr = 0) (fn : Nat) : (headBack s q fn).mem.host = s.mem.host := by
  rw [headBack, if_pos h]
  rfl

theorem delivered_fetchOne (s : State) (p q : Nat) (b : Batch) : Delivered s (fetchOne s p q b) := by
  rw [fetchOne_eq]
  split
  · exact (delivered_refuseStep s p q b).trans (delivered_headBack _ _ _)
  · exact delivered_refuseStep s p q b

/-- The queue after one descriptor, but for the count to the next write-back of its head. -/
theorem iqOf_fetchOne (s : State) (p q : Nat) (b : Batch) : { iqOf (fetchOne s p q b) q with sinceHead := 0 } =
    { iqOf (fetchStep s p q b) q with sinceHead := 0 } := by
  have hstep : iqOf (refuseStep s p q b) q = iqOf (fetchStep s p q b) q := by rw [iqOf, iqs_refuseStep, iqOf]
  rw [fetchOne_eq]
  split
  · rw [iqOf_headBack, hstep]
  · rw [hstep]

theorem iqOf_fetchStep (s : State) (p q : Nat) (b : Batch) : iqOf (fetchStep s p q b) q = { iqOf s q with
    head := ((iqOf s q).head + 1) % ringDepth (iqOf s q).base, sinceHead := (iqOf s q).sinceHead + 1
    current := if decide (b.left ≤ 1) then none else some { b with left := b.left - 1 }
    enabled := if decide (b.left ≤ 1) then (iqOf s q).enabled && (iqOf s q).enable && !(iqOf s q).overrun else (iqOf s q).enabled
    fetched := if b.refused.isNone then (iqOf s q).fetched ++ [(cqIndex s p (iqOf s q).cq,
      hostBytesAt s (partFn s p) (ringAddr (iqOf s q).base + 64 * (iqOf s q).head) 64)] else (iqOf s q).fetched } :=
  iqOf_setIq_self _ q _

theorem still_fetchOne (s : State) (p q : Nat) (b : Batch) : (iqOf (fetchOne s p q b) q).still = (iqOf s q).still := by
  have h := congrArg Iq.still (iqOf_fetchOne s p q b)
  rw [iqOf_fetchStep] at h
  exact h

theorem current_fetchOne (s : State) (p q : Nat) (b : Batch) : (iqOf (fetchOne s p q b) q).current =
    if decide (b.left ≤ 1) then none else some { b with left := b.left - 1 } := by
  have h := congrArg Iq.current (iqOf_fetchOne s p q b)
  rw [iqOf_fetchStep] at h
  exact h

theorem head_fetchOne (s : State) (p q : Nat) (b : Batch) :
    (iqOf (fetchOne s p q b) q).head = ((iqOf s q).head + 1) % ringDepth (iqOf s q).base := by
  have h := congrArg Iq.head (iqOf_fetchOne s p q b)
  rw [iqOf_fetchStep] at h
  exact h

theorem fetched_fetchOne (s : State) (p q : Nat) (b : Batch) : (iqOf (fetchOne s p q b) q).fetched =
    if b.refused.isNone then (iqOf s q).fetched ++ [(cqIndex s p (iqOf s q).cq,
      hostBytesAt s (partFn s p) (ringAddr (iqOf s q).base + 64 * (iqOf s q).head) 64)] else (iqOf s q).fetched := by
  have h := congrArg Iq.fetched (iqOf_fetchOne s p q b)
  rw [iqOf_fetchStep] at h
  exact h

/-- Descriptors of one batch are all accepted or all refused. -/
theorem refused_fetchOne {s : State} {p q : Nat} {b c : Batch} (h : (iqOf (fetchOne s p q b) q).current = some c) :
    c.refused = b.refused := by
  rw [current_fetchOne] at h
  split at h
  · exact absurd h (by simp)
  · cases h
    rfl

/-! ### A refused batch keeps its descriptors to itself (R409) -/

/-- Fetching for a refused batch: the queue keeps all but its place in the ring. -/
theorem fetchLoop_refused (p q fuel : Nat) {s : State} (h : ∀ b, (iqOf s q).current = some b → b.refused.isNone = false) :
    Delivered s (fetchLoop p q fuel s) ∧ (iqOf (fetchLoop p q fuel s) q).still = (iqOf s q).still ∧
      (iqOf (fetchLoop p q fuel s) q).fetched = (iqOf s q).fetched := by
  induction fuel generalizing s with
  | zero => exact ⟨rfl, rfl, rfl⟩
  | succ fuel ih =>
    rw [fetchLoop]
    split
    · next b hb =>
      split
      · obtain ⟨hrest, hstill, hfetched⟩ := ih fun c hc =>
          (congrArg Option.isNone (refused_fetchOne hc)).trans (h b hb)
        refine ⟨(delivered_fetchOne s p q b).trans hrest, hstill.trans (still_fetchOne s p q b), hfetched.trans ?_⟩
        rw [fetched_fetchOne, h b hb]
        rfl
      · exact ⟨rfl, rfl, rfl⟩
    · exact ⟨rfl, rfl, rfl⟩

/-! ### An accepted batch -/

/-- The descriptor that stands `j` entries beyond the head, with the completion queue that holds its entry. -/
def ringEntry (s : State) (p q j : Nat) : Nat × List Byte :=
  (cqIndex s p (iqOf s q).cq, hostBytesAt s (partFn s p)
    (ringAddr (iqOf s q).base + 64 * (((iqOf s q).head + j) % ringDepth (iqOf s q).base)) 64)

/-- `m` descriptors of an accepted batch have been fetched. -/
structure Fetched (p q m : Nat) (s t : State) : Prop where
  delivered : Delivered s t
  still : (iqOf t q).still = (iqOf s q).still
  head : (iqOf t q).head = if m = 0 then (iqOf s q).head else ((iqOf s q).head + m) % ringDepth (iqOf s q).base
  count : (iqOf t q).fetched.length = (iqOf s q).fetched.length + m
  reserved : (cqOf t (cqIndex s p (iqOf s q).cq)).reserved = (cqOf s (cqIndex s p (iqOf s q).cq)).reserved + m
  entries : (iqOf s q).headAddr = 0 → (iqOf s q).head < ringDepth (iqOf s q).base →
    t.mem.host = s.mem.host ∧ (iqOf t q).fetched = (iqOf s q).fetched ++ (List.range m).map (ringEntry s p q)

theorem Fetched.refl (p q : Nat) (s : State) : Fetched p q 0 s s :=
  ⟨rfl, rfl, rfl, rfl, rfl, fun _ _ => ⟨rfl, (List.append_nil _).symm⟩⟩

theorem rd_of_delivered {s t : State} (h : Delivered s t) (o sub : Nat) : rd t o sub = rd s o sub := by
  rw [Delivered] at h
  rw [h]
  rfl

theorem Fetched.base {p q m : Nat} {s t : State} (h : Fetched p q m s t) : (iqOf t q).base = (iqOf s q).base :=
  (congrArg Iq.base h.still :)

theorem Fetched.cqIndex {p q m : Nat} {s t : State} (h : Fetched p q m s t) :
    Machine.cqIndex t p (iqOf t q).cq = Machine.cqIndex s p (iqOf s q).cq := by
  rw [Machine.cqIndex, Machine.cqIndex, rd_of_delivered h.delivered, show (iqOf t q).cq = (iqOf s q).cq from (congrArg Iq.cq h.still :)]

/-- Entries counted from a head that has moved on. -/
theorem Fetched.ringEntry {p q m : Nat} {s t : State} (h : Fetched p q m s t) (hhost : t.mem.host = s.mem.host) (j : Nat) :
    ringEntry t p q j = ringEntry s p q (m + j) := by
  have hplace : ((iqOf t q).head + j) % ringDepth (iqOf s q).base = ((iqOf s q).head + (m + j)) % ringDepth (iqOf s q).base := by
    rw [h.head]
    split
    · next hm => rw [hm, Nat.zero_add]
    · rw [Nat.mod_add_mod, Nat.add_assoc]
  have hbyte : ∀ fn a, hostByte t fn a = hostByte s fn a := fun fn a => hostByte_congr (by rw [hhost])
  rw [Machine.ringEntry, Machine.ringEntry, h.cqIndex, h.base, hplace, partFn, partFn, rd_of_delivered h.delivered]
  simp only [hostBytesAt, hbyte]

theorem Fetched.trans {p q m n : Nat} {s t u : State} (h : Fetched p q m s t) (h' : Fetched p q n t u) : Fetched p q (m + n) s u := by
  refine ⟨h.delivered.trans h'.delivered, h'.still.trans h.still, ?_, ?_, ?_, fun haddr hhead => ?_⟩
  · rw [h'.head, h.base, h.head]
    by_cases hm : m = 0 <;> by_cases hn : n = 0 <;> simp [hm, hn, Nat.add_assoc]
  · rw [h'.count, h.count, Nat.add_assoc]
  · have hr := h'.reserved
    rw [h.cqIndex] at hr
    rw [hr, h.reserved, Nat.add_assoc]
  · obtain ⟨hhost, hfetched⟩ := h.entries haddr hhead
    have haddr' : (iqOf t q).headAddr = 0 := (congrArg Iq.headAddr h.still :).trans haddr
    have hhead' : (iqOf t q).head < ringDepth (iqOf t q).base := by
      rw [h.base, h.head]
      split
      · exact hhead
      · exact Nat.mod_lt _ (Nat.two_pow_pos _)
    obtain ⟨hhost', hfetched'⟩ := h'.entries haddr' hhead'
    refine ⟨hhost'.trans hhost, ?_⟩
    rw [hfetched', hfetched, List.append_assoc, List.range_add, List.map_append, List.map_map]
    exact congrArg _ (congrArg _ (List.map_congr_left fun j _ => h.ringEntry hhost j))

/-- One descriptor of an accepted batch. -/
theorem fetched_one (s : State) (p q : Nat) {b : Batch} (hb : b.refused = none) : Fetched p q 1 s (fetchOne s p q b) := by
  have hstep : refuseStep s p q b = fetchStep s p q b := by rw [refuseStep, hb]
  have hcqs : (fetchOne s p q b).cqs = (fetchStep s p q b).cqs := by
    rw [fetchOne_eq, hstep]
    split
    · exact cqs_headBack _ _ _
    · rfl
  have hfetched := fetched_fetchOne s p q b
  rw [hb, Option.isNone_none, if_pos rfl] at hfetched
  refine ⟨delivered_fetchOne s p q b, still_fetchOne s p q b, head_fetchOne s p q b, ?_, ?_, fun haddr hhead => ⟨?_, ?_⟩⟩
  · rw [hfetched, List.length_append, List.length_singleton]
  · rw [cqOf, hcqs]
    exact congrArg Cq.reserved (cqOf_setCq_self s _ _)
  · have haddr' : (iqOf (fetchStep s p q b) q).headAddr = 0 := by rw [iqOf_fetchStep]; exact haddr
    rw [fetchOne_eq, hstep]
    split
    · exact host_headBack haddr' _
    · rfl
  · rw [hfetched, List.range_one, List.map_singleton, ringEntry, Nat.add_zero, Nat.mod_eq_of_lt hhead]

/-- The loop over an accepted batch fetches no more descriptors than its fuel. -/
theorem fetchLoop_accepted (p q fuel : Nat) {s : State} (h : ∀ b, (iqOf s q).current = some b → b.refused = none) :
    ∃ m, m ≤ fuel ∧ Fetched p q m s (fetchLoop p q fuel s) := by
  induction fuel generalizing s with
  | zero => exact ⟨0, Nat.le_refl 0, Fetched.refl p q s⟩
  | succ fuel ih =>
    rw [fetchLoop]
    split
    · next b hb =>
      split
      · obtain ⟨m, hm, hrest⟩ := ih fun c hc => (refused_fetchOne hc).trans (h b hb)
        exact ⟨1 + m, by omega, (fetched_one s p q (h b hb)).trans hrest⟩
      · exact ⟨0, Nat.zero_le _, Fetched.refl p q s⟩
    · exact ⟨0, Nat.zero_le _, Fetched.refl p q s⟩

/-- Where a credit and an entry are free, it fetches at least one. -/
theorem fetchLoop_accepted_pos {p q : Nat} {s : State} {b : Batch} (hcur : (iqOf s q).current = some b) (hb : b.refused = none)
    (hfree : (fetchCredit s p q && cqReady s p (iqOf s q)) = true) (fuel : Nat) :
    ∃ m, 1 ≤ m ∧ m ≤ fuel + 1 ∧ Fetched p q m s (fetchLoop p q (fuel + 1) s) := by
  obtain ⟨m, hm, hrest⟩ := fetchLoop_accepted p q fuel (s := fetchOne s p q b) fun c hc => (refused_fetchOne hc).trans hb
  have hloop : fetchLoop p q (fuel + 1) s = fetchLoop p q fuel (fetchOne s p q b) := by
    rw [fetchLoop, hcur]
    exact if_pos hfree
  rw [hloop]
  exact ⟨1 + m, by omega, by omega, (fetched_one s p q hb).trans hrest⟩

/-! ### A batch begun (R406, R407) -/

/-- The batch of `n` descriptors accepted, its credit taken. -/
def acceptBatch (s : State) (p q n : Nat) (rest : List Nat) : State :=
  setPart (setIq s q { iqOf s q with log := rest, current := some ⟨n, none⟩, opened := (iqOf s q).opened + n }) p
    { partOf s p with level := (partOf s p).level - n * 1000000 }

/-- The counter of a refusal (Table HOST-10). -/
def refusalObj (st : Nat) : Nat := if st = stREFUSED_FULL then oREFUSED_FULL_COUNT else oREFUSED_CREDIT_COUNT

/-- Whether a refusal halts the queue now (R410). -/
def Iq.halts (x : Iq) : Bool := x.haltOnRefuse && !x.halted

/-- The batch refused with a status, and counted. -/
def refuseBatch (s : State) (p q n st : Nat) (rest : List Nat) : State :=
  let x := iqOf s q
  setIq (count32 s (refusalObj st) (p + 1) 1) q { x with
    log := rest, current := some ⟨n, some st⟩, halted := x.halted || x.halts
    haltCause := if x.halts then (if st = stREFUSED_FULL then 1 else 2) else x.haltCause }

section Begun

variable {s : State} {p q n : Nat} {rest : List Nat} (hlog : (iqOf s q).log = n :: rest)
include hlog

theorem beginBatch_accepted (h : batchCheck s p (iqOf s q) n = none) : beginBatch s p q = acceptBatch s p q n rest := by
  have hcheck : batchCheck s p { iqOf s q with log := rest } n = none := h
  rw [beginBatch, hlog]
  simp only [hcheck]
  rfl

theorem beginBatch_refused {st : Nat} (h : batchCheck s p (iqOf s q) n = some st) :
    beginBatch s p q = refuseBatch s p q n st rest := by
  have hcheck : batchCheck s p { iqOf s q with log := rest } n = some st := h
  rw [beginBatch, hlog]
  simp only [hcheck]
  rfl

end Begun

theorem iqOf_acceptBatch (s : State) (p q n : Nat) (rest : List Nat) : iqOf (acceptBatch s p q n rest) q =
    { iqOf s q with log := rest, current := some ⟨n, none⟩, opened := (iqOf s q).opened + n } := iqOf_setIq_self s q _

theorem iqOf_refuseBatch (s : State) (p q n st : Nat) (rest : List Nat) : iqOf (refuseBatch s p q n st rest) q =
    { iqOf s q with
      log := rest, current := some ⟨n, some st⟩, halted := (iqOf s q).halted || (iqOf s q).halts
      haltCause := if (iqOf s q).halts then (if st = stREFUSED_FULL then 1 else 2) else (iqOf s q).haltCause } :=
  iqOf_setIq_self _ q _

theorem batchCheck_none {s : State} {p n : Nat} {x : Iq} (hhalt : x.halted = false)
    (hlimit : x.admitLimit = 0 ∨ x.opened + n ≤ x.admitLimit)
    (hrate : rd s oCREDIT_RATE (p + 1) = 0 ∨ n * 1000000 ≤ (partOf s p).level) : batchCheck s p x n = none := by
  rw [batchCheck, hhalt, if_neg Bool.false_ne_true, if_neg (by omega), if_neg (by omega)]

/-! ### BATCH_FETCH -/

/-- A queue of a partition in service whose oldest logged batch can be fetched now (R227, R402, R414). -/
structure Fetchable (s : State) (q p n : Nat) (rest : List Nat) : Prop where
  part : iqPart s q = some p
  runs : weirRuns s = true
  reset : (partOf s p).resetting = false
  bus : busUp s (partFn s p) = true
  fetches : (iqOf s q).enabled = true ∧ (iqOf s q).enable = true ∧ (iqOf s q).overrun = false
  idle : (iqOf s q).current = none
  log : (iqOf s q).log = n :: rest
  credit : fetchCredit s p q = true
  entry : cqReady s p (iqOf s q) = true
  first : iqUrgent s p q = true ∨ urgentFirst s q = false

theorem Fetchable.canFetch {s : State} {q p n : Nat} {rest : List Nat} (h : Fetchable s q p n rest) : canFetch s q = true := by
  obtain ⟨hen, hena, hov⟩ := h.fetches
  rw [Machine.canFetch, h.part]
  simp only [h.reset, h.bus, h.idle, hen, hena, hov, h.log, h.credit, h.entry]
  rfl

theorem Fetchable.exec {s : State} {q p n : Nat} {rest : List Nat} (h : Fetchable s q p n rest) {r : Option Nat}
    (hbegun : (iqOf (beginBatch s p q) q).current = some ⟨n, r⟩) :
    Machine.exec (.batchFetch q) s = .next (fetchLoop p q n (beginBatch s p q)) := by
  have hmay : (weirRuns s && Machine.canFetch s q && (iqUrgent s p q || !(urgentFirst s q))) = true := by
    rw [h.runs, h.canFetch]
    rcases h.first with hurgent | hnone
    · rw [hurgent]
      rfl
    · rw [hnone, Bool.not_false, Bool.or_true]
      rfl
  refine congrArg Host.Outcome.next ?_
  simp only [h.part]
  rw [if_pos hmay, h.idle, Option.isSome_none, if_neg Bool.false_ne_true, hbegun]

theorem Fetchable.exec_accepted {s : State} {q p n : Nat} {rest : List Nat} (h : Fetchable s q p n rest)
    (hcheck : batchCheck s p (iqOf s q) n = none) :
    Machine.exec (.batchFetch q) s = .next (fetchLoop p q n (acceptBatch s p q n rest)) := by
  have hbegun := beginBatch_accepted h.log hcheck
  rw [← hbegun]
  exact h.exec (r := none) (by rw [hbegun, iqOf_acceptBatch])

theorem Fetchable.exec_refused {s : State} {q p n : Nat} {rest : List Nat} (h : Fetchable s q p n rest) {st : Nat}
    (hcheck : batchCheck s p (iqOf s q) n = some st) :
    Machine.exec (.batchFetch q) s = .next (fetchLoop p q n (refuseBatch s p q n st rest)) := by
  have hbegun := beginBatch_refused h.log hcheck
  rw [← hbegun]
  exact h.exec (r := some st) (by rw [hbegun, iqOf_refuseBatch])

/-- A batch accepted: the credit and the entry that were free are free still. -/
theorem Fetchable.free_acceptBatch {s : State} {q p n : Nat} {rest : List Nat} (h : Fetchable s q p n rest)
    (hsorted : tabSorted s.iqs = true) : (fetchCredit (acceptBatch s p q n rest) p q &&
      cqReady (acceptBatch s p q n rest) p (iqOf (acceptBatch s p q n rest) q)) = true := by
  have hused : creditsUsed (acceptBatch s p q n rest) (queueDie q) = creditsUsed s (queueDie q) :=
    creditsUsed_setIq (q := q) (x := { iqOf s q with log := rest, current := some ⟨n, none⟩, opened := (iqOf s q).opened + n })
      hsorted rfl _
  have hcredit : fetchCredit (acceptBatch s p q n rest) p q = fetchCredit s p q := by
    rw [fetchCredit, fetchCredit, hused, iqOf_acceptBatch]
    rfl
  have hentry : cqReady (acceptBatch s p q n rest) p (iqOf (acceptBatch s p q n rest) q) = cqReady s p (iqOf s q) := by
    rw [iqOf_acceptBatch]
    rfl
  rw [hcredit, hentry, h.credit, h.entry]
  rfl

theorem partOf_of_delivered {s t : State} (h : Delivered s t) (p : Nat) : partOf t p = partOf s p := by
  rw [Delivered] at h
  rw [h]
  rfl

/-- What a batch accepted and fetched has made of the state before it. -/
theorem Fetchable.accepted {s : State} {q p n : Nat} {rest : List Nat} (h : Fetchable s q p n rest) (hn : 1 ≤ n)
    (hsorted : tabSorted s.iqs = true) :
    ∃ m, 1 ≤ m ∧ m ≤ n ∧ Fetched p q m (acceptBatch s p q n rest) (fetchLoop p q n (acceptBatch s p q n rest)) := by
  obtain ⟨k, rfl⟩ : ∃ k, n = k + 1 := ⟨n - 1, by omega⟩
  exact fetchLoop_accepted_pos (by rw [iqOf_acceptBatch]) rfl (h.free_acceptBatch hsorted) k

theorem Fetched.still_eq {p q m : Nat} {s t : State} (h : Fetched p q m s t) {y : Iq} (hy : iqOf s q = y) :
    (iqOf t q).still = y.still := h.still.trans (congrArg Iq.still hy)

theorem ringEntry_acceptBatch (s : State) (p q n : Nat) (rest : List Nat) (j : Nat) :
    ringEntry (acceptBatch s p q n rest) p q j = ringEntry s p q j := by
  rw [ringEntry, iqOf_acceptBatch]
  rfl

/-! ### The obligation -/

/-- Settles O26: a batch begins accepted or refused as a whole; each descriptor then moves the head on by one and, of an accepted
batch, is kept with the completion queue that holds its entry. -/
theorem batchAcceptedOrRefusedWhole : Obligations.BatchAcceptedOrRefusedWhole := by
  unfold Obligations.BatchAcceptedOrRefusedWhole
  intro s q p n rest hpart hfull hchip hreset hon hgated hsorted
  dsimp only
  intro hen hena hov hidle hlog hn hfew hused hcq hcqen hroom hfirst
  have hf : Fetchable s q p n rest := by
    refine ⟨hpart, ?_, hreset, ?_, ⟨hen, hena, hov⟩, hidle, hlog, ?_, ?_, hfirst⟩
    · rw [weirRuns, hfull, hchip]
      rfl
    · rw [busUp, hon, hgated]
      rfl
    · rw [fetchCredit, decide_eq_true hfew, decide_eq_true hused]
      rfl
    · rw [cqReady, cqSpace, decide_eq_true hcq, hcqen, decide_eq_true hroom]
      rfl
  refine ⟨fun hhalt hlimit hrate => ?_, fun st hcheck => ?_⟩
  · obtain ⟨m, hm, hmn, hfetched⟩ := hf.accepted hn hsorted
    obtain ⟨hweir, hcores, hmem⟩ := hfetched.delivered.kept
    have hx := iqOf_acceptBatch s p q n rest
    have hstill := hfetched.still_eq hx
    refine ⟨_, m, hf.exec_accepted (batchCheck_none hhalt hlimit hrate), ⟨hweir, hcores, hmem, congrArg Iq.log hstill⟩, hm, hmn,
      (congrArg Iq.opened hstill :), ?_, ?_, ?_, ?_, fun haddr hhead => ?_⟩
    · rw [partOf_of_delivered hfetched.delivered]
      exact congrArg PartRec.level (partOf_setPart_self _ _ _)
    · rw [hfetched.head, if_neg (by omega), hx]
    · rw [hfetched.count, hx]
    · have hreserved := hfetched.reserved
      rw [hx] at hreserved
      exact hreserved
    · rw [(hfetched.entries (by rw [hx]; exact haddr) (by rw [hx]; exact hhead)).2, hx]
      exact congrArg _ (List.map_congr_left fun j _ => ringEntry_acceptBatch s p q n rest j)
  · have hx := iqOf_refuseBatch s p q n st rest
    obtain ⟨hdelivered, hstill, hfetched⟩ := fetchLoop_refused p q n (s := refuseBatch s p q n st rest) fun b hb => by
      rw [hx] at hb
      cases hb
      rfl
    rw [hx] at hstill hfetched
    obtain ⟨hweir, hcores, hmem⟩ := hdelivered.kept
    refine ⟨_, hf.exec_refused hcheck, ⟨hweir, hcores, hmem, congrArg Iq.log hstill⟩, (congrArg Iq.opened hstill :), hfetched, ?_,
      fun hst => ?_, fun hst => ?_, fun hhalt => ?_⟩
    · rw [partOf_of_delivered hdelivered]
      rfl
    · subst hst
      rw [rd_of_delivered hdelivered]
      exact rd_wr_self s _ _ _
    · subst hst
      rw [rd_of_delivered hdelivered]
      exact rd_wr_self s _ _ _
    · refine (congrArg Iq.halted hstill).trans ?_
      show ((iqOf s q).halted || ((iqOf s q).haltOnRefuse && !(iqOf s q).halted)) = true
      rw [hhalt]
      cases (iqOf s q).halted <;> rfl

end Sys2Proof.Machine

/-! PROOF. What a contained error of chip scope changes (spec/19 R451; spec/03 R71). -/

namespace Sys2Proof.Machine

open Sys2Proof

/-! ### An error logged -/

/-- The objects that an entry of the error log changes, and the count of contained errors. -/
def loggedKeys : List Nat := [objKey oNOTIFY_LOST 0, objKey oERR_LOG_LOST 0, objKey oERR_LOG_NEXT 0, objKey oCONTAINED_COUNT 0]

/-- From `s` to `t` an error has been logged and told: operations, memory, clocks, power and ports stay, and so do
the objects but those listed. -/
structure Logged (ks : List Nat) (s t : State) : Prop where
  weir : t.weir = s.weir
  mem : t.mem = s.mem
  clock : t.clock = s.clock
  power : t.power = s.power
  fabric : t.fabric = s.fabric
  objs : SameObjs ks s t

theorem Logged.refl (s : State) : Logged [] s s := ⟨rfl, rfl, rfl, rfl, rfl, fun _ _ => rfl⟩

theorem Logged.trans {ks ls : List Nat} {s t u : State} (h : Logged ks s t) (h' : Logged ls t u) : Logged (ks ++ ls) s u :=
  ⟨h'.weir.trans h.weir, h'.mem.trans h.mem, h'.clock.trans h.clock, h'.power.trans h.power, h'.fabric.trans h.fabric,
    h.objs.trans h'.objs⟩

theorem Logged.mono {ks ls : List Nat} {s t : State} (h : Logged ks s t) (hs : ks ⊆ ls) : Logged ls s t :=
  ⟨h.weir, h.mem, h.clock, h.power, h.fabric, h.objs.mono hs⟩

theorem logged_wrBytesP (s : State) (o sub : Nat) (b : List Byte) : Logged [] s (wrBytesP s o sub b) :=
  ⟨rfl, rfl, rfl, rfl, rfl, fun _ _ => rfl⟩

theorem logged_regr (s : State) (r : Regr) : Logged [] s { s with regr := r } := ⟨rfl, rfl, rfl, rfl, rfl, fun _ _ => rfl⟩

theorem logged_wrP (s : State) (o sub v : Nat) : Logged [objKey o sub] s (wrP s o sub v) :=
  ⟨rfl, rfl, rfl, rfl, rfl, fun _ hk => tabGet?_tabPut_ne _ _ (List.ne_of_not_mem_cons hk)⟩

theorem Told.logged {ks : List Nat} {s t : State} (h : Told ks s t) : Logged (objKey oNOTIFY_LOST 0 :: ks) s t := by
  refine ⟨?_, ?_, ?_, ?_, ?_, h.objs⟩ <;> rw [h.rest]

/-- The entries of the log that were full give way: one is lost. -/
theorem logged_dropEntry (s : State) (full : Bool) :
    Logged [objKey oERR_LOG_LOST 0] s (if full then count32P s oERR_LOG_LOST 0 1 else s) := by
  split
  · exact logged_wrP s _ _ _
  · exact (Logged.refl s).mono (List.nil_subset _)

theorem logged_logError (s : State) (cls scope cause location addr action : Nat) :
    Logged [objKey oNOTIFY_LOST 0, objKey oERR_LOG_LOST 0, objKey oERR_LOG_NEXT 0] s (logError s cls scope cause location addr action) := by
  rw [logError]
  split
  · exact (((logged_wrBytesP s _ _ _).trans (logged_regr _ _)).trans (told_notify _ _ _ _ _).logged).mono (by decide)
  · exact (((((logged_dropEntry s _).trans (logged_wrBytesP _ _ _ _)).trans (logged_wrP _ _ _ _)).trans (logged_regr _ _)).trans
      (told_notify _ _ _ _ _).logged).mono (by decide)

/-! ### A contained error -/

/-- ALERT_N pulsed for an error. -/
def pulsed (s : State) : State := { count32P s oCONTAINED_COUNT 0 1 with power := { s.power with alertPulse := true } }

/-- From `s` to `t` a contained error has been raised: it is counted, and ALERT_N is pulsed. -/
structure Raised (s t : State) : Prop where
  weir : t.weir = s.weir
  mem : t.mem = s.mem
  clock : t.clock = s.clock
  power : t.power = { s.power with alertPulse := true }
  fabric : t.fabric = s.fabric
  count : rd t oCONTAINED_COUNT 0 = satAdd max32 (rd s oCONTAINED_COUNT 0) 1
  objs : SameObjs loggedKeys s t

theorem raised_contained (s : State) (scope cause location addr action : Nat) :
    Raised s (contained s scope cause location addr action) := by
  have hlog := logged_logError (pulsed s) 1 scope cause location addr action
  refine ⟨hlog.weir, hlog.mem, hlog.clock, hlog.power, hlog.fabric, ?_, fun k hk => ?_⟩
  · have hcount : rd (contained s scope cause location addr action) oCONTAINED_COUNT 0 = rd (pulsed s) oCONTAINED_COUNT 0 :=
      rd_congr (hlog.objs _ (by decide))
    rw [hcount]
    exact rd_wrP_self s _ _ _
  · simp only [loggedKeys, List.mem_cons, List.not_mem_nil, or_false, not_or] at hk
    obtain ⟨hnote, hlost, hnext, hcount⟩ := hk
    refine (hlog.objs k (by simp [hnote, hlost, hnext])).trans ?_
    exact tabGet?_tabPut_ne _ _ hcount

theorem Raised.stackFitted {s t : State} (h : Raised s t) (k : Nat) : stackFitted t k = stackFitted s k :=
  stackFitted_congr (rd_congr (h.objs _ (by decide))) k

/-! ### The first of chip scope: limited mode, self-refresh -/

theorem sameButPorts_departAll (s : State) : sameButPorts s (departAll s) := by
  rw [departAll]
  split
  · rfl
  · exact sameButPorts_foldl (fun t n => sameButPorts_sendWaitingMsg t _) _ s

theorem departAll_gated {s : State} (h : s.clock.rootGated = true) : departAll s = s := if_pos h

/-- Power once the device is in limited mode for a chip error. -/
def limitedPower (p : Power) : Power := { p with chipError := true, fullMode := false }

/-- The device in limited mode for a chip error, its neighbours told. -/
def departed (s : State) : State := departAll { s with power := limitedPower s.power }

/-- Then every stack in self-refresh. -/
def safeState (s : State) (cause : Nat) : State := storeRefreshAll (departed (contained s 9 cause 0 0 0))

theorem chipError_again {s : State} (h : s.power.chipError = true) (cause : Nat) : chipError s cause = contained s 9 cause 0 0 0 := by
  have hpower : (contained s 9 cause 0 0 0).power.chipError = true := by rw [(raised_contained s 9 cause 0 0 0).power]; exact h
  exact if_pos hpower

theorem chipError_first {s : State} (h : s.power.chipError = false) (cause : Nat) :
    chipError s cause = if (safeState s cause).clock.rootGated then safeState s cause
      else forOps (opIds (safeState s cause) (fun _ => true)) chipEnds (safeState s cause) := by
  have hpower : (contained s 9 cause 0 0 0).power.chipError = false := by rw [(raised_contained s 9 cause 0 0 0).power]; exact h
  exact if_neg (by rw [hpower]; exact Bool.false_ne_true)

theorem told_safeState (s : State) (cause : Nat) : Told refreshKeys (departed (contained s 9 cause 0 0 0)) (safeState s cause) :=
  told_storeRefreshAll _

/-- What the first chip error leaves: the error raised, limited mode, every fitted stack in self-refresh. -/
structure Limited (s t : State) : Prop where
  weir : t.weir = s.weir
  mem : t.mem = s.mem
  clock : t.clock = s.clock
  power : t.power = limitedPower { s.power with alertPulse := true }
  fabric : s.clock.rootGated = true → t.fabric = s.fabric
  count : rd t oCONTAINED_COUNT 0 = satAdd max32 (rd s oCONTAINED_COUNT 0) 1
  refresh : ∀ k, k < 8 → stackFitted s k = true → rd t oREFRESH_MODE (k + 1) = 2

theorem limited_safeState (s : State) (cause : Nat) : Limited s (safeState s cause) := by
  have hraised := raised_contained s 9 cause 0 0 0
  have htold := told_safeState s cause
  have hports := sameButPorts_departAll { contained s 9 cause 0 0 0 with power := limitedPower (contained s 9 cause 0 0 0).power }
  have hgate := departAll_gated (s := { contained s 9 cause 0 0 0 with power := limitedPower (contained s 9 cause 0 0 0).power })
  change sameButPorts _ (departed (contained s 9 cause 0 0 0)) at hports
  change _ → departed (contained s 9 cause 0 0 0) = _ at hgate
  rw [safeState] at htold ⊢
  generalize contained s 9 cause 0 0 0 = u at hraised htold hports hgate ⊢
  generalize departed u = v at htold hports hgate ⊢
  rw [sameButPorts] at hports
  have hpower : v.power = limitedPower { s.power with alertPulse := true } := by rw [hports, hraised.power]
  refine ⟨?_, ?_, ?_, htold.power.trans hpower, fun hg => ?_, ?_, fun k hk hfit => ?_⟩
  · exact htold.rests.weir.trans ((congrArg State.weir hports).trans hraised.weir)
  · exact htold.rests.mem.trans ((congrArg State.mem hports).trans hraised.mem)
  · exact htold.clock.trans ((congrArg State.clock hports).trans hraised.clock)
  · rw [htold.fabric, hgate (by show u.clock.rootGated = true; rw [hraised.clock]; exact hg)]
    exact hraised.fabric
  · rw [htold.rd_index (by decide) (by decide), ← hraised.count]
    exact rd_congr (by rw [hports])
  · have hobjs : v.dict = u.dict := by rw [hports]
    have hfit : stackFitted v k = true :=
      (stackFitted_congr (rd_congr (by rw [hobjs])) k).trans ((hraised.stackFitted k).trans hfit)
    rw [rd_storeRefreshAll v hk hfit, refreshOf, selfRefresh, hpower]
    simp [limitedPower]

end Sys2Proof.Machine

/-! PROOF. Every operation ended at once (spec/19 R451). -/

namespace Sys2Proof.Machine

open Sys2Proof

/-! ### One operation ended -/

/-- An operation that has left for release with a status. -/
def endedOp (o : Op) (st : Nat) : Op :=
  { o with phase := .ended, status := st, requests := [], due := [], slot := none, context := none, runnable := false, commits := [],
           reservedBranches := 0, reservedPages := 0, fencing := false
           partialOut := o.partialOut || (outputsUnspecified st && o.wrote) }

/-- Its core and save slot freed, its outputs left unspecified. -/
def released (s : State) (o : Op) (st : Nat) : State :=
  let s := match o.core with
    | some c => freeSlot (freeCore s c o.id) c o.slot
    | none => s
  if outputsUnspecified st && o.phase != .waiting then freeRegions s o.part (outsLeft s o) else s

theorem endOp_eq (s : State) (o : Op) (st : Nat) : endOp s o st = setOp (breakGroup (released s o st) o st) (endedOp o st) := rfl

theorem clearCore_dict (s : State) (c : Nat) : (clearCore s c).dict = s.dict := rfl

theorem freeCore_dict (s : State) (c id : Nat) : (freeCore s c id).dict = s.dict := by
  rw [freeCore]
  dsimp only
  split
  · split
    · exact (clearCore_dict _ _).trans (setCore_dict _ _ _)
    · exact setCore_dict _ _ _
  · split
    · exact setCore_dict _ _ _
    · rfl

theorem freeSlot_dict (s : State) (c : Nat) (slot : Option Nat) : (freeSlot s c slot).dict = s.dict := by
  rw [freeSlot.eq_def]
  split <;> rfl

theorem hostStore_dict (s : State) (fn a : Nat) (b : List Byte) : (hostStore s fn a b).dict = s.dict := by
  rw [hostStore_eq]
  rfl

theorem freeRegion_dict (s : State) (p a n : Nat) : (freeRegion s p a n).dict = s.dict := by
  rw [freeRegion]
  split
  · rfl
  · dsimp only
    split
    · exact hostStore_dict _ _ _ _
    · rfl
    · rfl

theorem freeRegions_dict (s : State) (p : Nat) (rs : List (Nat × Nat)) : (freeRegions s p rs).dict = s.dict := by
  rw [freeRegions]
  induction rs generalizing s with
  | nil => rfl
  | cons r l ih => exact (ih _).trans (freeRegion_dict s p r.1 r.2)

theorem released_dict (s : State) (o : Op) (st : Nat) : (released s o st).dict = s.dict := by
  have hfreed : (match o.core with
      | some c => freeSlot (freeCore s c o.id) c o.slot
      | none => s).dict = s.dict := by
    split
    · rw [freeSlot_dict, freeCore_dict]
    · rfl
  unfold released
  extract_lets u
  split
  · exact (freeRegions_dict _ _ _).trans hfreed
  · exact hfreed

/-- Of the numeric objects only the state of its group can change. -/
theorem sameObjs_endOp (s : State) (o : Op) (st : Nat) :
    SameObjs ((o.coll.map fun r => objKey oCOLL_GROUP_STATE (r.group + 1)).toList) s (endOp s o st) := by
  intro k hk
  have hgroup : tabGet? (breakGroup (released s o st) o st).dict k = tabGet? (released s o st).dict k := by
    rw [breakGroup]
    cases hcoll : o.coll with
    | none => rfl
    | some r =>
      rw [hcoll] at hk
      dsimp only
      rw [breakOf]
      split
      · rfl
      · exact tabGet?_tabPut_ne _ _ (List.ne_of_not_mem_cons hk)
  rw [← released_dict s o st]
  exact hgroup

theorem released_weir (s : State) (o : Op) (st : Nat) : (released s o st).weir = s.weir := by
  have hfreed : (match o.core with
      | some c => freeSlot (freeCore s c o.id) c o.slot
      | none => s).weir = s.weir := by
    split
    · rw [freeSlot_weir, freeCore_weir]
    · rfl
  unfold released
  extract_lets u
  split
  · exact (freeRegions_weir _ _ _).trans hfreed
  · exact hfreed

theorem ops_endOp (s : State) (o : Op) (st : Nat) : (endOp s o st).weir.ops = replaceOp (endedOp o st) s.weir.ops := by
  rw [endOp_eq, setOp, breakGroup_weir, released_weir]

/-! ### All of them -/

/-- An operation has left for release with MEM_ERROR. -/
def Op.Lost (o : Op) : Prop := o.phase = .ended ∧ o.status = stMEM_ERROR

/-- From `s` to `t` operations have ended with MEM_ERROR, those of the numbers listed among them; none is lost and none added. -/
structure AllLost (ids : List Nat) (s t : State) : Prop where
  serves : Serves s t
  groups : ∀ o ∈ t.weir.ops, ∀ r ∈ o.coll, r.group < 16
  count : rd t oCONTAINED_COUNT 0 = rd s oCONTAINED_COUNT 0
  lost : ∀ o ∈ t.weir.ops, o.id ∈ ids → o.Lost

theorem AllLost.nodup {ids : List Nat} {s t : State} (h : AllLost ids s t) (hs : (s.weir.ops.map (fun o => o.id)).Nodup) :
    (t.weir.ops.map (fun o => o.id)).Nodup := by
  rw [h.serves.ids]
  exact hs

theorem allLost_refl {s : State} (h : ∀ o ∈ s.weir.ops, ∀ r ∈ o.coll, r.group < 16) : AllLost [] s s :=
  ⟨Serves.refl s, h, rfl, fun _ _ hid => absurd hid List.not_mem_nil⟩

/-- One more operation ends. -/
theorem AllLost.endOp {ids : List Nat} {s t : State} (h : AllLost ids s t) (hs : (s.weir.ops.map (fun o => o.id)).Nodup) {o : Op}
    (ho : o ∈ t.weir.ops) : AllLost (o.id :: ids) s (endOp t o stMEM_ERROR) := by
  have hops : (Machine.endOp t o stMEM_ERROR).weir.ops = t.weir.ops.map fun x => if x.id = o.id then endedOp o stMEM_ERROR else x :=
    (ops_endOp t o stMEM_ERROR).trans (replaceOp_eq_map (h.nodup hs) _)
  refine ⟨h.serves.trans (serves_endOp t o _), fun x hx => ?_, (rd_congr (sameObjs_endOp t o _ _ ?_)).trans h.count, fun x hx hid => ?_⟩
  · rw [hops] at hx
    obtain ⟨y, hy, rfl⟩ := List.mem_map.mp hx
    split
    · exact h.groups o ho
    · exact h.groups y hy
  · intro hk
    obtain ⟨r, hr, hkey⟩ := Option.map_eq_some_iff.mp (Option.mem_toList.mp hk)
    have hgroup := h.groups o ho r hr
    exact objKey_ne (by decide) (by omega) (by decide) hkey
  · rw [hops] at hx
    obtain ⟨y, hy, rfl⟩ := List.mem_map.mp hx
    by_cases hyo : y.id = o.id
    · rw [if_pos hyo]
      exact ⟨rfl, rfl⟩
    · rw [if_neg hyo] at hid ⊢
      exact h.lost y hy ((List.mem_cons.mp hid).resolve_left hyo)

theorem AllLost.mono {ids ids' : List Nat} {s t : State} (h : AllLost ids s t)
    (hs : ∀ o ∈ t.weir.ops, o.id ∈ ids' → o.id ∈ ids) : AllLost ids' s t :=
  ⟨h.serves, h.groups, h.count, fun o ho hid => h.lost o ho (hs o ho hid)⟩

theorem allLost_forOps {s : State} (hs : (s.weir.ops.map (fun o => o.id)).Nodup) (l : List Nat) {ids : List Nat} {t : State}
    (h : AllLost ids s t) : AllLost (l ++ ids) s (forOps l chipEnds t) := by
  induction l generalizing ids t with
  | nil => exact h
  | cons i l ih =>
    have hstep : AllLost (i :: ids) s (match opOf? t i with
        | some o => chipEnds t o
        | none => t) := by
      cases hop : opOf? t i with
      | some o =>
        have hid : o.id = i := id_of_opOf? hop
        subst hid
        exact h.endOp hs (List.mem_of_find?_eq_some hop)
      | none =>
        refine h.mono fun o ho hid => (List.mem_cons.mp hid).resolve_left fun hoi => ?_
        exact absurd (by simp [hoi]) (List.find?_eq_none.mp hop o ho)
    exact (ih hstep).mono fun o _ hid => by simpa [or_left_comm] using hid

/-- Every operation of a state in form ends. -/
theorem allLost_opIds {s : State} (h : opsOk s.weir = true) :
    AllLost (s.weir.ops.map (fun o => o.id)) s (forOps (opIds s (fun _ => true)) chipEnds s) := by
  have hgroups : ∀ o ∈ s.weir.ops, ∀ r ∈ o.coll, r.group < 16 := by
    intro o ho r hr
    have hall := List.all_eq_true.mp (Bool.and_eq_true_iff.mp h).2 o ho
    have hcoll := (Bool.and_eq_true_iff.mp hall).2
    rw [Option.mem_def.mp hr] at hcoll
    exact of_decide_eq_true hcoll
  have hlost := allLost_forOps (nodup_ids_of_opsOk h) (opIds s (fun _ => true)) (allLost_refl hgroups)
  rw [List.append_nil, opIds, List.filter_eq_self.mpr fun _ _ => rfl] at hlost
  rw [opIds, List.filter_eq_self.mpr fun _ _ => rfl]
  exact hlost

theorem AllLost.all {s t : State} (h : AllLost (s.weir.ops.map (fun o => o.id)) s t) : ∀ o ∈ t.weir.ops, o.Lost := by
  intro o ho
  refine h.lost o ho ?_
  rw [← h.serves.ids]
  exact List.mem_map_of_mem ho

end Sys2Proof.Machine

/-! PROOF. When a failed relock is raised (spec/03 R66, R67, R71, Table CLK-5). -/

namespace Sys2Proof.Machine

open Sys2Proof

/-! ### A chip error, first or later -/

/-- What a contained error of chip scope leaves. -/
structure ChipFails (s t : State) : Prop where
  pulse : t.power.alertPulse = true
  count : rd t oCONTAINED_COUNT 0 = satAdd max32 (rd s oCONTAINED_COUNT 0) 1
  clock : t.clock = s.clock
  error : t.power.chipError = true
  limited : s.power.chipError = false → t.power.fullMode = false ∧
    ∀ k, k < 8 → stackFitted s k = true → rd t oREFRESH_MODE (k + 1) = 2
  still : s.power.chipError = true ∨ s.clock.rootGated = true → t.weir = s.weir ∧ t.mem = s.mem ∧ t.fabric = s.fabric
  ends : s.power.chipError = false → s.clock.rootGated = false →
    t.weir.ops.map (fun o => o.id) = s.weir.ops.map (fun o => o.id) ∧ ∀ o ∈ t.weir.ops, o.Lost

theorem ChipFails.alerts {s t : State} (h : ChipFails s t) : Alerts t := by
  refine alerts_of_cause ?_
  rw [alertCause, h.pulse]
  simp

theorem ChipFails.raised {s t : State} (h : ChipFails s t) :
    t.power.alertPulse = true ∧ Alerts t ∧ rd t oCONTAINED_COUNT 0 = satAdd max32 (rd s oCONTAINED_COUNT 0) 1 :=
  ⟨h.pulse, h.alerts, h.count⟩

theorem Raised.chipFails {s t : State} (h : Raised s t) (hchip : s.power.chipError = true) : ChipFails s t :=
  ⟨by rw [h.power], h.count, h.clock, by rw [h.power]; exact hchip, fun hno => absurd hno (by rw [hchip]; exact Bool.true_eq_false_eq_False),
    fun _ => ⟨h.weir, h.mem, h.fabric⟩, fun hno => absurd hno (by rw [hchip]; exact Bool.true_eq_false_eq_False)⟩

theorem Limited.chipFails {s t : State} (h : Limited s t) (hgated : s.clock.rootGated = true) : ChipFails s t :=
  ⟨by rw [h.power]; rfl, h.count, h.clock, by rw [h.power]; rfl, fun _ => ⟨by rw [h.power]; rfl, h.refresh⟩,
    fun _ => ⟨h.weir, h.mem, h.fabric hgated⟩, fun _ hno => by rw [hgated] at hno; cases hno⟩

/-- With the PCIe core running the operations end, too. -/
theorem Limited.chipFails_of_allLost {s t u : State} (h : Limited s t) (hchip : s.power.chipError = false)
    (hgated : s.clock.rootGated = false) (hlost : AllLost (t.weir.ops.map (fun o => o.id)) t u) : ChipFails s u := by
  have hpower := hlost.serves.power.trans h.power
  refine ⟨by rw [hpower]; rfl, hlost.count.trans h.count, hlost.serves.clock.trans h.clock, by rw [hpower]; rfl,
    fun _ => ⟨by rw [hpower]; rfl, fun k hk hfit => ?_⟩, fun hor => ?_, fun _ _ => ⟨?_, hlost.all⟩⟩
  · have hkey : objKey oREFRESH_MODE (k + 1) < objKey 0x6200 0 := by
      rw [objKey, objKey, show oREFRESH_MODE = 0x5003 from rfl]
      omega
    exact (rd_congr (hlost.serves.objs _ hkey)).trans (h.refresh k hk hfit)
  · rw [hchip, hgated] at hor
    simp at hor
  · rw [hlost.serves.ids, h.weir]

theorem chipFails_chipError {s : State} (hok : opsOk s.weir = true) (cause : Nat) : ChipFails s (chipError s cause) := by
  cases hchip : s.power.chipError with
  | true =>
    rw [chipError_again hchip]
    exact (raised_contained s 9 cause 0 0 0).chipFails hchip
  | false =>
    have hlim := limited_safeState s cause
    rw [chipError_first hchip, hlim.clock]
    cases hgated : s.clock.rootGated with
    | true => exact hlim.chipFails hgated
    | false => exact hlim.chipFails_of_allLost hchip hgated (allLost_opIds (by rw [hlim.weir]; exact hok))

/-! ### Which failures stand unraised -/

/-- No failure stands unraised. -/
def clearedClock (c : Clock) : Clock := { c with rootNoted := false, noted0 := false, noted1 := false }

/-- Another loop may still lock: one error is raised when the last attempt has ended. -/
theorem settle_waits {s : State} (hlost : clkIs s 7 = true) (hruns : attemptsRun s = true) : settle s = s := by
  rw [settle]
  dsimp only
  rw [if_pos hlost, if_pos hruns, ite_self]

/-- One failure stands unraised, and nothing puts it off. -/
theorem settle_raises {s : State} (hone : s.clock.rootNoted.toNat + s.clock.noted0.toNat + s.clock.noted1.toNat = 1)
    (hnow : (clkIs s 7 && attemptsRun s) = false) : ∃ cause, settle s = chipError (withClock s (clearedClock s.clock)) cause := by
  have hnoted : (!(s.clock.rootNoted || s.clock.noted0 || s.clock.noted1)) = false := by
    revert hone
    cases s.clock.rootNoted <;> cases s.clock.noted0 <;> cases s.clock.noted1 <;> decide
  rw [settle]
  dsimp only
  rw [if_neg (by rw [hnoted]; exact Bool.false_ne_true)]
  by_cases hlost : clkIs s 7 = true
  · rw [hlost, Bool.true_and] at hnow
    exact ⟨3, (if_pos hlost).trans (if_neg (by rw [hnow]; exact Bool.false_ne_true))⟩
  · rw [if_neg hlost]
    cases hroot : s.clock.rootNoted with
    | true =>
      have hboth : s.clock.noted0 = false ∧ s.clock.noted1 = false := by
        revert hone
        rw [hroot]
        cases s.clock.noted0 <;> cases s.clock.noted1 <;> decide
      rw [hboth.1, hboth.2]
      exact ⟨1, rfl⟩
    | false =>
      have hother : s.clock.noted1 = !s.clock.noted0 := by
        revert hone
        rw [hroot]
        cases s.clock.noted0 <;> cases s.clock.noted1 <;> decide
      rw [hother]
      refine ⟨2, ?_⟩
      cases s.clock.noted0 <;> rfl

/-- The failure of the root loop noted. -/
def rootFailedClock (c : Clock) : Clock := { c with rootFailed := true, rootNoted := true }

theorem exec_rootRelockFail {s : State} (hgated : s.clock.rootGated = true) (hfailed : s.clock.rootFailed = false) :
    exec .rootRelockFail s = .next (settle (withClock s (rootFailedClock s.clock))) :=
  congrArg Host.Outcome.next (if_pos ⟨hgated, by simp [hfailed]⟩)

/-- The failure of a memory loop noted. -/
def memFailedClock (c : Clock) (die : Nat) : Clock :=
  if die = 0 then { c with failed0 := true, noted0 := true } else { c with failed1 := true, noted1 := true }

theorem exec_memRelockFail {s : State} {die : Nat} (hdie : die < 2) (hruns : (relocking s die && !(relockFailed s die)) = true) :
    exec (.memRelockFail die) s = .next (settle (withClock s (memFailedClock s.clock die))) := by
  obtain ⟨hrelock, hfailed⟩ := Bool.and_eq_true_iff.mp hruns
  refine congrArg Host.Outcome.next ((if_pos ⟨hdie, hrelock, hfailed⟩).trans (congrArg settle ?_))
  rw [memFailedClock]
  split <;> rfl

end Sys2Proof.Machine

/-! PROOF. What serving leaves of the operations that have ended (spec/03 R66; spec/19 R451). -/

namespace Sys2Proof.Machine

open Sys2Proof

/-! ### Stores leave the operations alone -/

theorem foldl_weir {α : Type} {f : State → α → State} (hf : ∀ s x, (f s x).weir = s.weir) (l : List α) (s : State) :
    (l.foldl f s).weir = s.weir := by
  induction l generalizing s with
  | nil => rfl
  | cons x l ih => exact (ih _).trans (hf s x)

theorem drainEntry_weir (s : State) (k : Nat) (e : EddyEntry) : (drainEntry s k e).weir = s.weir := by
  rw [drainEntry]
  dsimp only
  split <;> rfl

theorem drainBurst_weir (s : State) (k : Nat) (e : EddyEntry) : (drainBurst s k e).weir = s.weir :=
  foldl_weir (fun t x => drainEntry_weir t k x) _ s

theorem eddyEnter_weir (s : State) (op a : Nat) (b : List Byte) : (eddyEnter s op a b).weir = s.weir := by
  rw [eddyEnter]
  have hclean : (if b.length = 256 then cleanLine s (lineOf a) else s).weir = s.weir := by split <;> rfl
  generalize (if b.length = 256 then cleanLine s (lineOf a) else s) = t at hclean ⊢
  rw [← hclean]
  dsimp only
  split
  · split
    · exact drainBurst_weir _ _ _
    · rfl
  · have hroom : (if 64 ≤ (tabGet [] t.mem.eddies (dramStack a)).length then
        match (tabGet [] t.mem.eddies (dramStack a)).head? with
        | some oldest => drainBurst t (dramStack a) oldest
        | none => t
      else t).weir = t.weir := by
      split
      · split
        · exact drainBurst_weir _ _ _
        · rfl
      · rfl
    generalize (if 64 ≤ (tabGet [] t.mem.eddies (dramStack a)).length then
        match (tabGet [] t.mem.eddies (dramStack a)).head? with
        | some oldest => drainBurst t (dramStack a) oldest
        | none => t
      else t) = u at hroom ⊢
    split
    · exact (drainBurst_weir _ _ _).trans hroom
    · exact hroom

theorem flushWaits_weir (s : State) (k : Nat) : (flushWaits s k).weir = s.weir :=
  foldl_weir (fun (t : State) (w : EddyWait) => eddyEnter_weir t w.op w.addr w.bytes) _ _

theorem storeLine_weir (s : State) (op a : Nat) (b : List Byte) : (storeLine s op a b).weir = s.weir := by
  rw [storeLine, eddyStore, putLine]
  split
  · split
    · exact eddyEnter_weir _ _ _ _
    · exact (eddyEnter_weir _ _ _ _).trans (flushWaits_weir _ _)
  · split <;> rfl

theorem storeBytes_weir (s : State) (p op a : Nat) (b : List Byte) : (storeBytes s p op a b).weir = s.weir := by
  rw [storeBytes]
  split
  · exact hostStore_weir _ _ _ _
  · rfl
  · exact foldl_weir (fun (t : State) (x : Nat × List Byte) => storeLine_weir t op x.1 x.2) _ s

theorem storeAll_weir (s : State) (p op : Nat) (ws : List (Nat × List Byte)) : (storeAll s p op ws).weir = s.weir :=
  foldl_weir (fun (t : State) (w : Nat × List Byte) => storeBytes_weir t p op w.1 w.2) _ s

theorem retryWaits_weir (s : State) : (retryWaits s).weir = s.weir := by rw [eddyOnly_retryWaits s]

/-! ### Cores that ask leave what their operations have come to -/

/-- What an operation has come to. -/
def Op.outcome (o : Op) : Nat × OpPhase × Nat := (o.id, o.phase, o.status)

/-- From `s` to `t` every operation has come to the same. -/
def SameOutcomes (s t : State) : Prop := t.weir.ops.map Op.outcome = s.weir.ops.map Op.outcome

theorem SameOutcomes.trans {s t u : State} (h : SameOutcomes s t) (h' : SameOutcomes t u) : SameOutcomes s u := Eq.trans h' h

theorem sameOutcomes_of_weir {s t : State} (h : t.weir = s.weir) : SameOutcomes s t := by rw [SameOutcomes, h]

theorem Asking.sameOutcomes {s t : State} (h : Asking s t) : SameOutcomes s t := by
  have houtcome : ∀ l : List Op, l.map Op.outcome = (l.map Op.asks).map Op.outcome := fun l => by rw [List.map_map]; rfl
  rw [SameOutcomes, houtcome, h.ops, ← houtcome]

theorem map_outcome_replaceOp {l : List Op} {o v : Op} (h : l.find? (fun x => x.id == o.id) = some v) (ho : o.outcome = v.outcome) :
    (replaceOp o l).map Op.outcome = l.map Op.outcome := by
  induction l with
  | nil => rfl
  | cons x r ih =>
    rw [replaceOp]
    by_cases hx : x.id = o.id
    · rw [List.find?_cons, beq_iff_eq.mpr hx] at h
      cases h
      rw [if_pos hx, List.map_cons, List.map_cons, ho]
    · rw [List.find?_cons, beq_eq_false_iff_ne.mpr hx] at h
      rw [if_neg hx, List.map_cons, List.map_cons, ih h]

theorem outcome_drainRill (l : List RillRow) (s : State) (o : Op) :
    (drainRill l s o).1.weir = s.weir ∧ (drainRill l s o).2.outcome = o.outcome := by
  induction l generalizing s o with
  | nil => exact ⟨rfl, rfl⟩
  | cons x l ih =>
    obtain ⟨hweir, hop⟩ := ih (writeEff s o (rillOut (opByte s o) o x)).1 (writeEff s o (rillOut (opByte s o) o x)).2
    exact ⟨hweir.trans (storeAll_weir _ _ _ _), hop⟩

theorem outcome_drainTo (keep c : Nat) (s : State) (o : Op) :
    (drainTo keep c s o).1.weir = s.weir ∧ (drainTo keep c s o).2.outcome = o.outcome := outcome_drainRill _ s o

theorem outcome_enterTile (c t : Nat) (s : State) (o : Op) :
    (enterTile c t s o).1.weir = s.weir ∧ (enterTile c t s o).2.outcome = o.outcome := by
  have hy : (if readsAhead o then (s, o) else drainTo 0 c s o).1.weir = s.weir ∧
      (if readsAhead o then (s, o) else drainTo 0 c s o).2.outcome = o.outcome := by
    split
    · exact ⟨rfl, rfl⟩
    · exact outcome_drainTo 0 c s o
  rw [enterTile]
  generalize (if readsAhead o then (s, o) else drainTo 0 c s o) = y at hy ⊢
  dsimp only
  split
  · exact hy
  · exact hy

theorem sameOutcomes_startTile (c : Nat) (s : State) : SameOutcomes s (startTile c s) := by
  rw [startTile]
  dsimp only
  split
  · next o ho =>
    split
    · obtain ⟨hweir, hop⟩ := outcome_enterTile c o.tile s o
      have hfind : s.weir.ops.find? (fun x => x.id == (enterTile c o.tile s o).2.id) = some o := by
        have hid : (enterTile c o.tile s o).2.id = o.id := congrArg Prod.fst hop
        rw [hid]
        exact opOf?_of_executingOn ho
      rw [SameOutcomes, setOp, hweir]
      exact map_outcome_replaceOp hfind hop
    · rfl
  · rfl

theorem sameOutcomes_askMore (s : State) (c : Nat) : SameOutcomes s (askMore s c) := by
  rw [askMore]
  split
  · next o _ =>
    split
    · rfl
    · exact (((asking_askHost o.id o.due.length s).trans (asking_askLines o.id (lineCount o.ins) _)).trans
        (asking_retile _ c)).sameOutcomes.trans (sameOutcomes_startTile c _)
  · rfl

theorem sameOutcomes_askWaiting (cores : List Nat) (s : State) : SameOutcomes s (askWaiting cores s) := by
  rw [askWaiting]
  generalize cores.eraseDups = l
  induction l generalizing s with
  | nil => rfl
  | cons c l ih => exact (sameOutcomes_askMore s c).trans (ih _)

end Sys2Proof.Machine

/-! PROOF. The statement of the relock that fails (spec/03 R66, R67, R71; spec/19 R451). -/

namespace Sys2Proof.Machine

open Sys2Proof

/-! ### ROOT_RELOCK after a chip error -/

theorem takeReads_weir (s : State) : (takeReads s).weir = s.weir := by
  rw [takeReads]
  split <;> rfl

theorem resumedState_weir (s : State) : (resumedState s).weir = s.weir := by
  rw [resumedState, retryWaits_weir, takeReads_weir]
  exact (rests_unstuck s).weir

/-- Every operation has ended as the root loop locked. -/
def endedState (s : State) : State := forOps (opIds (resumedState s) (fun _ => true)) chipEnds (resumedState s)

theorem allLost_endedState {s : State} (hok : opsOk s.weir = true) :
    AllLost ((resumedState s).weir.ops.map (fun o => o.id)) (resumedState s) (endedState s) :=
  allLost_opIds (by rw [resumedState_weir]; exact hok)

theorem rootRelocked_of_chipError {s : State} (hok : opsOk s.weir = true) (hchip : s.power.chipError = true)
    (hroot : s.clock.rootNoted = false) (h0 : s.clock.noted0 = false) (h1 : s.clock.noted1 = false) :
    rootRelocked s = endedState s := by
  have hunfold : rootRelocked s = settle (if (resumedState s).power.chipError then endedState s else resumedState s) := by
    unfold rootRelocked
    extract_lets u1 u2 c u3 u4
    have hdivided : u1 = dividedState s := rfl
    have hlocked : u2 = lockedState s := by unfold u2 lockedState; rw [hdivided]
    have hungated : u3 = ungatedState s := by unfold u3 c ungatedState withClock; rw [hlocked]
    have hresumed : u4 = resumedState s := by unfold u4 resumedState refreshedState; rw [hungated]
    rw [hresumed]
    rfl
  have hclock : (endedState s).clock = runningClock s :=
    (allLost_endedState hok).serves.clock.trans ((serves_resumedState s).clock.trans (clock_refreshedState s))
  rw [hunfold, (serves_resumedState s).power, power_refreshedState, hchip, if_pos rfl]
  refine settle_of_none ?_ ?_ ?_ <;> rw [hclock]
  · exact hroot
  · exact h0
  · exact h1

/-- Then the cores have asked for more, and records and vectors have been sent. -/
def sentState (s : State) : State :=
  sendVectors (sendRecords (askWaiting (s.mem.eddyWait.filterMap (fun w => w.core)) (endedState s)))

theorem sentState_outcomes (s : State) : SameOutcomes (endedState s) (sentState s) :=
  (sameOutcomes_askWaiting _ (endedState s)).trans (sameOutcomes_of_weir
    ((delivered_sendRecords _).trans (signalled_sendVectors _).delivered).kept.1)

theorem flagsOn_of_lost {s : State} (h : ∀ o ∈ s.weir.ops, o.Lost) : flagsOn s = s := by
  rw [flagsOn, forOps]
  generalize opIds s (fun o => o.putting) = l
  induction l with
  | nil => rfl
  | cons i l ih =>
    have hstep : (match opOf? s i with
        | some o => putOn s o
        | none => s) = s := by
      cases hop : opOf? s i with
      | none => rfl
      | some o =>
        obtain ⟨hphase, -⟩ := h o (List.mem_of_find?_eq_some hop)
        exact if_neg (by rw [hphase]; exact Bool.false_ne_true)
    rw [List.foldl_cons]
    exact (congrArg (fun t => l.foldl _ t) hstep).trans ih

theorem lost_of_outcomes {s t : State} (h : SameOutcomes s t) (hs : ∀ o ∈ s.weir.ops, o.Lost) : ∀ o ∈ t.weir.ops, o.Lost := by
  intro o ho
  have hmem : o.outcome ∈ s.weir.ops.map Op.outcome := by
    rw [← h]
    exact List.mem_map_of_mem ho
  obtain ⟨x, hx, heq⟩ := List.mem_map.mp hmem
  obtain ⟨hphase, hstatus⟩ := hs x hx
  obtain ⟨-, hrest⟩ := Prod.ext_iff.mp heq
  obtain ⟨hp, hst⟩ := Prod.ext_iff.mp hrest
  exact ⟨hp.symm.trans hphase, hst.symm.trans hstatus⟩

theorem ids_of_outcomes {s t : State} (h : SameOutcomes s t) : t.weir.ops.map (fun o => o.id) = s.weir.ops.map (fun o => o.id) := by
  have hids : ∀ l : List Op, l.map (fun o => o.id) = (l.map Op.outcome).map Prod.fst := fun l => by rw [List.map_map]; rfl
  rw [hids, h, ← hids]

theorem lost_sentState {s : State} (hok : opsOk s.weir = true) :
    (sentState s).weir.ops.map (fun o => o.id) = s.weir.ops.map (fun o => o.id) ∧ ∀ o ∈ (sentState s).weir.ops, o.Lost := by
  have hlost := allLost_endedState hok
  refine ⟨?_, lost_of_outcomes (sentState_outcomes s) hlost.all⟩
  rw [ids_of_outcomes (sentState_outcomes s), hlost.serves.ids, resumedState_weir]

theorem hostHeld_sentState {s : State} (hok : opsOk s.weir = true) : (sentState s).hostHeld = s.hostHeld := by
  have hserved := (delivered_sendRecords (askWaiting (s.mem.eddyWait.filterMap (fun w => w.core)) (endedState s))).serves.trans
    (signalled_sendVectors _).delivered.serves
  have hasked : Serves (endedState s) (askWaiting (s.mem.eddyWait.filterMap (fun w => w.core)) (endedState s)) :=
    Serves.foldl serves_askMore _ _
  exact hserved.held.trans (hasked.held.trans ((allLost_endedState hok).serves.held.trans
    ((serves_resumedState s).held.trans (rests_refreshedState s).held)))

theorem exec_rootRelock_of_chipError {s : State} (hok : opsOk s.weir = true) (hchip : s.power.chipError = true)
    (hroot : s.clock.rootNoted = false) (h0 : s.clock.noted0 = false) (h1 : s.clock.noted1 = false) (hgated : s.clock.rootGated = true)
    (hfailed : s.clock.rootFailed = false) :
    exec .rootRelock s = .next (s.hostHeld.foldl perform { sentState s with hostHeld := [] }) := by
  have hexec : execRootRelock s = .next (performHeld (flagsOn (sentState s))) := by
    rw [execRootRelock, rootRelocked_of_chipError hok hchip hroot h0 h1, if_pos ⟨hgated, by simp [hfailed]⟩]
    rfl
  show execRootRelock s = _
  rw [hexec, flagsOn_of_lost (lost_sentState hok).2, performHeld, hostHeld_sentState hok]

/-! ### Failures raised -/

/-- Where one failure stands unraised and no other loop can hold it back, settling raises it. -/
theorem chipFails_settle {s : State} {c : Clock} (hok : opsOk s.weir = true)
    (hone : c.rootNoted.toNat + c.noted0.toNat + c.noted1.toNat = 1)
    (hnow : (clkIs s 7 && attemptsRun (withClock s c)) = false) :
    ChipFails (withClock s (clearedClock c)) (settle (withClock s c)) := by
  obtain ⟨cause, hcause⟩ := settle_raises (s := withClock s c) hone hnow
  rw [hcause]
  exact chipFails_chipError (s := withClock s (clearedClock c)) hok cause

theorem attemptsRun_rootFailed (s : State) : attemptsRun (withClock s (rootFailedClock s.clock)) =
    ((relocking s 0 && !(relockFailed s 0)) || (relocking s 1 && !(relockFailed s 1))) := by
  rw [attemptsRun]
  show (s.clock.rootGated && !true || relocking s 0 && !(relockFailed s 0) || relocking s 1 && !(relockFailed s 1)) = _
  rw [Bool.not_true, Bool.and_false, Bool.false_or]

theorem clearedClock_rootFailed {c : Clock} (hroot : c.rootNoted = false) (h0 : c.noted0 = false) (h1 : c.noted1 = false) :
    clearedClock (rootFailedClock c) = { c with rootFailed := true } := by
  cases c
  simp_all [clearedClock, rootFailedClock]

theorem attemptsRun_memFailed (s : State) {die : Nat} (h : die < 2) : attemptsRun (withClock s (memFailedClock s.clock die)) =
    ((s.clock.rootGated && !s.clock.rootFailed) || (relocking s (1 - die) && !(relockFailed s (1 - die)))) := by
  interval_cases die <;> simp [attemptsRun, memFailedClock, withClock, relocking, relockFailed]

/-- The failure is noted of that die alone. -/
theorem noted_memFailedClock {c : Clock} (hroot : c.rootNoted = false) (h0 : c.noted0 = false) (h1 : c.noted1 = false) (die : Nat) :
    (memFailedClock c die).rootNoted.toNat + (memFailedClock c die).noted0.toNat + (memFailedClock c die).noted1.toNat = 1 := by
  rw [memFailedClock]
  split
  · show c.rootNoted.toNat + true.toNat + c.noted1.toNat = 1
    rw [hroot, h1]
    rfl
  · show c.rootNoted.toNat + c.noted0.toNat + true.toNat = 1
    rw [hroot, h0]
    rfl

theorem execMemRelock_eq {s : State} {die : Nat} (h : die < 2) (hruns : (relocking s die && !(relockFailed s die)) = true) :
    exec (.memRelock die) s = .next (settle (memRelocked s die)) := by
  obtain ⟨hrelock, hfailed⟩ := Bool.and_eq_true_iff.mp hruns
  exact congrArg Host.Outcome.next (if_pos ⟨h, hrelock, hfailed⟩)

/-- Exactly one failure stands, that of the other die. -/
theorem noted_lockedClock {s : State} {die : Nat} (h : die < 2) (hroot : s.clock.rootNoted = false)
    (hnoted : (if 1 - die = 0 then s.clock.noted0 else s.clock.noted1) = true)
    (hquiet : (if die = 0 then s.clock.noted0 else s.clock.noted1) = false) :
    (lockedClock s die).rootNoted.toNat + (lockedClock s die).noted0.toNat + (lockedClock s die).noted1.toNat = 1 := by
  show s.clock.rootNoted.toNat + s.clock.noted0.toNat + s.clock.noted1.toNat = 1
  interval_cases die
  · have h0 : s.clock.noted0 = false := hquiet
    have h1 : s.clock.noted1 = true := hnoted
    rw [hroot, h0, h1]
    rfl
  · have h0 : s.clock.noted0 = true := hnoted
    have h1 : s.clock.noted1 = false := hquiet
    rw [hroot, h0, h1]
    rfl

/-- The reference is back with the loop, so the failure of the other die is raised. -/
theorem chipFails_memRelock {s : State} {die : Nat} (h : die < 2) (hok : opsOk s.weir = true) (hroot : s.clock.rootNoted = false)
    (hnoted : (if 1 - die = 0 then s.clock.noted0 else s.clock.noted1) = true)
    (hquiet : (if die = 0 then s.clock.noted0 else s.clock.noted1) = false) :
    ChipFails (withClock (memRelocked s die) (clearedClock (lockedClock s die))) (settle (memRelocked s die)) := by
  have hclock := clock_memRelocked s h
  have hback : clkIs (memRelocked s die) 7 = false := by
    rw [clkIs_memRelocked s h, if_neg (by omega), if_pos rfl]
  have hweir : (memRelocked s die).weir = s.weir := (told_memRelocked s h).rests.weir
  have hself : withClock (memRelocked s die) (lockedClock s die) = memRelocked s die := by rw [← hclock]; rfl
  have hfails := chipFails_settle (s := memRelocked s die) (c := lockedClock s die) (by rw [hweir]; exact hok)
    (noted_lockedClock h hroot hnoted hquiet) (by rw [hback, Bool.false_and])
  rwa [hself] at hfails

/-! ### The obligation -/

/-- Settles O19: a failure is raised where no other loop may still lock, and then by the one contained error of chip scope, which ends
the operations where the PCIe core runs. -/
theorem relockFailureIsAChipError : Obligations.RelockFailureIsAChipError := by
  unfold Obligations.RelockFailureIsAChipError
  intro s hok hroot
  dsimp only
  refine ⟨fun hgated hfailed => ⟨fun hlost hruns => ?_, fun h0 h1 hnow => ?_⟩, fun die hdie hruns =>
    ⟨fun hlost hothers => ?_, fun h0 h1 hnow => ?_⟩, fun die hdie hruns hnoted hquiet hchip => ?_, fun hgated hfailed hchip h0 h1 => ?_⟩
  · rw [exec_rootRelockFail hgated hfailed]
    exact congrArg Host.Outcome.next (settle_waits hlost ((attemptsRun_rootFailed s).trans hruns))
  · have hfails := chipFails_settle (c := rootFailedClock s.clock) hok
      (by show true.toNat + s.clock.noted0.toNat + s.clock.noted1.toNat = 1; rw [h0, h1]; rfl)
      (by rw [attemptsRun_rootFailed]; exact hnow)
    obtain ⟨hweir, hmem, hfabric⟩ := hfails.still (.inr hgated)
    exact ⟨_, exec_rootRelockFail hgated hfailed, hfails.raised,
      fun hchip => ⟨hfails.raised, hfails.error, (hfails.limited hchip).1, (hfails.limited hchip).2⟩, hweir, hmem,
      hfails.clock.trans (clearedClock_rootFailed hroot h0 h1), hfabric⟩
  · have hwaits : settle (withClock s (memFailedClock s.clock die)) = withClock s (memFailedClock s.clock die) :=
      settle_waits hlost ((attemptsRun_memFailed s hdie).trans hothers)
    refine ⟨_, (exec_memRelockFail hdie hruns).trans (congrArg Host.Outcome.next hwaits), ?_⟩
    interval_cases die
    · refine ⟨rfl, rfl, fun d hd hne => ?_, rfl⟩
      interval_cases d
      · exact absurd rfl hne
      · exact ⟨rfl, rfl⟩
    · refine ⟨rfl, rfl, fun d hd hne => ?_, rfl⟩
      interval_cases d
      · exact ⟨rfl, rfl⟩
      · exact absurd rfl hne
  · have hfails := chipFails_settle (c := memFailedClock s.clock die) hok (noted_memFailedClock hroot h0 h1 die)
      (by rw [attemptsRun_memFailed s hdie]; exact hnow)
    have hclock := hfails.clock
    have hgate : (withClock s (clearedClock (memFailedClock s.clock die))).clock.rootGated = s.clock.rootGated := by
      interval_cases die <;> rfl
    refine ⟨_, exec_memRelockFail hdie hruns, hfails.raised, ?_, ?_,
      fun hchip => ⟨hfails.raised, hfails.error, (hfails.limited hchip).1, (hfails.limited hchip).2⟩,
      fun hchip hgated => hfails.ends hchip (hgate.trans hgated), fun hor => ?_⟩
    · rw [relockFailed, hclock]
      interval_cases die <;> rfl
    · rw [hclock]
      exact ite_self false
    · obtain ⟨hweir, hmem, -⟩ := hfails.still (by rw [hgate]; exact hor)
      exact ⟨hweir, hmem⟩
  · have hfails := chipFails_memRelock hdie hok hroot hnoted hquiet
    have hcount : rd (memRelocked s die) oCONTAINED_COUNT 0 = rd s oCONTAINED_COUNT 0 :=
      (told_memRelocked s hdie).rd_index (by decide) (by decide)
    have hclock := hfails.clock
    refine ⟨_, execMemRelock_eq hdie hruns, ⟨hfails.pulse, hfails.alerts, ?_⟩, hfails.error, ?_, ?_⟩
    · rw [← hcount]
      exact hfails.count
    · rw [hclock]
      exact ite_self false
    · rw [relocking, hclock]
      exact (relock_lockedClock s hdie).2
  · exact ⟨_, exec_rootRelock_of_chipError hok hchip hroot h0 h1 hgated hfailed, lost_sentState hok⟩

end Sys2Proof.Machine

/-! PROOF. The boot ROM, the start of the power-on sequence and the body of a warm reset (spec/05 R96, R106, R109, R111). -/

namespace Sys2Proof.Machine

open Sys2Proof

/-! ### Tables -/

theorem tabGet?_filter {α : Type} (t : Tab α) (p : Nat → Bool) (k : Nat) :
    tabGet? (t.filter (fun e => p e.1)) k = if p k then tabGet? t k else none := by
  induction t with
  | nil => exact (ite_self none).symm
  | cons e t ih =>
    obtain ⟨i, v⟩ := e
    by_cases hik : i = k
    · subst hik
      rw [List.filter_cons]
      cases hp : p i with
      | true => simp [tabGet?_cons]
      | false => simpa [hp] using ih
    · have hskip : tabGet? ((i, v) :: t) k = tabGet? t k := by rw [tabGet?_cons, if_neg hik]
      rw [hskip, ← ih, List.filter_cons]
      split
      · rw [tabGet?_cons, if_neg hik]
      · rfl

theorem tabGet?_tabMerge_ne {α : Type} {l : Tab α} {k : Nat} (h : ∀ e ∈ l, e.1 ≠ k) (t : Tab α) :
    tabGet? (tabMerge t l) k = tabGet? t k := by
  induction l generalizing t with
  | nil => rfl
  | cons e l ih =>
    obtain ⟨hne, hrest⟩ := List.forall_mem_cons.mp h
    exact (ih hrest _).trans (tabGet?_tabPut_ne _ _ hne.symm)

/-! ### The boot ROM -/

theorem mem_newerCopy {n : Nv} {c : NvCopy} (h : newerCopy n = some c) : c = n.copyA ∨ c = n.copyB := by
  rw [newerCopy] at h
  split at h
  · split at h
    · exact .inl (Option.some.inj h).symm
    · exact .inr (Option.some.inj h).symm
  · split at h
    · exact .inl (Option.some.inj h).symm
    · split at h
      · exact .inr (Option.some.inj h).symm
      · cases h

/-- A copy in form holds persisted objects only. -/
theorem persists_newerCopy {n : Nv} {c : NvCopy} (hok : copiesOk n = true) (h : newerCopy n = some c) :
    ∀ e ∈ c.nums, keyPersists e.1 = true := by
  rw [copiesOk, Bool.and_eq_true, Bool.and_eq_true, Bool.and_eq_true] at hok
  obtain ⟨⟨⟨ha, hb⟩, -⟩, -⟩ := hok
  rcases mem_newerCopy h with rfl | rfl
  · exact List.all_eq_true.mp ha
  · exact List.all_eq_true.mp hb

/-- The boot ROM changes the dictionary, and what waited for a start. -/
theorem bootRom_eq (s : State) :
    bootRom s = { s with staged := [], stagedBlobs := [], dict := (bootRom s).dict, blobs := (bootRom s).blobs } := by
  rw [bootRom]
  dsimp only
  split
  · split <;> rfl
  · rfl

/-- An object that is not persisted is kept, but for BOOT_FAULT. -/
theorem rd_bootRom {s : State} (hok : copiesOk s.nv = true) {o sub : Nat} (hp : keyPersists (objKey o sub) = false)
    (hfault : objKey o sub ≠ objKey oBOOT_FAULT 0) : rd (bootRom s) o sub = rd s o sub := by
  have hkept : tabGet? (s.dict.filter (fun e => !(keyPersists e.1))) (objKey o sub) = tabGet? s.dict (objKey o sub) :=
    (tabGet?_filter s.dict (fun k => !(keyPersists k)) _).trans (if_pos (by rw [hp]; rfl))
  rw [bootRom]
  dsimp only
  split
  · next c hc =>
    have hcopy : tabGet? (tabMerge (s.dict.filter (fun e => !(keyPersists e.1))) c.nums) (objKey o sub) =
        tabGet? s.dict (objKey o sub) := by
      refine (tabGet?_tabMerge_ne (fun e he heq => ?_) _).trans hkept
      have hyes := persists_newerCopy hok hc e he
      rw [heq, hp] at hyes
      cases hyes
    split
    · exact rd_congr hcopy
    · exact (rd_wr_ne _ _ hfault).trans (rd_congr hcopy)
  · exact (rd_wr_ne _ _ hfault).trans (rd_congr hkept)

/-! ### Step 4 -/

/-- Step 4 but for BOOT_STAGE: the dictionary loaded, the cause recorded, the objects of the sequence set. -/
def bootLoaded (s : State) (cause : Nat) : State :=
  let s := wrP (bootRom s) oRESET_CAUSE 0 cause
  let s := wr s oCLK_STATUS 0 (rd s oCLK_STATUS 0 / 2 % 2 * 2 + 257)
  let s := wr s oMGMT_LINK 0 (if rd s oPLCA_NODE_ID 0 = 0 then 4 else 0)
  let bank := rd s oFW_BOOT_BANK 0
  let s := wr s oFW_STATE 0 (if (if bank = 0 then s.fw.valid1 else s.fw.valid0) then 2 else 0)
  { s with nv := { s.nv with bootNo := (s.nv.bootNo + 1) % 2 ^ 32 }
           regr := { s.regr with resetAt := s.nowUs }, fw := { s.fw with active := bank } }

theorem bootStart_eq (s : State) (cause : Nat) : bootStart s cause = sendBeacons (stage (bootLoaded s cause) 4) := rfl

theorem bootLoaded_eq (s : State) (cause : Nat) : bootLoaded s cause = { s with
    staged := [], stagedBlobs := [], dict := (bootLoaded s cause).dict, blobs := (bootLoaded s cause).blobs
    nv := { s.nv with dirty := true, bootNo := (s.nv.bootNo + 1) % 2 ^ 32 }
    regr := { s.regr with resetAt := s.nowUs }, fw := (bootLoaded s cause).fw } := by
  unfold bootLoaded
  rw [bootRom_eq]
  rfl

theorem rd_bootLoaded_cause (s : State) (cause : Nat) : rd (bootLoaded s cause) oRESET_CAUSE 0 = cause := by
  refine (rd_wr_ne _ _ (by decide)).trans ((rd_wr_ne _ _ (by decide)).trans ((rd_wr_ne _ _ (by decide)).trans ?_))
  exact rd_wrP_self _ _ _ _

/-- The objects that step 4 writes. -/
def bootKeys : List Nat := [objKey oBOOT_FAULT 0, objKey oRESET_CAUSE 0, objKey oCLK_STATUS 0, objKey oMGMT_LINK 0, objKey oFW_STATE 0]

theorem rd_bootLoaded {s : State} (hok : copiesOk s.nv = true) (cause : Nat) {o sub : Nat}
    (hp : keyPersists (objKey o sub) = false) (hk : objKey o sub ∉ bootKeys) : rd (bootLoaded s cause) o sub = rd s o sub := by
  simp only [bootKeys, List.mem_cons, List.not_mem_nil, or_false, not_or] at hk
  obtain ⟨hfault, hcause, hclk, hlink, hfw⟩ := hk
  refine (rd_wr_ne _ _ hfw).trans ((rd_wr_ne _ _ hlink).trans ((rd_wr_ne _ _ hclk).trans ((rd_wrP_ne _ _ hcause).trans ?_)))
  exact rd_bootRom hok hp hfault

theorem told_bootStart (s : State) (cause : Nat) : Told [objKey oBOOT_STAGE 0] (bootLoaded s cause) (bootStart s cause) := by
  rw [bootStart_eq]
  exact (told_stage _ 4).trans (told_sendBeacons _)

/-! ### What step 4 leaves -/

theorem notify_of_none {s : State} (h : s.mgmt.sessions = []) (cls index sub value : Nat) : notify s cls index sub value = s := by
  rw [notify, h, notifyEach, ← h]

theorem fns_bootStart {s : State} (h : s.mgmt.sessions = []) (cause : Nat) : (bootStart s cause).fns = s.fns := by
  have hloaded : (bootLoaded s cause).mgmt.sessions = [] ∧ (bootLoaded s cause).fns = s.fns := by
    rw [bootLoaded_eq]
    exact ⟨h, rfl⟩
  obtain ⟨hnone, hfns⟩ := hloaded
  rw [bootStart_eq]
  generalize bootLoaded s cause = u at hnone hfns ⊢
  have hstage : (stage u 4).fns = s.fns := by
    rw [stage, wrNote]
    split
    · exact hfns
    · rw [notify_of_none (s := wr u oBOOT_STAGE 0 4) hnone]
      exact hfns
  rw [← hstage, sendBeacons]
  split <;> rfl

theorem bootStart_rest (s : State) (cause : Nat) : bootStart s cause = { s with
    staged := [], stagedBlobs := [], dict := (bootStart s cause).dict, blobs := (bootStart s cause).blobs
    nv := { s.nv with dirty := true, bootNo := (s.nv.bootNo + 1) % 2 ^ 32 }
    regr := { s.regr with resetAt := s.nowUs }, fw := (bootStart s cause).fw
    mgmt := { s.mgmt with sessions := (bootStart s cause).mgmt.sessions, boxes := (bootStart s cause).mgmt.boxes }
    fns := (bootStart s cause).fns, out := (bootStart s cause).out } := by
  have hrest := (told_bootStart s cause).rest
  have heq := bootLoaded_eq s cause
  generalize bootStart s cause = t at hrest ⊢
  generalize bootLoaded s cause = u at hrest heq
  rw [hrest, heq]

/-- From `s` to `t` the sequence has begun at step 4 and nothing else has happened. -/
structure Begun (cause : Nat) (s t : State) : Prop where
  stage : rd t oBOOT_STAGE 0 = 4
  cause : rd t oRESET_CAUSE 0 = cause
  bootNo : t.nv.bootNo = (s.nv.bootNo + 1) % 2 ^ 32
  power : t.power = s.power
  pins : t.pins = s.pins
  mem : t.mem = s.mem
  weir : t.weir = s.weir

theorem begun_bootStart (s : State) (cause : Nat) : Begun cause s (bootStart s cause) := by
  have htold := told_bootStart s cause
  have hrest := bootStart_rest s cause
  refine ⟨?_, (htold.rd (by decide)).trans (rd_bootLoaded_cause s cause), ?_, ?_, ?_, ?_, ?_⟩
  · rw [bootStart_eq, (told_sendBeacons _).rd (by decide)]
    exact rd_stage _ 4
  · exact (congrArg (fun t => t.nv.bootNo) hrest :)
  · exact (congrArg State.power hrest :)
  · exact (congrArg State.pins hrest :)
  · exact (congrArg State.mem hrest :)
  · exact (congrArg State.weir hrest :)

/-- The objects of the straps are kept. -/
theorem rd_bootStart {s : State} (hok : copiesOk s.nv = true) (cause : Nat) {o sub : Nat} (hp : keyPersists (objKey o sub) = false)
    (hk : objKey o sub ∉ bootKeys) (hstage : objKey o sub ∉ [objKey oNOTIFY_LOST 0, objKey oBOOT_STAGE 0]) :
    rd (bootStart s cause) o sub = rd s o sub := ((told_bootStart s cause).rd hstage).trans (rd_bootLoaded hok cause hp hk)

/-! ### The straps -/

/-- What the straps were sampled as. -/
def Straps (t : State) (clk : Bool) (id : Nat) : Prop :=
  rd t oSTRAPS 0 = id + (if clk then 32 else 0) ∧ rd t oCLK_MODE 0 = (if clk then 1 else 0) ∧ rd t oPLCA_NODE_ID 0 = id

theorem straps_sampleStraps (s : State) (clk : Bool) {id : Nat} (hid : id < 32) : Straps (sampleStraps s clk id) clk id := by
  have hmod : id % 32 = id := Nat.mod_eq_of_lt hid
  refine ⟨?_, ?_, ?_⟩
  · refine (rd_wr_ne _ _ (by decide)).trans ((rd_wr_ne _ _ (by decide)).trans ((rd_wr_self _ _ _ _).trans ?_))
    rw [hmod]
  · exact (rd_wr_ne _ _ (by decide)).trans (rd_wr_self _ _ _ _)
  · exact (rd_wr_self _ _ _ _).trans hmod

theorem Straps.bootStart {s : State} {clk : Bool} {id : Nat} (h : Straps s clk id) (hok : copiesOk s.nv = true) (cause : Nat) :
    Straps (bootStart s cause) clk id := by
  obtain ⟨hstraps, hmode, hnode⟩ := h
  exact ⟨(rd_bootStart hok cause (by decide) (by decide) (by decide)).trans hstraps,
    (rd_bootStart hok cause (by decide) (by decide) (by decide)).trans hmode,
    (rd_bootStart hok cause (by decide) (by decide) (by decide)).trans hnode⟩

end Sys2Proof.Machine

/-! PROOF. The loss of the compute rails and a warm reset (spec/04 R94; spec/05 R111, Table BOOT-2). -/

namespace Sys2Proof.Machine

open Sys2Proof

/-! ### The rails go off -/

theorem told_portsOff (s : State) : Told portKeys s (portsOff s) := by
  rw [portsOff]
  have hall : ∀ (l : List Nat) (u : State), Told (l.map fun n => objKey oPORT_STATE (n + 1)) u
      (l.foldl (fun t n => wrNote t 5 oPORT_STATE (n + 1) 0) u) := by
    intro l
    induction l with
    | nil => exact Told.refl []
    | cons n l ih => exact fun u => (told_wrNote u 5 oPORT_STATE (n + 1) 0).trans (ih _)
  exact hall (List.range 16) s

theorem linkUp_perstOnly (eps : Tab Endpoint) (e : Nat) :
    (tabGet {} (eps.map (fun x => (x.1, ({ perst := x.2.perst } : Endpoint)))) e).linkUp = false := by
  induction eps with
  | nil => rfl
  | cons x eps ih =>
    rw [List.map_cons, tabGet, tabGet?_cons]
    split
    · rfl
    · exact ih

/-- Whatever came before, if it left operations and memory alone. -/
theorem gone_loseCompute {s u : State} (hweir : u.weir = s.weir) (hmem : u.mem = s.mem) : ComputeGone s (loseCompute u) := by
  have htold := told_portsOff u
  have hw : (portsOff u).weir = s.weir := htold.rests.weir.trans hweir
  have hm : (portsOff u).mem = s.mem := htold.rests.mem.trans hmem
  unfold loseCompute
  generalize portsOff u = v at hw hm ⊢
  refine ⟨⟨rfl, rfl, rfl⟩, ⟨rfl, rfl, rfl, rfl, rfl, rfl⟩, ⟨?_, rfl, rfl, rfl, rfl⟩, ⟨rfl, rfl⟩, ?_, fun e => ?_⟩
  · show ({ nextOp := v.weir.nextOp } : Weir) = _
    rw [hw]
  · rw [← hm]
    rfl
  · exact linkUp_perstOnly _ e

/-! ### A warm reset -/

/-- What has not been committed is. -/
def committed (s : State) : State := if s.nv.dirty then commit s else s

theorem committed_keeps (s : State) : (committed s).weir = s.weir ∧ (committed s).mem = s.mem ∧ (committed s).nv.bootNo = s.nv.bootNo ∧
    (committed s).power = s.power ∧ (committed s).pins = s.pins := by
  rw [committed]
  split
  · rw [commit]
    dsimp only
    split <;> exact ⟨rfl, rfl, rfl, rfl, rfl⟩
  · exact ⟨rfl, rfl, rfl, rfl, rfl⟩

/-- The compute rails are off, the neighbours told, the sessions ended. -/
def railsOff (s : State) : State := loseCompute (endSessions (departAll (committed s)))

theorem sessions_loseCompute {u : State} (h : u.mgmt.sessions = []) : (loseCompute u).mgmt.sessions = [] := by
  have hnone : (portsOff u).mgmt.sessions.map Session.still = [] := (told_portsOff u).sessions.trans (by rw [h]; rfl)
  unfold loseCompute
  generalize portsOff u = v at hnone ⊢
  exact List.map_eq_nil_iff.mp hnone

theorem loseCompute_keeps (u : State) :
    (loseCompute u).power.good = u.power.good ∧ (loseCompute u).nv = u.nv ∧ (loseCompute u).pins = u.pins := by
  have htold := told_portsOff u
  have hpower := htold.power
  have hnv := htold.nv
  have hpins : (portsOff u).pins = u.pins := by rw [htold.rest]
  unfold loseCompute
  generalize portsOff u = v at hpower hnv hpins ⊢
  exact ⟨(congrArg Power.good hpower :), hnv, hpins⟩

theorem railsOff_sessions (s : State) : (railsOff s).mgmt.sessions = [] := sessions_loseCompute rfl

theorem railsOff_keeps (s : State) : (railsOff s).power.good = s.power.good ∧ (railsOff s).nv.bootNo = s.nv.bootNo ∧
    (railsOff s).pins = s.pins := by
  obtain ⟨-, -, hno, hpower, hpins⟩ := committed_keeps s
  have hports := sameButPorts_departAll (committed s)
  rw [sameButPorts] at hports
  obtain ⟨hgood, hnv, hsame⟩ := loseCompute_keeps (endSessions (departAll (committed s)))
  refine ⟨hgood.trans ?_, (congrArg Nv.bootNo hnv).trans ?_, hsame.trans ?_⟩
  · exact (congrArg (fun t => t.power.good) hports : (departAll (committed s)).power.good = _).trans (congrArg Power.good hpower)
  · exact (congrArg (fun t => t.nv.bootNo) hports : (departAll (committed s)).nv.bootNo = _).trans hno
  · exact (congrArg State.pins hports : (departAll (committed s)).pins = _).trans hpins

theorem gone_railsOff (s : State) : ComputeGone s (railsOff s) := by
  obtain ⟨hweir, hmem, -⟩ := committed_keeps s
  have hports := sameButPorts_departAll (committed s)
  rw [sameButPorts] at hports
  refine gone_loseCompute ?_ ?_
  · exact (congrArg State.weir hports : (departAll (committed s)).weir = _).trans hweir
  · exact (congrArg State.mem hports : (departAll (committed s)).mem = _).trans hmem

/-- A warm reset from the rails off on. -/
def warmed (s : State) (cause : Nat) : State :=
  let osc := rd s oCLK_STATUS 0 % 4
  let volts := rd s oPWR_STATUS 0 % 4
  let s := clearObjs s warmObj
  let s := wr (wr s oCLK_STATUS 0 osc) oPWR_STATUS 0 volts
  { s with
    power := { good := s.power.good, alertPulse := s.power.alertPulse, lowTimer := s.power.lowTimer,
               highTimer := s.power.highTimer, bootCause := cause }
    clock := { phyOn := s.clock.phyOn }
    mgmt := { s.mgmt with boxes := [], silent := false, addressOk := false }
    fabric := {}
    jtag := { s.jtag with control := s.jtag.control || pinCode s.jtag.ir, hold := if pinCode s.jtag.ir then some 4 else none } }

theorem warmBody_eq (s : State) (cause : Nat) : warmBody s cause = warmed (railsOff s) cause := by
  rw [warmBody, warmed, railsOff, committed]

theorem bootStage_warmed (s : State) (cause : Nat) : rd (warmed s cause) oBOOT_STAGE 0 = 0 := by
  have hcleared : rd (clearObjs s warmObj) oBOOT_STAGE 0 = 0 := by
    rw [rd, clearObjs, tabGet?_filter s.dict (fun k => !(warmObj (k / 256)))]
    rfl
  exact (rd_wr_ne _ _ (by decide)).trans ((rd_wr_ne _ _ (by decide)).trans hcleared)

theorem gone_warmed {s u : State} (h : ComputeGone s u) (cause : Nat) : ComputeGone s (warmed u cause) := by
  obtain ⟨-, hqueues, ⟨hweir, hcores, hspawn, -⟩, hrepairs, hmem, hlinks⟩ := h
  exact ⟨⟨rfl, rfl, rfl⟩, hqueues, ⟨hweir, hcores, hspawn, rfl, rfl⟩, hrepairs, hmem, hlinks⟩

/-- What a warm reset leaves. -/
structure Warmed (cause : Nat) (s t : State) : Prop where
  gone : ComputeGone s t
  sessions : t.mgmt.sessions = []
  stage : rd t oBOOT_STAGE 0 = 0
  good : t.power.good = s.power.good
  started : t.power.bootCause = cause ∧ t.power.shutdown = false ∧ t.power.held = none
  bootNo : t.nv.bootNo = s.nv.bootNo
  pins : t.pins = s.pins

theorem warmed_warmBody (s : State) (cause : Nat) : Warmed cause s (warmBody s cause) := by
  obtain ⟨hgood, hno, hpins⟩ := railsOff_keeps s
  have hgone := gone_railsOff s
  have hnone := railsOff_sessions s
  rw [warmBody_eq]
  generalize railsOff s = u at hgood hno hpins hgone hnone ⊢
  exact ⟨gone_warmed hgone cause, hnone, bootStage_warmed u cause, hgood, ⟨rfl, rfl, rfl⟩, hno, hpins⟩

/-- The start that follows touches nothing that the loss speaks of. -/
theorem ComputeGone.bootStart {s u : State} (h : ComputeGone s u) (hnone : u.mgmt.sessions = []) (cause : Nat) :
    ComputeGone s (bootStart u cause) := by
  have hrest := bootStart_rest u cause
  have hfns := fns_bootStart hnone cause
  generalize Machine.bootStart u cause = t at hrest hfns ⊢
  obtain ⟨hrails, ⟨hi, hc, hp, hf, hh, ho⟩, hwork, hrepairs, hmem, hlinks⟩ := h
  rw [hrest]
  exact ⟨hrails, ⟨hi, hc, hp, hfns.trans hf, hh, ho⟩, hwork, hrepairs, hmem, hlinks⟩

/-! ### The commands -/

/-- Power good has risen. -/
def poweredUp (s : State) : State :=
  setV48 { s with power := { s.power with good := true, bootCause := 0 } } (max 40000 s.pins.v48Mv)

/-- The level of RESET_N. -/
def withResetPin (s : State) (low : Bool) : State := { s with pins := { s.pins with resetLow := low } }

theorem exec_powerGoodRise {s : State} (hgood : s.power.good = false) (hreset : s.pins.resetLow = false) (clk : Bool) (id : Nat) :
    exec (.powerGoodRise clk id) s = .next (bootStart (sampleStraps (poweredUp s) clk id) 0) := by
  refine congrArg Host.Outcome.next ((if_neg (by rw [hgood]; exact Bool.false_ne_true)).trans (if_neg ?_))
  show ¬ s.pins.resetLow = true
  rw [hreset]
  exact Bool.false_ne_true

theorem resetNAssert_high {s : State} (hgood : s.power.good = true) (hreset : s.pins.resetLow = false) :
    exec .resetNAssert s = .next (if s.power.shutdown then
      { withResetPin s true with power := { s.power with held := some 1 } } else warmBody (withResetPin s true) 1) := by
  refine congrArg Host.Outcome.next ((if_neg (by rw [hreset]; exact Bool.false_ne_true)).trans (if_neg ?_))
  show ¬ (!s.power.good) = true
  rw [hgood]
  exact Bool.false_ne_true

theorem exec_resetNDeassert {s : State} (hgood : s.power.good = true) (hshut : s.power.shutdown = false)
    (hreset : s.pins.resetLow = true) (clk : Bool) (id : Nat) :
    exec (.resetNDeassert clk id) s = .next (bootStart (sampleStraps (withResetPin s false) clk id) s.power.bootCause) := by
  refine congrArg Host.Outcome.next ((if_neg (by rw [hreset]; exact Bool.false_ne_true)).trans ((if_neg ?_).trans (if_neg ?_)))
  · show ¬ (!s.power.good) = true
    rw [hgood]
    exact Bool.false_ne_true
  · show ¬ s.power.shutdown = true
    rw [hshut]
    exact Bool.false_ne_true

theorem exec_shutdownRestart {s : State} {cause : Nat} (hheld : s.power.held = some cause) (hshut : s.power.shutdown = true)
    (hgood : s.power.good = true) (hcool : packageCool s = true) (hlow : 40000 ≤ s.pins.v48Mv) (hhigh : s.pins.v48Mv ≤ 60000)
    (hreset : s.pins.resetLow = false) : exec .shutdownRestart s = .next (bootStart (warmBody s cause) cause) := by
  show execShutdownRestart s = _
  rw [execShutdownRestart, hheld]
  exact congrArg Host.Outcome.next (if_pos ⟨hshut, hgood, hcool, hlow, hhigh, by rw [hreset]; rfl⟩)

/-! ### The obligation -/

/-- Settles O10: each start is the boot ROM over the straps as sampled, each reset the loss of the compute rails. -/
theorem resetPinAndPowerGood : Obligations.ResetPinAndPowerGood := by
  unfold Obligations.ResetPinAndPowerGood
  intro s clk id hid hok
  dsimp only
  refine ⟨fun hgood hfull hreset => ?_, fun hgood hshut hreset => ?_, fun hgood hshut hreset => ?_,
    fun hgood hshut hfull hreset => ?_, fun cause hheld hshut hgood hcool hlow hhigh hreset => ?_⟩
  · have hbegun := begun_bootStart (sampleStraps (poweredUp s) clk id) 0
    refine ⟨_, exec_powerGoodRise hgood hreset clk id, (straps_sampleStraps (poweredUp s) clk hid).bootStart hok 0,
      ⟨hbegun.stage, hbegun.cause, ?_, hbegun.bootNo, ?_⟩, hbegun.mem, hbegun.weir⟩
    · rw [hbegun.power]
      rfl
    · rw [hbegun.power]
      exact hfull
  · have hwarm := warmed_warmBody (withResetPin s true) 1
    have hexec := (resetNAssert_high hgood hreset).trans
      (congrArg Host.Outcome.next (if_neg (by rw [hshut]; exact Bool.false_ne_true)))
    obtain ⟨hrails, hqueues, hwork, hrepairs, hmem, hlinks⟩ := hwarm.gone
    refine ⟨_, hexec, ?_, hwarm.good.trans hgood, hwarm.started.1, hwarm.sessions, hwarm.stage,
      ⟨hrails, hqueues, hwork, hrepairs, hmem, hlinks⟩⟩
    exact congrArg Pins.resetLow hwarm.pins
  · exact (resetNAssert_high hgood hreset).trans (congrArg Host.Outcome.next (if_pos hshut))
  · have hbegun := begun_bootStart (sampleStraps (withResetPin s false) clk id) s.power.bootCause
    refine ⟨_, exec_resetNDeassert hgood hshut hreset clk id, (straps_sampleStraps (withResetPin s false) clk hid).bootStart hok _,
      ⟨hbegun.stage, hbegun.cause, ?_, hbegun.bootNo, ?_⟩, ?_, hbegun.mem⟩
    · rw [hbegun.power]
      exact hgood
    · rw [hbegun.power]
      exact hfull
    · rw [hbegun.pins]
      rfl
  · have hwarm := warmed_warmBody s cause
    have hbegun := begun_bootStart (warmBody s cause) cause
    obtain ⟨-, hnoshut, hnoheld⟩ := hwarm.started
    have hgone := hwarm.gone.bootStart hwarm.sessions cause
    refine ⟨_, exec_shutdownRestart hheld hshut hgood hcool hlow hhigh hreset, ⟨hbegun.stage, hbegun.cause, ?_, ?_, hgone.rails.2.2⟩,
      ?_, ?_, hgone⟩
    · rw [hbegun.power]
      exact hwarm.good.trans hgood
    · rw [hbegun.bootNo, hwarm.bootNo]
    · rw [hbegun.power]
      exact hnoshut
    · rw [hbegun.power]
      exact hnoheld

end Sys2Proof.Machine

/-! PROOF. The operations of a partition whose reset begins (spec/05 R112). -/

namespace Sys2Proof.Machine

open Sys2Proof

/-! ### What freeing leaves alone -/

/-- From `s` to `t` memory alone changes. -/
def MemOnly (s t : State) : Prop := t = { s with mem := t.mem }

theorem MemOnly.trans {s t u : State} (h : MemOnly s t) (h' : MemOnly t u) : MemOnly s u := by
  rw [MemOnly] at *
  rw [h', h]

theorem memOnly_hostStore (s : State) (fn a : Nat) (b : List Byte) : MemOnly s (hostStore s fn a b) := by
  have heq := hostStore_eq s fn a b
  rw [MemOnly]
  generalize hostStore s fn a b = t at heq ⊢
  rw [heq]
  rfl

theorem memOnly_freeRegion (s : State) (p a n : Nat) : MemOnly s (freeRegion s p a n) := by
  rw [freeRegion]
  split
  · rfl
  · dsimp only
    split
    · exact MemOnly.trans (t := drawFree s) rfl (memOnly_hostStore _ _ _ _)
    · rfl
    · rfl

theorem memOnly_freeRegions (s : State) (p : Nat) (rs : List (Nat × Nat)) : MemOnly s (freeRegions s p rs) := by
  rw [freeRegions]
  induction rs generalizing s with
  | nil => rfl
  | cons r l ih => exact (memOnly_freeRegion s p r.1 r.2).trans (ih _)

/-- A core is at work: a wavefront is in progress, or a load is pending. -/
def Active (s : State) (c : Nat) : Prop := (coreOf s c).wave = true ∨ (coreOf s c).load ≠ none

/-- From `s` to `t` cores alone change; none comes to work, and which are being mapped stays. -/
structure Calms (s t : State) : Prop where
  rest : t = { s with cores := t.cores, mem := t.mem }
  active : ∀ c, Active t c → Active s c
  mapping : ∀ c, (coreOf t c).mapping = (coreOf s c).mapping

theorem Calms.refl (s : State) : Calms s s := ⟨rfl, fun _ h => h, fun _ => rfl⟩

theorem Calms.trans {s t u : State} (h : Calms s t) (h' : Calms t u) : Calms s u := by
  refine ⟨?_, fun c hc => h.active c (h'.active c hc), fun c => (h'.mapping c).trans (h.mapping c)⟩
  rw [h'.rest, h.rest]

theorem calms_of_memOnly {s t : State} (h : MemOnly s t) : Calms s t := by
  rw [MemOnly] at h
  generalize t.mem = m at h
  subst h
  exact ⟨rfl, fun _ hc => hc, fun _ => rfl⟩

theorem calms_setCore (s : State) (c : Nat) (x : Core) (hactive : x.wave = true ∨ x.load ≠ none → Active s c)
    (hmap : x.mapping = (coreOf s c).mapping) : Calms s (setCore s c x) := by
  refine ⟨rfl, fun d hd => ?_, fun d => ?_⟩
  · by_cases hdc : d = c
    · subst hdc
      rw [Active, coreOf_setCore_self] at hd
      exact hactive hd
    · rwa [Active, coreOf_setCore_ne s x hdc] at hd
  · by_cases hdc : d = c
    · subst hdc
      rw [coreOf_setCore_self, hmap]
    · rw [coreOf_setCore_ne s x hdc]

/-- A core that neither works nor has a load pending from now on. -/
theorem calms_setCore_idle (s : State) (c : Nat) (x : Core) (hwave : x.wave = false) (hload : x.load = none)
    (hmap : x.mapping = (coreOf s c).mapping) : Calms s (setCore s c x) := by
  refine calms_setCore s c x (fun h => ?_) hmap
  rw [hwave, hload] at h
  simp at h

theorem calms_zeroStore (s : State) (c : Nat) : Calms s (zeroStore s c) := by
  have hfill : Calms s (fillRegion s (coreBase c) (coreBase c + 0x600000) none) := calms_of_memOnly rfl
  refine (hfill.trans ?_).trans (calms_of_memOnly rfl)
  exact calms_setCore _ c _ (fun h => h) rfl

theorem calms_clearCore (s : State) (c : Nat) : Calms s (clearCore s c) := by
  rw [clearCore]
  exact Calms.trans (calms_setCore_idle s c { retiring := (coreOf s c).retiring, mapping := (coreOf s c).mapping
                                              logged := (coreOf s c).logged } rfl rfl rfl) (calms_zeroStore _ c)

theorem calms_freeCore (s : State) (c id : Nat) : Calms s (freeCore s c id) := by
  rw [freeCore]
  dsimp only
  split
  · have hidle : Calms s (setCore s c { coreOf s c with exec := none, wave := false, load := none, stall := none
                                                        arrays := idleArrays (coreOf s c).arrays }) :=
      calms_setCore_idle s c _ rfl rfl rfl
    split
    · exact hidle.trans (calms_clearCore _ c)
    · exact hidle
  · split
    · next hload => exact calms_setCore s c _ (fun _ => .inr (by rw [hload]; exact Option.some_ne_none _)) rfl
    · exact Calms.refl s

theorem calms_freeSlot (s : State) (c : Nat) (slot : Option Nat) : Calms s (freeSlot s c slot) := by
  rw [freeSlot.eq_def]
  split
  · exact calms_setCore s c _ (fun h => h) rfl
  · exact Calms.refl s

/-- A load becomes pending on a core that has a wavefront in progress. -/
theorem calms_pendLoad (s : State) (l : Load) {c : Nat} (h : inWave s c = true) : Calms s (pendLoad s l c) :=
  calms_setCore s c _ (fun _ => .inl (Bool.and_eq_true _ _ ▸ h).1) rfl

/-! ### One operation stopped -/

/-- From `s` to `t` operations of partition `p` have been stopped: objects, host side and other partitions stay, and no core comes to
work. -/
structure Stopped (p : Nat) (s t : State) : Prop where
  dict : t.dict = s.dict
  mgmt : t.mgmt = s.mgmt
  fns : t.fns = s.fns
  eps : t.eps = s.eps
  numbers : t.weir.nextOp = s.weir.nextOp
  part : (partOf t p).resetting = (partOf s p).resetting
  others : ∀ r, r ≠ p → partOf t r = partOf s r ∧
    t.weir.ops.filter (fun o => o.part == r) = s.weir.ops.filter (fun o => o.part == r)
  ops : t.weir.ops.Sublist s.weir.ops
  active : ∀ c, Active t c → Active s c
  mapping : ∀ c, (coreOf t c).mapping = (coreOf s c).mapping

theorem Stopped.refl (p : Nat) (s : State) : Stopped p s s :=
  ⟨rfl, rfl, rfl, rfl, rfl, rfl, fun _ _ => ⟨rfl, rfl⟩, List.Sublist.refl _, fun _ h => h, fun _ => rfl⟩

theorem Stopped.trans {p : Nat} {s t u : State} (h : Stopped p s t) (h' : Stopped p t u) : Stopped p s u :=
  ⟨h'.dict.trans h.dict, h'.mgmt.trans h.mgmt, h'.fns.trans h.fns, h'.eps.trans h.eps, h'.numbers.trans h.numbers,
    h'.part.trans h.part, fun r hr => ⟨(h'.others r hr).1.trans (h.others r hr).1, (h'.others r hr).2.trans (h.others r hr).2⟩,
    h'.ops.trans h.ops, fun c hc => h.active c (h'.active c hc), fun c => (h'.mapping c).trans (h.mapping c)⟩

theorem Calms.stopped {s t : State} (h : Calms s t) (p : Nat) : Stopped p s t := by
  have hrest := h.rest
  have hsame : t.dict = s.dict ∧ t.mgmt = s.mgmt ∧ t.fns = s.fns ∧ t.eps = s.eps ∧ t.weir = s.weir ∧ t.parts = s.parts := by
    generalize t.cores = cs at hrest
    generalize t.mem = m at hrest
    subst hrest
    exact ⟨rfl, rfl, rfl, rfl, rfl, rfl⟩
  obtain ⟨hdict, hmgmt, hfns, heps, hweir, hparts⟩ := hsame
  refine ⟨hdict, hmgmt, hfns, heps, by rw [hweir], by rw [partOf, partOf, hparts], fun r _ => ⟨by rw [partOf, partOf, hparts], ?_⟩,
    by rw [hweir], h.active, h.mapping⟩
  rw [hweir]

theorem Calms.weir {s t : State} (h : Calms s t) : t.weir = s.weir := by rw [h.rest]

/-- The numbers are used once. -/
def OnceEach (s : State) : Prop := (s.weir.ops.map (fun o => o.id)).Nodup

theorem OnceEach.eq_of_id {s : State} (h : OnceEach s) {o x : Op} (ho : o ∈ s.weir.ops) (hx : x ∈ s.weir.ops) (hid : x.id = o.id) :
    x = o := List.inj_on_of_nodup_map h hx ho hid

theorem OnceEach.stopped {p : Nat} {s t : State} (hs : OnceEach s) (h : Stopped p s t) : OnceEach t :=
  hs.sublist (h.ops.map _)

/-- What an operation held is free: its core, its save slot, its outputs in DRAM. -/
def letGo (s : State) (o : Op) : State :=
  let s := match o.core with
    | some c => freeSlot (freeCore s c o.id) c o.slot
    | none => s
  let began := !(o.phase == .waiting || o.phase == .issued || o.phase == .placed || o.phase == .ended)
  if began then freeRegions s o.part (o.outs.filter (fun r => space r.1 == 0)) else s

theorem calms_letGo (s : State) (o : Op) : Calms s (letGo s o) := by
  have hfreed : Calms s (match o.core with
      | some c => freeSlot (freeCore s c o.id) c o.slot
      | none => s) := by
    split
    · exact (calms_freeCore _ _ _).trans (calms_freeSlot _ _ _)
    · exact Calms.refl s
  unfold letGo
  extract_lets u began
  split
  · exact hfreed.trans (calms_of_memOnly (memOnly_freeRegions _ _ _))
  · exact hfreed

theorem discardOp_eq (s : State) (o : Op) : discardOp s o = setPart (removeOp (letGo s o) o) o.part
    { partOf (removeOp (letGo s o) o) o.part with discarded := (partOf (removeOp (letGo s o) o) o.part).discarded + 1 } := rfl

theorem ops_discardOp (s : State) (o : Op) : (discardOp s o).weir.ops = s.weir.ops.filter (fun x => x.id != o.id) := by
  rw [discardOp_eq, ← (calms_letGo s o).weir]
  rfl

/-- An operation discarded. -/
theorem stopped_discardOp {s : State} (hids : OnceEach s) {o : Op} (ho : o ∈ s.weir.ops) : Stopped o.part s (discardOp s o) := by
  have hops := ops_discardOp s o
  have hgo := (calms_letGo s o).stopped o.part
  have hpart := partOf_setPart_self (removeOp (letGo s o) o) o.part
    { partOf (removeOp (letGo s o) o) o.part with discarded := (partOf (removeOp (letGo s o) o) o.part).discarded + 1 }
  have hothers := fun (r : Nat) (hr : r ≠ o.part) => partOf_setPart_ne (removeOp (letGo s o) o)
    { partOf (removeOp (letGo s o) o) o.part with discarded := (partOf (removeOp (letGo s o) o) o.part).discarded + 1 } hr
  rw [← discardOp_eq] at hpart
  simp only [← discardOp_eq] at hothers
  refine ⟨hgo.dict, hgo.mgmt, hgo.fns, hgo.eps, hgo.numbers, ?_, fun r hr => ⟨(hothers r hr).trans (hgo.others r hr).1, ?_⟩, ?_,
    hgo.active, hgo.mapping⟩
  · rw [hpart]
    exact hgo.part
  · rw [hops, List.filter_filter]
    refine List.filter_congr fun x hx => ?_
    by_cases hid : x.id = o.id
    · rw [hids.eq_of_id ho hx hid, beq_eq_false_iff_ne.mpr hr.symm, Bool.false_and]
    · rw [bne_iff_ne.mpr hid, Bool.and_true]
  · rw [hops]
    exact List.filter_sublist

/-! ### Every operation of a partition -/

/-- An operation that was to stop still runs: it waits for its tile boundary, or for the stall timer. -/
def Op.Lingers (s : State) (o : Op) : Prop := o.phase = .dispatched ∧ ∃ c, o.core = some c ∧ Active s c

/-- An operation stopped is gone, or runs on. -/
theorem stopped_stopOp {s : State} (hids : OnceEach s) {o : Op} (ho : o ∈ s.weir.ops) :
    Stopped o.part s (stopOp s o) ∧ (o ∈ (stopOp s o).weir.ops → o.Lingers s) := by
  have hdiscard : Stopped o.part s (discardOp s o) ∧ (o ∈ (discardOp s o).weir.ops → o.Lingers s) := by
    refine ⟨stopped_discardOp hids ho, fun hmem => ?_⟩
    rw [ops_discardOp, List.mem_filter] at hmem
    simp at hmem
  rw [stopOp]
  split
  · next c hcore =>
    split
    · next hrun =>
      obtain ⟨hphase, hwave⟩ := hrun
      exact ⟨(calms_pendLoad s _ hwave).stopped o.part, fun _ => ⟨hphase, c, hcore, .inl (Bool.and_eq_true _ _ ▸ hwave).1⟩⟩
    · exact hdiscard
  · exact hdiscard

theorem lingers_of_stopped {p : Nat} {s t : State} (h : Stopped p s t) {o : Op} (ho : o.Lingers t) : o.Lingers s := by
  obtain ⟨hphase, c, hcore, hactive⟩ := ho
  exact ⟨hphase, c, hcore, h.active c hactive⟩

/-- Those of a list of numbers, all of one partition. -/
theorem stopped_forOps {p : Nat} {s : State} (hs : OnceEach s) (l : List Nat) {t : State} (h : Stopped p s t)
    (hl : ∀ o ∈ s.weir.ops, o.id ∈ l → o.part = p) :
    Stopped p t (forOps l stopOp t) ∧ ∀ o ∈ (forOps l stopOp t).weir.ops, o.id ∈ l → o.Lingers s := by
  induction l generalizing t with
  | nil => exact ⟨Stopped.refl p t, fun _ _ hid => absurd hid List.not_mem_nil⟩
  | cons i l ih =>
    have hstep : ∃ u, (match opOf? t i with
        | some o => stopOp t o
        | none => t) = u ∧ Stopped p t u ∧ ∀ o ∈ u.weir.ops, o.id = i → o.Lingers s := by
      refine ⟨_, rfl, ?_⟩
      cases hop : opOf? t i with
      | none => exact ⟨Stopped.refl p t, fun o ho hid => absurd (by simp [hid]) (List.find?_eq_none.mp hop o ho)⟩
      | some o =>
        have hmem := List.mem_of_find?_eq_some hop
        have hid : o.id = i := id_of_opOf? hop
        obtain ⟨hstop, hlinger⟩ := stopped_stopOp (hs.stopped h) hmem
        rw [hl o (h.ops.subset hmem) (by rw [hid]; exact List.mem_cons_self)] at hstop
        refine ⟨hstop, fun x hx hxi => lingers_of_stopped h ?_⟩
        have hxo : x = o := (hs.stopped h).eq_of_id hmem (hstop.ops.subset hx) (hxi.trans hid.symm)
        rw [hxo] at hx ⊢
        exact hlinger hx
    obtain ⟨u, hu, hstop, hone⟩ := hstep
    obtain ⟨hall, hrest⟩ := ih (h.trans hstop) fun o ho hid => hl o ho (List.mem_cons_of_mem i hid)
    have hfold : forOps (i :: l) stopOp t = forOps l stopOp u := by rw [← hu]; rfl
    rw [hfold]
    refine ⟨hstop.trans hall, fun o ho hid => ?_⟩
    rcases List.mem_cons.mp hid with hi | hin
    · exact hone o (hall.ops.subset ho) hi
    · exact hrest o ho hin

theorem part_of_opIds {s : State} (hs : OnceEach s) {p : Nat} {f : Op → Bool} {o : Op} (ho : o ∈ s.weir.ops)
    (hid : o.id ∈ opIds s (fun o => o.part == p && f o)) : o.part = p := by
  obtain ⟨x, hx, hxo⟩ := List.mem_map.mp hid
  obtain ⟨hmem, hf⟩ := List.mem_filter.mp hx
  rw [← hs.eq_of_id ho hmem hxo]
  exact beq_iff_eq.mp (Bool.and_eq_true _ _ ▸ hf).1

theorem mem_opIds {s : State} {f : Op → Bool} {o : Op} (ho : o ∈ s.weir.ops) (hf : f o = true) : o.id ∈ opIds s f :=
  List.mem_map_of_mem (List.mem_filter.mpr ⟨ho, hf⟩)

theorem stopped_stopOps {s : State} (hs : OnceEach s) (p : Nat) :
    Stopped p s (stopOps s p) ∧ ∀ o ∈ (stopOps s p).weir.ops, o.part = p → o.Lingers s := by
  obtain ⟨hfirst, hrunning⟩ := stopped_forOps hs (opIds s (fun o => o.part == p && o.phase == .dispatched)) (Stopped.refl p s)
    fun o ho hid => part_of_opIds hs ho hid
  obtain ⟨hsecond, hothers⟩ := stopped_forOps hs (opIds s (fun o => o.part == p && o.phase != .dispatched)) hfirst
    fun o ho hid => part_of_opIds hs ho hid
  refine ⟨hfirst.trans hsecond, fun o ho hp => ?_⟩
  have hmem : o ∈ s.weir.ops := (hfirst.trans hsecond).ops.subset ho
  by_cases hphase : o.phase = .dispatched
  · exact hrunning o (hsecond.ops.subset ho) (mem_opIds hmem (by simp [hp, hphase]))
  · exact hothers o ho (mem_opIds hmem (by simp [hp, hphase]))

end Sys2Proof.Machine

/-! PROOF. Partition resets begun, and the resets from the PCIe side (spec/05 R112; spec/17 R424; spec/18 R445). -/

namespace Sys2Proof.Machine

open Sys2Proof

/-! ### One partition -/

/-- From `s` to `t` the resets of the active partitions of a set have begun. -/
structure Resets (P : Nat → Prop) (s t : State) : Prop where
  begun : ∀ p, p < 128 → rd s oPART_STATE (p + 1) = 1 → P p → rd t oPART_STATE (p + 1) = 2 ∧ (partOf t p).resetting = true ∧
    (paused s p = false → ∀ o ∈ t.weir.ops, o.part = p → o.Lingers s)
  others : ∀ p, p < 128 → ¬(rd s oPART_STATE (p + 1) = 1 ∧ P p) → rd t oPART_STATE (p + 1) = rd s oPART_STATE (p + 1) ∧
    partOf t p = partOf s p ∧ t.weir.ops.filter (fun o => o.part == p) = s.weir.ops.filter (fun o => o.part == p)
  numbers : t.weir.nextOp = s.weir.nextOp
  ops : t.weir.ops.Sublist s.weir.ops
  objs : ∀ o sub, o ≠ oPART_STATE → sub < 256 → rd t o sub = rd s o sub
  active : ∀ c, Active t c → Active s c
  mapping : ∀ c, (coreOf t c).mapping = (coreOf s c).mapping

theorem Resets.refl {P : Nat → Prop} {s : State} (h : ∀ p, p < 128 → rd s oPART_STATE (p + 1) = 1 → ¬P p) : Resets P s s :=
  ⟨fun p hp h1 hP => absurd hP (h p hp h1), fun _ _ _ => ⟨rfl, rfl, rfl⟩, rfl, List.Sublist.refl _, fun _ _ _ _ => rfl,
    fun _ hc => hc, fun _ => rfl⟩

theorem Resets.congr {P Q : Nat → Prop} {s t : State} (h : Resets P s t)
    (hPQ : ∀ p, p < 128 → rd s oPART_STATE (p + 1) = 1 → (P p ↔ Q p)) : Resets Q s t :=
  ⟨fun p hp h1 hQ => h.begun p hp h1 ((hPQ p hp h1).mpr hQ),
    fun p hp hno => h.others p hp fun hyes => hno ⟨hyes.1, (hPQ p hp hyes.1).mp hyes.2⟩,
    h.numbers, h.ops, h.objs, h.active, h.mapping⟩

theorem Resets.paused {P : Nat → Prop} {s t : State} (h : Resets P s t) {p : Nat} (hp : p < 128) : paused t p = paused s p := by
  rw [Machine.paused, Machine.paused, partCores, partCores, h.objs oPART_CORES (p + 1) (by decide) (by omega)]
  simp only [h.mapping]

theorem Resets.trans {P Q : Nat → Prop} {s t u : State} (h : Resets P s t) (h' : Resets Q t u) : Resets (fun p => P p ∨ Q p) s u := by
  refine ⟨fun p hp h1 hPQ => ?_, fun p hp hno => ?_, h'.numbers.trans h.numbers, h'.ops.trans h.ops,
    fun o sub ho hsub => (h'.objs o sub ho hsub).trans (h.objs o sub ho hsub), fun c hc => h.active c (h'.active c hc),
    fun c => (h'.mapping c).trans (h.mapping c)⟩
  · by_cases hP : P p
    · obtain ⟨hstate, hresetting, hlinger⟩ := h.begun p hp h1 hP
      obtain ⟨hstate', hpart', -⟩ := h'.others p hp fun hyes => by rw [hstate] at hyes; exact absurd hyes.1 (by decide)
      exact ⟨hstate'.trans hstate, by rw [hpart']; exact hresetting,
        fun hpause o ho hop => hlinger hpause o (h'.ops.subset ho) hop⟩
    · obtain ⟨hstate, -, -⟩ := h.others p hp fun hyes => hP hyes.2
      obtain ⟨hstate', hresetting, hlinger⟩ := h'.begun p hp (hstate.trans h1) (hPQ.resolve_left hP)
      refine ⟨hstate', hresetting, fun hpause o ho hop => ?_⟩
      obtain ⟨hphase, c, hcore, hactive⟩ := hlinger ((h.paused hp).trans hpause) o ho hop
      exact ⟨hphase, c, hcore, h.active c hactive⟩
  · obtain ⟨hstate, hpart, hops⟩ := h.others p hp fun hyes => hno ⟨hyes.1, .inl hyes.2⟩
    obtain ⟨hstate', hpart', hops'⟩ := h'.others p hp fun hyes => hno ⟨hstate.symm.trans hyes.1, .inr hyes.2⟩
    exact ⟨hstate'.trans hstate, hpart'.trans hpart, hops'.trans hops⟩

/-- What the host has, and the sessions, stay. -/
def SameHost (s t : State) : Prop := t.mgmt = s.mgmt ∧ t.fns = s.fns ∧ t.eps = s.eps

/-- A partition's reset has begun, but for its operations. -/
def resetBegun (s : State) (p : Nat) : State :=
  setPart (wr s oPART_STATE (p + 1) 2) p { partOf s p with resetting := true, discarded := 0 }

theorem beginReset_inactive {s : State} {p : Nat} (h : rd s oPART_STATE (p + 1) ≠ 1) : beginReset s p = s := if_pos h

theorem beginReset_active {s : State} {p : Nat} (h : rd s oPART_STATE (p + 1) = 1) :
    beginReset s p = if paused (resetBegun s p) p then resetBegun s p else stopOps (resetBegun s p) p := if_neg (not_not_intro h)

theorem partStateKey {p r : Nat} (h : r ≠ p) : objKey oPART_STATE (r + 1) ≠ objKey oPART_STATE (p + 1) := by
  rw [objKey, objKey]
  omega

theorem resets_beginReset {s : State} (hs : OnceEach s) {p : Nat} (hp : p < 128) :
    Resets (fun r => r = p) s (beginReset s p) ∧ SameHost s (beginReset s p) := by
  by_cases h1 : rd s oPART_STATE (p + 1) = 1
  · have hobjs : ∀ o sub, o ≠ oPART_STATE → sub < 256 → rd (resetBegun s p) o sub = rd s o sub :=
      fun o sub ho hsub => rd_wr_ne s 2 (objKey_ne ho hsub (by omega))
    have hpaused : paused (resetBegun s p) p = paused s p := by
      rw [paused, paused, partCores, partCores, hobjs oPART_CORES (p + 1) (by decide) (by omega)]
      rfl
    have hstop : Stopped p (resetBegun s p) (beginReset s p) ∧
        (paused s p = false → ∀ o ∈ (beginReset s p).weir.ops, o.part = p → o.Lingers s) := by
      rw [beginReset_active h1, hpaused]
      cases hpause : paused s p with
      | true => exact ⟨Stopped.refl p _, fun hno => absurd hno (by decide)⟩
      | false =>
        obtain ⟨hstop, hlinger⟩ := stopped_stopOps (s := resetBegun s p) hs p
        exact ⟨hstop, fun _ => hlinger⟩
    obtain ⟨hstop, hlinger⟩ := hstop
    have hkeep : ∀ o sub, rd (beginReset s p) o sub = rd (resetBegun s p) o sub := fun o sub => rd_congr (by rw [hstop.dict])
    refine ⟨⟨fun r _ _ hrp => ?_, fun r _ hno => ?_, hstop.numbers, hstop.ops, fun o sub ho hsub => (hkeep o sub).trans (hobjs o sub ho hsub),
      hstop.active, hstop.mapping⟩, hstop.mgmt, hstop.fns, hstop.eps⟩
    · subst hrp
      refine ⟨(hkeep _ _).trans (rd_wr_self s _ _ _), hstop.part.trans ?_, hlinger⟩
      rw [resetBegun, partOf_setPart_self]
    · have hrp : r ≠ p := fun hrp => hno ⟨hrp ▸ h1, hrp⟩
      obtain ⟨hpart, hops⟩ := hstop.others r hrp
      exact ⟨(hkeep _ _).trans (rd_wr_ne s 2 (partStateKey hrp)), hpart.trans (partOf_setPart_ne _ _ hrp), hops⟩
  · rw [beginReset_inactive h1]
    exact ⟨Resets.refl fun r _ hr1 hrp => h1 (hrp ▸ hr1), rfl, rfl, rfl⟩

/-! ### Several partitions -/

theorem SameHost.trans {s t u : State} (h : SameHost s t) (h' : SameHost t u) : SameHost s u :=
  ⟨h'.1.trans h.1, h'.2.1.trans h.2.1, h'.2.2.trans h.2.2⟩

theorem resets_foldl {l : List Nat} (hl : ∀ p ∈ l, p < 128) {s : State} (hs : OnceEach s) :
    Resets (fun p => p ∈ l) s (l.foldl beginReset s) ∧ SameHost s (l.foldl beginReset s) := by
  induction l generalizing s with
  | nil => exact ⟨Resets.refl fun _ _ _ hmem => absurd hmem List.not_mem_nil, rfl, rfl, rfl⟩
  | cons p l ih =>
    obtain ⟨hp, hrest⟩ := List.forall_mem_cons.mp hl
    obtain ⟨hone, hhost⟩ := resets_beginReset hs hp
    obtain ⟨hall, hhosts⟩ := ih hrest (hs.sublist (hone.ops.map _) : OnceEach (beginReset s p))
    exact ⟨(hone.trans hall).congr fun r _ _ => List.mem_cons.symm, hhost.trans hhosts⟩

/-- The reset of every partition bound to functions that satisfy a test. -/
def resetOn (s : State) (f : Nat → Bool) : State := (partsOn s f).foldl beginReset s

theorem resets_resetOn {s : State} (hs : OnceEach s) (f : Nat → Bool) :
    Resets (fun p => f (partFn s p) = true) s (resetOn s f) ∧ SameHost s (resetOn s f) := by
  obtain ⟨hresets, hhost⟩ := resets_foldl (l := partsOn s f) (fun p hp => List.mem_range.mp (List.mem_filter.mp hp).1) hs
  refine ⟨hresets.congr fun p hp h1 => ⟨fun hmem => (Bool.and_eq_true _ _ ▸ (List.mem_filter.mp hmem).2).2, fun hf => ?_⟩, hhost⟩
  refine List.mem_filter.mpr ⟨List.mem_range.mpr hp, ?_⟩
  rw [hf, Bool.and_true, partExists, h1]
  rfl

/-- From `s` to `u` only what the host has, and the sessions, differ. -/
def HostOnly (s u : State) : Prop := u = { s with mgmt := u.mgmt, fns := u.fns, eps := u.eps }

theorem Resets.of_hostOnly {P : Nat → Prop} {s u t : State} (h : Resets P u t) (hu : HostOnly s u) : Resets P s t := by
  rw [HostOnly] at hu
  generalize u.mgmt = m at hu
  generalize u.fns = f at hu
  generalize u.eps = e at hu
  subst hu
  exact ⟨h.begun, h.others, h.numbers, h.ops, h.objs, h.active, h.mapping⟩

theorem partFn_of_hostOnly {s u : State} (h : HostOnly s u) (p : Nat) : partFn u p = partFn s p := by
  have hdict : u.dict = s.dict := by rw [HostOnly] at h; rw [h]
  rw [partFn, partFn, rd, rd, hdict]

/-- The resets begun after the host's side has been cleared. -/
theorem resets_resetOn_of_hostOnly {s u : State} (hs : OnceEach s) (h : HostOnly s u) (f : Nat → Bool) :
    Resets (fun p => f (partFn s p) = true) s (resetOn u f) ∧ SameHost u (resetOn u f) := by
  have hweir : u.weir = s.weir := by rw [HostOnly] at h; rw [h]
  obtain ⟨hresets, hhost⟩ := resets_resetOn (s := u) (by rw [OnceEach, hweir]; exact hs) f
  exact ⟨(hresets.of_hostOnly h).congr fun p _ _ => by rw [partFn_of_hostOnly h], hhost⟩

theorem Resets.partFn_eq {P : Nat → Prop} {s t : State} (h : Resets P s t) {p : Nat} (hp : p < 128) : partFn t p = partFn s p := by
  rw [partFn, partFn, h.objs oPART_FUNC (p + 1) (by decide) (by omega)]

theorem Resets.partsReset {P : Nat → Prop} {f : Nat → Prop} {s t : State} (h : Resets P s t)
    (hP : ∀ p, p < 128 → (P p ↔ f (partFn s p))) : PartsReset f s t :=
  ⟨fun p hp h1 hf => h.begun p hp h1 ((hP p hp).mpr hf), fun p hp hno => h.others p hp fun hyes => hno ⟨hyes.1, (hP p hp).mp hyes.2⟩,
    h.numbers⟩

/-! ### Functions -/

theorem fnOf_resetFns (s : State) (f : Nat → Bool) (keep : Bool) (fn : Nat) :
    fnOf (resetFns s f keep) fn = if f fn then (if keep then { payload := (fnOf s fn).payload } else {}) else fnOf s fn := by
  rw [fnOf, fnOf, resetFns]
  induction s.fns with
  | nil => cases f fn <;> cases keep <;> rfl
  | cons x l ih =>
    obtain ⟨i, r⟩ := x
    rw [List.map_cons]
    by_cases hi : i = fn
    · subst hi
      cases f i <;> simp [tabGet, tabGet?_cons]
    · have hskip : ∀ (y : FnRec) (m : Tab FnRec), tabGet {} ((i, y) :: m) fn = tabGet {} m fn := fun y m => by
        rw [tabGet, tabGet, tabGet?_cons, if_neg hi]
      rw [hskip, ← ih]
      split
      · exact hskip _ _
      · exact hskip _ _

/-! ### The commands -/

/-- The host's side of an endpoint whose PERSTn_N is asserted. -/
def perstHost (s : State) (ep : Nat) : State := resetFns (resetBox (setEp s ep { perst := true }) ep) (fun f => f / 256 == ep) false

theorem exec_perstAssert {s : State} {ep : Nat} (h : epFitted s ep = true) :
    exec (.perstAssert ep) s = .next (resetOn (perstHost s ep) (fun f => f / 256 == ep)) := congrArg Host.Outcome.next (if_pos h)

/-- The host's side of an endpoint whose VFs are disabled. -/
def vfsHost (s : State) (ep : Nat) : State :=
  let s := resetFns s (fun f => f / 256 == ep && f % 256 != 0) false
  setFn s (256 * ep) { fnOf s (256 * ep) with vfs := 0 }

theorem fnOf_vfsHost (s : State) (ep f : Nat) : fnOf (vfsHost s ep) f =
    if f = 256 * ep then { fnOf s (256 * ep) with vfs := 0 } else if f / 256 = ep then {} else fnOf s f := by
  have hpf : fnOf (resetFns s (fun f => f / 256 == ep && f % 256 != 0) false) (256 * ep) = fnOf s (256 * ep) := by
    rw [fnOf_resetFns, if_neg (by simp)]
  by_cases hf : f = 256 * ep
  · rw [if_pos hf, hf, vfsHost, fnOf_setFn_self, hpf]
  · rw [if_neg hf, vfsHost, fnOf_setFn_ne _ _ hf, fnOf_resetFns]
    by_cases hep : f / 256 = ep
    · rw [if_pos (by simp only [Bool.and_eq_true, beq_iff_eq, bne_iff_ne]; omega), if_pos hep]
      rfl
    · rw [if_neg (by simp [hep]), if_neg hep]

/-- The reset of one function, its VFs apart. -/
def fnReset (s : State) (fn : Nat) : State := resetOn (resetFns s (fun f => f == fn) true) (fun f => f == fn)

theorem flrNow_eq (fn : Nat) (s : State) :
    flrNow fn s = fnReset (if fn % 256 = 0 then clearVfs (resetBox s (fn / 256)) (fn / 256) else s) fn := rfl

theorem resets_clearVfs {s u : State} (hs : OnceEach s) (hu : HostOnly s u) (ep : Nat) :
    Resets (fun p => partFn s p / 256 = ep ∧ partFn s p % 256 ≠ 0) s (clearVfs u ep) ∧ SameHost (vfsHost u ep) (clearVfs u ep) := by
  have hhost : HostOnly s (vfsHost u ep) := by
    rw [HostOnly] at hu ⊢
    generalize u.mgmt = m at hu
    generalize u.fns = f at hu
    generalize u.eps = e at hu
    subst hu
    rfl
  obtain ⟨hresets, hsame⟩ := resets_resetOn_of_hostOnly hs hhost (fun f => f / 256 == ep && f % 256 != 0)
  exact ⟨hresets.congr fun p _ _ => by simp, hsame⟩

theorem resets_fnReset {s : State} (hs : OnceEach s) (fn : Nat) : Resets (fun p => partFn s p = fn) s (fnReset s fn) ∧
    SameHost (resetFns s (fun f => f == fn) true) (fnReset s fn) := by
  obtain ⟨hresets, hsame⟩ := resets_resetOn_of_hostOnly (u := resetFns s (fun f => f == fn) true) hs rfl (fun f => f == fn)
  exact ⟨hresets.congr fun p _ _ => beq_iff_eq, hsame⟩

theorem fnOf_fnReset {s : State} (hs : OnceEach s) (fn : Nat) : fnOf (fnReset s fn) fn = { payload := (fnOf s fn).payload } := by
  obtain ⟨-, -, hfns, -⟩ := resets_fnReset hs fn
  rw [fnOf, hfns]
  exact (fnOf_resetFns _ _ _ _).trans (if_pos (beq_self_eq_true fn))

/-- The reset of a function that is no PF. -/
theorem flrNow_vf {fn : Nat} (h : fn % 256 ≠ 0) (s : State) : flrNow fn s = fnReset s fn := by
  rw [flrNow_eq, if_neg h]

/-- That of a PF resets its VFs and its mailbox as well. -/
theorem flrNow_pf {fn : Nat} (h : fn % 256 = 0) (s : State) :
    flrNow fn s = fnReset (clearVfs (resetBox s (fn / 256)) (fn / 256)) fn := by
  rw [flrNow_eq, if_pos h]

/-- What the reset of a PF leaves. -/
structure PfReset (fn : Nat) (s t : State) : Prop where
  eps : t.eps = s.eps
  config : fnOf t fn = { payload := (fnOf s fn).payload }
  box : boxOf t (fn / 256) = {}
  sessions : t.mgmt.sessions = s.mgmt.sessions.filter (fun x => !(boxSession (fn / 256) x))
  parts : Resets (fun p => (partFn s p / 256 = fn / 256 ∧ partFn s p % 256 ≠ 0) ∨ partFn s p = fn) s t

theorem pfReset_flrNow {s : State} (hs : OnceEach s) {fn : Nat} (h : fn % 256 = 0) : PfReset fn s (flrNow fn s) := by
  obtain ⟨hvfs, hmgmt, hfns, heps⟩ := resets_clearVfs (u := resetBox s (fn / 256)) hs rfl (fn / 256)
  have hconfig : fnOf (clearVfs (resetBox s (fn / 256)) (fn / 256)) fn = { fnOf s fn with vfs := 0 } := by
    have hfn : 256 * (fn / 256) = fn := by omega
    rw [fnOf, hfns]
    refine (fnOf_vfsHost _ _ _).trans ((if_pos hfn.symm).trans ?_)
    rw [hfn]
    rfl
  rw [flrNow_pf h]
  generalize clearVfs (resetBox s (fn / 256)) (fn / 256) = u at hvfs hmgmt hfns heps hconfig ⊢
  have hu : OnceEach u := hs.sublist (hvfs.ops.map _)
  obtain ⟨hfn, hmgmt', -, heps'⟩ := resets_fnReset hu fn
  have hboth : (fnReset u fn).mgmt = (resetBox s (fn / 256)).mgmt := hmgmt'.trans hmgmt
  refine ⟨heps'.trans heps, ?_, ?_, ?_, ?_⟩
  · rw [fnOf_fnReset hu, hconfig]
  · rw [boxOf, hboth]
    exact boxOf_setBox_self _ _ _
  · rw [hboth]
    rfl
  · exact (hvfs.trans hfn).congr fun p hp _ => by rw [hvfs.partFn_eq hp]

/-! ### The obligation -/

/-- Settles O16: the host's side is cleared first, and then the reset of each partition bound to the functions concerned begins. -/
theorem resetsFromThePcieSide : Obligations.ResetsFromThePcieSide := by
  unfold Obligations.ResetsFromThePcieSide
  intro s hok
  have hs : OnceEach s := nodup_ids_of_opsOk hok
  refine ⟨fun ep hfit => ?_, fun hgated => ⟨fun fn => ?_, fun ep => ?_⟩, fun hrun fn => ?_, fun hrun ep => ?_⟩
  · obtain ⟨hresets, hmgmt, hfns, heps⟩ := resets_resetOn_of_hostOnly (u := perstHost s ep) hs rfl (fun f => f / 256 == ep)
    have hep := epOf_setEp_self s ep { perst := true }
    have hne := fun (e : Nat) (he : e ≠ ep) => epOf_setEp_ne s ({ perst := true } : Endpoint) he
    refine ⟨_, exec_perstAssert hfit, ?_, ?_, fun e he => ?_, ?_, fun f => ?_, ?_, hresets.partsReset fun p _ => beq_iff_eq⟩
    · rw [epOf, heps]
      exact congrArg Endpoint.perst hep
    · rw [epOf, heps]
      exact congrArg Endpoint.linkUp hep
    · rw [epOf, heps]
      exact hne e he
    · rw [boxOf, hmgmt]
      exact boxOf_setBox_self _ _ _
    · rw [fnOf, hfns]
      refine (fnOf_resetFns _ _ _ _).trans ?_
      simp only [beq_iff_eq, Bool.false_eq_true, if_false]
      rfl
    · rw [hmgmt]
      rfl
  · exact congrArg Host.Outcome.next (if_pos hgated)
  · exact congrArg Host.Outcome.next (if_pos hgated)
  · have hexec : exec (.functionLevelReset fn) s = .next (flrNow fn s) :=
      congrArg Host.Outcome.next (if_neg (by rw [hrun]; exact Bool.false_ne_true))
    refine ⟨_, hexec, ?_⟩
    by_cases hpf : fn % 256 = 0
    · have hreset := pfReset_flrNow hs hpf
      refine ⟨hreset.eps, hreset.config, fun _ => ⟨hreset.box, hreset.sessions⟩, fun hno => absurd hpf hno,
        hreset.parts.partsReset fun p _ => ?_⟩
      simp only [hpf, true_and]
      exact or_comm
    · rw [flrNow_vf hpf]
      obtain ⟨hresets, hmgmt, -, heps⟩ := resets_fnReset hs fn
      refine ⟨heps, fnOf_fnReset hs fn, fun hyes => absurd hyes hpf, fun _ => hmgmt, hresets.partsReset fun p _ => ?_⟩
      simp only [hpf, false_and, or_false]
  · have hexec : exec (.vfEnableClear ep) s = .next (clearVfs s ep) :=
      congrArg Host.Outcome.next (if_neg (by rw [hrun]; exact Bool.false_ne_true))
    obtain ⟨hresets, hmgmt, hfns, heps⟩ := resets_clearVfs (u := s) hs rfl ep
    have hfn : ∀ f, fnOf (clearVfs s ep) f = fnOf (vfsHost s ep) f := fun f => by rw [fnOf, fnOf, hfns]
    refine ⟨_, hexec, heps, hmgmt, ?_, fun f hf => ?_, hresets.partsReset fun p _ => Iff.rfl⟩
    · rw [hfn, fnOf_vfsHost, if_pos rfl]
    · rw [hfn, fnOf_vfsHost, if_neg hf]

end Sys2Proof.Machine

/-! PROOF. The reply that a session keeps (spec/18 R433, R434, R439). -/

namespace Sys2Proof.Machine

open Sys2Proof

/-! ### A reply on its path -/

/-- From `s` to `t` a frame has been sent to its source: what is emitted, MSI-X vectors left pending, a mailbox's slots. -/
structure Sent (s t : State) : Prop where
  rest : t = { s with mgmt := { s.mgmt with boxes := t.mgmt.boxes }, fns := t.fns, out := t.out }
  boxes : ∀ e, (boxOf t e).core = (boxOf s e).core
  fns : FnsKept s t
  out : ∃ l, t.out = l ++ s.out

theorem sent_refl (s : State) : Sent s s := ⟨rfl, fun _ => rfl, FnsKept.refl s, [], rfl⟩

theorem boxIrq_rest (s : State) (e : Nat) : boxIrq s e = { s with fns := (boxIrq s e).fns, out := (boxIrq s e).out } := by
  unfold boxIrq
  extract_lets irq
  split
  · unfold sendMsix
    extract_lets f
    split
    · rfl
    · split <;> rfl
  · rfl

theorem sent_reply (s : State) (src : Src) (b : List Byte) : Sent s (reply s src b) := by
  cases src with
  | net ip port =>
    rw [reply]
    split
    · exact ⟨rfl, fun _ => rfl, FnsKept.refl s, [_], rfl⟩
    · exact sent_refl s
  | mailbox e slot =>
    unfold reply
    dsimp only
    set u := setBox s e { boxOf s e with
      frames := tabPut (boxOf s e).frames slot b, owned := setBit (boxOf s e).owned slot false
      done := setBit (boxOf s e).done slot true } with hu
    have htold := told_boxIrq u e
    have hrest := boxIrq_rest u e
    have hmgmt := boxIrq_mgmt u e
    refine ⟨?_, fun d => ?_, htold.fns, htold.out⟩
    · generalize boxIrq u e = t at hrest hmgmt ⊢
      rw [hrest, hu]
      rfl
    · rw [boxOf, hmgmt, hu]
      by_cases hd : d = e
      · subst hd
        exact (congrArg Mailbox.core (boxOf_setBox_self s d _)).trans rfl
      · exact congrArg Mailbox.core (boxOf_setBox_ne s _ hd)

/-! ### A session stored -/

theorem sid_of_sessionOf {s : State} {sid : Nat} {x : Session} (h : sessionOf s sid = some x) : x.sid = sid ∧ x.accepted = true := by
  have hboth := List.find?_some h
  rw [Bool.and_eq_true, beq_iff_eq] at hboth
  exact hboth.symm

theorem sessionOf_setSession {s : State} {sid : Nat} {x z : Session} (h : sessionOf s sid = some x) (hsid : z.sid = sid)
    (hacc : z.accepted = true) : sessionOf (setSession s z) sid = some z := by
  have hmap : ∀ l : List Session, (l.find? (fun y => y.accepted && y.sid == sid)).isSome →
      (l.map (fun y => if y.sid = z.sid then z else y)).find? (fun y => y.accepted && y.sid == sid) = some z := by
    intro l hl
    induction l with
    | nil => cases hl
    | cons y l ih =>
      rw [List.map_cons]
      by_cases hy : y.sid = z.sid
      · rw [if_pos hy, List.find?_cons_of_pos (by rw [hacc, hsid]; simp)]
      · have hno : (y.accepted && y.sid == sid) = false := by
          rw [beq_eq_false_iff_ne.mpr (hsid ▸ hy), Bool.and_false]
        rw [if_neg hy, List.find?_cons_of_neg (by rw [hno]; exact Bool.false_ne_true)]
        exact ih (by rwa [List.find?_cons_of_neg (by rw [hno]; exact Bool.false_ne_true)] at hl)
  exact hmap _ (by rw [← sessionOf, h]; rfl)

theorem others_setSession (s : State) {z : Session} {sid : Nat} (h : z.sid = sid) :
    (setSession s z).mgmt.sessions.filter (fun y => y.sid != sid) = s.mgmt.sessions.filter (fun y => y.sid != sid) := by
  subst h
  rw [setSession]
  dsimp only
  induction s.mgmt.sessions with
  | nil => rfl
  | cons y l ih =>
    rw [List.map_cons]
    by_cases hy : y.sid = z.sid
    · rw [if_pos hy, List.filter_cons_of_neg (by simp), List.filter_cons_of_neg (by simp [hy]), ih]
    · rw [if_neg hy, List.filter_cons_of_pos (by simpa using hy), List.filter_cons_of_pos (by simpa using hy), ih]

/-! ### A request answered -/

/-- The session once a reply has been sent: its next frame numbered, the reply kept, nothing awaited of the request any more. -/
def repliedSession (x : Session) (req : Req) (b : List Byte) : Session :=
  { x with
    txSeq := x.txSeq + 1
    kept := x.kept.map (fun k => if k.1 = req.fseq then (k.1, b) else k)
    waiting := x.waiting.filter (fun f => f != req.fseq) }

/-- From `s` to `t` a request of session `x` has been answered with a frame. -/
structure Answered (req : Req) (x : Session) (b : List Byte) (s t : State) : Prop where
  rest : t = { s with mgmt := { s.mgmt with sessions := t.mgmt.sessions, boxes := t.mgmt.boxes }, fns := t.fns, out := t.out }
  session : sessionOf t req.sid = some (repliedSession x req b)
  others : t.mgmt.sessions.filter (fun y => y.sid != req.sid) = s.mgmt.sessions.filter (fun y => y.sid != req.sid)
  boxes : ∀ e, (boxOf t e).core = (boxOf s e).core
  fns : FnsKept s t
  out : ∃ l, t.out = l ++ s.out

theorem answered_answerReq {s : State} {req : Req} {x : Session} (h : sessionOf s req.sid = some x) (dst : Src) (ftype : Nat)
    (payload : List Byte) : Answered req x (sealFrame x.key ftype x.sid (x.txSeq + 1) req.txid payload) s
      (answerReq s dst req ftype payload) := by
  obtain ⟨hsid, hacc⟩ := sid_of_sessionOf h
  set b := sealFrame x.key ftype x.sid (x.txSeq + 1) req.txid payload with hb
  set u := setSession s { x with txSeq := x.txSeq + 1 } with hu
  have hsent := sent_reply u dst b
  have hsession : sessionOf (reply u dst b) req.sid = some { x with txSeq := x.txSeq + 1 } := by
    have hsame : (reply u dst b).mgmt.sessions = u.mgmt.sessions := by rw [hsent.rest]
    rw [sessionOf, hsame]
    exact sessionOf_setSession h hsid hacc
  have hanswer : answerReq s dst req ftype payload = setSession (reply u dst b) (repliedSession x req b) := by
    rw [answerReq, h]
    dsimp only [sessionFrame]
    rw [← hb, ← hu, hsession]
    rfl
  have hlast : sessionOf (setSession (reply u dst b) (repliedSession x req b)) req.sid = some (repliedSession x req b) :=
    sessionOf_setSession hsession hsid hacc
  rw [hanswer]
  refine ⟨?_, hlast, ?_, hsent.boxes, hsent.fns, hsent.out⟩
  · have hrest := hsent.rest
    generalize reply u dst b = t at hrest ⊢
    rw [hrest, hu]
    rfl
  · have hsame : (reply u dst b).mgmt.sessions = u.mgmt.sessions := by rw [hsent.rest]
    rw [others_setSession _ (show (repliedSession x req b).sid = req.sid from hsid), hsame]
    exact others_setSession s hsid

/-! ### A request taken -/

/-- The session once it has accepted a request (R434). -/
def takenSession (x : Session) (req : Req) : Session :=
  { x with rxHigh := req.fseq, kept := ((req.fseq, []) :: x.kept).take 8, staged := none }

/-- The state in which the request is carried out. -/
def takenState (s : State) (x : Session) (req : Req) : State :=
  setSession (setSession s { x with rxHigh := req.fseq, kept := ((req.fseq, []) :: x.kept).take 8 }) (takenSession x req)

theorem sessionOf_takenState {s : State} {req : Req} {x : Session} (h : sessionOf s req.sid = some x) :
    sessionOf (takenState s x req) req.sid = some (takenSession x req) := by
  obtain ⟨hsid, hacc⟩ := sid_of_sessionOf h
  exact sessionOf_setSession (x := { x with rxHigh := req.fseq, kept := ((req.fseq, []) :: x.kept).take 8 })
    (sessionOf_setSession h hsid hacc) hsid hacc

theorem others_takenState {s : State} {req : Req} {x : Session} (h : sessionOf s req.sid = some x) :
    (takenState s x req).mgmt.sessions.filter (fun y => y.sid != req.sid) = s.mgmt.sessions.filter (fun y => y.sid != req.sid) := by
  obtain ⟨hsid, -⟩ := sid_of_sessionOf h
  rw [takenState, others_setSession _ (show (takenSession x req).sid = req.sid from hsid)]
  exact others_setSession s hsid

theorem writeRow_taken {s : State} {req : Req} {x : Session} (h : Authentic s req x) (index sub : Nat) (b : List Byte) :
    writeRow s req index sub b = performWrite (takenState s x req) (takenSession x req) index sub b req x.src := by
  rw [writeRow, h.session]
  dsimp only
  rw [if_pos h.heard, request, if_pos h.fresh]
  rfl

/-- The reply is among those that the session keeps. -/
theorem kept_repliedSession (x : Session) (req : Req) (b : List Byte) :
    (req.fseq, b) ∈ (repliedSession (takenSession x req) req b).kept := by
  refine List.mem_map.mpr ⟨(req.fseq, []), ?_, if_pos rfl⟩
  exact List.mem_cons_self

theorem core_repliedSession (x : Session) (req : Req) (b : List Byte) :
    (repliedSession (takenSession x req) req b).core = x.core := rfl

/-- A request answered after numeric objects of the listed keys have changed. -/
theorem replied_answerReq {s v base : State} {req : Req} {x : Session} (h : Authentic s req x) {ks : List Nat}
    (hv : v = { base with dict := v.dict, mgmt := (takenState s x req).mgmt }) (hmgmt : base.mgmt = s.mgmt)
    (hobjs : SameObjs ks base v) (ftype : Nat) (payload : List Byte) :
    Replied req x ks base (answerReq v x.src req ftype payload) ∧
      KeepsReply (answerReq v x.src req ftype payload) req x.key ftype payload ∧
      (answerReq v x.src req ftype payload).dict = v.dict := by
  have hsame : v.mgmt = (takenState s x req).mgmt := by rw [hv]
  have hsession : sessionOf v req.sid = some (takenSession x req) := by
    rw [sessionOf, hsame]
    exact sessionOf_takenState h.session
  obtain ⟨hsid, -⟩ := sid_of_sessionOf h.session
  have hanswered := answered_answerReq hsession x.src ftype payload
  have hkept := kept_repliedSession x req (sealFrame x.key ftype x.sid (x.txSeq + 1) req.txid payload)
  generalize answerReq v x.src req ftype payload = t at hanswered ⊢
  obtain ⟨hrest, hsess, hothers, hboxes, hfns, hout⟩ := hanswered
  have hdict : t.dict = v.dict := by rw [hrest]
  refine ⟨⟨?_, fun k hk => ?_, ⟨_, hsess, core_repliedSession x req _, rfl⟩, ?_, fun e => ?_, fun f => ?_, ?_⟩,
    ⟨_, x.txSeq + 1, hsess, ?_⟩, hdict⟩
  · rw [hdict]
    refine hrest.trans ?_
    generalize v.dict = d at hv
    subst hv
    rw [hmgmt]
    rfl
  · rw [hdict]
    exact hobjs k hk
  · rw [hothers, hsame, others_takenState h.session, hmgmt]
  · rw [hboxes e, boxOf, boxOf, hsame, hmgmt]
    rfl
  · rw [hfns f, fnOf, fnOf, hv]
  · obtain ⟨l, hl⟩ := hout
    exact ⟨l, by rw [hl, hv]⟩
  · rw [← hsid]
    exact hkept

end Sys2Proof.Machine

/-! PROOF. The value of a setting stored, or kept for the next start (spec/05 R105; spec/18 R446, R448). -/

namespace Sys2Proof.Machine

open Sys2Proof

/-! ### The row of an object -/

/-- The rows of an object, whatever the subindex. -/
def rowsOfIndex (index : Nat) : List ObjRow := objRows.filter (fun r => decide (r.index ≤ index ∧ index ≤ r.lastIndex))

theorem objRow?_of_rows {index sub : Nat} {r : ObjRow} (h : rowsOfIndex index = [r]) (hsub : r.subLo ≤ sub ∧ sub ≤ r.subHi) :
    objRow? index sub = some r := by
  have hsplit : objRow? index sub = (rowsOfIndex index).find? (fun r => decide (r.subLo ≤ sub ∧ sub ≤ r.subHi)) := by
    rw [objRow?, rowsOfIndex, List.find?_filter]
    congr 1
    funext r
    simp [and_assoc]
  rw [hsplit, h]
  exact List.find?_cons_of_pos (decide_eq_true hsub)

/-- No object of a port that the package may lack. -/
def portObj (index : Nat) : Bool := index == oPORT_STATE || index == oPORT_REPLAYS || index == oLINK_RESET

theorem presentObj_of_rows (s : State) {index sub : Nat} {r : ObjRow} (hport : portObj index = false) (h : rowsOfIndex index = [r])
    (hsub : r.subLo ≤ sub ∧ sub ≤ r.subHi) : presentObj s index sub = some r := by
  have habsent : absentObj s index sub = false := by
    rw [absentObj, show (index == oPORT_STATE || index == oPORT_REPLAYS || index == oLINK_RESET) = false from hport, Bool.and_false,
      Bool.false_and]
  rw [presentObj, habsent]
  exact objRow?_of_rows h hsub

/-- A setting: a number with a row of its own, written by a session, that owns nothing and has no rule for the present state. -/
structure Setting (index : Nat) (r : ObjRow) : Prop where
  rows : rowsOfIndex index = [r]
  port : portObj index = false
  access : r.access = .rw ∨ r.access = .rwm
  persists : r.persist = true
  number : r.varLen = false
  typed : ∀ n, typeOk r index n = (n == r.size)
  owns : ownsObj index = false
  free : ∀ s sub, stateOk s index sub = true

/-- A write to it does nothing but store its value. -/
def Storing (index : Nat) : Prop := ∀ (s : State) (x : Session) (r : ObjRow) (sub v : Nat) (b : List Byte),
  staysStaged s index = false → takeValue s x r index sub v b = { st := storeValue s r index sub v b, out := .done 0 }

theorem takeValue_staged {s : State} {index : Nat} (h : staysStaged s index = true) (x : Session) (r : ObjRow) (sub v : Nat)
    (b : List Byte) : takeValue s x r index sub v b = { st := stageValue s r index sub v b, out := .done 0 } := if_pos h

theorem staysStaged_full {s : State} (h : s.power.fullMode = true) (index : Nat) : staysStaged s index = false := by
  rw [staysStaged, limited, h]
  rfl

theorem staysStaged_limited {s : State} (h : s.power.fullMode = false) {index : Nat} (hi : 0x3000 ≤ index ∧ index < 0x7000) :
    staysStaged s index = true := by
  rw [staysStaged, limited, h, decide_eq_true hi]
  rfl

/-- The device takes its write in full mode; in limited mode too where the next start uses it (R104, R105). -/
theorem Setting.taken {index : Nat} {r : ObjRow} (h : Setting index r) {s : State}
    (hmode : s.power.fullMode = true ∨ (0x3000 ≤ index ∧ index < 0x7000)) : writeMode s r index = true := by
  rw [writeMode, limited]
  rcases hmode with hfull | hi
  · rw [hfull]
    rfl
  · have haccess : (r.access == .rw || r.access == .rwm) = true := by
      rcases h.access with hrw | hrwm
      · rw [hrw]; rfl
      · rw [hrwm]; rfl
    rw [decide_eq_true hi, haccess, h.persists]
    exact Bool.or_true _

/-- A write that passes every check takes the value. -/
theorem Setting.writes {index sub v : Nat} {r : ObjRow} (h : Setting index r) (hsub : r.subLo ≤ sub ∧ sub ≤ r.subHi) {s : State}
    {x : Session} (hrole : writeRole r ≤ x.role) (hscope : isScoped x = false)
    (hmode : s.power.fullMode = true ∨ (0x3000 ≤ index ∧ index < 0x7000)) (hfit : v < 256 ^ r.size)
    (hin : inRange (persistedView s) r index sub (v &&& objMask r index) (leBytes r.size v) = true) (req : Req) (dst : Src) :
    writeObject s x index sub (numBytes r.size v) req dst = takeValue s x r index sub (v &&& objMask r index) (leBytes r.size v) := by
  have hnum : leNat (leBytes r.size v) = v := by rw [leNat_leBytes, Nat.mod_eq_of_lt hfit]
  have htyped : typeOk r index (leBytes r.size v).length = true := by rw [h.typed, leBytes_length, beq_self_eq_true]
  have hvalue : valueOk s r index sub (v &&& objMask r index) (leBytes r.size v) = true := by
    rw [valueOk, hin, ownFree, h.owns]
    rfl
  have hcmd : r.access ≠ .cmd := by
    rcases h.access with hrw | hrwm
    · rw [hrw]; decide
    · rw [hrwm]; decide
  rw [writeObject, presentObj_of_rows s h.port h.rows hsub]
  dsimp only
  rw [numBytes, if_pos hfit, if_neg (by omega), writeScope, hscope, h.taken hmode, if_neg hcmd, writeValue]
  rw [h.number, if_neg Bool.false_ne_true, hnum, htyped, hvalue, h.free]
  rfl

/-! ### A value stored -/

/-- From `s` to `t` a number has been stored in place of one that waited for a start. -/
structure ValueStored (index sub v : Nat) (s t : State) : Prop where
  rest : t = { s with dict := t.dict, staged := t.staged, stagedBlobs := t.stagedBlobs, nv := { s.nv with dirty := t.nv.dirty } }
  value : rd t index sub = v
  objs : SameObjs [objKey index sub] s t
  staged : t.staged = tabDel s.staged (objKey index sub)
  stagedBlobs : t.stagedBlobs = tabDel s.stagedBlobs (objKey index sub)

theorem stored_storeValue {r : ObjRow} (hnum : r.varLen = false) (s : State) (index sub v : Nat) (b : List Byte) :
    ValueStored index sub v s (storeValue s r index sub v b) := by
  unfold storeValue
  extract_lets key t
  rw [hnum, if_neg Bool.false_ne_true]
  split
  · next h => exact ⟨rfl, h.1, fun _ _ => rfl, rfl, rfl⟩
  · split
    · exact ⟨rfl, rd_wrP_self _ _ _ _, fun k hk => tabGet?_tabPut_ne _ _ (List.ne_of_not_mem_cons hk), rfl, rfl⟩
    · exact ⟨rfl, rd_wr_self _ _ _ _, fun k hk => tabGet?_tabPut_ne _ _ (List.ne_of_not_mem_cons hk), rfl, rfl⟩

theorem tabGet?_tabMerge {α : Type} {l : Tab α} (h : tabSorted l = true) (t : Tab α) (k : Nat) :
    tabGet? (tabMerge t l) k = (tabGet? l k).or (tabGet? t k) := by
  induction l generalizing t with
  | nil => rfl
  | cons e l ih =>
    obtain ⟨i, u⟩ := e
    obtain ⟨habove, hsorted⟩ := tabSorted_cons.mp h
    rw [tabMerge, ih hsorted, tabGet?_cons]
    by_cases hik : i = k
    · subst hik
      rw [tabGet?_of_above habove (Nat.le_refl i), tabGet?_tabPut_self, if_pos rfl]
      rfl
    · rw [if_neg hik, tabGet?_tabPut_ne _ _ (Ne.symm hik)]

/-- From `s` to `t` a number has been kept for the next start: no object acts on it. -/
structure ValueKept (index sub v : Nat) (s t : State) : Prop where
  rest : t = { s with staged := t.staged, nv := { s.nv with dirty := t.nv.dirty } }
  value : rd (persistedView t) index sub = v
  staged : ∀ k, k ≠ objKey index sub → tabGet? t.staged k = tabGet? s.staged k

theorem kept_stageValue {r : ObjRow} (hnum : r.varLen = false) {s : State} (hsorted : tabSorted s.staged = true) (index sub v : Nat)
    (b : List Byte) : ValueKept index sub v s (stageValue s r index sub v b) := by
  rw [stageValue, hnum, if_neg Bool.false_ne_true]
  split
  · next h => exact ⟨rfl, h, fun _ _ => rfl⟩
  · refine ⟨rfl, ?_, fun k hk => tabGet?_tabPut_ne _ _ hk⟩
    have hput : tabGet? (tabMerge s.dict (tabPut s.staged (objKey index sub) v)) (objKey index sub) = some v := by
      rw [tabGet?_tabMerge (tabSorted_tabPut hsorted _ _), tabGet?_tabPut_self]
      rfl
    exact congrArg (Option.getD · _) hput

/-! ### A setting written -/

/-- A write answered with RESULT 0: stored in full mode, in limited mode kept for the next start, and no other object changed. -/
def Stores (s : State) (req : Req) (x : Session) (c : Instr) (index sub v : Nat) : Prop :=
  ∃ t, exec c s = .next t ∧ rd (if s.power.fullMode then t else persistedView t) index sub = v ∧ SaysDone t req x.key index sub 0 ∧
    (s.power.fullMode = true → Replied req x [objKey index sub]
      { s with nv := { s.nv with dirty := t.nv.dirty }, staged := t.staged, stagedBlobs := t.stagedBlobs } t) ∧
    (¬ s.power.fullMode = true → Replied req x []
      { s with nv := { s.nv with dirty := t.nv.dirty }, staged := t.staged, stagedBlobs := t.stagedBlobs } t) ∧
    ∀ k, k ≠ objKey index sub → tabGet? t.staged k = tabGet? s.staged k ∧ tabGet? t.stagedBlobs k = tabGet? s.stagedBlobs k

/-- What a reply leaves of a state. -/
theorem Replied.keeps {req : Req} {x : Session} {ks : List Nat} {s t : State} (h : Replied req x ks s t) :
    t.staged = s.staged ∧ t.stagedBlobs = s.stagedBlobs ∧ t.nv = s.nv := by
  refine ⟨?_, ?_, ?_⟩ <;> rw [h.rest]

theorem performWrite_done {s v : State} {x : Session} {index sub : Nat} {b : List Byte} {req : Req} {dst : Src}
    (h : writeObject s x index sub b req dst = { st := v, out := .done 0 }) :
    performWrite s x index sub b req dst = answerReq v dst req 0x13 (writeReplyPayload index sub 0) := by
  rw [performWrite, h]
  rfl

theorem performWrite_refused {s : State} {x : Session} {index sub code : Nat} {b : List Byte} {req : Req} {dst : Src}
    (h : writeObject s x index sub b req dst = refuse s code) :
    performWrite s x index sub b req dst = answerReq s dst req 0x30 (errorPayload index sub code (errDetail s code)) := by
  rw [performWrite, h]
  rfl

/-- A setting written in full mode is stored and answered. -/
theorem stores_full {s : State} {req : Req} {x : Session} (h : Authentic s req x) {c : Instr} {index sub v : Nat} {b : List Byte}
    {r : ObjRow} (hexec : exec c s = .next (writeRow s req index sub b)) (hfull : s.power.fullMode = true) (hnum : r.varLen = false)
    (hwrite : writeObject (takenState s x req) (takenSession x req) index sub b req x.src =
      { st := storeValue (takenState s x req) r index sub v b, out := .done 0 }) : Stores s req x c index sub v := by
  have hstored := stored_storeValue hnum (takenState s x req) index sub v b
  have hanswer := (writeRow_taken h index sub b).trans (performWrite_done hwrite)
  obtain ⟨hrest, hvalue, hobjs, hstaged, hblobs⟩ := hstored
  generalize storeValue (takenState s x req) r index sub v b = u at hrest hvalue hobjs hstaged hblobs hanswer
  have hu : u = { { s with nv := { s.nv with dirty := u.nv.dirty }, staged := u.staged, stagedBlobs := u.stagedBlobs } with
      dict := u.dict, mgmt := (takenState s x req).mgmt } := hrest
  obtain ⟨hreplied, hkeeps, hdict⟩ := replied_answerReq h hu rfl hobjs 0x13 (writeReplyPayload index sub 0)
  obtain ⟨hst, hsb, hnv⟩ := hreplied.keeps
  rw [hanswer] at hexec
  generalize answerReq u x.src req 0x13 (writeReplyPayload index sub 0) = t at hexec hreplied hkeeps hst hsb hnv hdict
  have hdirty : t.nv.dirty = u.nv.dirty := by rw [hnv]
  refine ⟨t, hexec, ?_, hkeeps, fun _ => ?_, fun hno => absurd hfull hno, fun k hk => ⟨?_, ?_⟩⟩
  · rw [hfull, if_pos rfl, ← hvalue]
    exact rd_congr (by rw [hdict])
  · rw [hdirty, hst, hsb]
    exact hreplied
  · rw [hst, hstaged]
    exact tabGet?_tabDel_ne _ hk
  · rw [hsb, hblobs]
    exact tabGet?_tabDel_ne _ hk

/-- A setting written in limited mode is kept for the next start and answered. -/
theorem stores_limited {s : State} {req : Req} {x : Session} (h : Authentic s req x) (hsorted : tabSorted s.staged = true) {c : Instr}
    {index sub v : Nat} {b : List Byte} {r : ObjRow} (hexec : exec c s = .next (writeRow s req index sub b))
    (hlim : s.power.fullMode = false) (hnum : r.varLen = false)
    (hwrite : writeObject (takenState s x req) (takenSession x req) index sub b req x.src =
      { st := stageValue (takenState s x req) r index sub v b, out := .done 0 }) : Stores s req x c index sub v := by
  have hkept := kept_stageValue hnum (s := takenState s x req) hsorted index sub v b
  have hanswer := (writeRow_taken h index sub b).trans (performWrite_done hwrite)
  obtain ⟨hrest, hvalue, hstaged⟩ := hkept
  generalize stageValue (takenState s x req) r index sub v b = u at hrest hvalue hstaged hanswer
  have hblobs : u.stagedBlobs = s.stagedBlobs := by rw [hrest]; rfl
  have hu : u = { { s with nv := { s.nv with dirty := u.nv.dirty }, staged := u.staged, stagedBlobs := s.stagedBlobs } with
      dict := u.dict, mgmt := (takenState s x req).mgmt } := by
    have hsame : u.dict = s.dict := by rw [hrest]; rfl
    rw [hsame]
    exact hrest
  have hobjs : SameObjs [] { s with nv := { s.nv with dirty := u.nv.dirty }, staged := u.staged, stagedBlobs := s.stagedBlobs } u :=
    fun k _ => by rw [hrest]; rfl
  obtain ⟨hreplied, hkeeps, hdict⟩ := replied_answerReq h hu rfl hobjs 0x13 (writeReplyPayload index sub 0)
  obtain ⟨hst, hsb, hnv⟩ := hreplied.keeps
  rw [hanswer] at hexec
  generalize answerReq u x.src req 0x13 (writeReplyPayload index sub 0) = t at hexec hreplied hkeeps hst hsb hnv hdict
  have hdirty : t.nv.dirty = u.nv.dirty := by rw [hnv]
  refine ⟨t, hexec, ?_, hkeeps, fun hfull => ?_, fun _ => ?_, fun k hk => ⟨?_, ?_⟩⟩
  · rw [hlim, if_neg Bool.false_ne_true, ← hvalue]
    exact rd_congr (by rw [persistedView, persistedView, hdict, hst])
  · rw [hlim] at hfull
    cases hfull
  · rw [hdirty, hst, hsb]
    exact hreplied
  · rw [hst]
    exact hstaged k hk
  · rw [hsb]

/-- A setting that a session may write is stored, or kept, in either mode. -/
theorem Setting.stores {index : Nat} {r : ObjRow} (hset : Setting index r) {s : State}
    (hstoring : s.power.fullMode = true → Storing index) {req : Req} {x : Session} (h : Authentic s req x) (hok : stagedOk s = true)
    (hrole : writeRole r ≤ x.role) (hscope : isScoped x = false)
    (hmode : s.power.fullMode = true ∨ (0x3000 ≤ index ∧ index < 0x7000)) {c : Instr} {sub v w : Nat}
    (hsub : r.subLo ≤ sub ∧ sub ≤ r.subHi) (hexec : exec c s = .next (writeRow s req index sub (numBytes r.size v)))
    (hfit : v < 256 ^ r.size) (hw : v &&& objMask r index = w)
    (hin : inRange (persistedView (takenState s x req)) r index sub w (leBytes r.size v) = true) : Stores s req x c index sub w := by
  subst hw
  have hb : numBytes r.size v = leBytes r.size v := if_pos hfit
  have hwrite := hset.writes (s := takenState s x req) (x := takenSession x req) hsub hrole hscope hmode hfit hin req x.src
  rw [hb] at hexec hwrite
  cases hfull : s.power.fullMode with
  | true =>
    have hstays : staysStaged (takenState s x req) index = false := staysStaged_full (s := takenState s x req) hfull index
    exact stores_full h hexec hfull hset.number (hwrite.trans (hstoring hfull _ _ _ _ _ _ hstays))
  | false =>
    have hsorted : tabSorted s.staged = true := by
      rw [stagedOk, Bool.and_eq_true, Bool.and_eq_true, Bool.and_eq_true] at hok
      obtain ⟨⟨⟨hnums, -⟩, -⟩, -⟩ := hok
      exact hnums
    have hi : 0x3000 ≤ index ∧ index < 0x7000 := hmode.resolve_left (by rw [hfull]; exact Bool.false_ne_true)
    have hstays : staysStaged (takenState s x req) index = true := staysStaged_limited (s := takenState s x req) hfull hi
    exact stores_limited h hsorted hexec hfull hset.number (hwrite.trans (takeValue_staged hstays _ _ _ _ _))

/-- A setting whose accepted values are a range of numbers. -/
theorem Setting.stores_range {index : Nat} {r : ObjRow} (hset : Setting index r) (hstoring : Storing index) {lo hi : Nat}
    (hrange : ∀ s sub v b, inRange s r index sub v b = decide (lo ≤ v ∧ v ≤ hi)) (hmask : objMask r index = 2 ^ (8 * r.size) - 1)
    (hsize : hi < 2 ^ (8 * r.size)) {s : State} {req : Req} {x : Session} (h : Authentic s req x) (hok : stagedOk s = true)
    (hrole : writeRole r ≤ x.role) (hscope : isScoped x = false)
    (hmode : s.power.fullMode = true ∨ (0x3000 ≤ index ∧ index < 0x7000)) {c : Instr} {sub v : Nat}
    (hsub : r.subLo ≤ sub ∧ sub ≤ r.subHi) (hexec : exec c s = .next (writeRow s req index sub (numBytes r.size v)))
    (hlo : lo ≤ v) (hhi : v ≤ hi) : Stores s req x c index sub v := by
  have hfit : v < 2 ^ (8 * r.size) := Nat.lt_of_le_of_lt hhi hsize
  refine hset.stores (fun _ => hstoring) h hok hrole hscope hmode hsub hexec ?_ ?_ ?_
  · rwa [show 256 = 2 ^ 8 from rfl, ← pow_mul]
  · rw [hmask, Nat.and_two_pow_sub_one_eq_mod, Nat.mod_eq_of_lt hfit]
  · rw [hrange]
    exact decide_eq_true ⟨hlo, hhi⟩

end Sys2Proof.Machine

/-! PROOF. Settings with an effect of their own: P-level requests and collective groups (spec/03 R58, R81; spec/14 R387). -/

namespace Sys2Proof.Machine

open Sys2Proof

/-! ### P-level requests -/

/-- From `s` to `t` sequencers may have turned back and operations been marked throttled. -/
structure DemandRead (s t : State) : Prop where
  rest : t = { s with clock := { s.clock with seqs := t.clock.seqs }, weir := { s.weir with ops := t.weir.ops } }
  ops : t.weir.ops.map (fun o => { o with throttled := true }) = s.weir.ops.map (fun o => { o with throttled := true })

theorem turnBack_rest (s : State) (q : Nat) :
    turnBack s q = { s with clock := { s.clock with seqs := (turnBack s q).clock.seqs } } := by
  unfold turnBack
  extract_lets x
  split <;> rfl

theorem foldl_turnBack_rest (l : List Nat) (s : State) :
    l.foldl turnBack s = { s with clock := { s.clock with seqs := (l.foldl turnBack s).clock.seqs } } := by
  induction l generalizing s with
  | nil => rfl
  | cons q l ih =>
    rw [List.foldl_cons]
    refine (ih _).trans ?_
    rw [turnBack_rest s q]

theorem demandRead_demandChanged (s : State) : DemandRead s (demandChanged s) := by
  have hback := foldl_turnBack_rest (List.range 8) s
  rw [demandChanged]
  generalize (List.range 8).foldl turnBack s = u at hback
  refine ⟨?_, ?_⟩
  · rw [hback]
    rfl
  · rw [markThrottled]
    dsimp only
    rw [List.map_map, show u.weir.ops = s.weir.ops by rw [hback]]
    refine List.map_congr_left fun o _ => ?_
    rw [Function.comp]
    split
    · split <;> rfl
    · rfl

theorem tabDel_of_absent {α : Type} {t : Tab α} {k : Nat} (h : ∀ e ∈ t, e.1 ≠ k) : tabDel t k = t := by
  induction t with
  | nil => rfl
  | cons e t ih =>
    obtain ⟨hne, hrest⟩ := List.forall_mem_cons.mp h
    rw [tabDel.eq_def]
    dsimp only
    rw [if_neg hne, ih hrest]

/-- Nothing below the objects of 0x3000 waits for a start. -/
theorem staged_ne_key {s : State} (h : stagedOk s = true) {index sub : Nat} (hi : index < 0x3000) (hsub : sub < 256) :
    (∀ e ∈ s.staged, e.1 ≠ objKey index sub) ∧ ∀ e ∈ s.stagedBlobs, e.1 ≠ objKey index sub := by
  rw [stagedOk, Bool.and_eq_true, Bool.and_eq_true, Bool.and_eq_true] at h
  obtain ⟨⟨-, hnums⟩, hblobs⟩ := h
  have hlow : objKey index sub < objKey 0x3000 0 := by rw [objKey, objKey]; omega
  refine ⟨fun e he heq => ?_, fun e he heq => ?_⟩
  · have hkey := of_decide_eq_true (List.all_eq_true.mp hnums e he)
    omega
  · have hkey := of_decide_eq_true (List.all_eq_true.mp hblobs e he)
    omega

theorem rd_persistedView {s : State} (h : stagedOk s = true) {index sub : Nat} (hi : index < 0x3000) (hsub : sub < 256) :
    rd (persistedView s) index sub = rd s index sub :=
  rd_congr (tabGet?_tabMerge_ne (staged_ne_key h hi hsub).1 _)

/-! ### Refusals -/

/-- A write answered with an ERROR, nothing else changed. -/
def Refuses (s : State) (req : Req) (x : Session) (c : Instr) (index sub code detail : Nat) : Prop :=
  ∃ t, exec c s = .next t ∧ SaysError t req x.key index sub code detail ∧ Replied req x [] s t

theorem refuses_of_refuse {s : State} {req : Req} {x : Session} (h : Authentic s req x) {c : Instr} {index sub code : Nat}
    {b : List Byte} (hexec : exec c s = .next (writeRow s req index sub b))
    (hwrite : writeObject (takenState s x req) (takenSession x req) index sub b req x.src = refuse (takenState s x req) code) :
    Refuses s req x c index sub code (errDetail s code) := by
  have hanswer := (writeRow_taken h index sub b).trans (performWrite_refused hwrite)
  have hbase : takenState s x req = { s with dict := (takenState s x req).dict, mgmt := (takenState s x req).mgmt } := rfl
  obtain ⟨hreplied, hkeeps, -⟩ := replied_answerReq h hbase rfl (SameObjs.refl [] s) 0x30
    (errorPayload index sub code (errDetail (takenState s x req) code))
  exact ⟨_, hexec.trans (congrArg Host.Outcome.next hanswer), hkeeps, hreplied⟩

/-- A role below the object's. -/
theorem Setting.refuses_role {index : Nat} {r : ObjRow} (hset : Setting index r) {s : State} {req : Req} {x : Session}
    (h : Authentic s req x) {c : Instr} {sub : Nat} {b : List Byte} (hsub : r.subLo ≤ sub ∧ sub ≤ r.subHi)
    (hexec : exec c s = .next (writeRow s req index sub b)) (hrole : x.role < writeRole r) :
    Refuses s req x c index sub errACCESS_DENIED 0 := by
  refine refuses_of_refuse h hexec ?_
  rw [writeObject, presentObj_of_rows _ hset.port hset.rows hsub]
  exact if_pos hrole

/-- A session whose scope does not permit the write. -/
theorem Setting.refuses_scope {index : Nat} {r : ObjRow} (hset : Setting index r) {s : State} {req : Req} {x : Session}
    (h : Authentic s req x) {c : Instr} {sub : Nat} {b : List Byte} (hsub : r.subLo ≤ sub ∧ sub ≤ r.subHi)
    (hexec : exec c s = .next (writeRow s req index sub b))
    (hscope : writeScope (takenState s x req) (takenSession x req) r index sub (leNat b) = false) :
    Refuses s req x c index sub errACCESS_DENIED 0 := by
  refine refuses_of_refuse h hexec ?_
  rw [writeObject, presentObj_of_rows _ hset.port hset.rows hsub]
  dsimp only
  split
  · rfl
  · exact if_pos (by rw [hscope]; rfl)

/-- A mode in which the device does not take it. -/
theorem Setting.refuses_mode {index : Nat} {r : ObjRow} (hset : Setting index r) {s : State} {req : Req} {x : Session}
    (h : Authentic s req x) {c : Instr} {sub : Nat} {b : List Byte} (hsub : r.subLo ≤ sub ∧ sub ≤ r.subHi)
    (hexec : exec c s = .next (writeRow s req index sub b)) (hrole : writeRole r ≤ x.role) (hscope : isScoped x = false)
    (hmode : writeMode s r index = false) : Refuses s req x c index sub errNOT_READY (rd s oBOOT_STAGE 0) := by
  refine refuses_of_refuse h hexec ?_
  have hunscoped : isScoped (takenSession x req) = false := hscope
  have hopen : writeScope (takenState s x req) (takenSession x req) r index sub (leNat b) = true := if_pos (by rw [hunscoped]; rfl)
  rw [writeObject, presentObj_of_rows _ hset.port hset.rows hsub]
  dsimp only
  rw [if_neg (show ¬ (takenSession x req).role < writeRole r from Nat.not_lt.mpr hrole), hopen]
  exact (if_neg (by decide)).trans (if_pos (by rw [show writeMode (takenState s x req) r index = false from hmode]; rfl))

/-! ### The objects -/

/-! The rows of the settings, as the object tables of their chapters give them (R446). -/
def rowPLEVEL_REQ : ObjRow := ⟨oPLEVEL_REQ, 0x2010, 1, 8, 1, 1, .rw, 0, true, false, false, 3⟩
def rowPOWER_ENV : ObjRow := ⟨oPOWER_ENV, 0x2102, 0, 0, 2, 2, .rwm, 0, true, false, false, 0⟩
def rowSTACK_WARM_C : ObjRow := ⟨oSTACK_WARM_C, 0x2203, 0, 0, 1, 1, .rw, 0, true, false, false, 85⟩
def rowSTACK_HOT_C : ObjRow := ⟨oSTACK_HOT_C, 0x2204, 0, 0, 1, 1, .rw, 0, true, false, false, 95⟩
def rowARRAY_STALL_LIMIT_US : ObjRow := ⟨oARRAY_STALL_LIMIT_US, 0x4100, 0, 0, 3, 4, .rwm, 0, true, false, false, 500⟩
def rowPARK_LIMIT_US : ObjRow := ⟨oPARK_LIMIT_US, 0x4101, 0, 0, 3, 4, .rwm, 0, true, false, false, 5000⟩
def rowPREC_LOCK : ObjRow := ⟨oPREC_LOCK, 0x4201, 1, 128, 7, 1, .rwm, 0, true, true, false, 0⟩
def rowEDDY_AGE_NS : ObjRow := ⟨oEDDY_AGE_NS, 0x5000, 0, 0, 3, 4, .rwm, 0, true, false, false, 2000⟩
def rowFLAG_HOLD_LIMIT_US : ObjRow := ⟨oFLAG_HOLD_LIMIT_US, 0x5030, 0, 0, 3, 4, .rwm, 0, true, false, false, 10000⟩
def rowCHIP_ID : ObjRow := ⟨oCHIP_ID, 0x6000, 0, 0, 2, 2, .rwm, 0, true, false, false, 0⟩
def rowCOLL_GROUP_CFG : ObjRow := ⟨oCOLL_GROUP_CFG, 0x6200, 1, 16, 3, 4, .rwm, 0, true, false, false, 0⟩

theorem setting_PLEVEL_REQ : Setting oPLEVEL_REQ rowPLEVEL_REQ :=
  ⟨by decide, by decide, .inl rfl, rfl, rfl, fun _ => rfl, by decide, fun _ _ => rfl⟩

theorem setting_POWER_ENV : Setting oPOWER_ENV rowPOWER_ENV :=
  ⟨by decide, by decide, .inr rfl, rfl, rfl, fun _ => rfl, by decide, fun _ _ => rfl⟩

theorem setting_STACK_WARM_C : Setting oSTACK_WARM_C rowSTACK_WARM_C :=
  ⟨by decide, by decide, .inl rfl, rfl, rfl, fun _ => rfl, by decide, fun _ _ => rfl⟩

theorem setting_STACK_HOT_C : Setting oSTACK_HOT_C rowSTACK_HOT_C :=
  ⟨by decide, by decide, .inl rfl, rfl, rfl, fun _ => rfl, by decide, fun _ _ => rfl⟩

theorem setting_ARRAY_STALL_LIMIT_US : Setting oARRAY_STALL_LIMIT_US rowARRAY_STALL_LIMIT_US :=
  ⟨by decide, by decide, .inr rfl, rfl, rfl, fun _ => rfl, by decide, fun _ _ => rfl⟩

theorem setting_PARK_LIMIT_US : Setting oPARK_LIMIT_US rowPARK_LIMIT_US :=
  ⟨by decide, by decide, .inr rfl, rfl, rfl, fun _ => rfl, by decide, fun _ _ => rfl⟩

theorem setting_PREC_LOCK : Setting oPREC_LOCK rowPREC_LOCK :=
  ⟨by decide, by decide, .inr rfl, rfl, rfl, fun _ => rfl, by decide, fun _ _ => rfl⟩

theorem setting_EDDY_AGE_NS : Setting oEDDY_AGE_NS rowEDDY_AGE_NS :=
  ⟨by decide, by decide, .inr rfl, rfl, rfl, fun _ => rfl, by decide, fun _ _ => rfl⟩

theorem setting_FLAG_HOLD_LIMIT_US : Setting oFLAG_HOLD_LIMIT_US rowFLAG_HOLD_LIMIT_US :=
  ⟨by decide, by decide, .inr rfl, rfl, rfl, fun _ => rfl, by decide, fun _ _ => rfl⟩

theorem setting_CHIP_ID : Setting oCHIP_ID rowCHIP_ID :=
  ⟨by decide, by decide, .inr rfl, rfl, rfl, fun _ => rfl, by decide, fun _ _ => rfl⟩

theorem setting_COLL_GROUP_CFG : Setting oCOLL_GROUP_CFG rowCOLL_GROUP_CFG :=
  ⟨by decide, by decide, .inr rfl, rfl, rfl, fun _ => rfl, by decide, fun _ _ => rfl⟩

/-- The objects whose write has an effect beside its value. -/
def effectObj (index : Nat) : Bool :=
  [oPLEVEL_REQ, oCOLL_GROUP_CFG, oSPOOL_BASE, oSPOOL_PAGES, oKEY_MATERIAL, oFW_BLOCK, oIQ_RANGE, oCQ_RANGE,
    oPLCA_NODE_COUNT].contains index

theorem storing_of_effectObj {index : Nat} (h : effectObj index = false) : Storing index := by
  intro s x r sub v b hstays
  simp only [effectObj, List.contains_cons, List.contains_nil, Bool.or_eq_false_iff, beq_eq_false_iff_ne] at h
  obtain ⟨h1, h2, h3, h4, h5, h6, h7, h8, h9, -⟩ := h
  rw [takeValue, hstays]
  simp only [Bool.false_eq_true, h1, h2, h3, h4, h5, h6, h7, h8, h9, or_self, if_false]

/-- A P-level request written in full mode. -/
theorem stores_PLEVEL_REQ {s : State} {req : Req} {x : Session} (h : Authentic s req x) (hok : stagedOk s = true)
    (hrole : 2 ≤ x.role) (hscope : isScoped x = false) (hfull : s.power.fullMode = true) {q v : Nat} (hq : q < 8) (hv : v ≤ 7) :
    ∃ t, exec (.plevelReqWrite req q v) s = .next t ∧ rd t oPLEVEL_REQ (q + 1) = v ∧ SaysDone t req x.key oPLEVEL_REQ (q + 1) 0 ∧
      Replied req x [objKey oPLEVEL_REQ (q + 1)] { s with
        nv := { s.nv with dirty := t.nv.dirty }, clock := { s.clock with seqs := t.clock.seqs }
        weir := { s.weir with ops := t.weir.ops } } t ∧
      t.weir.ops.map (fun o => { o with throttled := true }) = s.weir.ops.map (fun o => { o with throttled := true }) := by
  have hfit : v < 256 ^ rowPLEVEL_REQ.size := by show v < 256; omega
  have hmask : v &&& objMask rowPLEVEL_REQ oPLEVEL_REQ = v := by
    rw [show objMask rowPLEVEL_REQ oPLEVEL_REQ = 2 ^ 8 - 1 from rfl, Nat.and_two_pow_sub_one_eq_mod, Nat.mod_eq_of_lt (by omega)]
  have hwrite := setting_PLEVEL_REQ.writes (s := takenState s x req) (x := takenSession x req) (sub := q + 1) (v := v)
    ⟨Nat.le_add_left 1 q, by show q + 1 ≤ 8; omega⟩ hrole hscope (.inl hfull) hfit
    (by rw [hmask]; exact decide_eq_true ⟨Nat.zero_le v, hv⟩) req x.src
  rw [hmask] at hwrite
  have htake : takeValue (takenState s x req) (takenSession x req) rowPLEVEL_REQ oPLEVEL_REQ (q + 1) v (leBytes rowPLEVEL_REQ.size v) =
      { st := demandChanged (storeValue (takenState s x req) rowPLEVEL_REQ oPLEVEL_REQ (q + 1) v (leBytes rowPLEVEL_REQ.size v))
        out := .done 0 } := by
    rw [takeValue, staysStaged_full (s := takenState s x req) hfull]
    rfl
  have hstored := stored_storeValue (r := rowPLEVEL_REQ) rfl (takenState s x req) oPLEVEL_REQ (q + 1) v (leBytes rowPLEVEL_REQ.size v)
  have hread := demandRead_demandChanged
    (storeValue (takenState s x req) rowPLEVEL_REQ oPLEVEL_REQ (q + 1) v (leBytes rowPLEVEL_REQ.size v))
  have hanswer := (writeRow_taken h _ _ _).trans (performWrite_done (hwrite.trans htake))
  obtain ⟨hrest, hvalue, hobjs, hstaged, hblobs⟩ := hstored
  generalize storeValue (takenState s x req) rowPLEVEL_REQ oPLEVEL_REQ (q + 1) v (leBytes rowPLEVEL_REQ.size v) = u
    at hrest hvalue hobjs hstaged hblobs hread hanswer
  obtain ⟨hreads, hops⟩ := hread
  generalize demandChanged u = w at hreads hops hanswer
  obtain ⟨hnums, hlobs⟩ := staged_ne_key hok (index := oPLEVEL_REQ) (sub := q + 1) (by decide) (by omega)
  have hst : u.staged = s.staged := hstaged.trans (tabDel_of_absent hnums)
  have hsb : u.stagedBlobs = s.stagedBlobs := hblobs.trans (tabDel_of_absent hlobs)
  rw [hst, hsb] at hrest
  have hw : w = { { s with nv := { s.nv with dirty := w.nv.dirty }, clock := { s.clock with seqs := w.clock.seqs }
                           weir := { s.weir with ops := w.weir.ops } } with
      dict := w.dict, mgmt := (takenState s x req).mgmt } := by
    rw [hreads, hrest]
    rfl
  have hdict : w.dict = u.dict := by rw [hreads]
  have hweir : u.weir.ops = s.weir.ops := by rw [hrest]; rfl
  have hobjs' : SameObjs [objKey oPLEVEL_REQ (q + 1)] { s with
      nv := { s.nv with dirty := w.nv.dirty }, clock := { s.clock with seqs := w.clock.seqs }
      weir := { s.weir with ops := w.weir.ops } } w := fun k hk => by rw [hdict]; exact hobjs k hk
  obtain ⟨hreplied, hkeeps, hsame⟩ := replied_answerReq h hw rfl hobjs' 0x13 (writeReplyPayload oPLEVEL_REQ (q + 1) 0)
  generalize answerReq w x.src req 0x13 (writeReplyPayload oPLEVEL_REQ (q + 1) 0) = t at hanswer hreplied hkeeps hsame
  have hall : t.nv = w.nv ∧ t.clock = w.clock ∧ t.weir = w.weir := by
    refine ⟨?_, ?_, ?_⟩ <;> rw [hreplied.rest, hw]
  obtain ⟨hnv, hclock, hops'⟩ := hall
  refine ⟨t, congrArg Host.Outcome.next hanswer, ?_, hkeeps, ?_, ?_⟩
  · rw [← hvalue]
    exact rd_congr (by rw [hsame, hdict])
  · rw [hnv, hclock, hops']
    exact hreplied
  · rw [hops', hops, hweir]

/-! ### Collective groups -/

theorem collState_ne_broken {s : State} {g : Nat} (h : rd s oCOLL_GROUP_STATE (g + 1) = 0) : collState s g ≠ 2 := by
  rw [collState, h, if_neg (by decide)]
  split <;> decide

/-- From `s` to `t` a group is whole again, and nothing counts as received for it. -/
theorem renewGroup_spec (s : State) {g : Nat} :
    renewGroup s g = { s with dict := (renewGroup s g).dict
                              fabric := { s.fabric with ready := s.fabric.ready.filter (fun r => r.1 != g) } } ∧
      rd (renewGroup s g) oCOLL_GROUP_STATE (g + 1) = 0 ∧
      SameObjs [objKey oCOLL_GROUP_STATE (g + 1)] s (renewGroup s g) :=
  ⟨rfl, rd_wr_self _ _ _ _, fun _ hk => tabGet?_tabPut_ne _ _ (List.ne_of_not_mem_cons hk)⟩

/-- The configuration of a group written in full mode. -/
theorem stores_COLL_GROUP_CFG {s : State} {req : Req} {x : Session} (h : Authentic s req x) (hrole : 3 ≤ x.role)
    (hscope : isScoped x = false) (hfull : s.power.fullMode = true) {g v : Nat} (hg : g < 16) (hv : v < 2 ^ 32) :
    ∃ t, exec (.collGroupCfgWrite req g v) s = .next t ∧ rd t oCOLL_GROUP_CFG (g + 1) = v &&& 0xFFFFFF7F ∧ collState t g ≠ 2 ∧
      (∀ r ∈ t.fabric.ready, r.1 ≠ g) ∧ SaysDone t req x.key oCOLL_GROUP_CFG (g + 1) 0 ∧
      Replied req x [objKey oCOLL_GROUP_CFG (g + 1), objKey oCOLL_GROUP_STATE (g + 1)] { s with
        nv := { s.nv with dirty := t.nv.dirty }, staged := t.staged, stagedBlobs := t.stagedBlobs
        fabric := { s.fabric with ready := s.fabric.ready.filter (fun r => r.1 != g) } } t := by
  have hwrite := setting_COLL_GROUP_CFG.writes (s := takenState s x req) (x := takenSession x req) (sub := g + 1) (v := v)
    ⟨Nat.le_add_left 1 g, by show g + 1 ≤ 16; omega⟩ hrole hscope (.inl hfull) hv rfl req x.src
  have htake : takeValue (takenState s x req) (takenSession x req) rowCOLL_GROUP_CFG oCOLL_GROUP_CFG (g + 1) (v &&& 0xFFFFFF7F)
      (leBytes rowCOLL_GROUP_CFG.size v) = { st := renewGroup (storeValue (takenState s x req) rowCOLL_GROUP_CFG oCOLL_GROUP_CFG (g + 1)
        (v &&& 0xFFFFFF7F) (leBytes rowCOLL_GROUP_CFG.size v)) g, out := .done 0 } := by
    rw [takeValue, staysStaged_full (s := takenState s x req) hfull]
    rfl
  have hstored := stored_storeValue (r := rowCOLL_GROUP_CFG) rfl (takenState s x req) oCOLL_GROUP_CFG (g + 1) (v &&& 0xFFFFFF7F)
    (leBytes rowCOLL_GROUP_CFG.size v)
  have hanswer := (writeRow_taken h _ _ _).trans (performWrite_done (hwrite.trans htake))
  obtain ⟨hrest, hvalue, hobjs, -, -⟩ := hstored
  generalize storeValue (takenState s x req) rowCOLL_GROUP_CFG oCOLL_GROUP_CFG (g + 1) (v &&& 0xFFFFFF7F)
    (leBytes rowCOLL_GROUP_CFG.size v) = u at hrest hvalue hobjs hanswer
  obtain ⟨hrenew, hwhole, hgroup⟩ := renewGroup_spec u (g := g)
  generalize renewGroup u g = w at hrenew hwhole hgroup hanswer
  have hw : w = { { s with nv := { s.nv with dirty := w.nv.dirty }, staged := w.staged, stagedBlobs := w.stagedBlobs
                           fabric := { s.fabric with ready := s.fabric.ready.filter (fun r => r.1 != g) } } with
      dict := w.dict, mgmt := (takenState s x req).mgmt } := by
    rw [hrenew, hrest]
    rfl
  have hobjs' : SameObjs [objKey oCOLL_GROUP_CFG (g + 1), objKey oCOLL_GROUP_STATE (g + 1)] { s with
      nv := { s.nv with dirty := w.nv.dirty }, staged := w.staged, stagedBlobs := w.stagedBlobs
      fabric := { s.fabric with ready := s.fabric.ready.filter (fun r => r.1 != g) } } w := hobjs.trans hgroup
  obtain ⟨hreplied, hkeeps, hsame⟩ := replied_answerReq h hw rfl hobjs' 0x13 (writeReplyPayload oCOLL_GROUP_CFG (g + 1) 0)
  obtain ⟨hst, hsb, hnv⟩ := hreplied.keeps
  generalize answerReq w x.src req 0x13 (writeReplyPayload oCOLL_GROUP_CFG (g + 1) 0) = t at hanswer hreplied hkeeps hsame hst hsb hnv
  have hdirty : t.nv.dirty = w.nv.dirty := by rw [hnv]
  have hready : t.fabric.ready = s.fabric.ready.filter (fun r => r.1 != g) := by rw [hreplied.rest]
  refine ⟨t, congrArg Host.Outcome.next hanswer, ?_, collState_ne_broken ?_, fun r hr => ?_, hkeeps, ?_⟩
  · rw [← hvalue]
    refine (rd_congr (by rw [hsame])).trans (hgroup.rd ?_)
    rw [List.mem_singleton]
    exact objKey_ne (by decide) (by omega) (by omega)
  · exact (rd_congr (by rw [hsame])).trans hwhole
  · rw [hready, List.mem_filter] at hr
    exact bne_iff_ne.mp hr.2
  · rw [hdirty, hst, hsb]
    exact hreplied

end Sys2Proof.Machine

/-! PROOF. The statement of the object writes (spec/18 R438, R440; spec/05 R104, R105). -/

namespace Sys2Proof.Machine

open Sys2Proof

theorem unscoped_of_maintainer {x : Session} (h : 3 ≤ x.role) : isScoped x = false := by
  rw [isScoped, decide_eq_false (by omega), Bool.and_false]

/-- The thresholds of the stacks. -/
theorem stores_threshold {s : State} {req : Req} {x : Session} (h : Authentic s req x) (hok : stagedOk s = true) (hrole : 2 ≤ x.role)
    (hscope : isScoped x = false) (hfull : s.power.fullMode = true) :
    (∀ v, 70 ≤ v → v ≤ 85 → v + 5 ≤ rd s oSTACK_HOT_C 0 → Stores s req x (.stackThresholdWrite req false v) oSTACK_WARM_C 0 v) ∧
      ∀ v, 80 ≤ v → v ≤ 95 → rd s oSTACK_WARM_C 0 + 5 ≤ v → Stores s req x (.stackThresholdWrite req true v) oSTACK_HOT_C 0 v := by
  have hview : ∀ o, o < 0x3000 → rd (persistedView (takenState s x req)) o 0 = rd s o 0 :=
    fun o ho => rd_persistedView (s := takenState s x req) hok ho (by decide)
  have hmask : ∀ v, v ≤ 95 → v &&& (2 ^ 8 - 1) = v := fun v hv => by
    rw [Nat.and_two_pow_sub_one_eq_mod, Nat.mod_eq_of_lt (by omega)]
  refine ⟨fun v hlo hhi hgap => ?_, fun v hlo hhi hgap => ?_⟩
  · refine setting_STACK_WARM_C.stores (r := rowSTACK_WARM_C) (fun _ => storing_of_effectObj (by decide)) h hok hrole hscope
      (.inl hfull) ⟨Nat.le_refl 0, Nat.le_refl 0⟩ rfl (by show v < 256; omega) (hmask v (by omega)) ?_
    have hhot := hview oSTACK_HOT_C (by decide)
    exact decide_eq_true ⟨hlo, hhi, by rw [hhot]; exact hgap⟩
  · refine setting_STACK_HOT_C.stores (r := rowSTACK_HOT_C) (fun _ => storing_of_effectObj (by decide)) h hok hrole hscope
      (.inl hfull) ⟨Nat.le_refl 0, Nat.le_refl 0⟩ rfl (by show v < 256; omega) (hmask v (by omega)) ?_
    have hwarm := hview oSTACK_WARM_C (by decide)
    exact decide_eq_true ⟨hlo, hhi, by rw [hwarm]; exact hgap⟩

theorem envRange_le (variant : Nat) : (envRange variant).2 ≤ 550 := by
  rw [envRange.eq_def]
  split <;> decide

/-- The power envelope. -/
theorem stores_POWER_ENV {s : State} {req : Req} {x : Session} (h : Authentic s req x) (hok : stagedOk s = true) (hrole : 3 ≤ x.role)
    (hfull : s.power.fullMode = true) {v : Nat} (hlo : (envRange (variantOf s)).1 ≤ v) (hhi : v ≤ (envRange (variantOf s)).2) :
    Stores s req x (.powerEnvWrite req v) oPOWER_ENV 0 v := by
  have htop := envRange_le (variantOf s)
  have hmask : v &&& (2 ^ 16 - 1) = v := by rw [Nat.and_two_pow_sub_one_eq_mod, Nat.mod_eq_of_lt (by omega)]
  have hvariant : variantOf (persistedView (takenState s x req)) = variantOf s :=
    rd_persistedView (s := takenState s x req) hok (by decide) (by decide)
  refine setting_POWER_ENV.stores (r := rowPOWER_ENV) (fun _ => storing_of_effectObj (by decide)) h hok hrole
    (unscoped_of_maintainer hrole) (.inl hfull) ⟨Nat.le_refl 0, Nat.le_refl 0⟩ rfl (by show v < 65536; omega) hmask ?_
  exact decide_eq_true (by rw [hvariant]; exact ⟨hlo, hhi⟩)

/-- The settings that either mode takes. -/
theorem stores_CHIP_ID {s : State} {req : Req} {x : Session} (h : Authentic s req x) (hok : stagedOk s = true) (hrole : 3 ≤ x.role)
    {v : Nat} (hv : v < 2 ^ 16) : Stores s req x (.chipIdWrite req v) oCHIP_ID 0 (v % 1024) :=
  setting_CHIP_ID.stores (r := rowCHIP_ID) (fun _ => storing_of_effectObj (by decide)) h hok hrole (unscoped_of_maintainer hrole)
    (.inr (by decide)) ⟨Nat.le_refl 0, Nat.le_refl 0⟩ rfl hv (Nat.and_two_pow_sub_one_eq_mod v 10) rfl

theorem stores_COLL_GROUP_CFG_limited {s : State} {req : Req} {x : Session} (h : Authentic s req x) (hok : stagedOk s = true)
    (hrole : 3 ≤ x.role) (hlim : ¬ s.power.fullMode = true) {g v : Nat} (hg : g < 16) (hv : v < 2 ^ 32) :
    Stores s req x (.collGroupCfgWrite req g v) oCOLL_GROUP_CFG (g + 1) (v &&& 0xFFFFFF7F) :=
  setting_COLL_GROUP_CFG.stores (r := rowCOLL_GROUP_CFG) (fun hfull => absurd hfull hlim) h hok hrole (unscoped_of_maintainer hrole)
    (.inr (by decide)) ⟨Nat.le_add_left 1 g, by show g + 1 ≤ 16; omega⟩ rfl hv rfl rfl

/-- Settles O52: a write passes the checks in the order of log 31, is stored or kept, and answered. -/
theorem objectWritesTakeEffect : Obligations.ObjectWritesTakeEffect := by
  unfold Obligations.ObjectWritesTakeEffect
  intro s req x h hok
  dsimp only
  have hwhole : (0 : Nat) ≤ 0 ∧ 0 ≤ 0 := ⟨Nat.le_refl 0, Nat.le_refl 0⟩
  refine ⟨fun hscope hrole hfull => ⟨fun q v hq hv => stores_PLEVEL_REQ h hok hrole hscope hfull hq hv, ?_⟩,
    fun hrole hfull => ⟨?_, ?_⟩, fun hrole => ?_, fun hrole hlim v => ?_, fun hrole v => ⟨?_, ?_, ?_⟩, fun hscope q v hq => ?_⟩
  · exact stores_threshold h hok hrole hscope hfull
  · exact fun v hlo hhi => stores_POWER_ENV h hok hrole hfull hlo hhi
  · exact fun g v hg hv => stores_COLL_GROUP_CFG h hrole (unscoped_of_maintainer hrole) hfull hg hv
  · have hscope := unscoped_of_maintainer hrole
    refine ⟨fun v hlo hhi => ?_, fun v hlo hhi => ?_, fun p v hp hhi => ?_, fun v hlo hhi => ?_, fun v hlo hhi => ?_,
      fun v hv => stores_CHIP_ID h hok hrole hv, fun hlim g v hg hv => stores_COLL_GROUP_CFG_limited h hok hrole hlim hg hv⟩
    · exact setting_ARRAY_STALL_LIMIT_US.stores_range (r := rowARRAY_STALL_LIMIT_US) (storing_of_effectObj (by decide))
        (fun _ _ _ _ => rfl) rfl (by decide) h hok hrole hscope (.inr (by decide)) hwhole rfl hlo hhi
    · exact setting_PARK_LIMIT_US.stores_range (r := rowPARK_LIMIT_US) (storing_of_effectObj (by decide))
        (fun _ _ _ _ => rfl) rfl (by decide) h hok hrole hscope (.inr (by decide)) hwhole rfl hlo hhi
    · exact setting_PREC_LOCK.stores_range (r := rowPREC_LOCK) (storing_of_effectObj (by decide)) (lo := 0)
        (fun _ _ _ _ => rfl) rfl (by decide) h hok hrole hscope (.inr (by decide))
        ⟨Nat.le_add_left 1 p, by show p + 1 ≤ 128; omega⟩ rfl (Nat.zero_le v) hhi
    · exact setting_EDDY_AGE_NS.stores_range (r := rowEDDY_AGE_NS) (storing_of_effectObj (by decide))
        (fun _ _ _ _ => rfl) rfl (by decide) h hok hrole hscope (.inr (by decide)) hwhole rfl hlo hhi
    · exact setting_FLAG_HOLD_LIMIT_US.stores_range (r := rowFLAG_HOLD_LIMIT_US) (storing_of_effectObj (by decide))
        (fun _ _ _ _ => rfl) rfl (by decide) h hok hrole hscope (.inr (by decide)) hwhole rfl hlo hhi
  · have hmode : writeMode s rowPOWER_ENV oPOWER_ENV = false := by
      rw [writeMode, limited, Bool.eq_false_iff.mpr hlim]
      rfl
    exact setting_POWER_ENV.refuses_mode (r := rowPOWER_ENV) h hwhole rfl hrole (unscoped_of_maintainer hrole) hmode
  · exact setting_POWER_ENV.refuses_role (r := rowPOWER_ENV) h hwhole rfl hrole
  · exact setting_CHIP_ID.refuses_role (r := rowCHIP_ID) h hwhole rfl hrole
  · exact setting_PARK_LIMIT_US.refuses_role (r := rowPARK_LIMIT_US) h hwhole rfl hrole
  · refine setting_PLEVEL_REQ.refuses_scope (r := rowPLEVEL_REQ) h ⟨Nat.le_add_left 1 q, by show q + 1 ≤ 8; omega⟩ rfl ?_
    have hscoped : isScoped (takenSession x req) = true := hscope
    rw [writeScope, hscoped]
    rfl

end Sys2Proof.Machine

/-! PROOF. The input voltage: its bands, and the shutdown beyond them (spec/04 R74, R93, R94, Table BASK-2). -/

namespace Sys2Proof.Machine

open Sys2Proof

/-! ### PWR_STATUS -/

theorem told_pwrBit (s : State) (i : Nat) (b : Bool) : Told [objKey oPWR_STATUS 0] s (pwrBit s i b) := told_wrNote _ _ _ _ _

theorem testBit_pwrBit (s : State) (i j : Nat) (b : Bool) :
    (rd (pwrBit s i b) oPWR_STATUS 0).testBit j = if j = i then b else (rd s oPWR_STATUS 0).testBit j := by
  rw [pwrBit, rd_wrNote _ _ _ _ _ (by decide)]
  split
  · next h => rw [h, testBit_setBit_self]
  · next h => exact testBit_setBit_ne _ _ h

/-- A bit of PWR_STATUS is a cause of ALERT_N. -/
theorem alertCause_of_pwrStatus {t : State} {i : Nat} (h : (rd t oPWR_STATUS 0).testBit i = true) : alertCause t = true := by
  have hne : rd t oPWR_STATUS 0 ≠ 0 := fun h0 => by
    rw [h0, Nat.zero_testBit] at h
    exact Bool.false_ne_true h
  rw [alertCause, bne_iff_ne.mpr hne]
  simp only [Bool.true_or]

/-! ### The bands in which the package runs -/

/-- The input level noted, two bits of PWR_STATUS stored in order, and the limits that run. -/
def inBand (s : State) (mv i j : Nat) (b c low high : Bool) : State :=
  withPower (pwrBit (pwrBit (setV48 s mv) i b) j c) { s.power with lowTimer := low, highTimer := high }

theorem told_inBand (s : State) (mv i j : Nat) (b c low high : Bool) :
    Told [objKey oPWR_STATUS 0]
      { s with pins := { s.pins with v48Mv := mv }, power := { s.power with lowTimer := low, highTimer := high } }
      (inBand s mv i j b c low high) :=
  (((told_pwrBit (setV48 s mv) i b).trans (told_pwrBit _ j c)).withPower _).mono (by decide)

theorem testBit_inBand (s : State) (mv i j k : Nat) (b c low high : Bool) :
    (rd (inBand s mv i j b c low high) oPWR_STATUS 0).testBit k =
      if k = j then c else if k = i then b else (rd s oPWR_STATUS 0).testBit k := by
  show (rd (pwrBit (pwrBit (setV48 s mv) i b) j c) oPWR_STATUS 0).testBit k = _
  rw [testBit_pwrBit, testBit_pwrBit]
  rfl

/-- The bits beyond those of the two limits stay. -/
theorem testBit_inBand_ge (s : State) (mv : Nat) {i j : Nat} (hi : i < 2) (hj : j < 2) (b c low high : Bool) :
    ∀ k, 2 ≤ k → (rd (inBand s mv i j b c low high) oPWR_STATUS 0).testBit k = (rd s oPWR_STATUS 0).testBit k := fun k hk => by
  rw [testBit_inBand, if_neg (by omega), if_neg (by omega)]

/-- The power that the two bits leave, with the limits set anew. -/
theorem inBand_eq (s : State) (mv i j : Nat) (b c low high : Bool) :
    withPower (pwrBit (pwrBit (setV48 s mv) i b) j c)
      { (pwrBit (pwrBit (setV48 s mv) i b) j c).power with lowTimer := low, highTimer := high } = inBand s mv i j b c low high := by
  rw [((told_pwrBit (setV48 s mv) i b).trans (told_pwrBit _ j c)).power]
  rfl

theorem exec_v48Low {s : State} (hgood : s.power.good = true) {mv : Nat} (hlo : 36000 ≤ mv) (hhi : mv < 40000) :
    exec (.v48Low mv) s = .next (inBand s mv 1 0 false true true false) :=
  congrArg Host.Outcome.next ((if_pos ⟨hlo, hhi⟩).trans ((if_pos hgood).trans (inBand_eq s mv 1 0 false true true false)))

theorem exec_v48High {s : State} (hgood : s.power.good = true) {mv : Nat} (hlo : 60000 < mv) (hhi : mv ≤ 63000) :
    exec (.v48High mv) s = .next (inBand s mv 0 1 false true false true) :=
  congrArg Host.Outcome.next ((if_pos ⟨hgood, hlo, hhi⟩).trans (inBand_eq s mv 0 1 false true false true))

theorem exec_v48Normal {s : State} (hgood : s.power.good = true) {mv : Nat} (hlo : 40000 ≤ mv) (hhi : mv ≤ 60000) :
    exec (.v48Normal mv) s = .next (inBand s mv 0 1 false false false false) :=
  congrArg Host.Outcome.next ((if_pos ⟨hgood, hlo, hhi⟩).trans (inBand_eq s mv 0 1 false false false false))

/-- Settles O7: in each band the same two bits of PWR_STATUS are stored, and a bit set is a cause of ALERT_N. -/
theorem inputVoltageBands : Obligations.InputVoltageBands := by
  unfold Obligations.InputVoltageBands
  intro s mv hgood
  refine ⟨fun hlo hhi => ?_, fun hlo hhi => ?_, fun hlo hhi => ?_⟩
  · have hlow : (rd (inBand s mv 1 0 false true true false) oPWR_STATUS 0).testBit 0 = true := testBit_inBand _ _ _ _ _ _ _ _ _
    exact ⟨_, exec_v48Low hgood hlo hhi, hlow, testBit_inBand _ _ _ _ _ _ _ _ _,
      testBit_inBand_ge s mv (by decide) (by decide) _ _ _ _, alerts_of_cause (alertCause_of_pwrStatus hlow),
      told_inBand _ _ _ _ _ _ _ _⟩
  · have hhigh : (rd (inBand s mv 0 1 false true false true) oPWR_STATUS 0).testBit 1 = true := testBit_inBand _ _ _ _ _ _ _ _ _
    exact ⟨_, exec_v48High hgood hlo hhi, testBit_inBand _ _ _ _ _ _ _ _ _, hhigh,
      testBit_inBand_ge s mv (by decide) (by decide) _ _ _ _, alerts_of_cause (alertCause_of_pwrStatus hhigh),
      told_inBand _ _ _ _ _ _ _ _⟩
  · exact ⟨_, exec_v48Normal hgood hlo hhi, testBit_inBand _ _ _ _ _ _ _ _ _, testBit_inBand _ _ _ _ _ _ _ _ _,
      testBit_inBand_ge s mv (by decide) (by decide) _ _ _ _, told_inBand _ _ _ _ _ _ _ _⟩

/-! ### A protective shutdown -/

/-- A shutdown counted, its cause recorded (Table BASK-5). -/
def shutdownNoted (s : State) (cause : Nat) : State :=
  wrP (count32P s oSHUTDOWN_COUNT 0 1) oSHUTDOWN_CAUSE 0 cause

/-- Then the neighbours and the sessions told, and bit 2 of PWR_STATUS set: what comes before the rails go off. -/
def shutdownTold (s : State) (cause : Nat) : State :=
  pwrBit (notify (departAll (shutdownNoted s cause)) 1 oSHUTDOWN_CAUSE 0 cause) 2 true

/-- Power once the package is shut down. -/
def shutPower (p : Power) : Power := { p with shutdown := true, lowTimer := false, highTimer := false }

theorem protectiveShutdown_eq {s : State} (hgood : s.power.good = true) (hshut : s.power.shutdown = false) (cause : Nat) :
    protectiveShutdown s cause =
      withPower (loseCompute (shutdownTold s cause)) (shutPower (loseCompute (shutdownTold s cause)).power) := by
  rw [protectiveShutdown, hgood, hshut, shutdownTold, shutdownNoted, withPower, shutPower]
  exact if_neg Bool.false_ne_true

theorem told_shutdownTold (s : State) (cause : Nat) :
    Told [objKey oPWR_STATUS 0] (departAll (shutdownNoted s cause)) (shutdownTold s cause) :=
  (told_notify _ _ _ _ _).trans (told_pwrBit _ _ _)

/-- Telling the neighbours changes no object, no operation and no byte. -/
theorem departAll_keeps (s : State) : (departAll s).dict = s.dict ∧ (departAll s).weir = s.weir ∧ (departAll s).mem = s.mem ∧
    (departAll s).power = s.power := by
  have hports := sameButPorts_departAll s
  rw [sameButPorts] at hports
  exact ⟨(congrArg State.dict hports :), (congrArg State.weir hports :), (congrArg State.mem hports :),
    (congrArg State.power hports :)⟩

/-- The ports going DOWN change PORT_STATE, and notifications lost. -/
theorem rd_portsOff (u : State) {o sub : Nat} (hsub : sub < 256) (hport : o ≠ oPORT_STATE) (hnote : o ≠ oNOTIFY_LOST) :
    rd (portsOff u) o sub = rd u o sub := by
  refine (told_portsOff u).rd fun hk => ?_
  rcases List.mem_cons.mp hk with hk | hk
  · exact objKey_ne hnote hsub (by decide) hk
  · obtain ⟨n, hn, hk⟩ := List.mem_map.mp hk
    rw [List.mem_range] at hn
    exact objKey_ne hport hsub (by omega) hk.symm

/-- The objects that the compute side does not produce keep what they hold when its rails go off. -/
theorem rd_loseCompute (u : State) {o sub : Nat} (hsub : sub < 256) (hcompute : computeObj o = false) (hnote : o ≠ oNOTIFY_LOST) :
    rd (loseCompute u) o sub = rd u o sub := by
  have hindex : objKey o sub / 256 = o := by rw [objKey]; omega
  have hport : o ≠ oPORT_STATE := by
    rintro rfl
    exact absurd hcompute (by decide)
  rw [← rd_portsOff u hsub hport hnote]
  unfold loseCompute
  generalize portsOff u = v
  refine rd_congr ((tabGet?_filter v.dict (fun k => !(computeObj (k / 256))) _).trans (if_pos ?_))
  rw [hindex, hcompute]
  rfl

/-- From `s` to `t` a protective shutdown has been carried out. -/
structure ShutDown (cause : Nat) (s t : State) : Prop where
  shutdown : t.power.shutdown = true
  good : t.power.good = s.power.good
  cause : rd t oSHUTDOWN_CAUSE 0 = cause
  count : rd t oSHUTDOWN_COUNT 0 = satAdd max32 (rd s oSHUTDOWN_COUNT 0) 1
  status : (rd t oPWR_STATUS 0).testBit 2 = true
  gone : ComputeGone s t
  objs : ∀ o sub, sub < 256 → computeObj o = false → o ≠ oSHUTDOWN_CAUSE → o ≠ oSHUTDOWN_COUNT → o ≠ oPWR_STATUS →
    o ≠ oNOTIFY_LOST → rd t o sub = rd s o sub

/-- What is told leaves every object but PWR_STATUS as recorded. -/
theorem rd_shutdownTold (s : State) (cause : Nat) {o sub : Nat} (hsub : sub < 256) (hpwr : o ≠ oPWR_STATUS) (hnote : o ≠ oNOTIFY_LOST) :
    rd (shutdownTold s cause) o sub = rd (shutdownNoted s cause) o sub := by
  refine ((told_shutdownTold s cause).rd ?_).trans (rd_congr (by rw [(departAll_keeps _).1]))
  simp only [List.mem_cons, List.not_mem_nil, or_false, not_or]
  exact ⟨objKey_ne hnote hsub (by decide), objKey_ne hpwr hsub (by decide)⟩

theorem shutDown_protectiveShutdown {s : State} (hgood : s.power.good = true) (hshut : s.power.shutdown = false) (cause : Nat) :
    ShutDown cause s (protectiveShutdown s cause) := by
  have htold := told_shutdownTold s cause
  obtain ⟨-, hweir, hmem, hpower⟩ := departAll_keeps (shutdownNoted s cause)
  have hgone : ComputeGone s (loseCompute (shutdownTold s cause)) :=
    gone_loseCompute (htold.rests.weir.trans hweir) (htold.rests.mem.trans hmem)
  have hup : (loseCompute (shutdownTold s cause)).power.good = s.power.good := by
    rw [(loseCompute_keeps _).1, htold.power, hpower]
    rfl
  have hbit : (rd (loseCompute (shutdownTold s cause)) oPWR_STATUS 0).testBit 2 = true := by
    rw [rd_loseCompute _ (by decide) (by decide) (by decide), shutdownTold, testBit_pwrBit]
    rfl
  have hread : ∀ o sub, sub < 256 → computeObj o = false → o ≠ oPWR_STATUS → o ≠ oNOTIFY_LOST →
      rd (loseCompute (shutdownTold s cause)) o sub = rd (shutdownNoted s cause) o sub := fun o sub hsub hcompute hpwr hnote =>
    (rd_loseCompute _ hsub hcompute hnote).trans (rd_shutdownTold s cause hsub hpwr hnote)
  rw [protectiveShutdown_eq hgood hshut]
  generalize loseCompute (shutdownTold s cause) = v at hgone hup hbit hread
  obtain ⟨hrails, hqueues, hwork, hrepairs, hmems, hlinks⟩ := hgone
  refine ⟨rfl, hup, ?_, ?_, hbit, ⟨hrails, hqueues, hwork, hrepairs, hmems, hlinks⟩,
    fun o sub hsub hcompute hcause hcount hpwr hnote => ?_⟩
  · exact (hread oSHUTDOWN_CAUSE 0 (by decide) (by decide) (by decide) (by decide)).trans (rd_wrP_self _ _ _ _)
  · exact (hread oSHUTDOWN_COUNT 0 (by decide) (by decide) (by decide) (by decide)).trans
      ((rd_wrP_ne _ _ (by decide)).trans (rd_wrP_self _ _ _ _))
  · exact (hread o sub hsub hcompute hpwr hnote).trans ((rd_wrP_ne _ _ (objKey_ne hcause hsub (by decide))).trans
      (rd_wrP_ne _ _ (objKey_ne hcount hsub (by decide))))

/-- The level noted, or a limit ended, before the shutdown makes no difference to what is lost. -/
theorem shutDown_of_same {s u : State} (hgood : u.power.good = true) (hshut : u.power.shutdown = false) (hs : s.power.good = true)
    (hdict : u.dict = s.dict) (hweir : u.weir = s.weir) (hmem : u.mem = s.mem) (cause : Nat) :
    ShutDown cause s (protectiveShutdown u cause) := by
  have h := shutDown_protectiveShutdown hgood hshut cause
  have hrd : ∀ o sub, rd u o sub = rd s o sub := fun o sub => rd_congr (by rw [hdict])
  obtain ⟨hrails, hqueues, ⟨hw, hwork⟩, hrepairs, hmems, hlinks⟩ := h.gone
  refine ⟨h.shutdown, h.good.trans (hgood.trans hs.symm), h.cause, by rw [h.count, hrd], h.status,
    ⟨hrails, hqueues, ⟨by rw [hw, hweir], hwork⟩, hrepairs, by rw [hmems, hmem], hlinks⟩, ?_⟩
  exact fun o sub hsub hcompute hcause hcount hpwr hnote => (h.objs o sub hsub hcompute hcause hcount hpwr hnote).trans (hrd o sub)

/-- Settles O8: each of the four commands shuts the package down from a state that differs in the level noted or the limit ended. -/
theorem voltageShutsThePackageDown : Obligations.VoltageShutsThePackageDown := by
  unfold Obligations.VoltageShutsThePackageDown
  intro s hgood hshut shut
  have hshuts : ∀ c cause t, exec c s = .next t → ShutDown cause s t → shut c cause := fun _ _ t hexec h =>
    ⟨t, hexec, h.shutdown, h.good.trans hgood, h.cause, h.count, h.status, h.gone, h.objs⟩
  have hlevel : ∀ mv cause, ShutDown cause s (protectiveShutdown (setV48 s mv) cause) := fun mv cause =>
    shutDown_of_same (u := setV48 s mv) hgood hshut hgood rfl rfl rfl cause
  refine ⟨fun mv hlo hhi => ?_, fun mv hlo => ?_, fun hlow => ?_, fun hhigh => ?_⟩
  · exact hshuts _ 3 _ (congrArg Host.Outcome.next ((if_pos ⟨hlo, hhi⟩).trans (if_pos hgood))) (hlevel mv 3)
  · exact hshuts _ 4 _ (congrArg Host.Outcome.next (if_pos ⟨hgood, hlo⟩)) (hlevel mv 4)
  · exact hshuts _ 3 _ (congrArg Host.Outcome.next (if_pos hlow))
      (shutDown_of_same (u := withPower s { s.power with lowTimer := false }) hgood hshut hgood rfl rfl rfl 3)
  · exact hshuts _ 4 _ (congrArg Host.Outcome.next (if_pos hhigh))
      (shutDown_of_same (u := withPower s { s.power with highTimer := false }) hgood hshut hgood rfl rfl rfl 4)

end Sys2Proof.Machine

/-! PROOF. A cold reset (spec/04 R74, spec/05 R110, Table BOOT-2). -/

namespace Sys2Proof.Machine

open Sys2Proof

/-- The package after a cold reset. -/
def coldState (s : State) : State := { State.reset with
  pending := s.pending
  dict := s.dict.filter (fun e => fusedObj (e.1 / 256))
  blobs := s.blobs.filter (fun e => fusedObj (e.1 / 256))
  pins := { s.pins with v48Mv := 0 }
  nv := { s.nv with dirty := false }
  mgmt := { nonces := s.mgmt.nonces }
  fw := { s.fw with active := 0 }
  weir := { nextOp := s.weir.nextOp }
  eps := s.eps.map (fun e => (e.1, { perst := e.2.perst }))
  mem := { host := s.mem.host, epoch := s.mem.epoch + 1, free := s.mem.free }
  nowUs := s.nowUs
  out := s.out }

theorem exec_coldReset (s : State) : exec .coldReset s = .next (coldState s) := rfl

/-- Of an endpoint PERSTn_N is kept, and nothing else. -/
theorem tabGet_perstOnly (eps : Tab Endpoint) (e : Nat) :
    tabGet {} (eps.map (fun x => (x.1, ({ perst := x.2.perst } : Endpoint)))) e = { perst := (tabGet {} eps e : Endpoint).perst } := by
  induction eps with
  | nil => rfl
  | cons x eps ih =>
    obtain ⟨i, v⟩ := x
    rw [List.map_cons, tabGet, tabGet, tabGet?_cons, tabGet?_cons]
    split
    · rfl
    · exact ih

/-- An object is read from what is fused. -/
theorem tabGet?_dict_coldState (s : State) (o : Nat) {sub : Nat} (hsub : sub < 256) :
    tabGet? (coldState s).dict (objKey o sub) = if fusedObj o then tabGet? s.dict (objKey o sub) else none := by
  have hindex : objKey o sub / 256 = o := by rw [objKey]; omega
  refine (tabGet?_filter s.dict (fun k => fusedObj (k / 256)) _).trans ?_
  rw [hindex]

/-- Every byte of the package is unspecified anew. -/
theorem readByte_coldState (s : State) (a : Nat) : readByte (coldState s) a = Config.unwrittenByte (s.mem.epoch + 1) a := by
  rw [readByte]
  split <;> rfl

/-- Settles O9: nothing of State.reset is changed but what is put back. -/
theorem coldResetKeepsOnlyThePersisted : Obligations.ColdResetKeepsOnlyThePersisted := by
  unfold Obligations.ColdResetKeepsOnlyThePersisted
  intro s
  have heps : ∀ e, epOf (coldState s) e = { perst := (epOf s e).perst } := tabGet_perstOnly s.eps
  refine ⟨coldState s, exec_coldReset s, rfl, rfl, rfl, rfl, rfl, rfl, rfl, rfl, rfl, rfl, rfl, rfl, rfl, rfl, rfl, rfl, rfl, rfl, rfl,
    rfl, rfl, rfl, rfl, rfl, rfl, rfl, rfl, rfl, fun e => by rw [heps]; exact ⟨rfl, rfl⟩, fun _ => rfl, fun _ _ => rfl,
    readByte_coldState s, fun o sub hsub hfused => ?_, fun o sub hsub hfused => ?_⟩
  · rw [rd, tabGet?_dict_coldState s o hsub, hfused]
    rfl
  · exact rd_congr ((tabGet?_dict_coldState s o hsub).trans (if_pos hfused))

end Sys2Proof.Machine

/-! PROOF. The envelope's demand (spec/04 R78, spec/03 R58). -/

namespace Sys2Proof.Machine

open Sys2Proof

/-! ### A demand that changes -/

/-- A sequencer that turns back keeps its level and its rail. -/
theorem seqOf_turnBack (s : State) (q r : Nat) :
    (seqOf (turnBack s q) r).level = (seqOf s r).level ∧ (seqOf (turnBack s q) r).railMv = (seqOf s r).railMv := by
  unfold turnBack
  extract_lets x
  split
  · by_cases hr : r = q
    · subst hr
      rw [seqOf_setSeq_self]
      exact ⟨rfl, rfl⟩
    · rw [seqOf_setSeq_ne s _ hr]
      exact ⟨rfl, rfl⟩
  · exact ⟨rfl, rfl⟩

theorem seqOf_foldl_turnBack (l : List Nat) (s : State) (r : Nat) :
    (seqOf (l.foldl turnBack s) r).level = (seqOf s r).level ∧ (seqOf (l.foldl turnBack s) r).railMv = (seqOf s r).railMv := by
  induction l generalizing s with
  | nil => exact ⟨rfl, rfl⟩
  | cons q l ih =>
    obtain ⟨hlevel, hrail⟩ := ih (turnBack s q)
    obtain ⟨hlevel', hrail'⟩ := seqOf_turnBack s q r
    exact ⟨hlevel.trans hlevel', hrail.trans hrail'⟩

/-- A change of demand moves no level and no rail. -/
theorem seqOf_demandChanged (s : State) (r : Nat) :
    (seqOf (demandChanged s) r).level = (seqOf s r).level ∧ (seqOf (demandChanged s) r).railMv = (seqOf s r).railMv := by
  have hback := seqOf_foldl_turnBack (List.range 8) s r
  rw [demandChanged]
  generalize (List.range 8).foldl turnBack s = u at hback ⊢
  exact hback

/-- Operations alike but for THROTTLED, whichever value of it is taken. -/
theorem unthrottled_of_throttled {l m : List Op}
    (h : l.map (fun o => { o with throttled := true }) = m.map (fun o => { o with throttled := true })) :
    l.map (fun o => { o with throttled := false }) = m.map (fun o => { o with throttled := false }) := by
  have hmap := congrArg (List.map (fun o : Op => { o with throttled := false })) h
  rw [List.map_map, List.map_map] at hmap
  exact hmap

/-! ### The envelope's demand stored -/

/-- The count of low periods. -/
def lowPower (s : State) (low : Nat) : Power := { s.power with lowPeriods := low }

/-- From `s` to `t` the count of low periods is set, and beside the envelope's demand at most phases of sequencers and THROTTLED of
operations have changed. -/
structure EnvMoved (low d : Nat) (s t : State) : Prop where
  demand : rd t oENV_DEMAND 0 = d
  objs : SameObjs [objKey oENV_DEMAND 0] s t
  ops : t.weir.ops.map (fun o => { o with throttled := false }) = s.weir.ops.map (fun o => { o with throttled := false })
  seqs : ∀ q, (seqOf t q).level = (seqOf s q).level ∧ (seqOf t q).railMv = (seqOf s q).railMv
  rest : t = { s with dict := t.dict, power := lowPower s low, clock := { s.clock with seqs := t.clock.seqs }
                      weir := { s.weir with ops := t.weir.ops } }

/-- The demand stays. -/
theorem envMoved_same (s : State) (low : Nat) : EnvMoved low (rd s oENV_DEMAND 0) s (withPower s (lowPower s low)) :=
  ⟨rfl, SameObjs.refl _ s, rfl, fun _ => ⟨rfl, rfl⟩, rfl⟩

/-- The demand moves. -/
theorem envMoved_setEnv (s : State) (low d : Nat) : EnvMoved low d s (setEnv (withPower s (lowPower s low)) d) := by
  obtain ⟨hrest, hops⟩ := demandRead_demandChanged (wr (withPower s (lowPower s low)) oENV_DEMAND 0 d)
  have hseqs := seqOf_demandChanged (wr (withPower s (lowPower s low)) oENV_DEMAND 0 d)
  rw [setEnv]
  generalize demandChanged (wr (withPower s (lowPower s low)) oENV_DEMAND 0 d) = t at hrest hops hseqs
  have hdict : t.dict = tabPut s.dict (objKey oENV_DEMAND 0) d := by
    rw [hrest]
    rfl
  refine ⟨?_, fun k hk => ?_, unthrottled_of_throttled hops, hseqs, ?_⟩
  · exact (rd_congr (by rw [hdict]; rfl)).trans (rd_wr_self s oENV_DEMAND 0 d)
  · rw [hdict]
    exact tabGet?_tabPut_ne _ _ (List.ne_of_not_mem_cons hk)
  · rw [hrest]
    rfl

/-! ### The commands -/

/-- What the end of a period makes of the demand and of the count of low periods: the new count, and the new demand where it moves. -/
def periodEnd (s : State) (mw : Nat) : State :=
  if powerEnv s * 1000 < mw then setEnv (withPower s (lowPower s 0)) (min 7 (rd s oENV_DEMAND 0 + 1))
  else if mw * 100 < powerEnv s * 1000 * 95 then
    if 9 ≤ s.power.lowPeriods then setEnv (withPower s (lowPower s 0)) (rd s oENV_DEMAND 0 - 1)
    else withPower s (lowPower s (s.power.lowPeriods + 1))
  else withPower s (lowPower s 0)

theorem exec_envPeriodEnd {s : State} (h : envActs s = true) (mw : Nat) : exec (.envPeriodEnd mw) s = .next (periodEnd s mw) :=
  congrArg Host.Outcome.next (if_pos h)

theorem exec_envFastRaise {s : State} (h : envActs s = true) {mw : Nat} (hmw : powerEnv s * 1100 < mw) :
    exec (.envFastRaise mw) s = .next (setEnv (withPower s (lowPower s s.power.lowPeriods)) (min 7 (rd s oENV_DEMAND 0 + 1))) :=
  congrArg Host.Outcome.next (if_pos ⟨h, hmw⟩)

/-- Settles O21: each case of the command stores the demand, or leaves it, over the state with the count of low periods set. -/
theorem envelopeDemandMoves : Obligations.EnvelopeDemandMoves := by
  unfold Obligations.EnvelopeDemandMoves
  intro s mw hacts env d frame
  have hframe : ∀ {low v t}, EnvMoved low v s t → rd t oENV_DEMAND 0 = v ∧ frame low t := fun h =>
    ⟨h.demand, h.objs, h.ops, h.seqs, h.rest⟩
  refine ⟨⟨_, exec_envPeriodEnd hacts mw, fun hover => ?_, fun hmax hlow hfew => ?_, fun hmax hlow hmany => ?_, fun hmax hhigh => ?_⟩,
    fun hmw => ⟨_, exec_envFastRaise hacts hmw, hframe (envMoved_setEnv s _ _)⟩⟩
  · rw [periodEnd, if_pos hover]
    exact hframe (envMoved_setEnv s 0 _)
  · rw [periodEnd, if_neg (Nat.not_lt.mpr hmax), if_pos hlow, if_neg (Nat.not_le.mpr hfew)]
    exact hframe (envMoved_same s _)
  · rw [periodEnd, if_neg (Nat.not_lt.mpr hmax), if_pos hlow, if_pos hmany]
    exact hframe (envMoved_setEnv s 0 _)
  · rw [periodEnd, if_neg (Nat.not_lt.mpr hmax), if_neg (Nat.not_lt.mpr hhigh)]
    exact hframe (envMoved_same s 0)

end Sys2Proof.Machine

/-! PROOF. A power envelope outside its range (spec/04 R76). -/

namespace Sys2Proof.Machine

open Sys2Proof

/-- A number of the right size, written by a session with the role and in a mode that takes it, comes to the rules of its value. -/
theorem Setting.writeObject_eq_writeValue {index sub v : Nat} {r : ObjRow} (hset : Setting index r)
    (hsub : r.subLo ≤ sub ∧ sub ≤ r.subHi) {s : State} {x : Session} (hrole : writeRole r ≤ x.role) (hscope : isScoped x = false)
    (hmode : s.power.fullMode = true ∨ (0x3000 ≤ index ∧ index < 0x7000)) (hfit : v < 256 ^ r.size) (req : Req) (dst : Src) :
    writeObject s x index sub (numBytes r.size v) req dst = writeValue s x r index sub (leBytes r.size v) := by
  have hcmd : r.access ≠ .cmd := by
    rcases hset.access with hrw | hrwm
    · rw [hrw]; decide
    · rw [hrwm]; decide
  rw [writeObject, presentObj_of_rows s hset.port hset.rows hsub]
  dsimp only
  rw [numBytes, if_pos hfit, if_neg (by omega), writeScope, hscope, hset.taken hmode, if_neg hcmd]
  rfl

/-- A value of the right size that the object does not accept. -/
theorem Setting.writeValue_refuses {index sub v : Nat} {r : ObjRow} (hset : Setting index r) {s : State} (hfit : v < 256 ^ r.size)
    (hout : inRange (persistedView s) r index sub (v &&& objMask r index) (leBytes r.size v) = false) (x : Session) :
    writeValue s x r index sub (leBytes r.size v) = refuse s errOUT_OF_RANGE := by
  have hnum : leNat (leBytes r.size v) = v := by rw [leNat_leBytes, Nat.mod_eq_of_lt hfit]
  have htyped : typeOk r index (leBytes r.size v).length = true := by rw [hset.typed, leBytes_length, beq_self_eq_true]
  rw [writeValue, hset.number, if_neg Bool.false_ne_true, hnum, htyped, valueOk, hout]
  rfl

/-- Settles O53: the value passes every check but that of its range, which refuses it; a refusal changes no object. -/
theorem envelopeOutsideTheRangeIsRefused : Obligations.EnvelopeOutsideTheRangeIsRefused := by
  unfold Obligations.EnvelopeOutsideTheRangeIsRefused
  intro s req x v h hrole hfull hok hv hout
  have hmask : v &&& (2 ^ 16 - 1) = v := by rw [Nat.and_two_pow_sub_one_eq_mod, Nat.mod_eq_of_lt hv]
  have hvariant : variantOf (persistedView (takenState s x req)) = variantOf s :=
    rd_persistedView (s := takenState s x req) hok (by decide) (by decide)
  have hrange : inRange (persistedView (takenState s x req)) rowPOWER_ENV oPOWER_ENV 0 (v &&& objMask rowPOWER_ENV oPOWER_ENV)
      (leBytes rowPOWER_ENV.size v) = false := by
    rw [show objMask rowPOWER_ENV oPOWER_ENV = 2 ^ 16 - 1 from rfl, hmask]
    exact decide_eq_false (by rw [hvariant]; omega)
  have hwrite := setting_POWER_ENV.writeObject_eq_writeValue (r := rowPOWER_ENV) (s := takenState s x req) (x := takenSession x req)
    (sub := 0) ⟨Nat.le_refl 0, Nat.le_refl 0⟩ hrole (unscoped_of_maintainer (x := takenSession x req) hrole) (.inl hfull) hv req x.src
  obtain ⟨t, hexec, hsays, hreplied⟩ := refuses_of_refuse h (rfl : exec (.powerEnvWrite req v) s = _)
    (hwrite.trans (setting_POWER_ENV.writeValue_refuses hv hrange _))
  have hdict : tabGet? t.dict (objKey oPOWER_ENV 0) = tabGet? s.dict (objKey oPOWER_ENV 0) := hreplied.objs _ List.not_mem_nil
  have hsame : variantOf t = variantOf s := rd_congr (hreplied.objs _ List.not_mem_nil)
  refine ⟨t, hexec, hsays, rd_congr hdict, ?_, hreplied⟩
  rw [powerEnv, powerEnv, rdOr, rdOr, hdict, hsame]

end Sys2Proof.Machine

/-! PROOF. A thermal state left while an operation is taken back from a core that runs it (spec/04 R88 to R90). -/

namespace Sys2Proof.Machine

open Sys2Proof

/-- A COPY placed on core 0, of quadrant 0. -/
def placedCopy : Op := { id := 0, part := 0, queue := 0, desc := plainDesc 0x02 1, phase := .placed, core := some 0 }

/-- The package with quadrants 0 and 1 HOT, the COPY placed on core 0, and that core taken to execute it while a core reset waits. -/
def hotPlaced : State :=
  { fullWith placedCopy { exec := some 0, load := some .coreReset } [] with therm := { quad := [(0, .hot), (1, .hot)] } }

/-- Quadrant 1 leaves HOT, the COPY is taken back from quadrant 0, and the core reset that waited clears the store of core 0. -/
theorem thermalStateExit_hotPlaced : ∃ t, exec (.thermalStateExit false 1) hotPlaced = .next t ∧ t.mem.fills ≠ hotPlaced.mem.fills :=
  ⟨_, rfl, by decide +kernel⟩

/-- Refutes O23: where a core is taken to execute an operation that is only placed on it, with a core reset pending there, taking the
operation back from a HOT quadrant clears the core's store, so THERMAL_STATE_EXIT changes memory. The statement lacks the premise that
no placed operation executes on its core. -/
theorem not_thermalStatesEnteredAndLeft : ¬ Obligations.ThermalStatesEnteredAndLeft := by
  intro h
  obtain ⟨t, ht, hfills⟩ := thermalStateExit_hotPlaced
  obtain ⟨-, hexit⟩ := h hotPlaced rfl
  obtain ⟨t', ht', -, -, -, hmem, -⟩ := hexit false 1 (by decide) (by decide +kernel) (by decide +kernel) (by decide +kernel)
  obtain rfl : t = t' := by simpa [ht] using ht'
  exact hfills (congrArg Mem.fills hmem)

end Sys2Proof.Machine

/-! PROOF. O3: the state after a cold reset (spec/05 Table BOOT-2, R110). -/

namespace Sys2Proof.Machine

open Sys2Proof

/-- Settles O3: every component of `State.reset` is its default, and the objects read at their Defaults. -/
theorem resetIsEmptyAndWellFormed : Obligations.ResetIsEmptyAndWellFormed := by
  unfold Obligations.ResetIsEmptyAndWellFormed
  refine ⟨rfl, rfl, rfl, rfl, rfl, rfl, rfl, rfl, rfl, rfl, rfl, wf_reset, rfl, rfl, rfl, rfl, rfl, rfl, rfl, rfl, rfl, ?_, ?_, ?_⟩
  · decide
  · decide
  · decide

end Sys2Proof.Machine

/-! PROOF. O5: the listings whose order every step keeps, and what leaves them as they were (spec/05 R105, R106; spec/11 R225,
R234). -/

namespace Sys2Proof.Machine

open Sys2Proof

/-! ### The rolls of a state -/

/-- What the order of a state is about: admitted operations and the next number, intake queues, Spawn table, persisted copies, and
the values that wait for a start. -/
structure Rolls where
  ops : List Op
  nextOp : Nat
  iqs : Tab Iq
  spawn : Spawn
  copyA : NvCopy
  copyB : NvCopy
  staged : Tab Nat
  stagedBlobs : Tab (List Byte)

/-- The rolls that a state holds. -/
def State.rolls (s : State) : Rolls :=
  ⟨s.weir.ops, s.weir.nextOp, s.iqs, s.spawn, s.nv.copyA, s.nv.copyB, s.staged, s.stagedBlobs⟩

/-- An operation of one of the 128 partitions; a collective of one of the 16 groups. -/
structure Op.InRange (o : Op) : Prop where
  part : o.part < 128
  group : ∀ r ∈ o.coll, r.group < 16

/-- A copy of persisted objects only. -/
def NvCopy.Persists (c : NvCopy) : Prop := (∀ e ∈ c.nums, keyPersists e.1 = true) ∧ ∀ e ∈ c.blobs, keyPersists e.1 = true

/-- The key of an object of 0x3000 to 0x6FFF (R105). -/
def SettingKey (k : Nat) : Prop := objKey 0x3000 0 ≤ k ∧ k < objKey 0x7000 0

/-- A table of values that wait for a start. -/
structure Waits {α : Type} (t : Tab α) : Prop where
  sorted : tabSorted t = true
  keys : ∀ e ∈ t, SettingKey e.1

/-- The rolls are in order. -/
structure Rolls.Ok (v : Rolls) : Prop where
  ids : ascending (v.ops.map (fun o => o.id)) = true
  below : ∀ o ∈ v.ops, o.id < v.nextOp
  ops : ∀ o ∈ v.ops, o.InRange
  iqs : tabSorted v.iqs = true
  branches : tabSorted v.spawn.branches = true
  refs : tabSorted v.spawn.refs = true
  copyA : v.copyA.Persists
  copyB : v.copyB.Persists
  staged : Waits v.staged
  stagedBlobs : Waits v.stagedBlobs

/-- The rolls are in order just where the statement says so. -/
theorem rollsOk_iff (s : State) : s.rolls.Ok ↔ opsOk s.weir = true ∧ tabSorted s.iqs = true ∧ spawnOk s.spawn = true ∧
    copiesOk s.nv = true ∧ stagedOk s = true := by
  simp only [opsOk, spawnOk, copiesOk, stagedOk, Bool.and_eq_true, List.all_eq_true, decide_eq_true_eq, Option.all_eq_true]
  constructor
  · rintro ⟨hids, hbelow, hops, hiqs, hbranches, hrefs, hcopyA, hcopyB, hstaged, hblobs⟩
    exact ⟨⟨hids, fun o ho => ⟨⟨hbelow o ho, (hops o ho).part⟩, (hops o ho).group⟩⟩, hiqs, ⟨hbranches, hrefs⟩,
      ⟨⟨⟨hcopyA.1, hcopyB.1⟩, hcopyA.2⟩, hcopyB.2⟩, ⟨⟨⟨hstaged.1, hblobs.1⟩, hstaged.2⟩, hblobs.2⟩⟩
  · rintro ⟨⟨hids, hops⟩, hiqs, ⟨hbranches, hrefs⟩, ⟨⟨⟨hnumsA, hnumsB⟩, hblobsA⟩, hblobsB⟩, ⟨⟨⟨hsorted, hsortedB⟩, hkeys⟩, hkeysB⟩⟩
    exact ⟨hids, fun o ho => (hops o ho).1.1, fun o ho => ⟨(hops o ho).1.2, (hops o ho).2⟩, hiqs, hbranches, hrefs, ⟨hnumsA, hblobsA⟩,
      ⟨hnumsB, hblobsB⟩, ⟨hsorted, hkeys⟩, ⟨hsortedB, hkeysB⟩⟩

/-! ### What leaves the rolls alone -/

/-- Fields of other parts of the state are not read. -/
@[simp] theorem rolls_with (s : State) (pending : List Instr) (pins : Pins) (power : Power) (clock : Clock) (therm : ThermState)
    (dict : Tab Nat) (blobs : Tab (List Byte)) (mgmt : Mgmt) (fw : Fw) (cqs : Tab Cq) (parts : Tab PartRec) (eps : Tab Endpoint)
    (fns : Tab FnRec) (hostHeld : List HostReq) (outRecords : List (Op × Measured)) (cores : Tab Core) (mem : Mem) (fabric : Fabric)
    (regr : Regr) (jtag : Jtag) (nowUs : Nat) (out : List Emit) :
    State.rolls { s with
      pending := pending, pins := pins, power := power, clock := clock, therm := therm, dict := dict, blobs := blobs, mgmt := mgmt
      fw := fw, cqs := cqs, parts := parts, eps := eps, fns := fns, hostHeld := hostHeld, outRecords := outRecords, cores := cores
      mem := mem, fabric := fabric, regr := regr, jtag := jtag, nowUs := nowUs, out := out } = s.rolls := rfl

/-- Nor is what stands beside the copies in what survives every rail, nor what stands beside the operations in the Weir. -/
@[simp] theorem rolls_with_nv (s : State) (pending : List Instr) (pins : Pins) (power : Power) (clock : Clock) (therm : ThermState)
    (dict : Tab Nat) (blobs : Tab (List Byte)) (mgmt : Mgmt) (fw : Fw) (cqs : Tab Cq) (parts : Tab PartRec) (eps : Tab Endpoint)
    (fns : Tab FnRec) (hostHeld : List HostReq) (outRecords : List (Op × Measured)) (cores : Tab Core) (mem : Mem) (fabric : Fabric)
    (regr : Regr) (jtag : Jtag) (nowUs : Nat) (out : List Emit) (dirty : Bool) (repair : List Repair) (lanes : Tab Nat) (bootNo : Nat) :
    State.rolls { s with
      pending := pending, pins := pins, power := power, clock := clock, therm := therm, dict := dict, blobs := blobs, mgmt := mgmt
      fw := fw, cqs := cqs, parts := parts, eps := eps, fns := fns, hostHeld := hostHeld, outRecords := outRecords, cores := cores
      mem := mem, fabric := fabric, regr := regr, jtag := jtag, nowUs := nowUs, out := out
      nv := { s.nv with dirty := dirty, repair := repair, lanes := lanes, bootNo := bootNo } } = s.rolls := rfl

@[simp] theorem rolls_with_weir (s : State) (counts : Tab Nat) (marks : Tab (List Nat)) (rotation : Tab Nat) (parkedNo : Nat) :
    State.rolls { s with weir := { s.weir with counts := counts, marks := marks, rotation := rotation, parkedNo := parkedNo } } =
      s.rolls := rfl

@[simp] theorem rolls_ite (c : Prop) [Decidable c] (s t : State) :
    (if c then s else t).rolls = if c then s.rolls else t.rolls := apply_ite _ _ _ _

/-- A fold of what leaves the rolls alone leaves them alone. -/
@[simp] theorem rolls_foldl {α : Type} {f : State → α → State} (hf : ∀ s x, (f s x).rolls = s.rolls) (l : List α) (s : State) :
    (l.foldl f s).rolls = s.rolls := by
  induction l generalizing s with
  | nil => rfl
  | cons x r ih => exact (ih (f s x)).trans (hf s x)

@[simp] theorem rolls_wr (s : State) (o sub v : Nat) : (wr s o sub v).rolls = s.rolls := by
  simp [wr]

@[simp] theorem rolls_wrP (s : State) (o sub v : Nat) : (wrP s o sub v).rolls = s.rolls := by
  simp [wrP]

@[simp] theorem rolls_wrBytes (s : State) (o sub : Nat) (b : List Byte) : (wrBytes s o sub b).rolls = s.rolls := by
  simp [wrBytes]

@[simp] theorem rolls_wrBytesP (s : State) (o sub : Nat) (b : List Byte) : (wrBytesP s o sub b).rolls = s.rolls := by
  simp [wrBytesP]

@[simp] theorem rolls_count32 (s : State) (o sub n : Nat) : (count32 s o sub n).rolls = s.rolls := by
  simp [count32]

@[simp] theorem rolls_count32P (s : State) (o sub n : Nat) : (count32P s o sub n).rolls = s.rolls := by
  simp [count32P]

@[simp] theorem rolls_clearObjs (s : State) (p : Nat → Bool) : (clearObjs s p).rolls = s.rolls := by
  simp [clearObjs]

@[simp] theorem rolls_emit (s : State) (e : Emit) : (emit s e).rolls = s.rolls := by
  simp [emit]

@[simp] theorem rolls_storeChannels (s : State) (k : Nat) : (storeChannels s k).rolls = s.rolls := by
  simp [storeChannels]

@[simp] theorem rolls_addRepair (s : State) (r : Repair) : (addRepair s r).rolls = s.rolls := by
  simp [addRepair]

@[simp] theorem rolls_setCore (s : State) (c : Nat) (v : Core) : (setCore s c v).rolls = s.rolls := by
  simp [setCore]

@[simp] theorem rolls_setPort (s : State) (n : Nat) (v : Port) : (setPort s n v).rolls = s.rolls := by
  simp [setPort]

@[simp] theorem rolls_setCtx (s : State) (x : Nat) (v : Ctx) : (setCtx s x v).rolls = s.rolls := by
  simp [setCtx]

@[simp] theorem rolls_setCq (s : State) (q : Nat) (v : Cq) : (setCq s q v).rolls = s.rolls := by
  simp [setCq]

@[simp] theorem rolls_setPart (s : State) (p : Nat) (v : PartRec) : (setPart s p v).rolls = s.rolls := by
  simp [setPart]

@[simp] theorem rolls_setEp (s : State) (e : Nat) (v : Endpoint) : (setEp s e v).rolls = s.rolls := by
  simp [setEp]

@[simp] theorem rolls_setSeq (s : State) (q : Nat) (v : QuadSeq) : (setSeq s q v).rolls = s.rolls := by
  simp [setSeq]

@[simp] theorem rolls_setBox (s : State) (e : Nat) (v : Mailbox) : (setBox s e v).rolls = s.rolls := by
  simp [setBox]

@[simp] theorem rolls_setFn (s : State) (fn : Nat) (v : FnRec) : (setFn s fn v).rolls = s.rolls := by
  simp [setFn]

@[simp] theorem rolls_storeDivisor (s : State) (q level : Nat) : (storeDivisor s q level).rolls = s.rolls := by
  simp [storeDivisor]

@[simp] theorem rolls_storeRefresh (s : State) (k : Nat) : (storeRefresh s k).rolls = s.rolls := by
  simp [storeRefresh]

@[simp] theorem rolls_storeRefreshAll (s : State) : (storeRefreshAll s).rolls = s.rolls := by
  simp [storeRefreshAll]

@[simp] theorem rolls_sendMsix (s : State) (fn v : Nat) : (sendMsix s fn v).rolls = s.rolls := by
  simp [sendMsix]

@[simp] theorem rolls_flushMsix (s : State) (fn : Nat) : (flushMsix s fn).rolls = s.rolls := by
  simp [flushMsix]

@[simp] theorem rolls_boxIrq (s : State) (e : Nat) : (boxIrq s e).rolls = s.rolls := by
  simp [boxIrq]

@[simp] theorem rolls_reply (s : State) (src : Src) (b : List Byte) : (reply s src b).rolls = s.rolls := by
  unfold reply
  split <;> simp

@[simp] theorem rolls_placeNote (s : State) (e : Nat) (b : List Byte) : (placeNote s e b).rolls = s.rolls := by
  simp [placeNote]

@[simp] theorem rolls_waitNote (s : State) (e : Nat) (keep : BoxItem → Bool) (i : BoxItem) : (waitNote s e keep i).rolls = s.rolls := by
  simp [waitNote]

@[simp] theorem rolls_sendNote (s : State) (src : Src) (b : List Byte) : (sendNote s src b).rolls = s.rolls := by
  unfold sendNote
  split <;> simp

theorem rolls_offerNote (s : State) (x : Session) (n : Note) : (offerNote s x n).2.rolls = s.rolls := by
  unfold offerNote
  split
  · simp
  · split <;> simp

theorem rolls_notifyEach (cls index sub value : Nat) (l : List Session) (s : State) :
    (notifyEach cls index sub value l s).2.rolls = s.rolls := by
  induction l generalizing s with
  | nil => rfl
  | cons x r ih =>
    simp only [notifyEach]
    split
    · refine (ih _).trans ?_
      split <;> simp [rolls_offerNote]
    · exact ih s

@[simp] theorem rolls_notify (s : State) (cls index sub value : Nat) : (notify s cls index sub value).rolls = s.rolls := by
  unfold notify
  simp [rolls_notifyEach]

@[simp] theorem rolls_wrNote (s : State) (cls o sub v : Nat) : (wrNote s cls o sub v).rolls = s.rolls := by
  simp [wrNote]

@[simp] theorem rolls_wrNoteP (s : State) (cls o sub v : Nat) : (wrNoteP s cls o sub v).rolls = s.rolls := by
  simp [wrNoteP]

@[simp] theorem rolls_clkBit (s : State) (i : Nat) (b : Bool) : (clkBit s i b).rolls = s.rolls := by
  simp [clkBit]

@[simp] theorem rolls_pwrBit (s : State) (i : Nat) (b : Bool) : (pwrBit s i b).rolls = s.rolls := by
  simp [pwrBit]

@[simp] theorem rolls_bootFault (s : State) (i : Nat) : (bootFault s i).rolls = s.rolls := by
  simp [bootFault]

@[simp] theorem rolls_stage (s : State) (v : Nat) : (stage s v).rolls = s.rolls := by
  simp [stage]

@[simp] theorem rolls_setPortCode (s : State) (n code : Nat) : (setPortCode s n code).rolls = s.rolls := by
  simp [setPortCode]

@[simp] theorem rolls_logError (s : State) (cls scope cause location addr action : Nat) :
    (logError s cls scope cause location addr action).rolls = s.rolls := by
  unfold logError
  split <;> simp

@[simp] theorem rolls_contained (s : State) (scope cause location addr action : Nat) :
    (contained s scope cause location addr action).rolls = s.rolls := by
  simp [contained]

@[simp] theorem rolls_startJob (s : State) (j : RegrJob) : (startJob s j).rolls = s.rolls := by
  simp [startJob]

@[simp] theorem rolls_poisonLine (s : State) (line : Nat) : (poisonLine s line).rolls = s.rolls := by
  simp [poisonLine]

@[simp] theorem rolls_cleanLine (s : State) (line : Nat) : (cleanLine s line).rolls = s.rolls := by
  simp [cleanLine]

@[simp] theorem rolls_putCells (s : State) (a : Nat) (b : List Byte) : (putCells s a b).rolls = s.rolls := by
  simp [putCells]

@[simp] theorem rolls_putLine (s : State) (a : Nat) (b : List Byte) : (putLine s a b).rolls = s.rolls := by
  simp [putLine]

@[simp] theorem rolls_drainEntry (s : State) (k : Nat) (e : EddyEntry) : (drainEntry s k e).rolls = s.rolls := by
  simp [drainEntry]

@[simp] theorem rolls_setEddy (s : State) (k : Nat) (es : List EddyEntry) : (setEddy s k es).rolls = s.rolls := by
  simp [setEddy]

@[simp] theorem rolls_drainBurst (s : State) (k : Nat) (e : EddyEntry) : (drainBurst s k e).rolls = s.rolls := by
  simp [drainBurst]

/-- Room made for a new entry leaves the rolls alone: the oldest one is drained. -/
theorem rolls_makeRoom (s : State) (k : Nat) (es : List EddyEntry) :
    (if 64 ≤ es.length then
      match es.head? with
      | some oldest => drainBurst s k oldest
      | none => s
    else s).rolls = s.rolls := by
  split
  · split <;> simp
  · rfl

@[simp] theorem rolls_eddyEnter (s : State) (op a : Nat) (b : List Byte) : (eddyEnter s op a b).rolls = s.rolls := by
  unfold eddyEnter
  extract_lets k line s1 es
  have h1 : s1.rolls = s.rolls := by simp [s1]
  clear_value s1 es
  split
  · simp [h1]
  · rename_i s2 e s3 _ _
    have h3 : s3.rolls = s.rolls := (rolls_setEddy _ _ _).trans ((rolls_makeRoom s1 k es).trans h1)
    clear_value s3
    split
    · exact (rolls_drainBurst _ _ _).trans h3
    · exact h3

@[simp] theorem rolls_flushWaits (s : State) (k : Nat) : (flushWaits s k).rolls = s.rolls := by
  simp [flushWaits]

@[simp] theorem rolls_eddyStore (s : State) (op a : Nat) (b : List Byte) : (eddyStore s op a b).rolls = s.rolls := by
  simp [eddyStore]

@[simp] theorem rolls_waitWrite (s : State) (w : EddyWait) : (waitWrite s w).rolls = s.rolls := by
  simp [waitWrite]

@[simp] theorem rolls_eddyPut (s : State) (w : EddyWait) : (eddyPut s w).rolls = s.rolls := by
  unfold eddyPut
  dsimp only
  split
  · simp
  · split <;> simp

@[simp] theorem rolls_retryWaits (s : State) : (retryWaits s).rolls = s.rolls := by
  simp [retryWaits]

@[simp] theorem rolls_storeLine (s : State) (op a : Nat) (b : List Byte) : (storeLine s op a b).rolls = s.rolls := by
  simp [storeLine]

@[simp] theorem rolls_landPosted (fn : Nat) (s : State) (w : Posted) : (landPosted fn s w).rolls = s.rolls := by
  simp [landPosted]

@[simp] theorem rolls_hostStore (s : State) (fn a : Nat) (b : List Byte) : (hostStore s fn a b).rolls = s.rolls := by
  simp [hostStore]

@[simp] theorem rolls_storeBytes (s : State) (p op a : Nat) (b : List Byte) : (storeBytes s p op a b).rolls = s.rolls := by
  unfold storeBytes
  split <;> simp

@[simp] theorem rolls_storeAll (s : State) (p op : Nat) (ws : List (Nat × List Byte)) : (storeAll s p op ws).rolls = s.rolls := by
  simp [storeAll]

@[simp] theorem rolls_drawFree (s : State) : (drawFree s).rolls = s.rolls := by
  simp [drawFree]

@[simp] theorem rolls_fillRegion (s : State) (lo hi : Nat) (free : Option Nat) : (fillRegion s lo hi free).rolls = s.rolls := by
  simp [fillRegion]

@[simp] theorem rolls_freeHost (s : State) (fn a n num : Nat) : (freeHost s fn a n num).rolls = s.rolls := by
  simp [freeHost]

@[simp] theorem rolls_freeRegion (s : State) (p a n : Nat) : (freeRegion s p a n).rolls = s.rolls := by
  unfold freeRegion
  split
  · rfl
  · dsimp only
    split <;> simp

@[simp] theorem rolls_freeRegions (s : State) (p : Nat) (rs : List (Nat × Nat)) : (freeRegions s p rs).rolls = s.rolls := by
  simp [freeRegions]

@[simp] theorem rolls_blankStore (s : State) (c : Nat) : (blankStore s c).rolls = s.rolls := by
  simp [blankStore]

@[simp] theorem rolls_zeroStore (s : State) (c : Nat) : (zeroStore s c).rolls = s.rolls := by
  simp [zeroStore]

@[simp] theorem rolls_loseMemory (s : State) : (loseMemory s).rolls = s.rolls := by
  simp [loseMemory]

@[simp] theorem rolls_breakOf (s : State) (p g st : Nat) : (breakOf s p g st).rolls = s.rolls := by
  simp [breakOf]

@[simp] theorem rolls_breakGroup (s : State) (o : Op) (st : Nat) : (breakGroup s o st).rolls = s.rolls := by
  unfold breakGroup
  split <;> simp

@[simp] theorem rolls_clearCore (s : State) (c : Nat) : (clearCore s c).rolls = s.rolls := by
  simp [clearCore]

@[simp] theorem rolls_freeSlot (s : State) (c : Nat) (slot : Option Nat) : (freeSlot s c slot).rolls = s.rolls := by
  unfold freeSlot
  split <;> simp

@[simp] theorem rolls_useVectors (s : State) (o : Op) : (useVectors s o).rolls = s.rolls := by
  unfold useVectors
  split <;> simp

theorem rolls_runUnits {U : Type} (eff : State → Op → U → Eff) (l : List U) (s : State) (o : Op) (acc : Eff) :
    (runUnits eff l s o acc).1.rolls = s.rolls := by
  induction l generalizing s o acc with
  | nil => rfl
  | cons u r ih =>
    rw [runUnits]
    split
    · rfl
    · exact (ih _ _ _).trans (rolls_storeAll _ _ _ _)

@[simp] theorem rolls_makeCopy (o : Op) (s : State) (c : Nat × Nat × Nat) : (makeCopy o s c).rolls = s.rolls := by
  simp [makeCopy]

@[simp] theorem rolls_rewriteEntry (o : Op) (s : State) (c : Nat × Nat × Nat) : (rewriteEntry o s c).rolls = s.rolls := by
  simp [rewriteEntry]

@[simp] theorem rolls_passTile (c t : Nat) (s : State) : (passTile c t s).rolls = s.rolls := by
  simp [passTile]

@[simp] theorem rolls_emitFlit (s : State) (n : Nat) (b : List Byte) : (emitFlit s n b).rolls = s.rolls := by
  simp [emitFlit]

@[simp] theorem rolls_transmit (s : State) (n : Nat) (f : FifoFlit) : (transmit s n f).rolls = s.rolls := by
  unfold transmit
  dsimp only
  split <;> simp

theorem rolls_pumpFlits (n : Nat) (l : List FifoFlit) (s : State) : (pumpFlits n l s).1.rolls = s.rolls := by
  induction l generalizing s with
  | nil => rfl
  | cons f r ih =>
    rw [pumpFlits]
    split
    · exact (ih _).trans (rolls_transmit _ _ _)
    · rfl

@[simp] theorem rolls_pump (s : State) (n : Nat) : (pump s n).rolls = s.rolls := by
  simp [pump, rolls_pumpFlits]

@[simp] theorem rolls_putOnPort (s : State) (n vc : Nat) (m : Msg) : (putOnPort s n vc m).rolls = s.rolls := by
  simp [putOnPort]

@[simp] theorem rolls_holdBack (s : State) (w : Waiting) : (holdBack s w).rolls = s.rolls := by
  simp [holdBack]

@[simp] theorem rolls_freeRx (s : State) (w : Waiting) : (freeRx s w).rolls = s.rolls := by
  unfold freeRx
  split <;> simp

@[simp] theorem rolls_sendWaitingMsg (s : State) (w : Waiting) : (sendWaitingMsg s w).rolls = s.rolls := by
  unfold sendWaitingMsg
  split
  · simp
  · split <;> simp

@[simp] theorem rolls_sendMsg (s : State) (vc : Nat) (m : Msg) : (sendMsg s vc m).rolls = s.rolls := by
  simp [sendMsg]

@[simp] theorem rolls_unstick (s : State) : (unstick s).rolls = s.rolls := by
  simp [unstick]

@[simp] theorem rolls_flood (s : State) (skip : Option Nat) (vc : Nat) (m : Msg) : (flood s skip vc m).rolls = s.rolls := by
  simp [flood]

@[simp] theorem rolls_departAll (s : State) : (departAll s).rolls = s.rolls := by
  simp [departAll]

@[simp] theorem rolls_beginHold (s : State) : (beginHold s).rolls = s.rolls := by
  simp [beginHold]

@[simp] theorem rolls_startLane (s : State) (n lane : Nat) : (startLane s n lane).rolls = s.rolls := by
  simp [startLane]

@[simp] theorem rolls_putOffLane (s : State) (n lane : Nat) : (putOffLane s n lane).rolls = s.rolls := by
  simp [putOffLane]

@[simp] theorem rolls_portsOff (s : State) : (portsOff s).rolls = s.rolls := by
  simp [portsOff]

@[simp] theorem rolls_endSessions (s : State) : (endSessions s).rolls = s.rolls := by
  simp [endSessions]

@[simp] theorem rolls_persistedView (s : State) : (persistedView s).rolls = s.rolls := by
  simp [persistedView]

@[simp] theorem rolls_sampleStraps (s : State) (clksel : Bool) (id : Nat) : (sampleStraps s clksel id).rolls = s.rolls := by
  simp [sampleStraps]

@[simp] theorem rolls_sendBeacons (s : State) : (sendBeacons s).rolls = s.rolls := by
  simp [sendBeacons]

@[simp] theorem rolls_setV48 (s : State) (mv : Nat) : (setV48 s mv).rolls = s.rolls := by
  simp [setV48]

@[simp] theorem rolls_startQuads (s : State) : (startQuads s).rolls = s.rolls := by
  simp [startQuads]

@[simp] theorem rolls_remapCore (s : State) (c : Nat) : (remapCore s c).rolls = s.rolls := by
  unfold remapCore
  split <;> simp

theorem rolls_bistCores (failed l : List Nat) (s : State) : (bistCores failed l s).rolls = s.rolls := by
  induction l generalizing s with
  | nil => rfl
  | cons c r ih =>
    rw [bistCores]
    split
    · exact (ih _).trans (by simp)
    · exact ih s

@[simp] theorem rolls_bistSpares (s : State) (failed : List Nat) : (bistSpares s failed).rolls = s.rolls := by
  simp [bistSpares]

@[simp] theorem rolls_bistSpareBanks (s : State) (failed : List Nat) : (bistSpareBanks s failed).rolls = s.rolls := by
  simp [bistSpareBanks]

@[simp] theorem rolls_bistBank (failed : List Nat) (s : State) (x : Nat × Nat) : (bistBank failed s x).rolls = s.rolls := by
  unfold bistBank
  split
  · split <;> simp
  · rfl

@[simp] theorem rolls_retireChannel (s : State) (k c : Nat) : (retireChannel s k c).rolls = s.rolls := by
  unfold retireChannel
  split
  · rfl
  · split
    · simp
    · split <;> simp

@[simp] theorem rolls_trainStack (failed : List (Nat × Nat)) (s : State) (k : Nat) : (trainStack failed s k).rolls = s.rolls := by
  simp [trainStack]

@[simp] theorem rolls_startPorts (s : State) : (startPorts s).rolls = s.rolls := by
  simp [startPorts]

@[simp] theorem rolls_configure (s : State) (fn : Nat) (req : CfgReq) : (configure s fn req).rolls = s.rolls := by
  unfold configure
  dsimp only
  split <;> simp

@[simp] theorem rolls_configNow (s : State) (fn : Nat) (req : CfgReq) : (configNow s fn req).rolls = s.rolls := by
  simp [configNow]

@[simp] theorem rolls_holdHost (s : State) (r : HostReq) : (holdHost s r).rolls = s.rolls := by
  simp [holdHost]

@[simp] theorem rolls_countLoss (s : State) (i : Nat) : (countLoss s i).rolls = s.rolls := by
  simp [countLoss]

@[simp] theorem rolls_gatePorts (s : State) : (gatePorts s).rolls = s.rolls := by
  simp [gatePorts]

@[simp] theorem rolls_ungatePorts (s : State) : (ungatePorts s).rolls = s.rolls := by
  simp [ungatePorts]

@[simp] theorem rolls_setRelock (s : State) (die : Nat) (b : Bool) : (setRelock s die b).rolls = s.rolls := by
  simp [setRelock]

@[simp] theorem rolls_crystalStops (s : State) : (crystalStops s).rolls = s.rolls := by
  simp [crystalStops]

@[simp] theorem rolls_takeReads (s : State) : (takeReads s).rolls = s.rolls := by
  simp [takeReads]

@[simp] theorem rolls_xsend (s : State) (x : Nat) (m : Msg) (op part flow : Nat) : (xsend s x m op part flow).rolls = s.rolls := by
  simp [xsend]

theorem rolls_sendWaiting (x fuel : Nat) (s : State) : (sendWaiting x fuel s).rolls = s.rolls := by
  induction fuel generalizing s with
  | zero => rfl
  | succ n ih =>
    rw [sendWaiting]
    dsimp only
    split
    · split
      · rfl
      · exact (ih _).trans (by simp)
    · rfl

@[simp] theorem rolls_sendAck (s : State) (x credits : Nat) : (sendAck s x credits).rolls = s.rolls := rolls_sendMsg _ _ _

@[simp] theorem rolls_sendPair (s : State) (x mtype : Nat) : (sendPair s x mtype).rolls = s.rolls := by
  simp [sendPair]

@[simp] theorem rolls_dropCtx (s : State) (x : Nat) : (dropCtx s x).rolls = s.rolls := by
  simp [dropCtx]

@[simp] theorem rolls_landBytes (s : State) (p a : Nat) (b : List Byte) : (landBytes s p a b).rolls = s.rolls := by
  unfold landBytes
  dsimp only
  split
  · rw [rolls_retryWaits, rolls_foldl, rolls_storeBytes]
    intro t l
    split <;> simp
  · simp

@[simp] theorem rolls_takeReady (s : State) (o : Op) (c : CollRun) : (takeReady s o c).rolls = s.rolls := by
  simp [takeReady]

@[simp] theorem rolls_sendReady (s : State) (o : Op) (c : CollRun) : (sendReady s o c).rolls = s.rolls := by
  simp [sendReady]

@[simp] theorem rolls_addPartUj (s : State) (p uj : Nat) : (addPartUj s p uj).rolls = s.rolls := by
  simp [addPartUj]

@[simp] theorem rolls_sampleOne (stack : Bool) (s : State) (i : Nat) (readings : List (Option Int)) :
    (sampleOne stack s i readings).rolls = s.rolls := by
  unfold sampleOne
  dsimp only
  split <;> split <;> simp

@[simp] theorem rolls_joinAll (s : State) : (joinAll s).rolls = s.rolls := by
  simp [joinAll]

@[simp] theorem rolls_forgetRx (s : State) (n : Nat) : (forgetRx s n).rolls = s.rolls := by
  simp [forgetRx]

@[simp] theorem rolls_replayAll (s : State) (n : Nat) : (replayAll s n).rolls = s.rolls := by
  simp [replayAll]

@[simp] theorem rolls_takeCredits (s : State) (n : Nat) (b : List Byte) : (takeCredits s n b).rolls = s.rolls := by
  simp [takeCredits]

@[simp] theorem rolls_takeMsg (s : State) (n vc : Nat) (m : Msg) : (takeMsg s n vc m).rolls = s.rolls := by
  simp [takeMsg]

@[simp] theorem rolls_takePayload (s : State) (n vc : Nat) (p : List Byte) : (takePayload s n vc p).rolls = s.rolls := by
  simp [takePayload]

@[simp] theorem rolls_acceptFlit (s : State) (n : Nat) (b : List Byte) : (acceptFlit s n b).rolls = s.rolls := by
  simp [acceptFlit]

@[simp] theorem rolls_heldUp (s : State) : (heldUp s).rolls = s.rolls := by
  simp [heldUp]

@[simp] theorem rolls_linkReset (s : State) (n : Nat) : (linkReset s n).rolls = s.rolls := by
  simp [linkReset]

theorem rolls_sendResp (x tag parts : Nat) (l : List (List Byte)) (s : State) : (sendResp x tag parts l s).rolls = s.rolls := by
  induction l generalizing s with
  | nil => rfl
  | cons b r ih => exact (ih _).trans (by simp [answer])

theorem rolls_remoteRequests (o : Op) (l : List (Nat × Nat)) (s : State) : (remoteRequests o l s).1.rolls = s.rolls := by
  induction l generalizing s with
  | nil => rfl
  | cons x r ih => exact (ih _).trans (rolls_xsend _ _ _ _ _ _)

@[simp] theorem rolls_cqSignal (s : State) (q fn : Nat) : (cqSignal s q fn).rolls = s.rolls := by
  simp [cqSignal]

@[simp] theorem rolls_cqInterrupt (s : State) (q fn : Nat) : (cqInterrupt s q fn).rolls = s.rolls := by
  simp [cqInterrupt]

@[simp] theorem rolls_postRecord (s : State) (q fn : Nat) (r : Bool → Record) : (postRecord s q fn r).rolls = s.rolls := by
  simp [postRecord]

@[simp] theorem rolls_breakRefused (s : State) (o : Op) (st : Nat) : (breakRefused s o st).rolls = s.rolls := by
  unfold breakRefused
  split
  · split <;> simp
  · rfl

@[simp] theorem rolls_pendLoad (s : State) (l : Load) (c : Nat) : (pendLoad s l c).rolls = s.rolls := by
  simp [pendLoad]

@[simp] theorem rolls_quiet (s : State) (_x : Nat) : (quiet s _x).rolls = s.rolls := by
  simp [quiet]

@[simp] theorem rolls_answer (s : State) (x : Nat) (m : Msg) : (answer s x m).rolls = s.rolls := by
  simp [answer]

@[simp] theorem rolls_setLanded (s : State) (x g n : Nat) : (setLanded s x g n).rolls = s.rolls := by
  simp [setLanded]

@[simp] theorem rolls_againFlag (m : Msg) (s : State) (x : Nat) : (againFlag m s x).rolls = s.rolls := by
  simp [againFlag]

@[simp] theorem rolls_flagOver (s : State) (x tag : Nat) : (flagOver s x tag).rolls = s.rolls := by
  simp [flagOver]

@[simp] theorem rolls_sayMismatch (s : State) (x : Nat) (m : Msg) : (sayMismatch s x m).rolls = s.rolls := by
  simp [sayMismatch]

@[simp] theorem rolls_ctxOpen (s : State) (x chip peer p : Nat) : (ctxOpen s x chip peer p).rolls = s.rolls := by
  simp [ctxOpen]

@[simp] theorem rolls_ctxShut (s : State) (x : Nat) : (ctxShut s x).rolls = s.rolls := by
  simp [ctxShut]

@[simp] theorem rolls_reissue (s : State) (t : TxMsg) : (reissue s t).rolls = s.rolls := by
  simp [reissue]

@[simp] theorem rolls_scanCells (s : State) (bits : List Bool) : (scanCells s bits).rolls = s.rolls := by
  simp [scanCells]

@[simp] theorem rolls_loadIr (s : State) (code : Nat) : (loadIr s code).rolls = s.rolls := by
  simp [loadIr]

@[simp] theorem rolls_takePins (s : State) (code : Nat) : (takePins s code).rolls = s.rolls := by
  simp [takePins]

@[simp] theorem rolls_bypassed (s : State) : (bypassed s).rolls = s.rolls := by
  simp [bypassed]

@[simp] theorem rolls_holdPins (s : State) (code : Nat) : (holdPins s code).rolls = s.rolls := by
  simp [holdPins]

@[simp] theorem rolls_countCe (s : State) (k n : Nat) : (countCe s k n).rolls = s.rolls := by
  simp [countCe]

@[simp] theorem rolls_startMove (s : State) (k channel : Nat) : (startMove s k channel).rolls = s.rolls := by
  simp [startMove]

@[simp] theorem rolls_startRow (s : State) (line : Nat) : (startRow s line).rolls = s.rolls := by
  simp [startRow]

@[simp] theorem rolls_dramUe (s : State) (line : Nat) : (dramUe s line).rolls = s.rolls := by
  simp [dramUe]

@[simp] theorem rolls_lineErr (s : State) (line : Nat) (err : LineErr) : (lineErr s line err).rolls = s.rolls := by
  unfold lineErr
  split <;> simp

theorem rolls_hostWrites (s : State) (fn : Nat) (w : List (Nat × Byte)) : (hostWrites s fn w).rolls = s.rolls := by
  induction w generalizing s with
  | nil => rfl
  | cons x r ih => exact (ih _).trans (rolls_hostStore _ _ _ _)

@[simp] theorem rolls_headAt (fn j value : Nat) (s : State) : (headAt fn j value s).rolls = s.rolls := by
  unfold headAt
  split <;> simp

@[simp] theorem rolls_writeCqCtrl (s : State) (p j ctrl : Nat) : (writeCqCtrl s p j ctrl).rolls = s.rolls := by
  simp [writeCqCtrl]

@[simp] theorem rolls_cqCtrlAt (fn j ctrl : Nat) (s : State) : (cqCtrlAt fn j ctrl s).rolls = s.rolls := by
  unfold cqCtrlAt
  split <;> simp

@[simp] theorem rolls_cqCtrlWrite (s : State) (fn j ctrl : Nat) : (cqCtrlWrite s fn j ctrl).rolls = s.rolls := by
  unfold cqCtrlWrite fromHost
  split <;> simp

@[simp] theorem rolls_writeCqReg (s : State) (p j r size v : Nat) : (writeCqReg s p j r size v).rolls = s.rolls := by
  simp [writeCqReg]

@[simp] theorem rolls_writeBoxReg (s : State) (e off size v : Nat) : (writeBoxReg s e off size v).rolls = s.rolls := by
  simp [writeBoxReg]

@[simp] theorem rolls_setSession (s : State) (x : Session) : (setSession s x).rolls = s.rolls := by
  simp [setSession]

@[simp] theorem rolls_dropSessions (s : State) (p : Session → Bool) : (dropSessions s p).rolls = s.rolls := by
  simp [dropSessions]

@[simp] theorem rolls_answerReq (s : State) (dst : Src) (req : Req) (ftype : Nat) (payload : List Byte) :
    (answerReq s dst req ftype payload).rolls = s.rolls := by
  unfold answerReq
  split
  · rfl
  · dsimp only
    split <;> simp [sessionFrame]

@[simp] theorem rolls_answerWrite (s : State) (dst : Src) (req : Req) (index sub : Nat) (o : WriteOutcome) :
    (answerWrite s dst req index sub o).rolls = s.rolls := by
  unfold answerWrite
  split
  · simp
  · simp
  · split <;> simp

@[simp] theorem rolls_finishDelayed (s : State) (d : Delayed) (result : Nat) : (finishDelayed s d result).rolls = s.rolls := by
  simp [finishDelayed]

@[simp] theorem rolls_delay (s : State) (d : Delayed) (req : Req) (dst : Src) : (delay s d req dst).rolls = s.rolls := by
  simp [delay]

@[simp] theorem rolls_closeSessions (s : State) (p : Session → Bool) : (closeSessions s p).rolls = s.rolls := by
  simp [closeSessions]

@[simp] theorem rolls_zeroCqs (s : State) (v : Nat) : (zeroCqs s v).rolls = s.rolls := by
  simp [zeroCqs]

@[simp] theorem rolls_endPart (s : State) (p : Nat) : (endPart s p).rolls = s.rolls := by
  simp [endPart]

@[simp] theorem rolls_resetBox (s : State) (e : Nat) : (resetBox s e).rolls = s.rolls := by
  simp [resetBox]

@[simp] theorem rolls_resetFns (s : State) (f : Nat → Bool) (keep : Bool) : (resetFns s f keep).rolls = s.rolls := by
  simp [resetFns]

@[simp] theorem rolls_noteEntry (s : State) (cause c : Nat) : (noteEntry s cause c).rolls = s.rolls := by
  unfold noteEntry
  split <;> simp

@[simp] theorem rolls_setAction (s : State) (c : Nat) : (setAction s c).rolls = s.rolls := by
  simp [setAction]

@[simp] theorem rolls_settleCore (s : State) (c : Nat) : (settleCore s c).rolls = s.rolls := by
  simp [settleCore]

theorem rolls_passSpare (failed : List Nat) (q fuel : Nat) (s : State) : (passSpare failed q fuel s).1.rolls = s.rolls := by
  induction fuel generalizing s with
  | zero => rfl
  | succ n ih =>
    rw [passSpare]
    split
    · rfl
    · split
      · exact (ih _).trans (rolls_addRepair _ _)
      · rfl

@[simp] theorem rolls_endJob (s : State) (j : RegrJob) : (endJob s j).rolls = s.rolls := by
  simp [endJob]

@[simp] theorem rolls_startBank (s : State) (d b : Nat) : (startBank s d b).rolls = s.rolls := by
  unfold startBank
  split
  · rfl
  · split <;> simp

@[simp] theorem rolls_dropRows (s : State) (k channel : Nat) : (dropRows s k channel).rolls = s.rolls := by
  simp [dropRows]

@[simp] theorem rolls_moveDone (s : State) (k channel : Nat) (unreadable : List Nat) :
    (moveDone s k channel unreadable).rolls = s.rolls := by
  unfold moveDone
  split <;> simp

@[simp] theorem rolls_setOther (s : State) (blocks : Tab (List Byte)) (valid : Bool) : (setOther s blocks valid).rolls = s.rolls := by
  simp [setOther]

@[simp] theorem rolls_putBlock (s : State) (b : List Byte) : (putBlock s b).rolls = s.rolls := by
  simp [putBlock]

@[simp] theorem rolls_markBank (s : State) (ok : Bool) : (markBank s ok).rolls = s.rolls := by
  simp [markBank]

@[simp] theorem rolls_restartMgmt (s : State) : (restartMgmt s).rolls = s.rolls := by
  simp [restartMgmt]

@[simp] theorem rolls_startDeferred (s : State) (j : RegrJob) : (startDeferred s j).rolls = s.rolls := by
  unfold startDeferred
  split <;> simp

@[simp] theorem rolls_mgmtBack (s : State) : (mgmtBack s).rolls = s.rolls := by
  simp [mgmtBack]

@[simp] theorem rolls_revertFw (s : State) : (revertFw s).rolls = s.rolls := by
  simp [revertFw]

@[simp] theorem rolls_closeSlot (s : State) (slot sid : Nat) : (closeSlot s slot sid).rolls = s.rolls := by
  simp [closeSlot]

@[simp] theorem rolls_renewGroup (s : State) (g : Nat) : (renewGroup s g).rolls = s.rolls := by
  simp [renewGroup]

@[simp] theorem rolls_unreserve (s : State) (k : Nat) : (unreserve s k).rolls = s.rolls := by
  simp [unreserve]

@[simp] theorem rolls_dropFrame (s : State) : (dropFrame s).rolls = s.rolls := by
  simp [dropFrame]

@[simp] theorem rolls_plainReply (s : State) (src : Src) (ftype sid txid : Nat) (payload : List Byte) :
    (plainReply s src ftype sid txid payload).rolls = s.rolls := by
  simp [plainReply]

@[simp] theorem rolls_plainError (s : State) (src : Src) (sid txid code : Nat) : (plainError s src sid txid code).rolls = s.rolls := by
  simp [plainError]

@[simp] theorem rolls_authFailed (s : State) (src : Src) (sid txid : Nat) : (authFailed s src sid txid).rolls = s.rolls := by
  simp [authFailed]

@[simp] theorem rolls_openSession (s : State) (src : Src) (f : Frame) : (openSession s src f).rolls = s.rolls := by
  simp [openSession]

@[simp] theorem rolls_acceptSession (s : State) (src : Src) (x : Session) (fseq txid : Nat) :
    (acceptSession s src x fseq txid).rolls = s.rolls := by
  simp [acceptSession]

@[simp] theorem rolls_proveSession (s : State) (src : Src) (x : Session) (f : Frame) : (proveSession s src x f).rolls = s.rolls := by
  simp [proveSession]

@[simp] theorem rolls_doClose (txid : Nat) (dst : Src) (s : State) (x : Session) : (doClose txid dst s x).rolls = s.rolls := by
  simp [doClose, sessionFrame]

@[simp] theorem rolls_doAck (txid : Nat) (s : State) (x : Session) : (doAck txid s x).rolls = s.rolls := by
  simp [doAck]

@[simp] theorem rolls_provedAgain (s : State) (src : Src) (x : Session) (fseq : Nat) : (provedAgain s src x fseq).rolls = s.rolls := by
  unfold provedAgain request
  split
  · rfl
  · split <;> simp

@[simp] theorem rolls_releaseAt (ep value : Nat) (s : State) : (releaseAt ep value s).rolls = s.rolls := by
  simp [releaseAt]

theorem rolls_nextItem (e : Nat) (l : List BoxItem) (s : State) : (nextItem e l s).rolls = s.rolls := by
  induction l generalizing s with
  | nil => simp [nextItem]
  | cons i r ih =>
    cases i with
    | frame b => simp [nextItem]
    | note sid txid =>
      rw [nextItem]
      split
      · split
        · simp
        · exact ih s
      · exact ih s

@[simp] theorem rolls_notifyFreeAt (ep value : Nat) (s : State) : (notifyFreeAt ep value s).rolls = s.rolls := by
  simp [notifyFreeAt, rolls_nextItem]

@[simp] theorem rolls_sendVectors (s : State) : (sendVectors s).rolls = s.rolls := by
  simp [sendVectors]

@[simp] theorem rolls_tick (s : State) : (tick s).rolls = s.rolls := by
  simp [tick]

end Sys2Proof.Machine

/-! PROOF. O5: what the Weir does to the rolls (spec/11 R225, R234). -/

namespace Sys2Proof.Machine

open Sys2Proof

/-! ### Operations on the rolls -/

@[simp] theorem rolls_ok_ite (c : Prop) [Decidable c] (v w : Rolls) :
    (if c then v else w).Ok ↔ (c → v.Ok) ∧ (¬c → w.Ok) := by
  split <;> simp_all

/-- The rolls with operation `o` in the place of the one of its number. -/
def Rolls.setOp (v : Rolls) (o : Op) : Rolls := { v with ops := replaceOp o v.ops }

@[simp] theorem rolls_setOp (s : State) (o : Op) : (setOp s o).rolls = s.rolls.setOp o := rfl

theorem mem_replaceOp {o x : Op} {l : List Op} (h : x ∈ replaceOp o l) : x = o ∨ x ∈ l := by
  induction l with
  | nil => exact .inr h
  | cons y r ih =>
    rw [replaceOp] at h
    split at h <;> rcases List.mem_cons.mp h with rfl | h
    · exact .inl rfl
    · exact .inr (List.mem_cons_of_mem _ h)
    · exact .inr List.mem_cons_self
    · exact (ih h).imp_right (List.mem_cons_of_mem _)

/-- Operations under the numbers they had, each still of one of the partitions and groups. -/
theorem Rolls.Ok.withOps {v : Rolls} (h : v.Ok) {l : List Op} (hids : (l.map (fun o => o.id)).Sublist (v.ops.map (fun o => o.id)))
    (hl : ∀ o ∈ l, o.InRange) : Rolls.Ok { v with ops := l } where
  ids := ascending_sublist hids h.ids
  below o ho := by
    obtain ⟨x, hx, he⟩ := List.mem_map.mp (hids.subset (List.mem_map_of_mem ho))
    exact he ▸ h.below x hx
  ops := hl
  iqs := h.iqs
  branches := h.branches
  refs := h.refs
  copyA := h.copyA
  copyB := h.copyB
  staged := h.staged
  stagedBlobs := h.stagedBlobs

theorem Rolls.Ok.setOp {v : Rolls} (h : v.Ok) {o : Op} (ho : o.InRange) : (v.setOp o).Ok :=
  h.withOps (ids_replaceOp o v.ops ▸ .refl _) fun x hx => (mem_replaceOp hx).elim (· ▸ ho) (h.ops x)

theorem ok_setOp {s : State} (h : s.rolls.Ok) {o : Op} (ho : o.InRange) : (setOp s o).rolls.Ok := h.setOp ho

/-- Operations mapped one by one, each keeping its number, partition and collective. -/
theorem Rolls.Ok.mapOps {v : Rolls} (h : v.Ok) {f : Op → Op} (hid : ∀ o, (f o).id = o.id) (hf : ∀ o, o.InRange → (f o).InRange) :
    Rolls.Ok { v with ops := v.ops.map f } :=
  h.withOps (by simp [Function.comp_def, hid]) fun x hx => by
    obtain ⟨y, hy, rfl⟩ := List.mem_map.mp hx
    exact hf y (h.ops y hy)

theorem Rolls.Ok.filterOps {v : Rolls} (h : v.Ok) (f : Op → Bool) : Rolls.Ok { v with ops := v.ops.filter f } :=
  h.withOps (List.filter_sublist.map _) fun x hx => h.ops x (List.mem_of_mem_filter hx)

theorem Op.InRange.of_mem {s : State} {o : Op} (h : s.rolls.Ok) (ho : o ∈ s.weir.ops) : o.InRange := h.ops o ho

theorem Op.InRange.of_opOf? {s : State} {i : Nat} {o : Op} (h : s.rolls.Ok) (ho : opOf? s i = some o) : o.InRange :=
  .of_mem h (List.mem_of_find?_eq_some ho)

theorem Op.InRange.of_find? {s : State} {f : Op → Bool} {o : Op} (h : s.rolls.Ok) (ho : s.weir.ops.find? f = some o) : o.InRange :=
  .of_mem h (List.mem_of_find?_eq_some ho)

theorem Op.InRange.of_executingOn {s : State} {c : Nat} {o : Op} (h : s.rolls.Ok) (ho : executingOn s c = some o) : o.InRange := by
  obtain ⟨i, -, ho⟩ := Option.bind_eq_some_iff.mp ho
  exact .of_opOf? h ho

theorem Op.InRange.of_find_onCore {s : State} {c : Nat} {f : OpPhase → Bool} {g : Op → Bool} {k : Op → Nat} {o : Op}
    (h : s.rolls.Ok)
    (ho : (argMin (fun i => i) (((onCore s c f).filter g).map k)).bind
      (fun n => ((onCore s c f).filter g).find? (fun o => k o == n)) = some o) : o.InRange := by
  obtain ⟨n, -, ho⟩ := Option.bind_eq_some_iff.mp ho
  exact .of_mem h (List.mem_of_mem_filter (List.mem_of_mem_filter (List.mem_of_find?_eq_some ho)))

theorem Op.InRange.of_movable {s : State} {c : Nat} {o : Op} (h : s.rolls.Ok) (ho : movable s c = some o) : o.InRange :=
  .of_find_onCore h ho

theorem Op.InRange.of_oldestRunnable {s : State} {c : Nat} {o : Op} (h : s.rolls.Ok) (ho : oldestRunnable s c = some o) : o.InRange :=
  .of_find_onCore h ho

/-! ### Folds -/

theorem ok_foldl {α : Type} {f : State → α → State} {l : List α} (hf : ∀ s, ∀ x ∈ l, s.rolls.Ok → (f s x).rolls.Ok) {s : State}
    (h : s.rolls.Ok) : (l.foldl f s).rolls.Ok := by
  induction l generalizing s with
  | nil => exact h
  | cons x r ih => exact ih (fun t y hy => hf t y (List.mem_cons_of_mem _ hy)) (hf s x List.mem_cons_self h)

/-- A step over any element keeps the rolls in order, and so do any number of them. -/
theorem ok_foldl_all {α : Type} {f : State → α → State} (hf : ∀ s x, s.rolls.Ok → (f s x).rolls.Ok) (l : List α) {s : State}
    (h : s.rolls.Ok) : (l.foldl f s).rolls.Ok :=
  ok_foldl (fun s x _ => hf s x) h

theorem ok_forOps {f : State → Op → State} (hf : ∀ {s : State}, s.rolls.Ok → ∀ {o : Op}, o.InRange → (f s o).rolls.Ok) (ids : List Nat)
    {s : State} (h : s.rolls.Ok) : (forOps ids f s).rolls.Ok :=
  ok_foldl_all (fun t i ht => by
    split
    · next o ho => exact hf ht (.of_opOf? ht ho)
    · exact ht) ids h

/-! ### The end of an operation -/

@[simp] theorem rolls_freeCore (s : State) (c id : Nat) : (freeCore s c id).rolls = s.rolls := by
  unfold freeCore
  simp only
  split
  · split <;> simp
  · split <;> simp

theorem ok_endOp {s : State} (h : s.rolls.Ok) {o : Op} (ho : o.InRange) (st : Nat) : (endOp s o st).rolls.Ok := by
  unfold endOp
  extract_lets s1 s2 s3
  have h1 : s1.rolls = s.rolls := by
    dsimp only [s1]
    split <;> simp
  have h2 : s2.rolls = s.rolls := by simp [s2, h1]
  exact ok_setOp (by simpa [s3, h2] using h) ⟨ho.part, ho.group⟩

theorem ok_endOpAt {s : State} (h : s.rolls.Ok) {o : Op} (ho : o.InRange) (st entry : Nat) : (endOpAt s o st entry).rolls.Ok :=
  ok_endOp (o := { o with faultEntry := entry }) h ⟨ho.part, ho.group⟩ st

theorem ok_takeBack {s : State} (h : s.rolls.Ok) {o : Op} (ho : o.InRange) : (takeBack s o).rolls.Ok := by
  unfold takeBack
  refine ok_setOp ?_ ⟨ho.part, ho.group⟩
  split
  · simpa using h
  · exact h

theorem ok_remoteEnds {s : State} (h : s.rolls.Ok) {o : Op} (ho : o.InRange) (st : Nat) : (remoteEnds st s o).rolls.Ok := by
  unfold remoteEnds
  split
  · exact h
  · exact ok_endOp h ho st

theorem ok_finishEff {s : State} (h : s.rolls.Ok) {o : Op} (ho : o.InRange) (e : Eff) : (finishEff s o e).rolls.Ok :=
  ok_setOp (by simpa using h) ⟨ho.part, ho.group⟩

/-! ### What runs on an operation and gives it back -/

/-- A state and an operation that come of `s` and `o`: the rolls are as they were, the operation is of a partition and group as before. -/
structure RunsOn (s : State) (o : Op) (y : State × Op) : Prop where
  rolls : y.1.rolls = s.rolls
  inRange : o.InRange → y.2.InRange

theorem RunsOn.refl (s : State) (o : Op) : RunsOn s o (s, o) := ⟨rfl, id⟩

theorem RunsOn.trans {s : State} {o : Op} {y z : State × Op} (h : RunsOn s o y) (h' : RunsOn y.1 y.2 z) : RunsOn s o z :=
  ⟨h'.rolls.trans h.rolls, fun ho => h'.inRange (h.inRange ho)⟩

/-- What happens beside the operation's record leaves `RunsOn` standing. -/
theorem RunsOn.beside {s t : State} {o : Op} {y : State × Op} (h : RunsOn s o y) (ht : t.rolls = y.1.rolls) : RunsOn s o (t, y.2) :=
  ⟨ht.trans h.rolls, h.inRange⟩

theorem RunsOn.ok {s : State} {o : Op} {y : State × Op} (h : RunsOn s o y) (hs : s.rolls.Ok) : y.1.rolls.Ok := h.rolls ▸ hs

theorem inRange_seeWrites {o : Op} (h : o.InRange) (ws : List (Nat × List Byte)) : (seeWrites o ws).InRange := ⟨h.part, h.group⟩

theorem runsOn_runUnits {U : Type} (eff : State → Op → U → Eff) (l : List U) (s : State) (o : Op) (acc : Eff) :
    RunsOn s o ((runUnits eff l s o acc).1, (runUnits eff l s o acc).2.1) := by
  refine ⟨rolls_runUnits eff l s o acc, ?_⟩
  induction l generalizing s o acc with
  | nil => exact id
  | cons u r ih =>
    intro ho
    simp only [runUnits]
    split
    · exact ho
    · exact ih _ _ _ (inRange_seeWrites ho _)

theorem runsOn_writeEff (s : State) (o : Op) (e : Eff) : RunsOn s o (writeEff s o e) :=
  ⟨by simp [writeEff], fun h => ⟨h.part, h.group⟩⟩

theorem runsOn_drainRill (l : List RillRow) (s : State) (o : Op) : RunsOn s o (drainRill l s o) := by
  induction l generalizing s o with
  | nil => exact .refl s o
  | cons x r ih => exact (runsOn_writeEff s o _).trans (ih _ _)

theorem runsOn_drainTo (keep c : Nat) (s : State) (o : Op) : RunsOn s o (drainTo keep c s o) :=
  (runsOn_drainRill _ s o).beside (rolls_setCore _ _ _)

/-- What a tile begins with: the rows of the one before are written first, unless they are read ahead. -/
theorem runsOn_drained (c : Nat) (s : State) (o : Op) : RunsOn s o (if readsAhead o then (s, o) else drainTo 0 c s o) := by
  split
  · exact .refl s o
  · exact runsOn_drainTo 0 c s o

theorem runsOn_enterTile (c t : Nat) (s : State) (o : Op) : RunsOn s o (enterTile c t s o) := by
  unfold enterTile
  have h := runsOn_drained c s o
  extract_lets y
  change RunsOn s o y at h
  clear_value y
  dsimp only
  split
  · exact h
  · exact h.beside (rolls_setCore _ _ _)

theorem runsOn_leaveTile (c t : Nat) (s : State) (o : Op) : RunsOn s o (leaveTile c t s o) := by
  unfold leaveTile
  have h := runsOn_drained c s o
  extract_lets y
  change RunsOn s o y at h
  clear_value y
  exact (h.beside (rolls_setCore _ _ _)).trans (runsOn_drainTo _ _ _ _)

theorem runsOn_runTiles (c n t : Nat) (s : State) (o : Op) : RunsOn s o (runTiles c n t s o) := by
  induction n generalizing t s o with
  | zero => exact .refl s o
  | succ n ih => exact (runsOn_leaveTile c t s o).trans (ih _ _ _)

theorem runsOn_streamRest (c : Nat) (s : State) (o : Op) : RunsOn s o (streamRest c s o) :=
  (runsOn_runTiles _ _ _ _ _).trans (runsOn_drainTo _ _ _ _)

theorem runsOn_workGroup (s : State) (o : Op) (x : Nat × List Nat × Nat) :
    RunsOn s o ((workGroup s o x).1, (workGroup s o x).2.1) := by
  unfold workGroup
  extract_lets ls faults named o' s' ws
  have hs : s'.rolls = s.rolls := rolls_wr _ _ _ _
  have ho : o.InRange → o'.InRange := fun h => by
    have hn : named.InRange := by
      dsimp only [named]
      split
      · exact ⟨h.part, h.group⟩
      · exact h
    exact ⟨hn.part, hn.group⟩
  clear_value o' s'
  split
  · exact ⟨hs, ho⟩
  · exact ⟨(rolls_storeAll _ _ _ _).trans hs, fun h => ⟨(ho h).part, (ho h).group⟩⟩

theorem runsOn_workGroups (l : List (Nat × List Nat × Nat)) (s : State) (o : Op) :
    RunsOn s o ((workGroups l s o).1, (workGroups l s o).2.1) := by
  induction l generalizing s o with
  | nil => exact .refl s o
  | cons x r ih =>
    simp only [workGroups]
    split
    · exact runsOn_workGroup s o x
    · exact (runsOn_workGroup s o x).trans (ih _ _)

/-! ### The effects of operations -/

theorem ok_runOp {s : State} (h : s.rolls.Ok) {U : Type} (opc : Nat) (own : Bool) (units : Op → List U) (eff : State → Op → U → Eff)
    (id : Nat) : (runOp opc own units eff id s).rolls.Ok := by
  unfold runOp
  split
  · exact h
  · next o ho =>
    have hr := Op.InRange.of_opOf? h ho
    have hx := runsOn_runUnits eff (units o) s o {}
    dsimp only
    split
    · split
      · exact ok_endOpAt h hr _ _
      · split
        · refine ok_endOp h ?_ _
          exact ⟨hr.part, hr.group⟩
        · exact ok_finishEff (hx.ok h) (hx.inRange hr) _
    · exact h

theorem Rolls.Ok.withRefs {v : Rolls} (h : v.Ok) {t : Tab Nat} (ht : tabSorted t = true) :
    Rolls.Ok { v with spawn := { v.spawn with refs := t } } := { h with refs := ht }

theorem Rolls.Ok.withBranches {v : Rolls} (h : v.Ok) {t : Tab Branch} (ht : tabSorted t = true) :
    Rolls.Ok { v with spawn := { v.spawn with branches := t } } := { h with branches := ht }

theorem ok_setRefs {s : State} (h : s.rolls.Ok) (page n : Nat) : (setRefs s page n).rolls.Ok := by
  refine h.withRefs ?_
  split
  · exact tabSorted_tabDel h.refs _
  · exact tabSorted_tabPut h.refs _ _

theorem ok_commitAct (p id : Nat) {s : State} (h : s.rolls.Ok) (x : SpawnAct) : (commitAct p id s x).rolls.Ok := by
  cases x with
  | create numAddr mapAddr e =>
    simp only [commitAct, rolls_storeBytes]
    exact h.withBranches (tabSorted_tabPut h.branches _ _)
  | remove b => exact h.withBranches (tabSorted_tabDel h.branches _)
  | newPage a =>
    simp only [commitAct, rolls_storeBytes]
    exact ok_setRefs h _ _
  | clearEntry a => simpa [commitAct] using h
  | _ => exact h

theorem ok_commitRef (p : Nat) (acts : List SpawnAct) {s : State} (h : s.rolls.Ok) (g : Nat) : (commitRef p acts s g).rolls.Ok := by
  unfold commitRef
  dsimp only
  split
  · simpa using ok_setRefs h _ _
  · exact ok_setRefs h _ _

theorem ok_spawnCommit {s : State} (h : s.rolls.Ok) (o : Op) : (spawnCommit s o).rolls.Ok :=
  ok_foldl_all (fun _ x h => ok_commitRef _ _ h x) _ (ok_foldl_all (fun _ x h => ok_commitAct _ _ h x) _ h)

theorem ok_freeSpawn {s : State} (h : s.rolls.Ok) (p : Nat) : (freeSpawn s p).rolls.Ok :=
  (h.withRefs (tabSorted_filter h.refs _)).withBranches (tabSorted_filter h.branches _)

theorem ok_trimPool {s : State} (h : s.rolls.Ok) (p lo n : Nat) : (trimPool s p lo n).rolls.Ok := h.withRefs (tabSorted_filter h.refs _)

/-- Copy-on-write keeps the rolls in order while it goes on. -/
theorem ok_cowOne (p : Nat) {acc : Option (State × List (Nat × Nat × Nat))} (h : ∀ y ∈ acc, y.1.rolls.Ok) (x : Nat × Nat) :
    ∀ y ∈ cowOne p acc x, y.1.rolls.Ok := by
  rcases acc with _ | ⟨s, copies⟩
  · exact h
  · have hs : s.rolls.Ok := h _ rfl
    simp only [cowOne]
    split
    · split
      · exact fun y hy => nomatch hy
      · rintro _ ⟨⟩
        exact ok_setRefs (ok_setRefs hs _ _) _ _
    · exact h

theorem ok_cowPlan {s t : State} (h : s.rolls.Ok) {p : Nat} {targets : List (Nat × Nat)} {copies : List (Nat × Nat × Nat)}
    (he : cowPlan s p targets = some (t, copies)) : t.rolls.Ok := by
  have hfold : ∀ (l : List (Nat × Nat)) (acc : Option (State × List (Nat × Nat × Nat))), (∀ y ∈ acc, y.1.rolls.Ok) →
      ∀ y ∈ l.foldl (cowOne p) acc, y.1.rolls.Ok := by
    intro l
    induction l with
    | nil => exact fun _ h => h
    | cons x r ih => exact fun acc h => ih _ (ok_cowOne p h x)
  exact hfold targets (some (s, [])) (by rintro _ ⟨⟩; exact h) _ he

theorem ok_runAppend {s : State} (h : s.rolls.Ok) (id : Nat) : (runAppend id s).rolls.Ok := by
  unfold runAppend
  split
  · exact h
  · next o ho =>
    have hr := Op.InRange.of_opOf? h ho
    split
    · split
      · exact ok_endOpAt h hr _ _
      · split
        · exact ok_endOp h hr _
        · next s' copies hplan =>
          split
          · exact ok_endOpAt h hr _ _
          · have ht : (copies.foldl (rewriteEntry o) (copies.foldl (makeCopy o) s')).rolls.Ok := by
              simpa using ok_cowPlan h hplan
            dsimp only
            generalize copies.foldl (rewriteEntry o) (copies.foldl (makeCopy o) s') = t at ht ⊢
            have hx := runsOn_runUnits effAppend (entriesOf o) t
              { o with outs := o.entries.flatMap (fun e => appendSlots o.desc o.m o.n o.k (pageNow t o e)) } {}
            exact ok_finishEff (hx.ok ht) (hx.inRange ⟨hr.part, hr.group⟩) _
    · exact h

theorem ok_gatherStops {s : State} (h : s.rolls.Ok) {o : Op} (ho : o.InRange) : (gatherStops s o).rolls.Ok :=
  ok_endOp (o := { o with outs := [], wrote := false, partialOut := o.wrote }) h ⟨ho.part, ho.group⟩ _

theorem ok_runGather {s : State} (h : s.rolls.Ok) (opc id : Nat) : (runGather opc id s).rolls.Ok := by
  unfold runGather
  split
  · exact h
  · next o ho =>
    have hr := Op.InRange.of_opOf? h ho
    have hx := runsOn_workGroups ((gatherGroups o).drop o.tile) s o
    dsimp only
    split
    · split
      · exact ok_gatherStops (hx.ok h) (hx.inRange hr)
      · exact ok_finishEff (hx.ok h) (hx.inRange hr) _
    · exact h

theorem ok_runStream {s : State} (h : s.rolls.Ok) (opc id : Nat) : (runStream opc id s).rolls.Ok := by
  unfold runStream
  split
  · exact h
  · next o ho =>
    have hr := Op.InRange.of_opOf? h ho
    have hx := runsOn_streamRest (o.core.getD 0) s o
    dsimp only
    split
    · split
      · exact ok_endOpAt h hr _ _
      · exact ok_finishEff (hx.ok h) (hx.inRange hr) _
    · exact h

theorem ok_runTile (c : Nat) {s : State} (h : s.rolls.Ok) {o : Op} (ho : o.InRange) : (runTile c s o).rolls.Ok := by
  have hy := runsOn_leaveTile c o.tile s o
  have hpass : (passTile c o.tile s).rolls.Ok := by simpa using h
  unfold runTile
  dsimp only
  split
  · exact ok_setOp (hy.ok h) ⟨(hy.inRange ho).part, (hy.inRange ho).group⟩
  · split
    · exact ok_setOp (hy.ok h) ⟨(hy.inRange ho).part, (hy.inRange ho).group⟩
    · split
      · split
        · next x _ =>
          have hx := runsOn_workGroup s o x
          split
          · exact ok_gatherStops (hx.ok h) (hx.inRange ho)
          · exact ok_setOp (by simpa using hx.ok h) ⟨(hx.inRange ho).part, (hx.inRange ho).group⟩
        · exact ok_setOp hpass ⟨ho.part, ho.group⟩
      · exact ok_setOp hpass ⟨ho.part, ho.group⟩

theorem ok_startTile (c : Nat) {s : State} (h : s.rolls.Ok) : (startTile c s).rolls.Ok := by
  unfold startTile
  dsimp only
  split
  · next o ho =>
    have hr := Op.InRange.of_executingOn h ho
    have hx := runsOn_enterTile c o.tile s o
    split
    · exact ok_setOp (hx.ok h) (hx.inRange hr)
    · exact h
  · exact h

end Sys2Proof.Machine

/-! PROOF. O5: remote operations, collectives and the order of issue, dispatch and release keep the rolls in order (spec/11, spec/12). -/

namespace Sys2Proof.Machine

open Sys2Proof

/-! ### The energy of operations, tokens and signals -/

theorem ok_chipEnds {s : State} (h : s.rolls.Ok) {o : Op} (ho : o.InRange) : (chipEnds s o).rolls.Ok := ok_endOp h ho _

theorem ok_endAll {s : State} (h : s.rolls.Ok) : (forOps (opIds s (fun _ => true)) chipEnds s).rolls.Ok :=
  ok_forOps ok_chipEnds _ h

theorem ok_chipError {s : State} (h : s.rolls.Ok) (cause : Nat) : (chipError s cause).rolls.Ok := by
  unfold chipError
  dsimp only
  split
  · simpa using h
  · split
    · simpa using h
    · exact ok_endAll (by simpa using h)

theorem ok_addOpUj {s : State} (h : s.rolls.Ok) (id uj : Nat) : (addOpUj s id uj).rolls.Ok := by
  unfold addOpUj
  split
  · next o ho => exact ok_setOp h ⟨(Op.InRange.of_opOf? h ho).part, (Op.InRange.of_opOf? h ho).group⟩
  · exact h

theorem ok_markThrottled {s : State} (h : s.rolls.Ok) : (markThrottled s).rolls.Ok := by
  refine h.mapOps (fun o => ?_) (fun o ho => ?_)
  · split
    · split <;> rfl
    · rfl
  · split
    · split
      · exact ⟨ho.part, ho.group⟩
      · exact ho
    · exact ho

@[simp] theorem rolls_turnBack (s : State) (q : Nat) : (turnBack s q).rolls = s.rolls := by
  simp [turnBack]

theorem ok_demandChanged {s : State} (h : s.rolls.Ok) : (demandChanged s).rolls.Ok := ok_markThrottled (by simpa using h)

theorem ids_serveCount (t : Nat) (l : List Op) (n : Nat) : (serveCount t l n).1.map (fun o => o.id) = l.map (fun o => o.id) := by
  induction l generalizing n with
  | nil => rfl
  | cons o r ih =>
    simp only [serveCount]
    split <;> simp [ih]

theorem inRange_serveCount (t : Nat) {l : List Op} (h : ∀ o ∈ l, o.InRange) (n : Nat) : ∀ o ∈ (serveCount t l n).1, o.InRange := by
  induction l generalizing n with
  | nil => exact h
  | cons o r ih =>
    obtain ⟨ho, hr⟩ := List.forall_mem_cons.mp h
    simp only [serveCount]
    split
    · exact List.forall_mem_cons.mpr ⟨⟨ho.part, ho.group⟩, ih hr _⟩
    · exact List.forall_mem_cons.mpr ⟨ho, ih hr _⟩

theorem ok_serveToken {s : State} (h : s.rolls.Ok) (t : Nat) : (serveToken s t).rolls.Ok :=
  h.withOps ((ids_serveCount t _ _).symm ▸ List.Sublist.refl _) (inRange_serveCount t h.ops _)

theorem ok_signalCount {s : State} (h : s.rolls.Ok) (t : Nat) : (signalCount s t).rolls.Ok := ok_serveToken (by simpa using h) t

theorem ok_remoteSignal {s : State} (h : s.rolls.Ok) (p t : Nat) : (remoteSignal s p t).rolls.Ok := by
  unfold remoteSignal
  split
  · exact ok_signalCount h t
  · exact h

theorem ok_signalRelease {s : State} (h : s.rolls.Ok) (o : Op) : (signalRelease s o).rolls.Ok := by
  unfold signalRelease
  dsimp only
  split
  · exact h
  · split
    · exact ok_signalCount h _
    · refine Rolls.Ok.mapOps (v := State.rolls (ite _ _ _)) (by simpa using h) (fun x => ?_) (fun x hx => ?_)
      · split <;> rfl
      · split
        · exact ⟨hx.part, hx.group⟩
        · exact hx

/-! ### PUT and FLAG on the wire -/

theorem inRange_noteWrite (s : State) {o : Op} (h : o.InRange) (e : List Nat) : (noteWrite s o e).InRange := ⟨h.part, h.group⟩

theorem ok_sendFlag {s : State} (h : s.rolls.Ok) {o : Op} (ho : o.InRange) : (sendFlag s o).rolls.Ok :=
  ok_setOp (by simpa using h) ⟨ho.part, ho.group⟩

theorem ok_flagOn {s : State} (h : s.rolls.Ok) {o : Op} (ho : o.InRange) : (flagOn s o).rolls.Ok := by
  unfold flagOn
  split
  · split
    · exact ok_sendFlag h ho
    · exact ok_endOp h ho _
  · exact h

theorem runsOn_putMsg (s : State) (o : Op) (t : Nat) : RunsOn s o (putMsg s o t) := by
  unfold putMsg
  extract_lets e x j o' m
  have ho : o.InRange → o'.InRange := fun h => by
    dsimp only [o']
    split
    · exact inRange_noteWrite s h e
    · exact h
  exact ⟨rolls_xsend _ _ _ _ _ _, fun h => ⟨(ho h).part, (ho h).group⟩⟩

theorem ok_putLoop (fuel : Nat) {s : State} (h : s.rolls.Ok) {o : Op} (ho : o.InRange) : (putLoop fuel s o).rolls.Ok := by
  induction fuel generalizing s o with
  | zero => exact ok_setOp h ho
  | succ fuel ih =>
    have hy := runsOn_putMsg s o o.tile
    have hdue : Op.InRange { o with flagDue := true, putting := true, wrote := true } := ⟨ho.part, ho.group⟩
    simp only [putLoop]
    split
    · split
      · exact ok_endOp h ho _
      · split
        · exact ok_setOp h ⟨ho.part, ho.group⟩
        · exact ih (hy.ok h) (hy.inRange ho)
    · split
      · exact ok_flagOn (ok_setOp h hdue) hdue
      · exact ok_setOp h ⟨ho.part, ho.group⟩

theorem ok_putOn {s : State} (h : s.rolls.Ok) {o : Op} (ho : o.InRange) : (putOn s o).rolls.Ok := by
  have hput : (if o.flagDue then flagOn s o else putLoop (putTotal o + 1) s o).rolls.Ok := by
    split
    · exact ok_flagOn h ho
    · exact ok_putLoop _ h ho
  rw [putOn, rolls_ite, rolls_ok_ite]
  exact ⟨fun _ => hput, fun _ => h⟩

theorem ok_flagsOn {s : State} (h : s.rolls.Ok) : (flagsOn s).rolls.Ok := ok_forOps ok_putOn _ h

theorem ok_moveOn {s : State} (h : s.rolls.Ok) : (moveOn s).rolls.Ok := ok_flagsOn (by simpa using h)

theorem ok_runPut {s : State} (h : s.rolls.Ok) (opc id : Nat) : (runPut opc id s).rolls.Ok := by
  unfold runPut
  split
  · exact h
  · next o ho =>
    have hr := Op.InRange.of_opOf? h ho
    split
    · exact ok_putOn h hr
    · split
      · split
        · exact ok_endOpAt h hr _ _
        · split
          · exact ok_endOp h hr _
          · exact ok_putLoop _ h ⟨hr.part, hr.group⟩
      · exact h

theorem ok_ctxDown {s : State} (h : s.rolls.Ok) (x : Nat) (st : CtxSt) (status : Nat) : (ctxDown s x st status).rolls.Ok := by
  unfold ctxDown
  have hends : (forOps (opIds s (opUses s x)) (remoteEnds status) s).rolls.Ok := ok_forOps (fun h _ ho => ok_remoteEnds h ho _) _ h
  simpa using hends

/-! ### Collectives -/

@[simp] theorem rolls_sendSegs (x collId step op part flow j : Nat) (l : List (List Byte)) (s : State) :
    (sendSegs x collId step op part flow j l s).rolls = s.rolls := by
  induction l generalizing j s with
  | nil => rfl
  | cons b r ih => exact (ih _ _).trans (rolls_xsend _ _ _ _ _ _)

/-- The steps of a collective leave the rolls alone, and the group stays the one it is of. -/
theorem rolls_collLoop (r i fuel : Nat) (s : State) (o : Op) (c : CollRun) :
    (collLoop r i fuel s o c).1.rolls = s.rolls ∧ (collLoop r i fuel s o c).2.group = c.group := by
  induction fuel generalizing s c with
  | zero => exact ⟨rfl, rfl⟩
  | succ fuel ih =>
    simp only [collLoop]
    split
    · exact ⟨(ih _ _).1.trans (rolls_sendSegs _ _ _ _ _ _ _ _ _), (ih _ _).2⟩
    · split
      · split
        · exact ih _ _
        · exact ⟨rfl, rfl⟩
      · exact ⟨rfl, rfl⟩

theorem inRange_coll {o : Op} (ho : o.InRange) {c : CollRun} (hc : c.group < 16) : Op.InRange { o with coll := some c } :=
  ⟨ho.part, fun _ hr => Option.some.inj hr ▸ hc⟩

theorem ok_collFinish {s : State} (h : s.rolls.Ok) {o : Op} (ho : o.InRange) {c : CollRun} (hc : c.group < 16) (r i : Nat) :
    (collFinish s o c r i).rolls.Ok := by
  unfold collFinish
  extract_lets w s1 st s2 s3
  have h3 : s3.rolls.Ok := by
    refine ok_setOp ?_ ⟨(inRange_coll ho hc).part, (inRange_coll ho hc).group⟩
    simpa [s2, s1] using h
  split
  · simpa using h3
  · exact h3

theorem ok_collSteps {s : State} (h : s.rolls.Ok) {o : Op} (ho : o.InRange) {c : CollRun} (hc : c.group < 16) :
    (collSteps s o c).rolls.Ok := by
  unfold collSteps
  extract_lets r i x
  obtain ⟨hrolls, hgroup⟩ : x.1.rolls = s.rolls ∧ x.2.group = c.group := rolls_collLoop _ _ _ _ _ _
  clear_value x
  have hx : x.1.rolls.Ok := hrolls ▸ h
  have hg : x.2.group < 16 := hgroup ▸ hc
  split
  · exact ok_collFinish hx ho hg _ _
  · exact ok_setOp hx (inRange_coll ho hg)

theorem ok_collMove {s : State} (h : s.rolls.Ok) (id : Nat) : (collMove s id).rolls.Ok := by
  unfold collMove
  split
  · exact h
  · next o ho =>
    have hr := Op.InRange.of_opOf? h ho
    split
    · exact h
    · next c hc =>
      have hg := hr.group c hc
      split
      · exact h
      · split
        · exact ok_endOp h hr _
        · split
          · exact ok_endOpAt h hr _ _
          · dsimp only
            have hready : (sendReady s o c).rolls.Ok := by simpa using h
            split
            · split
              · exact ok_collSteps (by simpa using hready) hr hg
              · exact ok_endOp (by simpa using hready) (inRange_coll hr (by exact hg)) _
            · exact ok_collSteps hready hr hg

theorem ok_collMoves {s : State} (h : s.rolls.Ok) (l : List Nat) : (l.foldl collMove s).rolls.Ok :=
  ok_foldl_all (fun _ i h => ok_collMove h i) l h

theorem ok_collMoveAll {s : State} (h : s.rolls.Ok) (g : Nat) : (collMoveAll s g).rolls.Ok := ok_collMoves h _

theorem ok_runColl {s : State} (h : s.rolls.Ok) (opc id : Nat) : (runColl opc id s).rolls.Ok := by
  unfold runColl
  split
  · split
    · exact ok_collMove h id
    · exact h
  · exact h

/-! ### Issue and placement -/

theorem inRange_resolved (s : State) {o : Op} (h : o.InRange) : (resolved s o).InRange := ⟨h.part, h.group⟩

theorem inRange_askFirst {o : Op} (h : o.InRange) (l : List (Nat × Nat)) : (askFirst o l).InRange := ⟨h.part, h.group⟩

theorem group_newColl (b : List Byte) : (newColl b).group < 16 := by
  simp only [newColl, field]
  omega

/-- An answer of the checks of issue, with the operation as they leave it. -/
def Fit (y : Nat × Nat × Op) : Prop := y.2.2.InRange

theorem Fit.refused {st entry : Nat} {o : Op} (h : o.InRange) : Fit (st, entry, o) := h

theorem fit_ite {c : Prop} [Decidable c] {y z : Nat × Nat × Op} (hy : Fit y) (hz : Fit z) : Fit (if c then y else z) :=
  iteInduction (fun _ => hy) (fun _ => hz)

/-- What issue makes of an operation is of the same partition, and a collective it makes is of one of the 16 groups. -/
theorem inRange_checkIssue (s : State) {o : Op} (h : o.InRange) : (checkIssue s o).2.2.InRange := by
  have hask := fun l => inRange_askFirst h l
  unfold checkIssue
  extract_lets d p b m n k es st pl blocks
  have hfound : ∀ r ∈ (if isColl d.opc then some (newColl (blocks.headD [])) else none), r.group < 16 := fun r hr => by
    split at hr
    · exact Option.some.inj hr ▸ group_newColl _
    · exact nomatch hr
  change Fit _
  iterate 8 refine fit_ite (.refused h) ?_
  refine fit_ite (.refused (hask _)) (fit_ite (.refused h) (fit_ite (.refused (hask _)) (fit_ite (.refused h) ?_)))
  exact ⟨h.part, hfound⟩

theorem ok_askRemote {s : State} (h : s.rolls.Ok) {o : Op} (ho : o.InRange) : (askRemote s o).rolls.Ok :=
  ok_setOp (rolls_remoteRequests _ _ s ▸ h) ⟨ho.part, ho.group⟩

theorem ok_issueOp {s : State} (h : s.rolls.Ok) {o : Op} (ho : o.InRange) : (issueOp s o).rolls.Ok := by
  have hr := inRange_checkIssue s ho
  unfold issueOp
  split
  · exact ok_endOp h ho _
  · dsimp only
    split
    · exact ok_askRemote h hr
    · split
      · exact ok_endOpAt (by simpa using h) ho _ _
      · exact ok_setOp h ⟨hr.part, hr.group⟩

theorem ok_makeSlot {s : State} (h : s.rolls.Ok) (c : Nat) : (makeSlot s c).rolls.Ok := by
  unfold makeSlot
  split
  · exact h
  · split
    · next v hv => exact ok_setOp (by simpa using h) ⟨(Op.InRange.of_movable h hv).part, (Op.InRange.of_movable h hv).group⟩
    · exact h

theorem ok_placeOn {s : State} (h : s.rolls.Ok) {o : Op} (ho : o.InRange) (c : Nat) : (placeOn s o c).rolls.Ok :=
  ok_setOp h ⟨ho.part, ho.group⟩

/-! ### Dispatch -/

theorem ok_landLine {s : State} (h : s.rolls.Ok) {o : Op} (ho : o.InRange) (line : Nat) : (landLine s o line).rolls.Ok := by
  unfold landLine
  split
  · exact h
  · exact ok_setOp h ⟨ho.part, ho.group⟩

theorem ok_askLines (id fuel : Nat) {s : State} (h : s.rolls.Ok) : (askLines id fuel s).rolls.Ok := by
  induction fuel generalizing s with
  | zero => exact h
  | succ fuel ih =>
    simp only [askLines]
    split
    · exact h
    · next o ho =>
      have hr := Op.InRange.of_opOf? h ho
      have hasked : Op.InRange { o with asked := o.asked + 1 } := ⟨hr.part, hr.group⟩
      split
      · split
        · exact ih (ok_landLine (ok_setOp h hasked) hasked _)
        · split
          · exact h
          · exact ih (ok_setOp (by simpa using h) hasked)
      · exact h

theorem ok_askHost (id fuel : Nat) {s : State} (h : s.rolls.Ok) : (askHost id fuel s).rolls.Ok := by
  induction fuel generalizing s with
  | zero => exact h
  | succ fuel ih =>
    simp only [askHost]
    split
    · exact h
    · next o ho =>
      have hr := Op.InRange.of_opOf? h ho
      split
      · split
        · exact ih (ok_setOp h ⟨hr.part, hr.group⟩)
        · exact h
      · exact h

theorem ok_retile {s : State} (h : s.rolls.Ok) (c : Nat) : (retile s c).rolls.Ok := by
  unfold retile
  split
  · next o ho =>
    split
    · exact ok_setOp h ⟨(Op.InRange.of_executingOn h ho).part, (Op.InRange.of_executingOn h ho).group⟩
    · exact h
  · exact h

theorem ok_askMore {s : State} (h : s.rolls.Ok) (c : Nat) : (askMore s c).rolls.Ok := by
  unfold askMore
  split
  · split
    · exact h
    · exact ok_startTile c (ok_retile (ok_askLines _ _ (ok_askHost _ _ h)) c)
  · exact h

theorem ok_askMores {s : State} (h : s.rolls.Ok) (l : List Nat) : (l.foldl askMore s).rolls.Ok :=
  ok_foldl_all (fun _ c h => ok_askMore h c) l h

theorem ok_landRead {s : State} (h : s.rolls.Ok) (r : LineRead) : (landRead s r).rolls.Ok := by
  unfold landRead
  split
  · next o ho =>
    split
    · exact ok_landLine h (.of_opOf? h ho) _
    · exact h
  · exact h

theorem ok_serveFront (c : Nat) (urgent : Bool) (fuel : Nat) {s : State} (h : s.rolls.Ok) : (serveFront c urgent fuel s).rolls.Ok := by
  induction fuel generalizing s with
  | zero => exact h
  | succ fuel ih =>
    simp only [serveFront]
    split
    · split
      · exact ih (ok_landRead (by simpa using h) _)
      · exact h
    · exact h

theorem ok_serveCore {s : State} (h : s.rolls.Ok) (c : Nat) : (serveCore s c).rolls.Ok :=
  ok_askMore (ok_serveFront _ _ _ (ok_serveFront _ _ _ h)) c

theorem ok_retryAll {s : State} (h : s.rolls.Ok) : (retryAll s).rolls.Ok := ok_askMores (by simpa using h) _

theorem ok_serveCores {s : State} (h : s.rolls.Ok) : (serveCores s).rolls.Ok := ok_foldl_all (fun _ c h => ok_serveCore h c) _ h

theorem ok_beginOp {s : State} (h : s.rolls.Ok) {o : Op} (ho : o.InRange) (c : Nat) : (beginOp s o c).rolls.Ok := by
  have hr := inRange_resolved s ho
  unfold beginOp
  extract_lets o' res need rr x staged arrays s1
  change o'.InRange at hr
  clear_value o' res
  split
  · exact ok_endOp h hr _
  · split
    · exact ok_endOp h hr _
    · refine ok_askMore ?_ c
      have h1 : s1.rolls.Ok := by simpa [s1, rr, rolls_remoteRequests] using h
      exact ok_setOp h1 ⟨hr.part, hr.group⟩

/-! ### Tile boundaries -/

theorem ok_execOp {s : State} (h : s.rolls.Ok) {o : Op} (ho : o.InRange) (c : Nat) : (execOp s o c).rolls.Ok :=
  ok_setOp (by simpa using h) ⟨ho.part, ho.group⟩

theorem ok_removeOp {s : State} (h : s.rolls.Ok) (o : Op) : (removeOp s o).rolls.Ok := h.filterOps _

theorem ok_discardOp {s : State} (h : s.rolls.Ok) (o : Op) : (discardOp s o).rolls.Ok := by
  unfold discardOp
  extract_lets s1 began s2
  have h1 : s1.rolls.Ok := by
    dsimp only [s1]
    split
    · simpa using h
    · exact h
  rw [rolls_setPart]
  exact ok_removeOp (by simpa using h1) o

theorem ok_loadActs {s : State} (h : s.rolls.Ok) (c : Nat) : (loadActs s c).rolls.Ok := by
  unfold loadActs
  split
  · next o ho =>
    split
    · exact ok_endOp h (.of_executingOn h ho) _
    · exact ok_discardOp h o
    · exact h
  · exact h

theorem ok_nextTile {s : State} (h : s.rolls.Ok) {o : Op} (ho : o.InRange) (c : Nat) : (nextTile s o c).rolls.Ok := by
  have h1 := ok_runTile c h ho
  unfold nextTile
  dsimp only
  split
  · exact ok_loadActs (ok_startTile c (by simpa using h1)) c
  · exact h1

theorem ok_loadNext {s : State} (h : s.rolls.Ok) (l : Load) (c : Nat) : (loadNext s l c).rolls.Ok := by
  unfold loadNext
  split
  · split
    · next o ho =>
      split
      · exact ok_beginOp h (.of_opOf? h ho) c
      · exact h
    · exact h
  · exact h

/-! ### Parking, cancellation, data that arrives -/

theorem ok_parkOp {s : State} (h : s.rolls.Ok) {v : Op} (hv : v.InRange) (c : Nat) : (parkOp s v c).rolls.Ok := by
  unfold parkOp
  exact ok_setOp h ⟨hv.part, hv.group⟩

theorem ok_resumeOp {s : State} (h : s.rolls.Ok) {o : Op} (ho : o.InRange) (c : Nat) : (resumeOp s o c).rolls.Ok := by
  unfold resumeOp
  extract_lets saved s1 x old arrays s2
  have h2 : s2.rolls.Ok := by simpa [s2, s1] using h
  refine ok_askMore ?_ c
  exact ok_setOp h2 ⟨ho.part, ho.group⟩

theorem ok_cancelOne {s : State} (h : s.rolls.Ok) {o : Op} (ho : o.InRange) : (cancelOne s o).rolls.Ok := by
  unfold cancelOne
  split
  · exact ok_endOp h ho _
  · exact ok_endOp h ho _
  · exact ok_endOp h ho _
  · exact ok_endOp h ho _
  · extract_lets atBoundary
    split
    · exact h
    · split
      · exact ok_endOp h ho _
      · exact ok_setOp h ⟨ho.part, ho.group⟩
  · exact h
  · exact h

theorem ok_cancelAll {s : State} (h : s.rolls.Ok) (f : Op → Bool) : (cancelAll s f).1.rolls.Ok := ok_forOps ok_cancelOne _ h

theorem ok_landRequest {s : State} (h : s.rolls.Ok) {o : Op} (ho : o.InRange) (r : Request) (b : List Byte) :
    (landRequest s o r b).rolls.Ok := by
  unfold landRequest
  extract_lets s1 s2
  have h1 : s1.rolls.Ok := ok_setOp h ⟨ho.part, ho.group⟩
  have h2 : s2.rolls.Ok := by
    dsimp only [s2]
    split
    · exact h1
    · exact ok_foldl_all (fun _ i h => ok_askHost i _ h) _ h1
  split
  · exact ok_askMore h2 _
  · exact h2

/-! ### Release -/

theorem ok_drainBy {s : State} (h : s.rolls.Ok) (id : Nat) : (drainBy s id).rolls.Ok :=
  ok_retryAll (ok_foldl_all (fun t x h => by
    split
    · simpa using h
    · exact h) _ h)

theorem ok_commitOp {s : State} (h : s.rolls.Ok) (o : Op) : (commitOp s o).1.rolls.Ok := by
  unfold commitOp
  split
  · dsimp only
    split
    · exact ok_spawnCommit h o
    · exact h
  · exact h

end Sys2Proof.Machine

/-! PROOF. O5: intake queues, values that wait, persisted copies, starts and resets keep the rolls in order (spec/05 R105, R106). -/

namespace Sys2Proof.Machine

open Sys2Proof

/-! ### Intake queues -/

theorem Rolls.Ok.withIqs {v : Rolls} (h : v.Ok) {t : Tab Iq} (ht : tabSorted t = true) : Rolls.Ok { v with iqs := t } :=
    { h with iqs := ht }

theorem ok_setIq {s : State} (h : s.rolls.Ok) (q : Nat) (v : Iq) : (setIq s q v).rolls.Ok := h.withIqs (tabSorted_tabPut h.iqs _ _)

theorem ok_zeroIqs {s : State} (h : s.rolls.Ok) (v : Nat) : (zeroIqs s v).rolls.Ok := h.withIqs (tabSorted_filter h.iqs _)

theorem ok_leaveIqs {s : State} (h : s.rolls.Ok) (old new : Nat) : (leaveIqs s old new).rolls.Ok := by
  have hfold : (((s.iqs.filter (fun x => inQueues old x.1 && !(inQueues new x.1))).flatMap
      (fun x => x.2.fetched.map (fun d => d.1))).foldl unreserve s).rolls.Ok := by simpa using h
  exact hfold.withIqs (tabSorted_filter hfold.iqs _)

theorem ok_leaveCqs {s : State} (h : s.rolls.Ok) (old new : Nat) : (leaveCqs s old new).rolls.Ok := h.withIqs (tabSorted_map h.iqs _)

theorem ok_doorbellAt (fn i value : Nat) {s : State} (h : s.rolls.Ok) : (doorbellAt fn i value s).rolls.Ok := by
  unfold doorbellAt
  split
  · split
    · exact ok_setIq h _ _
    · exact h
  · exact h

theorem ok_writeIqCtrl {s : State} (h : s.rolls.Ok) (p q ctrl : Nat) : (writeIqCtrl s p q ctrl).rolls.Ok := by
  unfold writeIqCtrl
  extract_lets x y
  split
  · split <;> exact ok_setIq h _ _
  · exact ok_setIq h _ _

theorem ok_iqCtrlAt (fn i ctrl : Nat) {s : State} (h : s.rolls.Ok) : (iqCtrlAt fn i ctrl s).rolls.Ok := by
  unfold iqCtrlAt
  split
  · split
    · exact ok_writeIqCtrl h _ _ _
    · exact h
  · exact h

/-- A request of the host is performed or held. -/
theorem ok_fromHost {s : State} (h : s.rolls.Ok) (fn : Nat) (r : HostReq) {act : State → State} (hact : (act s).rolls.Ok) :
    (fromHost s fn r act).rolls.Ok := by
  unfold fromHost
  split
  · simpa using h
  · exact hact

theorem ok_iqCtrlWrite {s : State} (h : s.rolls.Ok) (fn i ctrl : Nat) : (iqCtrlWrite s fn i ctrl).rolls.Ok :=
  ok_fromHost h _ _ (ok_iqCtrlAt _ _ _ h)

theorem ok_writeIqReg {s : State} (h : s.rolls.Ok) (p i r size v : Nat) : (writeIqReg s p i r size v).rolls.Ok := by
  unfold writeIqReg
  dsimp only
  split
  · split
    · exact h
    · exact ok_setIq h _ _
  · split
    · split
      · exact h
      · exact ok_setIq h _ _
    · split
      · exact ok_writeIqCtrl h _ _ _
      · exact h

theorem ok_bar0Write (fn off size value : Nat) {s : State} (h : s.rolls.Ok) : (bar0Write fn off size value s).rolls.Ok := by
  unfold bar0Write
  split
  · split
    · simpa using h
    · exact h
  · split
    · split
      · dsimp only
        split
        · exact ok_writeIqReg h _ _ _ _ _
        · exact h
      · split
        · dsimp only
          split
          · simpa using h
          · exact h
        · exact h
    · exact h

theorem ok_beginBatch {s : State} (h : s.rolls.Ok) (p q : Nat) : (beginBatch s p q).rolls.Ok := by
  unfold beginBatch
  dsimp only
  split
  · exact h
  · split
    · simpa using ok_setIq h _ _
    · exact ok_setIq (by simpa using h) _ _

theorem ok_headBack {s : State} (h : s.rolls.Ok) (q fn : Nat) : (headBack s q fn).rolls.Ok := by
  unfold headBack
  dsimp only
  split
  · exact ok_setIq h _ _
  · simpa using ok_setIq h _ _

theorem ok_fetchOne {s : State} (h : s.rolls.Ok) (p q : Nat) (b : Batch) : (fetchOne s p q b).rolls.Ok := by
  unfold fetchOne
  extract_lets fn x k old s1 d last y s2 s3
  have h2 : s2.rolls.Ok := ok_setIq (by simpa [s1] using h) _ _
  have h3 : s3.rolls.Ok := by
    dsimp only [s3]
    split
    · simpa using h2
    · exact h2
  split
  · exact ok_headBack h3 _ _
  · exact h3

theorem ok_fetchLoop (p q fuel : Nat) {s : State} (h : s.rolls.Ok) : (fetchLoop p q fuel s).rolls.Ok := by
  induction fuel generalizing s with
  | zero => exact h
  | succ fuel ih =>
    simp only [fetchLoop]
    split
    · split
      · exact ih (ok_fetchOne h _ _ _)
      · exact h
    · exact h

theorem ok_deliver {s : State} (h : s.rolls.Ok) (o : Op) (m : Measured) : (deliver s o m).rolls.Ok := by
  unfold deliver
  simpa using ok_setIq h _ _

theorem ok_deliverRecord {s : State} (h : s.rolls.Ok) (o : Op) (m : Measured) : (deliverRecord s o m).rolls.Ok := by
  unfold deliverRecord
  split
  · simpa using h
  · exact ok_deliver h o m

theorem ok_sendRecords {s : State} (h : s.rolls.Ok) : (sendRecords s).rolls.Ok :=
  ok_foldl_all (fun _ x h => ok_deliver h x.1 x.2) _ (by simpa using h)

theorem ok_releaseOp {s : State} (h : s.rolls.Ok) (o : Op) (m : Measured) : (releaseOp s o m).rolls.Ok := by
  have hx := ok_commitOp h (releaseFlags s o)
  unfold releaseOp
  extract_lets x o' s1 s2 s3
  change x.1.rolls.Ok at hx
  have h1 : s1.rolls.Ok := by
    dsimp only [s1]
    split
    · exact hx
    · exact ok_drainBy hx _
  have h2 : s2.rolls.Ok := ok_signalRelease (ok_removeOp h1 _) _
  exact ok_deliverRecord (by simpa [s3] using h2) _ _

/-! ### Admission -/

theorem iqPart_lt {s : State} {q p : Nat} (h : iqPart s q = some p) : p < 128 := List.mem_range.mp (List.mem_of_find?_eq_some h)

theorem ascending_append {l : List Nat} (h : ascending l = true) {n : Nat} (hn : ∀ x ∈ l, x < n) : ascending (l ++ [n]) = true := by
  induction l with
  | nil => rfl
  | cons x r ih =>
    obtain ⟨hx, hr⟩ := ascending_cons.mp h
    obtain ⟨hxn, hrn⟩ := List.forall_mem_cons.mp hn
    refine ascending_cons.mpr ⟨fun y hy => ?_, ih hr hrn⟩
    rcases List.mem_append.mp hy with hy | hy
    · exact hx y hy
    · exact List.mem_singleton.mp hy ▸ hxn

/-- A new operation takes the next number. -/
theorem Rolls.Ok.append {v : Rolls} (h : v.Ok) {o : Op} (hid : o.id = v.nextOp) (ho : o.InRange) :
    Rolls.Ok { v with ops := v.ops ++ [o], nextOp := v.nextOp + 1 } where
  ids := by
    rw [List.map_append, List.map_singleton, hid]
    exact ascending_append h.ids (List.forall_mem_map.mpr h.below)
  below := List.forall_mem_append.mpr ⟨fun x hx => Nat.lt_succ_of_lt (h.below x hx), by simp [hid]⟩
  ops := List.forall_mem_append.mpr ⟨h.ops, by simpa using ho⟩
  iqs := h.iqs
  branches := h.branches
  refs := h.refs
  copyA := h.copyA
  copyB := h.copyB
  staged := h.staged
  stagedBlobs := h.stagedBlobs

theorem ok_admitDesc {s : State} (h : s.rolls.Ok) (q : Nat) {p : Nat} (hp : p < 128) (cq : Nat) (b : List Byte) :
    (admitDesc s q p cq b).rolls.Ok :=
  ok_foldl_all (fun _ w h => ok_serveToken h w.token) _ (h.append rfl ⟨hp, fun _ hr => nomatch hr⟩)

/-! ### Values that wait for a start -/

theorem Waits.filter {α : Type} {t : Tab α} (h : Waits t) (p : Nat × α → Bool) : Waits (t.filter p) :=
  ⟨tabSorted_filter h.sorted p, fun e he => h.keys e (List.mem_of_mem_filter he)⟩

theorem Waits.put {α : Type} {t : Tab α} (h : Waits t) {k : Nat} (hk : SettingKey k) (v : α) : Waits (tabPut t k v) :=
  ⟨tabSorted_tabPut h.sorted k v, fun e he => (mem_tabPut he).elim (fun h => h ▸ hk) (h.keys e)⟩

theorem Waits.del {α : Type} {t : Tab α} (h : Waits t) (k : Nat) : Waits (tabDel t k) :=
  ⟨tabSorted_tabDel h.sorted k, fun e he => h.keys e ((tabDel_sublist t k).subset he)⟩

theorem Waits.nil {α : Type} : Waits ([] : Tab α) := ⟨rfl, fun _ he => nomatch he⟩

theorem Rolls.Ok.withStaged {v : Rolls} (h : v.Ok) {t : Tab Nat} {b : Tab (List Byte)} (ht : Waits t) (hb : Waits b) :
    Rolls.Ok { v with staged := t, stagedBlobs := b } := { h with staged := ht, stagedBlobs := hb }

theorem ok_applyStaged {s : State} (h : s.rolls.Ok) (p : Nat → Bool) : (applyStaged s p).rolls.Ok :=
  h.withStaged (h.staged.filter _) (h.stagedBlobs.filter _)

theorem ok_stageValue {s : State} (h : s.rolls.Ok) (r : ObjRow) {index sub : Nat} (hk : SettingKey (objKey index sub)) (v : Nat)
    (b : List Byte) : (stageValue s r index sub v b).rolls.Ok := by
  unfold stageValue
  split
  · split
    · exact h
    · exact h.withStaged h.staged (h.stagedBlobs.put hk _)
  · split
    · exact h
    · exact h.withStaged (h.staged.put hk _) h.stagedBlobs

theorem ok_storeValue {s : State} (h : s.rolls.Ok) (r : ObjRow) (index sub v : Nat) (b : List Byte) :
    (storeValue s r index sub v b).rolls.Ok := by
  unfold storeValue
  extract_lets key t
  have ht : t.rolls.Ok := h.withStaged (h.staged.del _) (h.stagedBlobs.del _)
  split
  · split
    · exact ht
    · split <;> simpa using ht
  · split
    · exact ht
    · split <;> simpa using ht

/-! ### Copies, starts and resets -/

theorem ok_commit {s : State} (h : s.rolls.Ok) : (commit s).rolls.Ok := by
  unfold commit
  extract_lets s1 c overA
  have hc : c.Persists := ⟨fun e he => (List.mem_filter.mp he).2, fun e he => (List.mem_filter.mp he).2⟩
  split
  · exact { h with copyA := hc }
  · exact { h with copyB := hc }

theorem ok_bootRom {s : State} (h : s.rolls.Ok) : (bootRom s).rolls.Ok := by
  have h1 : Rolls.Ok { s.rolls with staged := [], stagedBlobs := [] } := h.withStaged .nil .nil
  unfold bootRom
  dsimp only
  split
  · rw [rolls_ite, rolls_bootFault, ite_self]
    exact h1
  · rw [rolls_bootFault]
    exact h1

theorem ok_bootStart {s : State} (h : s.rolls.Ok) (cause : Nat) : (bootStart s cause).rolls.Ok := by
  unfold bootStart
  simpa using ok_bootRom h

/-- Operations, intake queues and Spawn table are empty; the next number, the copies and what waits for a start stay. -/
theorem Rolls.Ok.emptied {v : Rolls} (h : v.Ok) : Rolls.Ok { v with ops := [], iqs := [], spawn := {} } where
  ids := rfl
  below _ ho := nomatch ho
  ops _ ho := nomatch ho
  iqs := rfl
  branches := rfl
  refs := rfl
  copyA := h.copyA
  copyB := h.copyB
  staged := h.staged
  stagedBlobs := h.stagedBlobs

theorem ok_loseCompute {s : State} (h : s.rolls.Ok) : (loseCompute s).rolls.Ok := by
  unfold loseCompute
  extract_lets s1 s2
  have h2 : s2.rolls.Ok := by simpa [s2, s1] using h
  clear_value s2
  exact h2.emptied

theorem ok_protectiveShutdown {s : State} (h : s.rolls.Ok) (cause : Nat) : (protectiveShutdown s cause).rolls.Ok := by
  unfold protectiveShutdown
  split
  · exact h
  · extract_lets s1 s2 s3 s4 s5
    have h5 : s5.rolls.Ok := ok_loseCompute (by simpa [s4, s3, s2, s1] using h)
    simpa using h5

theorem ok_warmBody {s : State} (h : s.rolls.Ok) (cause : Nat) : (warmBody s cause).rolls.Ok := by
  unfold warmBody
  extract_lets s1 s2 osc volts s3 s4
  have h1 : s1.rolls.Ok := by
    dsimp only [s1]
    split
    · exact ok_commit h
    · exact h
  have h2 : s2.rolls.Ok := ok_loseCompute (by simpa using h1)
  simpa [s4, s3] using h2

theorem ok_restart {s : State} (h : s.rolls.Ok) (cause : Nat) : (bootStart (warmBody s cause) cause).rolls.Ok :=
  ok_bootStart (ok_warmBody h cause) cause

/-! ### Loss of lock and relock -/

theorem ok_settle {s : State} (h : s.rolls.Ok) : (settle s).rolls.Ok := by
  unfold settle
  extract_lets c done t1 t2
  have hdone : done.rolls.Ok := h
  have h1 : t1.rolls.Ok := by
    dsimp only [t1]
    split
    · exact ok_chipError hdone 1
    · exact hdone
  have h2 : t2.rolls.Ok := by
    dsimp only [t2]
    split
    · exact ok_chipError h1 2
    · exact h1
  split
  · exact h
  · split
    · split
      · exact h
      · exact ok_chipError hdone 3
    · split
      · exact ok_chipError h2 2
      · exact h2

@[simp] theorem rolls_dividers (s : State) (l : List Nat) :
    (l.foldl (fun t q => if t.power.compute then storeDivisor t q (effLevel t q) else t) s).rolls = s.rolls :=
  rolls_foldl (fun t q => by simp) l s

theorem ok_rootRelocked {s : State} (h : s.rolls.Ok) : (rootRelocked s).rolls.Ok := by
  unfold rootRelocked
  extract_lets s1 s2 clock s3 s4
  have h4 : s4.rolls.Ok := by simpa [s4, s3, s2, s1] using h
  refine ok_settle ?_
  split
  · exact ok_endAll h4
  · exact h4

/-! ### Partitions -/

theorem ok_startPart {s : State} (h : s.rolls.Ok) (p : Nat) : (startPart s p).rolls.Ok := by
  unfold startPart
  simpa using ok_zeroIqs h _

theorem ok_createPart {s : State} (h : s.rolls.Ok) (p : Nat) : (createPart s p).rolls.Ok := ok_startPart (by simpa using h) p

theorem ok_restorePart {s : State} (h : s.rolls.Ok) (p : Nat) : (restorePart s p).rolls.Ok := by
  unfold restorePart
  split
  · exact h
  · dsimp only
    split
    · rw [rolls_foldl rolls_zeroStore]
      exact ok_startPart (by simpa using h) p
    · simpa using h

theorem ok_stopOp {s : State} (h : s.rolls.Ok) (o : Op) : (stopOp s o).rolls.Ok := by
  unfold stopOp
  split
  · split
    · simpa using h
    · exact ok_discardOp h o
  · exact ok_discardOp h o

theorem ok_stopOps {s : State} (h : s.rolls.Ok) (p : Nat) : (stopOps s p).rolls.Ok :=
  ok_forOps (fun h o _ => ok_stopOp h o) _ (ok_forOps (fun h o _ => ok_stopOp h o) _ h)

theorem ok_beginReset {s : State} (h : s.rolls.Ok) (p : Nat) : (beginReset s p).rolls.Ok := by
  unfold beginReset
  split
  · exact h
  · dsimp only
    split
    · simpa using h
    · exact ok_stopOps (by simpa using h) p

theorem ok_beginResets {s : State} (h : s.rolls.Ok) (l : List Nat) : (l.foldl beginReset s).rolls.Ok :=
  ok_foldl_all (fun _ p h => ok_beginReset h p) l h

theorem ok_clearPart {s : State} (h : s.rolls.Ok) (p : Nat) : (clearPart s p).rolls.Ok := by
  unfold clearPart
  rw [rolls_foldl rolls_clearCore]
  refine ok_freeSpawn ?_ p
  have h1 : (forOps (opIds s (fun o => o.part == p)) discardOp s).rolls.Ok := ok_forOps (fun h o _ => ok_discardOp h o) _ h
  simp only [freeTokens, rolls_with_weir, rolls_zeroCqs]
  exact ok_zeroIqs (by simpa using h1) _

theorem ok_clearVfs {s : State} (h : s.rolls.Ok) (ep : Nat) : (clearVfs s ep).rolls.Ok := ok_beginResets (by simpa using h) _

theorem ok_flrNow {s : State} (h : s.rolls.Ok) (fn : Nat) : (flrNow fn s).rolls.Ok := by
  unfold flrNow
  refine ok_beginResets ?_ _
  rw [rolls_resetFns]
  split
  · exact ok_clearVfs (by simpa using h) _
  · exact h

/-! ### Cores -/

theorem ok_takeBackPlaced {s : State} (h : s.rolls.Ok) (c : Nat) : (takeBackPlaced s c).rolls.Ok := ok_forOps ok_takeBack _ h

theorem ok_abandonOps {s : State} (h : s.rolls.Ok) (c : Nat) (f : OpPhase → Bool) : (abandonOps s c f).rolls.Ok :=
  ok_forOps (fun h _ ho => ok_endOp h ho _) _ h

theorem ok_abandonCore {s : State} (h : s.rolls.Ok) (c : Nat) : (abandonCore s c).rolls.Ok := ok_abandonOps (ok_takeBackPlaced h c) c _

theorem ok_coreReset {s : State} (h : s.rolls.Ok) (c : Nat) : (coreReset s c).rolls.Ok := by
  unfold coreReset
  dsimp only
  split
  · refine ok_abandonOps (ok_takeBackPlaced ?_ c) c _
    simpa using h
  · simpa using ok_abandonCore h c

theorem ok_resumeReset {s : State} (h : s.rolls.Ok) (c : Nat) : (resumeReset s c).rolls.Ok := by
  unfold resumeReset
  split
  · split
    · exact ok_stopOps h _
    · exact h
  · exact h

theorem ok_retireWithout {s : State} (h : s.rolls.Ok) (c : Nat) : (retireWithout s c).rolls.Ok := by
  unfold retireWithout
  extract_lets s1 sp s2
  have h1 : s1.rolls.Ok := by simpa [s1] using h
  have h2 : s2.rolls.Ok := by
    dsimp only [s2, sp]
    split
    · have hr := ok_resumeReset h1 c
      split
      · exact ok_beginReset (by simpa using hr) _
      · simpa using hr
    · exact h1
  simpa using h2

theorem ok_beginMapping {s : State} (h : s.rolls.Ok) (c : Nat) : (beginMapping s c).rolls.Ok := by
  unfold beginMapping
  split
  · exact ok_retireWithout h c
  · simpa using h

theorem ok_planRetire {s : State} (h : s.rolls.Ok) (c : Nat) : (planRetire s c).rolls.Ok := ok_forOps ok_takeBack _ (by simpa using h)

/-! ### Requests that wait for the clocks -/

theorem ok_thermFollow (before : List Nat) {s : State} (h : s.rolls.Ok) : (thermFollow before s).rolls.Ok := by
  unfold thermFollow
  refine ok_demandChanged ?_
  rw [rolls_storeRefreshAll]
  exact ok_forOps ok_takeBack _ (by simpa using h)

theorem ok_askWaiting (cores : List Nat) {s : State} (h : s.rolls.Ok) : (askWaiting cores s).rolls.Ok := ok_askMores h _

end Sys2Proof.Machine

/-! PROOF. O5: management writes and frames keep the rolls in order (spec/18). -/

namespace Sys2Proof.Machine

open Sys2Proof

/-! ### Values -/

theorem ok_takeValue {s : State} (h : s.rolls.Ok) (x : Session) (r : ObjRow) (index : Nat) {sub : Nat} (hsub : sub < 256) (v : Nat)
    (b : List Byte) : (takeValue s x r index sub v b).st.rolls.Ok := by
  have ht := ok_storeValue h r index sub v b
  unfold takeValue
  extract_lets t
  change t.rolls.Ok at ht
  clear_value t
  split
  · next hstays =>
    simp only [staysStaged, Bool.and_eq_true, decide_eq_true_eq] at hstays
    refine ok_stageValue h r ?_ v b
    simp only [SettingKey, objKey]
    omega
  · simp only [apply_ite Wrote.st, apply_ite State.rolls, rolls_ok_ite]
    simp only [rolls_renewGroup, rolls_closeSlot, rolls_putBlock, rolls_sendBeacons, ht, h, ok_demandChanged ht, ok_trimPool ht,
      ok_leaveIqs ht, ok_leaveCqs ht, implies_true, and_self]

theorem ok_writeValue {s : State} (h : s.rolls.Ok) (x : Session) (r : ObjRow) (index : Nat) {sub : Nat} (hsub : sub < 256)
    (b : List Byte) : (writeValue s x r index sub b).st.rolls.Ok := by
  unfold writeValue
  dsimp only
  simp only [apply_ite Wrote.st, apply_ite State.rolls, rolls_ok_ite, refuse, h, ok_takeValue h x r index hsub, implies_true, and_self]

/-! ### Commands -/

theorem ok_cmdPartCtrl {s : State} (h : s.rolls.Ok) (p v : Nat) (req : Req) (dst : Src) : (cmdPartCtrl s p v req dst).st.rolls.Ok := by
  unfold cmdPartCtrl
  simp only [apply_ite Wrote.st, apply_ite State.rolls, rolls_ok_ite, refuse, rolls_delay, rolls_setPart, rolls_wrP, h, ok_createPart h,
    ok_beginReset h, implies_true, and_self]

theorem ok_cmdCoreReset {s : State} (h : s.rolls.Ok) (c v : Nat) : (cmdCoreReset s c v).st.rolls.Ok := by
  unfold cmdCoreReset
  simp only [apply_ite Wrote.st, apply_ite State.rolls, rolls_ok_ite, refuse, h, ok_coreReset h, implies_true, and_self]

theorem ok_cmdPartReset {s : State} (h : s.rolls.Ok) (p v : Nat) (req : Req) (dst : Src) : (cmdPartReset s p v req dst).st.rolls.Ok := by
  unfold cmdPartReset
  simp only [apply_ite Wrote.st, apply_ite State.rolls, rolls_ok_ite, refuse, rolls_delay, h, ok_beginReset h, implies_true, and_self]

theorem ok_cmdCoreRetire {s : State} (h : s.rolls.Ok) (c v : Nat) (req : Req) (dst : Src) :
    (cmdCoreRetire s c v req dst).st.rolls.Ok := by
  unfold cmdCoreRetire
  simp only [apply_ite Wrote.st, apply_ite State.rolls, rolls_ok_ite, refuse, rolls_delay, h, ok_planRetire h, implies_true, and_self]

@[simp] theorem rolls_cmdWarmReset (s : State) (v : Nat) : (cmdWarmReset s v).st.rolls = s.rolls := by
  simp [cmdWarmReset, refuse, apply_ite Wrote.st]

@[simp] theorem rolls_cmdLinkReset (s : State) (n v : Nat) : (cmdLinkReset s n v).st.rolls = s.rolls := by
  simp [cmdLinkReset, refuse, apply_ite Wrote.st]

@[simp] theorem rolls_cmdCtxOpen (s : State) (v : Nat) : (cmdCtxOpen s v).st.rolls = s.rolls := by
  simp [cmdCtxOpen, refuse, apply_ite Wrote.st]

@[simp] theorem rolls_cmdCtxClose (s : State) (v : Nat) : (cmdCtxClose s v).st.rolls = s.rolls := by
  simp [cmdCtxClose, refuse, apply_ite Wrote.st]

@[simp] theorem rolls_cmdPcRetire (s : State) (k v : Nat) (req : Req) (dst : Src) : (cmdPcRetire s k v req dst).st.rolls = s.rolls := by
  simp [cmdPcRetire, refuse, apply_ite Wrote.st]

@[simp] theorem rolls_cmdErrLogClear (s : State) (v : Nat) : (cmdErrLogClear s v).st.rolls = s.rolls := by
  simp [cmdErrLogClear, refuse, apply_ite Wrote.st]

@[simp] theorem rolls_cmdFwCommit (s : State) (v : Nat) : (cmdFwCommit s v).st.rolls = s.rolls := by
  simp [cmdFwCommit, refuse, apply_ite Wrote.st]

@[simp] theorem rolls_cmdFwActivate (s : State) (v : Nat) : (cmdFwActivate s v).st.rolls = s.rolls := by
  simp [cmdFwActivate, refuse, apply_ite Wrote.st]

@[simp] theorem rolls_cmdSvcDepart (s : State) (v : Nat) : (cmdSvcDepart s v).st.rolls = s.rolls := by
  simp [cmdSvcDepart, refuse, apply_ite Wrote.st]

@[simp] theorem rolls_cmdSessionKill (s : State) (x : Session) (v : Nat) : (cmdSessionKill s x v).st.rolls = s.rolls := by
  simp [cmdSessionKill, refuse, apply_ite Wrote.st]

theorem ok_runCommand {s : State} (h : s.rolls.Ok) (x : Session) (r : ObjRow) (index sub : Nat) (b : List Byte) (req : Req) (dst : Src) :
    (runCommand s x r index sub b req dst).st.rolls.Ok := by
  have hop := ok_cancelAll h
  unfold runCommand
  dsimp only
  simp only [apply_ite Wrote.st, apply_ite State.rolls, rolls_ok_ite, refuse, cmdCancelOp, cmdCancelFlow, rolls_cmdWarmReset,
    rolls_cmdLinkReset, rolls_cmdCtxOpen, rolls_cmdCtxClose, rolls_cmdPcRetire, rolls_cmdErrLogClear, rolls_cmdFwCommit,
    rolls_cmdFwActivate, rolls_cmdSvcDepart, rolls_cmdSessionKill, h, hop, ok_cmdPartCtrl h, ok_cmdCoreReset h, ok_cmdPartReset h,
    ok_cmdCoreRetire h, implies_true, and_self]

/-- No row of the dictionary goes beyond subindex 255. -/
theorem sub_lt_of_objRow? {index sub : Nat} {r : ObjRow} (h : objRow? index sub = some r) : sub < 256 := by
  have hrows : ∀ r ∈ objRows, r.subHi < 256 := by decide +kernel
  have hfits := List.find?_some h
  simp only [decide_eq_true_eq] at hfits
  have := hrows r (List.mem_of_find?_eq_some h)
  omega

theorem sub_lt_of_presentObj {s : State} {index sub : Nat} {r : ObjRow} (h : presentObj s index sub = some r) : sub < 256 := by
  unfold presentObj at h
  split at h
  · exact nomatch h
  · exact sub_lt_of_objRow? h

theorem ok_writeObject {s : State} (h : s.rolls.Ok) (x : Session) (index sub : Nat) (b : List Byte) (req : Req) (dst : Src) :
    (writeObject s x index sub b req dst).st.rolls.Ok := by
  unfold writeObject
  split
  · exact h
  · next r hr =>
    simp only [apply_ite Wrote.st, apply_ite State.rolls, rolls_ok_ite, refuse, h, ok_runCommand h,
      ok_writeValue h x r index (sub_lt_of_presentObj hr), implies_true, and_self]

/-! ### Requests and frames -/

theorem ok_follow {s : State} (h : s.rolls.Ok) (sid : Nat) (a : After) : (follow s sid a).rolls.Ok := by
  cases a with
  | nothing => exact h
  | warmReset =>
    simp only [follow]
    split
    · exact h
    · exact ok_restart h 2
  | switchFw => simpa [follow] using h
  | closeWriter => simpa [follow] using h

theorem ok_performWrite {s : State} (h : s.rolls.Ok) (x : Session) (index sub : Nat) (b : List Byte) (req : Req) (dst : Src) :
    (performWrite s x index sub b req dst).rolls.Ok :=
  ok_follow (by simpa using ok_writeObject h x index sub b req dst) _ _

theorem ok_request {s : State} (h : s.rolls.Ok) (x : Session) (dst : Src) (fseq : Nat) {run : State → Session → State}
    (hrun : ∀ {s : State}, s.rolls.Ok → ∀ x, (run s x).rolls.Ok) : (request s x dst fseq run).rolls.Ok := by
  unfold request
  split
  · exact hrun (by simpa using h) _
  · split
    · split
      · exact h
      · simpa using h
    · simpa using h

theorem ok_writeRow {s : State} (h : s.rolls.Ok) (req : Req) (index sub : Nat) (b : List Byte) : (writeRow s req index sub b).rolls.Ok := by
  unfold writeRow
  split
  · simpa using h
  · split
    · exact ok_request h _ _ _ fun h _ => ok_performWrite (by simpa using h) _ _ _ _ _ _
    · exact h

theorem ok_doRead (p : List Byte) (txid fseq : Nat) (dst : Src) {s : State} (h : s.rolls.Ok) (x : Session) :
    (doRead p txid fseq dst s x).rolls.Ok := by
  unfold doRead
  extract_lets index sub off req same s1
  have h1 : s1.rolls.Ok := by simpa [s1] using h
  split
  · simpa using h1
  · dsimp only
    split <;> simpa using h1

theorem ok_doWrite (p : List Byte) (txid fseq : Nat) (dst : Src) {s : State} (h : s.rolls.Ok) (x : Session) :
    (doWrite p txid fseq dst s x).rolls.Ok := by
  unfold doWrite
  extract_lets index sub off total part req kept x1 s1 x2
  have h1 : s1.rolls.Ok := by simpa [s1] using h
  split
  · exact ok_performWrite (by simpa using h1) _ _ _ _ _ _
  · split
    · split
      · simpa using h1
      · split
        · exact ok_performWrite (by simpa using h1) _ _ _ _ _ _
        · simpa using h1
    · simpa using h1
    · simpa using h1

theorem ok_inSession {s : State} (h : s.rolls.Ok) (src : Src) (x : Session) (f : Frame) : (inSession s src x f).rolls.Ok := by
  unfold inSession
  split
  · exact ok_request h _ _ _ fun h _ => by simpa using h
  · exact ok_request h _ _ _ fun h _ => ok_doRead _ _ _ _ h _
  · exact ok_request h _ _ _ fun h _ => ok_doWrite _ _ _ _ h _
  · simpa using h
  · exact h

theorem ok_sealedFrame {s : State} (h : s.rolls.Ok) (src : Src) (f : Frame) : (sealedFrame s src f).rolls.Ok := by
  unfold sealedFrame
  split
  · split
    · exact ok_inSession h _ _ _
    · simpa using h
  · split
    · split <;> simpa using h
    · simpa using h

theorem ok_serve {s : State} (h : s.rolls.Ok) (src : Src) (f : Frame) : (serve s src f).rolls.Ok := by
  unfold serve
  split
  · simpa using h
  · simpa using h
  · split
    · simpa using h
    · simpa using h
  · split
    · simpa using h
    · exact ok_sealedFrame h _ _

theorem ok_receiveFrame {s : State} (h : s.rolls.Ok) (src : Src) (t : Nat) (b : List Byte) : (receiveFrame s src t b).rolls.Ok := by
  unfold receiveFrame
  dsimp only
  split
  · exact h
  · split
    · simpa using h
    · split
      · exact h
      · exact ok_serve h _ _

theorem ok_submitAt (ep value : Nat) (frame : List Byte) {s : State} (h : s.rolls.Ok) : (submitAt ep value frame s).rolls.Ok := by
  unfold submitAt
  dsimp only
  split
  · exact h
  · exact ok_receiveFrame (by simpa using h) _ _ _

/-! ### Requests of the host that waited for the clocks -/

theorem ok_perform {s : State} (h : s.rolls.Ok) (r : HostReq) : (perform s r).rolls.Ok := by
  cases r with
  | config fn req => simpa [perform] using h
  | flr fn =>
    simp only [perform]
    split
    · exact ok_flrNow h fn
    · exact h
  | vfClear ep =>
    simp only [perform]
    split
    · exact ok_clearVfs h ep
    · exact h
  | iqDoorbell fn i value => exact ok_doorbellAt _ _ _ h
  | iqCtrl fn i ctrl => exact ok_iqCtrlAt _ _ _ h
  | cqDoorbell fn j value => simpa [perform] using h
  | cqCtrl fn j ctrl => simpa [perform] using h
  | bar0 fn off size value => exact ok_bar0Write _ _ _ _ h
  | mbSubmit ep value frame => exact ok_submitAt _ _ _ h
  | mbRelease ep value => simpa [perform] using h
  | mbNotifyFree ep value => simpa [perform] using h

theorem ok_performHeld {s : State} (h : s.rolls.Ok) : (performHeld s).rolls.Ok := ok_foldl_all (fun _ r h => ok_perform h r) _ h

end Sys2Proof.Machine

/-! PROOF. O5: each command keeps the rolls in order. -/

namespace Sys2Proof.Machine

open Sys2Proof

/-- Whatever next state a command answers has its rolls in order. -/
def Orderly (r : Result) : Prop := ∀ t, r = .next t → t.rolls.Ok

@[simp] theorem orderly_next {t : State} : Orderly (.next t) ↔ t.rolls.Ok := ⟨fun h => h t rfl, fun h _ ht => Host.Outcome.next.inj ht ▸ h⟩

/-! ### Power, clocks and starts -/

theorem orderly_powerGoodRise {s : State} (h : s.rolls.Ok) (clksel : Bool) (id : Nat) : Orderly (execPowerGoodRise clksel id s) := by
  simp only [execPowerGoodRise, orderly_next]
  split
  · exact h
  · split
    · simpa using h
    · exact ok_bootStart (by simpa using h) 0

theorem orderly_coldReset {s : State} (h : s.rolls.Ok) : Orderly (execColdReset s) :=
  orderly_next.mpr (h.emptied.withStaged .nil .nil)

theorem orderly_v48Under {s : State} (h : s.rolls.Ok) (mv : Nat) : Orderly (execV48Under mv s) := by
  simp only [execV48Under, orderly_next]
  split
  · split
    · exact ok_protectiveShutdown (by simpa using h) 3
    · simpa using h
  · exact h

theorem orderly_v48Over {s : State} (h : s.rolls.Ok) (mv : Nat) : Orderly (execV48Over mv s) := by
  simp only [execV48Over, orderly_next]
  split
  · exact ok_protectiveShutdown (by simpa using h) 4
  · exact h

theorem orderly_v48LowTimeout {s : State} (h : s.rolls.Ok) : Orderly (execV48LowTimeout s) := by
  simp only [execV48LowTimeout, orderly_next]
  split
  · exact ok_protectiveShutdown (by exact h) 3
  · exact h

theorem orderly_v48HighTimeout {s : State} (h : s.rolls.Ok) : Orderly (execV48HighTimeout s) := by
  simp only [execV48HighTimeout, orderly_next]
  split
  · exact ok_protectiveShutdown (by exact h) 4
  · exact h

theorem orderly_shutdownRestart {s : State} (h : s.rolls.Ok) : Orderly (execShutdownRestart s) := by
  simp only [execShutdownRestart, orderly_next]
  split
  · split
    · exact ok_restart h _
    · exact h
  · exact h

theorem orderly_resetNAssert {s : State} (h : s.rolls.Ok) : Orderly (execResetNAssert s) := by
  simp only [execResetNAssert, orderly_next, rolls_ite, rolls_ok_ite]
  exact ⟨fun _ => h, fun _ => ⟨fun _ => h, fun _ => ⟨fun _ => h, fun _ => ok_warmBody (by exact h) 1⟩⟩⟩

theorem orderly_resetNDeassert {s : State} (h : s.rolls.Ok) (clksel : Bool) (id : Nat) : Orderly (execResetNDeassert clksel id s) := by
  simp only [execResetNDeassert, orderly_next, rolls_ite, rolls_ok_ite, rolls_sampleStraps]
  exact ⟨fun _ => h, fun _ => ⟨fun _ => h, fun _ => ⟨fun _ => h, fun _ => ok_bootStart (by simpa using h) _⟩⟩⟩

theorem orderly_fatalStop {s : State} (h : s.rolls.Ok) (cause : Nat) : Orderly (execFatalStop cause s) := by
  simp only [execFatalStop, orderly_next]
  split
  · have haer : (((List.range 2).filter (fun e => epFitted (departAll s) e)).foldl (fun t e => emit t (.aer e)) (departAll s)).rolls.Ok := by
      rw [rolls_foldl fun _ _ => rolls_emit _ _, rolls_departAll]
      exact h
    rw [rolls_with]
    exact ok_loseCompute (ok_commit (by simpa using haer))
  · exact h

theorem orderly_testLogicReset {s : State} (h : s.rolls.Ok) (clksel : Bool) (id : Nat) : Orderly (execTestLogicReset clksel id s) := by
  simp only [execTestLogicReset, orderly_next, rolls_ite, rolls_ok_ite]
  exact ⟨fun _ => h, fun _ => ⟨fun _ => ok_bootStart (by rw [rolls_sampleStraps]; exact ok_warmBody (by exact h) 3) 3, fun _ => h⟩⟩

theorem orderly_builtInSelfTest {s : State} (h : s.rolls.Ok) (cores banks : List Nat) : Orderly (execBuiltInSelfTest cores banks s) := by
  simp only [execBuiltInSelfTest, orderly_next]
  split
  · rw [rolls_stage, rolls_foldl (rolls_bistBank banks), rolls_bistSpareBanks, rolls_bistCores, rolls_bistSpares]
    exact h
  · exact h

theorem orderly_dramTraining {s : State} (h : s.rolls.Ok) (failed : List (Nat × Nat)) : Orderly (execDramTraining failed s) := by
  simpa [execDramTraining] using h

theorem orderly_partitionRestore {s : State} (h : s.rolls.Ok) : Orderly (execPartitionRestore s) := by
  simp only [execPartitionRestore, orderly_next]
  split
  · simpa using ok_foldl_all (fun _ p h => ok_restorePart h p) (List.range 128) (ok_applyStaged h (fun i => !(trainingObj i)))
  · exact h

theorem orderly_rootRelock {s : State} (h : s.rolls.Ok) : Orderly (execRootRelock s) := by
  simp only [execRootRelock, orderly_next]
  split
  · refine ok_performHeld (ok_flagsOn ?_)
    rw [rolls_sendVectors]
    exact ok_sendRecords (ok_askWaiting _ (ok_rootRelocked h))
  · exact h

theorem orderly_rootRelockFail {s : State} (h : s.rolls.Ok) : Orderly (execRootRelockFail s) := by
  simp only [execRootRelockFail, orderly_next]
  split
  · exact ok_settle h
  · exact h

theorem orderly_memRelock {s : State} (h : s.rolls.Ok) (die : Nat) : Orderly (execMemRelock die s) := by
  simp only [execMemRelock, orderly_next]
  split
  · exact ok_settle (by simpa using h)
  · exact h

theorem orderly_memRelockFail {s : State} (h : s.rolls.Ok) (die : Nat) : Orderly (execMemRelockFail die s) := by
  simp only [execMemRelockFail, orderly_next]
  split
  · exact ok_settle (by simpa using h)
  · exact h

/-! ### Levels, energy and temperature -/

theorem ok_setEnv {s : State} (h : s.rolls.Ok) (v : Nat) : (setEnv s v).rolls.Ok := ok_demandChanged (by simpa using h)

theorem orderly_envPeriodEnd {s : State} (h : s.rolls.Ok) (mw : Nat) : Orderly (execEnvPeriodEnd mw s) := by
  simp only [execEnvPeriodEnd, orderly_next, rolls_ite, rolls_ok_ite, ok_setEnv (s := { s with power := { s.power with lowPeriods := 0 } }) h,
    rolls_with, h, implies_true, and_self]

theorem orderly_envFastRaise {s : State} (h : s.rolls.Ok) (mw : Nat) : Orderly (execEnvFastRaise mw s) := by
  simp only [execEnvFastRaise, orderly_next, rolls_ite, rolls_ok_ite, ok_setEnv h, h, implies_true, and_self]

theorem ok_coreEnergy (uj total : Nat) {s : State} (h : s.rolls.Ok) (c : CoreUse) : (coreEnergy uj total s c).rolls.Ok := by
  unfold coreEnergy
  split
  · exact ok_foldl_all (fun _ x h => ok_addOpUj h _ _) _ (by simpa using h)
  · exact h

theorem ok_sharedEnergy {s : State} (h : s.rolls.Ok) (u : SharedUse) : (sharedEnergy s u).rolls.Ok :=
  ok_foldl_all (fun t x h => by
    have h1 : (addPartUj t x.1 (shareUj u.uj x.2.2 (u.users.foldl (fun a x => a + x.2.2) 0))).rolls.Ok := by simpa using h
    dsimp only
    split
    · exact ok_addOpUj h1 _ _
    · exact h1) _ h

theorem orderly_energyMeterUpdate {s : State} (h : s.rolls.Ok) (pkg : Nat) (quads : List QuadUse) (shared : List SharedUse) :
    Orderly (execEnergyMeterUpdate pkg quads shared s) := by
  simp only [execEnergyMeterUpdate, orderly_next]
  split
  · rw [rolls_wr]
    refine ok_foldl_all (fun _ u h => ok_sharedEnergy h u) _ (ok_foldl_all (fun _ q h => ?_) _ (by simpa using h))
    exact ok_foldl_all (fun _ c h => ok_coreEnergy _ _ h c) _ h
  · exact h

@[simp] theorem rolls_sampleQuads (quads : List (List (Option Int))) (l : List Nat) (s : State) :
    (l.foldl (fun t q => if (quads.getD q []).isEmpty then t else sampleOne false t q (quads.getD q [])) s).rolls = s.rolls :=
  rolls_foldl (fun t q => by simp) l s

@[simp] theorem rolls_samplePiles (piles : List (List (Option Int))) (l : List Nat) (s : State) :
    (l.foldl (fun t k =>
        if !(stackFitted t k) then wr t oSTACK_TEMP (k + 1) 0x80000000
        else if (piles.getD k []).isEmpty then t
        else sampleOne true t k (piles.getD k [])) s).rolls = s.rolls :=
  rolls_foldl (fun t k => by simp) l s

theorem orderly_baskSample {s : State} (h : s.rolls.Ok) (quads piles : List (List (Option Int))) :
    Orderly (execBaskSample quads piles s) := by
  simp only [execBaskSample, orderly_next, rolls_ite, rolls_ok_ite]
  refine ⟨fun _ => ?_, fun _ => h⟩
  have hfollow := fun before => ok_thermFollow before (s := (List.range 8).foldl (fun t k =>
      if !(stackFitted t k) then wr t oSTACK_TEMP (k + 1) 0x80000000
      else if (piles.getD k []).isEmpty then t
      else sampleOne true t k (piles.getD k []))
    ((List.range 8).foldl (fun t q => if (quads.getD q []).isEmpty then t else sampleOne false t q (quads.getD q [])) s))
    (by simpa using h)
  exact ⟨fun _ => ok_protectiveShutdown (hfollow _) 1, fun _ => ⟨fun _ => ok_protectiveShutdown (hfollow _) 2, fun _ => hfollow _⟩⟩

theorem orderly_thermalStateExit {s : State} (h : s.rolls.Ok) (stack : Bool) (i : Nat) : Orderly (execThermalStateExit stack i s) := by
  simp only [execThermalStateExit, orderly_next, rolls_ite, rolls_ok_ite]
  exact ⟨fun _ => ok_thermFollow _ (by simpa using h), fun _ => h⟩

/-! ### The host -/

theorem orderly_iqDoorbell {s : State} (h : s.rolls.Ok) (fn i value : Nat) (bytes : List (Nat × Byte)) :
    Orderly (execIqDoorbell fn i value bytes s) := by
  rw [execIqDoorbell, orderly_next]
  have h1 : (hostWrites s fn bytes).rolls.Ok := by simpa [rolls_hostWrites] using h
  exact ok_fromHost h1 _ _ (ok_doorbellAt _ _ _ h1)

theorem orderly_iqCtrl {s : State} (h : s.rolls.Ok) (c : Prop) [Decidable c] (fn i ctrl : Nat) :
    Orderly (.next (if c then iqCtrlWrite s fn i ctrl else s)) := by
  simp only [orderly_next, rolls_ite, rolls_ok_ite, ok_iqCtrlWrite h, h, implies_true, and_self]

theorem orderly_iqDisable {s : State} (h : s.rolls.Ok) (fn i ctrl : Nat) : Orderly (execIqDisable fn i ctrl s) := by
  simp only [execIqDisable, orderly_next, rolls_ite, rolls_ok_ite, ok_iqCtrlWrite h, h, implies_true, and_self]

theorem orderly_batchFetch {s : State} (h : s.rolls.Ok) (q : Nat) : Orderly (execBatchFetch q s) := by
  simp only [execBatchFetch, orderly_next]
  split
  · split
    · refine ok_fetchLoop _ _ _ ?_
      split
      · exact h
      · exact ok_beginBatch h _ _
    · exact h
  · exact h

theorem orderly_cqDoorbell {s : State} (h : s.rolls.Ok) (fn j value : Nat) : Orderly (execCqDoorbell fn j value s) :=
  orderly_next.mpr (ok_fromHost h _ _ (by simpa using h))

theorem orderly_coalTimeExpiry {s : State} (h : s.rolls.Ok) (q : Nat) : Orderly (execCoalTimeExpiry q s) := by
  simp only [execCoalTimeExpiry, orderly_next]
  split
  · simpa using h
  · exact h

theorem orderly_bar0RegisterWrite {s : State} (h : s.rolls.Ok) (fn off size value : Nat) :
    Orderly (execBar0RegisterWrite fn off size value s) := by
  simp only [execBar0RegisterWrite, orderly_next]
  split
  · exact ok_fromHost h _ _ (ok_bar0Write _ _ _ _ h)
  · exact h

theorem orderly_functionLevelReset {s : State} (h : s.rolls.Ok) (fn : Nat) : Orderly (execFunctionLevelReset fn s) := by
  simp only [execFunctionLevelReset, orderly_next, rolls_ite, rolls_ok_ite, ok_flrNow h, rolls_holdHost, h, implies_true, and_self]

theorem orderly_perstAssert {s : State} (h : s.rolls.Ok) (ep : Nat) : Orderly (execPerstAssert ep s) := by
  simp only [execPerstAssert, orderly_next]
  split
  · exact ok_beginResets (by simpa using h) _
  · exact h

theorem orderly_vfEnableClear {s : State} (h : s.rolls.Ok) (ep : Nat) : Orderly (execVfEnableClear ep s) := by
  simp only [execVfEnableClear, orderly_next, rolls_ite, rolls_ok_ite, ok_clearVfs h, rolls_holdHost, h, implies_true, and_self]

theorem orderly_mbSubmit {s : State} (h : s.rolls.Ok) (ep value : Nat) (frame : List Byte) : Orderly (execMbSubmit ep value frame s) :=
  orderly_next.mpr (ok_fromHost h _ _ (ok_submitAt _ _ _ h))

theorem orderly_mbRelease {s : State} (h : s.rolls.Ok) (ep value : Nat) : Orderly (execMbRelease ep value s) :=
  orderly_next.mpr (ok_fromHost h _ _ (by simpa using h))

theorem orderly_mbNotifyFree {s : State} (h : s.rolls.Ok) (ep value : Nat) : Orderly (execMbNotifyFree ep value s) :=
  orderly_next.mpr (ok_fromHost h _ _ (by simpa using h))

theorem orderly_persistCommit {s : State} (h : s.rolls.Ok) : Orderly (execPersistCommit s) := by
  simp only [execPersistCommit, orderly_next, rolls_ite, rolls_ok_ite, ok_commit h, h, implies_true, and_self]

/-! ### The Weir -/

theorem orderly_admitOp {s : State} (h : s.rolls.Ok) (q : Nat) : Orderly (execAdmitOp q s) := by
  simp only [execAdmitOp, orderly_next]
  split
  · next p _ hp =>
    split
    · exact ok_admitDesc (ok_setIq h _ _) _ (iqPart_lt hp) _ _
    · exact h
  · exact h

theorem orderly_issue {s : State} (h : s.rolls.Ok) (op : Nat) : Orderly (execIssue op s) := by
  simp only [execIssue, orderly_next]
  split
  · next o ho =>
    split
    · exact ok_issueOp h (.of_opOf? h ho)
    · exact h
  · exact h

theorem orderly_place {s : State} (h : s.rolls.Ok) (op : Nat) : Orderly (execPlace op s) := by
  simp only [execPlace, orderly_next]
  split
  · next o ho =>
    have hr := Op.InRange.of_opOf? h ho
    split
    · exact h
    · split
      · split
        · rw [rolls_pendLoad]
          exact ok_placeOn (ok_makeSlot h _) hr _
        · exact ok_setOp h ⟨hr.part, hr.group⟩
      · split
        · exact ok_placeOn h hr _
        · exact h
  · exact h

theorem orderly_dispatch {s : State} (h : s.rolls.Ok) (op : Nat) : Orderly (execDispatch op s) := by
  simp only [execDispatch, orderly_next]
  split
  · next o ho =>
    split
    · split
      · exact ok_beginOp h (.of_opOf? h ho) _
      · exact h
    · exact h
  · exact h

theorem orderly_wavefrontComplete {s : State} (h : s.rolls.Ok) (c : Nat) : Orderly (execWavefrontComplete c s) := by
  simp only [execWavefrontComplete, orderly_next]
  split
  · next o ho =>
    have hr := Op.InRange.of_executingOn h ho
    have habandon : (endOp s { o with tile := min o.tiles (o.tile + 1) } stABANDONED).rolls.Ok := by
      refine ok_endOp h ?_ _
      exact ⟨hr.part, hr.group⟩
    simp only [rolls_ite, rolls_ok_ite, habandon, ok_execOp h hr, ok_endOp h hr, ok_nextTile h hr, h, implies_true, and_self]
  · exact h

theorem orderly_stallTimerExpiry {s : State} (h : s.rolls.Ok) (c waves : Nat) : Orderly (execStallTimerExpiry c s waves) := by
  simp only [execStallTimerExpiry, orderly_next]
  split
  · next v _ l hv _ _ =>
    split
    · have h1 : (count32 s oCORE_ABANDONS (c + 1) (max 1 waves)).rolls.Ok := by simpa using h
      refine ok_loadNext ?_ l c
      split
      · exact ok_discardOp h1 v
      · exact ok_endOp h1 (.of_executingOn h hv) _
    · exact h
  · exact h

theorem orderly_preempt {s : State} (h : s.rolls.Ok) (op : Nat) : Orderly (execPreempt op s) := by
  simp only [execPreempt, orderly_next]
  split
  · next u hu =>
    split
    · split
      · next v hv =>
        split
        · exact ok_beginOp (ok_parkOp h (.of_executingOn h hv) _) (.of_opOf? h hu) _
        · exact h
      · exact h
    · exact h
  · exact h

theorem orderly_parkRunnable {s : State} (h : s.rolls.Ok) (op : Nat) : Orderly (execParkRunnable op s) := by
  simp only [execParkRunnable, orderly_next]
  split
  · next o ho =>
    have hset : (setOp s { o with runnable := true }).rolls.Ok :=
      ok_setOp h ⟨(Op.InRange.of_opOf? h ho).part, (Op.InRange.of_opOf? h ho).group⟩
    simp only [rolls_ite, rolls_ok_ite, hset, h, implies_true, and_self]
  · exact h

theorem orderly_resumeParked {s : State} (h : s.rolls.Ok) (c : Nat) : Orderly (execResumeParked c s) := by
  simp only [execResumeParked, orderly_next]
  split
  · next o ho =>
    split
    · exact ok_flagsOn (ok_collMove (ok_resumeOp h (.of_oldestRunnable h ho) c) _)
    · exact h
  · exact h

theorem orderly_parkLimitExpiry {s : State} (h : s.rolls.Ok) (op : Nat) : Orderly (execParkLimitExpiry op s) := by
  simp only [execParkLimitExpiry, orderly_next]
  split
  · next o ho =>
    split
    · exact ok_endOp h (.of_opOf? h ho) _
    · exact h
  · exact h

theorem orderly_release {s : State} (h : s.rolls.Ok) (op : Nat) (m : Measured) : Orderly (execRelease op m s) := by
  simp only [execRelease, orderly_next]
  split
  · split
    · exact ok_releaseOp h _ _
    · exact h
  · exact h

theorem orderly_fence {s : State} (h : s.rolls.Ok) (op : Nat) : Orderly (execFence op s) := by
  simp only [execFence, orderly_next]
  split
  · next o ho =>
    split
    · exact ok_setOp h ⟨(Op.InRange.of_opOf? h ho).part, (Op.InRange.of_opOf? h ho).group⟩
    · exact h
  · exact h

theorem orderly_fenceComplete {s : State} (h : s.rolls.Ok) (op : Nat) : Orderly (execFenceComplete op s) := by
  simp only [execFenceComplete, orderly_next]
  split
  · next o ho =>
    split
    · exact ok_setOp h ⟨(Op.InRange.of_opOf? h ho).part, (Op.InRange.of_opOf? h ho).group⟩
    · exact h
  · exact h

/-! ### Memory -/

theorem orderly_readReturn {s : State} (h : s.rolls.Ok) (op addr : Nat) : Orderly (execReadReturn op addr s) := by
  simp only [execReadReturn, orderly_next]
  split
  · next o ho =>
    split
    · split
      · exact h
      · exact ok_landRequest h (.of_opOf? h ho) _ _
    · exact h
  · exact h

theorem ok_takeLine {s : State} (h : s.rolls.Ok) (r : LineRead) : (takeLine s r).rolls.Ok := by
  unfold takeLine
  split
  · next o ho =>
    have hr := Op.InRange.of_opOf? h ho
    simp only [rolls_ite, rolls_ok_ite, ok_endOpAt h hr, ok_landLine h hr, h, implies_true, and_self]
  · exact h

theorem orderly_dramLineRead {s : State} (h : s.rolls.Ok) (op line : Nat) (err : LineErr) : Orderly (execDramLineRead op line err s) := by
  simp only [execDramLineRead, orderly_next]
  split
  · next r _ =>
    split
    · have h1 : (serveCore (takeLine { lineErr s line err with mem := { (lineErr s line err).mem with
          reads := (lineErr s line err).mem.reads.erase r } } r) r.core).rolls.Ok :=
        ok_serveCore (ok_takeLine (by simpa using h) r) _
      split
      · exact ok_foldl_all (fun _ i h => ok_askMore h _) _ h1
      · exact h1
    · exact h
  · exact h

theorem orderly_eddyWrite {s : State} (h : s.rolls.Ok) (op addr : Nat) (bytes : List Byte) : Orderly (execEddyWrite op addr bytes s) := by
  simp only [execEddyWrite, orderly_next]
  split
  · next o ho =>
    split
    · split
      · rw [rolls_eddyPut]
        exact ok_setOp h ⟨(Op.InRange.of_opOf? h ho).part, (Op.InRange.of_opOf? h ho).group⟩
      · exact h
    · exact h
  · exact h

theorem orderly_eddyDrainDone {s : State} (h : s.rolls.Ok) (k line : Nat) (err : LineErr) : Orderly (execEddyDrainDone k line err s) := by
  simp only [execEddyDrainDone, orderly_next]
  split
  · split
    · exact h
    · exact ok_retryAll (by simpa using h)
  · exact h

end Sys2Proof.Machine

/-! PROOF. O5: the fabric, Regrowth and what changes none of the rolls; every command (spec/15, spec/19). -/

namespace Sys2Proof.Machine

open Sys2Proof

/-! ### Ports -/

theorem ok_takeAck {s : State} (h : s.rolls.Ok) (n : Nat) (b : List Byte) : (takeAck s n b).rolls.Ok := by
  unfold takeAck
  refine ok_moveOn ?_
  simpa using h

theorem ok_goDown {s : State} (h : s.rolls.Ok) (n : Nat) : (goDown s n).rolls.Ok := ok_flagsOn (by simpa using h)

theorem orderly_fabricTraining {s : State} (h : s.rolls.Ok) (n : Nat) : Orderly (execFabricTraining n s) := by
  have h1 := ok_applyStaged h trainingObj
  simp only [execFabricTraining, orderly_next]
  split
  · exact ok_moveOn (by simpa using h1)
  · exact h

theorem orderly_dataFlitReceive {s : State} (h : s.rolls.Ok) (n : Nat) (flit : List Byte) : Orderly (execDataFlitReceive n flit s) := by
  have hack : ∀ c : Bool, (takeAck (if c then takeCredits s n flit else s) n flit).rolls.Ok :=
    fun c => ok_takeAck (by cases c <;> simpa using h) n flit
  simp only [execDataFlitReceive, orderly_next, rolls_ite, rolls_ok_ite, rolls_setPort, rolls_acceptFlit]
  exact ⟨fun _ => h, fun _ => ⟨fun _ => h, fun _ => ⟨fun _ => h, fun _ => ⟨fun _ => hack _, fun _ => hack _⟩⟩⟩⟩

theorem orderly_idleFlit {s : State} (h : s.rolls.Ok) (n : Nat) (flit : List Byte) : Orderly (execIdleFlit n flit s) := by
  simp only [execIdleFlit, orderly_next]
  split
  · exact ok_takeAck (by simpa using h) n flit
  · exact h

theorem orderly_holdFlit {s : State} (h : s.rolls.Ok) (n : Nat) (flit : List Byte) : Orderly (execHoldFlit n s flit) := by
  simp only [execHoldFlit, orderly_next]
  split
  · exact ok_takeAck (by simpa using h) n flit
  · exact h

theorem orderly_replayLimit {s : State} (h : s.rolls.Ok) (n lane : Nat) : Orderly (execReplayLimit n s lane) := by
  simp only [execReplayLimit, orderly_next, rolls_ite, rolls_ok_ite, ok_goDown h, rolls_putOffLane, rolls_startLane, h, implies_true,
    and_self]

theorem orderly_laneRepairDone {s : State} (h : s.rolls.Ok) (n : Nat) (received : Option Nat) :
    Orderly (execLaneRepairDone n s received) := by
  simp only [execLaneRepairDone, orderly_next]
  split
  · split
    · exact (rolls_setPortCode _ _ _).symm ▸ h
    · exact h
  · split
    · exact ok_moveOn (by rw [rolls_replayAll, rolls_setPortCode]; exact h)
    · exact h
  · exact h

theorem orderly_portDown {s : State} (h : s.rolls.Ok) (n : Nat) : Orderly (execPortDown n s) := by
  simp only [execPortDown, orderly_next, rolls_ite, rolls_ok_ite, ok_goDown h, rolls_setPortCode, h, implies_true, and_self]

theorem orderly_holdFlitSend {s : State} (h : s.rolls.Ok) (n : Nat) : Orderly (execHoldFlitSend n s) := by
  simp only [execHoldFlitSend, orderly_next]
  split
  · split <;> simpa using h
  · exact h

/-! ### Messages -/

/-- A message of a context is acted on once. -/
theorem ok_receive {s : State} (h : s.rolls.Ok) (m : Msg) {again : State → Nat → State} {act : State → Nat → State × Nat}
    (hagain : ∀ s x, (again s x).rolls = s.rolls) (hact : ∀ {s : State}, s.rolls.Ok → ∀ x, (act s x).1.rolls.Ok) :
    (receive s m again act).rolls.Ok := by
  unfold receive
  split
  · exact h
  · dsimp only
    split
    · simpa [hagain] using h
    · split
      · exact h
      · simpa using hact (by simpa using h) _

theorem ok_flagVisible {s : State} (h : s.rolls.Ok) (x : Nat) (m : Msg) : (flagVisible s x m).rolls.Ok := by
  unfold flagVisible
  simpa using ok_remoteSignal (by simpa using h) _ _

theorem ok_tryFlags (x : Nat) {s : State} (h : s.rolls.Ok) : (tryFlags x s).rolls.Ok :=
  ok_foldl_all (fun t f h => by
    split
    · rw [rolls_sendAck]
      exact ok_flagVisible (by simpa using h) _ _
    · exact h) _ h

theorem ok_countLanded {s : State} (h : s.rolls.Ok) (x g : Nat) : (countLanded s x g).rolls.Ok := ok_tryFlags x (by simpa using h)

theorem ok_partLanded {s : State} (h : s.rolls.Ok) (x : Nat) (m : Msg) : (partLanded s x m).rolls.Ok := by
  unfold partLanded
  split
  · exact ok_countLanded h _ _
  · extract_lets rest got
    split
    · exact ok_countLanded (by simpa using h) _ _
    · exact h

theorem ok_actWrite (m : Msg) {s : State} (h : s.rolls.Ok) (x : Nat) : (actWrite m s x).1.rolls.Ok := by
  unfold actWrite
  split
  · exact ok_partLanded (by simpa using h) _ _
  · simpa [refuseAddr] using h

theorem ok_actFlag (m : Msg) {s : State} (h : s.rolls.Ok) (x : Nat) : (actFlag m s x).1.rolls.Ok := by
  unfold actFlag
  split
  · split
    · exact ok_flagVisible h _ _
    · exact h
  · simpa [refuseAddr] using h

theorem ok_actReadReq (m : Msg) {s : State} (h : s.rolls.Ok) (x : Nat) : (actReadReq m s x).1.rolls.Ok := by
  unfold actReadReq
  split
  · dsimp only
    rw [rolls_sendResp]
    exact h
  · simpa [refuseAddr] using h

theorem ok_actFlagAck (m : Msg) {s : State} (h : s.rolls.Ok) (x : Nat) : (actFlagAck m s x).1.rolls.Ok := by
  unfold actFlagAck
  extract_lets lost s1 fabric s2
  have h2 : s2.rolls.Ok := by simpa [s2, s1] using h
  split
  · next o ho =>
    have hr := Op.InRange.of_find? h2 ho
    split
    · exact ok_setOp h2 ⟨hr.part, hr.group⟩
    · exact ok_remoteEnds h2 hr _
  · exact h2

theorem ok_pieceLost {s : State} (h : s.rolls.Ok) {o : Op} (ho : o.InRange) (r : Request) : (pieceLost s o r).rolls.Ok := by
  unfold pieceLost
  split
  · refine ok_landRequest h ?_ _ _
    exact ⟨ho.part, ho.group⟩
  · refine ok_remoteEnds h ?_ _
    exact ⟨ho.part, ho.group⟩

theorem ok_actReadResp (m : Msg) {s : State} (h : s.rolls.Ok) (x : Nat) : (actReadResp m s x).1.rolls.Ok := by
  unfold actReadResp
  split
  · next o ho =>
    have hr := Op.InRange.of_find? h ho
    split
    · dsimp only
      split
      · exact ok_pieceLost h hr _
      · exact ok_landRequest h hr _ _
    · exact h
  · exact h

theorem ok_actNack (m : Msg) {s : State} (h : s.rolls.Ok) (x : Nat) : (actNack m s x).1.rolls.Ok := by
  unfold actNack
  have h1 : (flagOver s x m.tag).rolls.Ok := by simpa using h
  dsimp only
  split
  · next o ho => exact ok_remoteEnds h1 (.of_find? h1 ho) _
  · exact h1

theorem ok_actReady (m : Msg) {s : State} (h : s.rolls.Ok) (x : Nat) : (actReady m s x).1.rolls.Ok := by
  unfold actReady
  split
  · split
    · simpa using h
    · exact ok_collMoveAll (by simpa using h) _
  · simpa using h

theorem ok_actSegment (m : Msg) {s : State} (h : s.rolls.Ok) (x : Nat) : (actSegment m s x).1.rolls.Ok := by
  unfold actSegment
  extract_lets broken
  clear_value broken
  split
  · simpa using h
  · split
    · next o ho =>
      have hr := Op.InRange.of_find? h ho
      split
      · next c hc => exact ok_collMove (ok_setOp h (inRange_coll hr (by exact hr.group c hc))) _
      · exact h
    · exact h

theorem ok_actMismatch (m : Msg) {s : State} (h : s.rolls.Ok) (x : Nat) : (actMismatch m s x).1.rolls.Ok := by
  unfold actMismatch
  split
  · next o ho => exact ok_remoteEnds h (.of_find? h ho) _
  · exact h

theorem ok_paceOp (delay : Nat) {s : State} (h : s.rolls.Ok) {o : Op} (ho : o.InRange) : (paceOp delay s o).rolls.Ok :=
  ok_setOp h ⟨ho.part, ho.group⟩

theorem ok_actPace (m : Msg) {s : State} (h : s.rolls.Ok) (x : Nat) : (actPace m s x).1.rolls.Ok := by
  unfold actPace
  split
  · exact h
  · next g _ =>
    have hpaced : (forOps (collsOf s g) (paceOp m.aux) s).rolls.Ok := ok_forOps (ok_paceOp m.aux) _ h
    split
    · exact h
    · dsimp only
      split
      · simpa using hpaced
      · exact hpaced

theorem orderly_writeMsg {s : State} (h : s.rolls.Ok) (m : Msg) : Orderly (execWriteMsg m s) := by
  simp only [execWriteMsg, orderly_next, rolls_ite, rolls_ok_ite]
  exact ⟨fun _ => h, fun _ => ok_receive h m rolls_quiet (ok_actWrite m)⟩

theorem orderly_flagMsg {s : State} (h : s.rolls.Ok) (m : Msg) : Orderly (execFlagMsg m s) := by
  simp only [execFlagMsg, orderly_next, rolls_ite, rolls_ok_ite]
  exact ⟨fun _ => h, fun _ => ok_receive h m (rolls_againFlag m) (ok_actFlag m)⟩

theorem orderly_readReq {s : State} (h : s.rolls.Ok) (m : Msg) : Orderly (execReadReq m s) := by
  simp only [execReadReq, orderly_next, rolls_ite, rolls_ok_ite]
  exact ⟨fun _ => h, fun _ => ok_receive h m rolls_quiet (ok_actReadReq m)⟩

/-- The messages that every context takes once and that nothing holds back. -/
theorem orderly_receive {s : State} (h : s.rolls.Ok) (m : Msg) {act : State → Nat → State × Nat}
    (hact : ∀ {s : State}, s.rolls.Ok → ∀ x, (act s x).1.rolls.Ok) : Orderly (.next (receive s m quiet act)) :=
  orderly_next.mpr (ok_receive h m rolls_quiet hact)

theorem orderly_ack {s : State} (h : s.rolls.Ok) (m : Msg) : Orderly (execAck m s) := by
  simp only [execAck, orderly_next]
  split
  · exact ok_flagsOn (ok_collMoves (by simpa [rolls_sendWaiting] using h) _)
  · exact h

theorem orderly_openMsg {s : State} (h : s.rolls.Ok) (m : Msg) : Orderly (execOpenMsg m s) := by
  simpa [execOpenMsg] using h

theorem orderly_closeMsg {s : State} (h : s.rolls.Ok) (m : Msg) : Orderly (execCloseMsg m s) := by
  simp only [execCloseMsg, orderly_next, rolls_ite, rolls_ok_ite, ok_ctxDown h, h, implies_true, and_self]

theorem orderly_paceSend {s : State} (h : s.rolls.Ok) (g : Nat) : Orderly (execPaceSend g s) := by
  simp only [execPaceSend, orderly_next]
  split
  · rw [rolls_answer]
    refine ok_forOps (fun h _ ho => ?_) _ h
    exact ok_setOp h ⟨ho.part, ho.group⟩
  · exact h

theorem ok_chipGone {s : State} (h : s.rolls.Ok) (chip : Nat) : (chipGone s chip).rolls.Ok := by
  have hlost : ∀ (ids : List Nat) {s : State}, s.rolls.Ok → (forOps ids (remoteEnds stPEER_LOST) s).rolls.Ok :=
    fun ids _ h => ok_forOps (fun h _ ho => ok_remoteEnds h ho _) ids h
  exact hlost _ (hlost _ (ok_foldl_all (fun _ x h => ok_ctxDown h x _ _) _ h))

theorem orderly_depart {s : State} (h : s.rolls.Ok) (m : Msg) (port vc : Nat) : Orderly (execDepart m port s vc) := by
  simp only [execDepart, orderly_next]
  split
  · exact ok_chipGone (by simpa using h) _
  · exact h

theorem orderly_xportTimeoutExpiry {s : State} (h : s.rolls.Ok) (ctx xseq : Nat) : Orderly (execXportTimeoutExpiry ctx xseq s) := by
  simp only [execXportTimeoutExpiry, orderly_next]
  split
  · simp only [rolls_ite, rolls_ok_ite, rolls_reissue, rolls_contained, ok_ctxDown h, h, implies_true, and_self]
  · exact h

theorem orderly_collTimeoutExpiry {s : State} (h : s.rolls.Ok) (op : Nat) : Orderly (execCollTimeoutExpiry op s) := by
  simp only [execCollTimeoutExpiry, orderly_next]
  split
  · next o ho => simp only [rolls_ite, rolls_ok_ite, ok_endOp h (.of_opOf? h ho), h, implies_true, and_self]
  · exact h

theorem orderly_flagHoldExpiry {s : State} (h : s.rolls.Ok) (ctx xseq : Nat) : Orderly (execFlagHoldExpiry ctx xseq s) := by
  simp only [execFlagHoldExpiry, orderly_next]
  split
  · simpa using h
  · exact h

/-! ### Regrowth -/

theorem orderly_coreCheck {s : State} (h : s.rolls.Ok) (c : Nat) : Orderly (execCoreCheck c s) := by
  simp only [execCoreCheck, orderly_next]
  split
  · exact ok_beginMapping (ok_abandonCore (by simpa using h) c) c
  · exact h

theorem orderly_plannedRetirementProceed {s : State} (h : s.rolls.Ok) (c : Nat) : Orderly (execPlannedRetirementProceed c s) := by
  simp only [execPlannedRetirementProceed, orderly_next, rolls_ite, rolls_ok_ite, ok_beginMapping h, h, implies_true, and_self]

theorem orderly_spareMappingDone {s : State} (h : s.rolls.Ok) (c : Nat) (failed : List Nat) :
    Orderly (execSpareMappingDone c failed s) := by
  have hpass : (passSpare failed (homeQuad c) 4 (endJob s (.core c))).1.rolls.Ok := by simpa [rolls_passSpare] using h
  simp only [execSpareMappingDone, orderly_next]
  split
  · split
    · rw [rolls_finishDelayed]
      exact ok_resumeReset (by simpa using hpass) c
    · exact ok_retireWithout hpass c
  · exact h

theorem orderly_poolBankCopyDone {s : State} (h : s.rolls.Ok) (die bank : Nat) : Orderly (execPoolBankCopyDone die bank s) := by
  simp only [execPoolBankCopyDone, orderly_next]
  split
  · exact ok_serveCores (by simpa using h)
  · exact h

theorem orderly_ceLimit {s : State} (h : s.rolls.Ok) (part : Part) : Orderly (execCeLimit part s) := by
  simp only [execCeLimit, orderly_next]
  split
  · exact h
  · cases part with
    | core c =>
      dsimp only
      split
      · have hnoted : (noteEntry (logError s 0 1 0x13 c 0 (coreAction s c)) 0x13 c).rolls.Ok := by simpa using h
        split
        · exact hnoted
        · exact ok_planRetire hnoted c
      · exact h
    | bank d b => simpa using h
    | row line => simpa using h

theorem orderly_spawnUe {s : State} (h : s.rolls.Ok) (p : Nat) : Orderly (execSpawnUe p s) := by
  simp only [execSpawnUe, orderly_next]
  split
  · exact ok_beginReset (by simpa using h) p
  · exact h

theorem orderly_pcRelayDone {s : State} (h : s.rolls.Ok) (k : Nat) : Orderly (execPcRelayDone k s) := by
  simp only [execPcRelayDone, orderly_next]
  split
  · simpa using h
  · exact h

theorem orderly_pseudoChannelMoveDone {s : State} (h : s.rolls.Ok) (k channel : Nat) (unreadable : List Nat) (retrained : Bool) :
    Orderly (execPseudoChannelMoveDone k channel unreadable s retrained) := by
  simp only [execPseudoChannelMoveDone, orderly_next]
  split
  · simpa using h
  · simpa using h

/-! ### Partitions -/

theorem orderly_partResetComplete {s : State} (h : s.rolls.Ok) (p : Nat) : Orderly (execPartResetComplete p s) := by
  have hclear := ok_clearPart h p
  simp only [execPartResetComplete, orderly_next]
  split
  · rw [rolls_finishDelayed, rolls_finishDelayed]
    split
    · simpa using hclear
    · exact ok_startPart (by simpa using hclear) p
  · exact h

/-! ### Management -/

theorem orderly_notifyRetransmit {s : State} (h : s.rolls.Ok) (sid txid : Nat) : Orderly (execNotifyRetransmit sid txid s) := by
  simp only [execNotifyRetransmit, orderly_next]
  split
  · split
    · simpa [rolls_offerNote] using h
    · exact h
  · exact h

theorem orderly_sessionIdleExpiry {s : State} (h : s.rolls.Ok) (sid : Nat) : Orderly (execSessionIdleExpiry sid s) := by
  simp only [execSessionIdleExpiry, orderly_next]
  split
  · simpa using h
  · exact h

theorem orderly_mgmtWatchdog {s : State} (h : s.rolls.Ok) : Orderly (execMgmtWatchdog s) := by
  simp only [execMgmtWatchdog, orderly_next]
  split
  · rw [rolls_restartMgmt]
    simpa using h
  · exact h

theorem orderly_replicaMeasurement {s : State} (h : s.rolls.Ok) (rates : List Nat) : Orderly (execReplicaMeasurement rates s) := by
  simpa [execReplicaMeasurement] using h

theorem orderly_railRampDone {s : State} (h : s.rolls.Ok) (q : Nat) : Orderly (execRailRampDone q s) := by
  simp only [execRailRampDone, orderly_next]
  split
  · split <;> simpa using h
  · exact h

end Sys2Proof.Machine

/-! PROOF. O5: every command keeps the rolls in order. -/

namespace Sys2Proof.Machine

open Sys2Proof

/-- Every command keeps the rolls in order: one lemma for each command that changes them, and the frame lemmas for the others. -/
theorem orderly_exec {s : State} (h : s.rolls.Ok) (i : Instr) : Orderly (exec i s) := by
  cases i
  -- Power, clocks, starts and resets
  case powerGoodRise clksel id => exact orderly_powerGoodRise h clksel id
  case coldReset => exact orderly_coldReset h
  case v48Under mv => exact orderly_v48Under h mv
  case v48LowTimeout => exact orderly_v48LowTimeout h
  case v48HighTimeout => exact orderly_v48HighTimeout h
  case v48Over mv => exact orderly_v48Over h mv
  case v48Low mv => simpa [exec, execV48Low] using h
  case v48High mv => simpa [exec, execV48High] using h
  case v48Normal mv => simpa [exec, execV48Normal] using h
  case shutdownRestart => exact orderly_shutdownRestart h
  case crystalOscillation => simpa [exec, execCrystalOscillation] using h
  case referenceQualified => simpa [exec, execReferenceQualified] using h
  case refFault => simpa [exec, execRefFault] using h
  case loopsLocked => simpa [exec, execLoopsLocked] using h
  case loopLockFailure => simpa [exec, execLoopLockFailure] using h
  case computeRailsInRegulation => simpa [exec, execComputeRailsInRegulation] using h
  case railFailure => simpa [exec, execRailFailure] using h
  case builtInSelfTest cores banks => exact orderly_builtInSelfTest h cores banks
  case dramTraining failed => exact orderly_dramTraining h failed
  case pcieLinkTraining ep width rate flit => simpa [exec, execPcieLinkTraining] using h
  case partitionRestore => exact orderly_partitionRestore h
  case configRequest fn req => simpa [exec, execConfigRequest] using h
  case resetNAssert => exact orderly_resetNAssert h
  case resetNDeassert clksel id => exact orderly_resetNDeassert h clksel id
  case partResetComplete p => exact orderly_partResetComplete h p
  case functionLevelReset fn => exact orderly_functionLevelReset h fn
  case perstAssert ep => exact orderly_perstAssert h ep
  case perstDeassert ep => simpa [exec, execPerstDeassert] using h
  case pcieLinkLoss ep => simpa [exec, execPcieLinkLoss] using h
  case vfEnableClear ep => exact orderly_vfEnableClear h ep
  case lossOfLockRoot => simpa [exec, execLossOfLockRoot] using h
  case lossOfLockMemory die => simpa [exec, execLossOfLockMemory] using h
  case refLost stopped => simpa [exec, execRefLost] using h
  case rootRelock => exact orderly_rootRelock h
  case rootRelockFail => exact orderly_rootRelockFail h
  case memRelock die => exact orderly_memRelock h die
  case memRelockFail die => exact orderly_memRelockFail h die
  -- Levels, power, temperature
  case sequencerStepUp q => simpa [exec, execSequencerStepUp] using h
  case sequencerStepDown q => simpa [exec, execSequencerStepDown] using h
  case railRampDone q => exact orderly_railRampDone h q
  case railSettleEnd q => simpa [exec, execRailSettleEnd] using h
  case stepDownWaitEnd q => simpa [exec, execStepDownWaitEnd] using h
  case envPeriodEnd mw => exact orderly_envPeriodEnd h mw
  case envFastRaise mw => exact orderly_envFastRaise h mw
  case powerMeasurementUpdate mv mw => simpa [exec, execPowerMeasurementUpdate] using h
  case energyMeterUpdate pkg quads shared => exact orderly_energyMeterUpdate h pkg quads shared
  case baskSample quads piles => exact orderly_baskSample h quads piles
  case thermalStateExit stack k => exact orderly_thermalStateExit h stack k
  case replicaMeasurement rates => exact orderly_replicaMeasurement h rates
  -- The host's queues
  case iqDoorbell fn k value bytes => exact orderly_iqDoorbell h fn k value bytes
  case batchFetch q => exact orderly_batchFetch h q
  case iqEnable fn k ctrl => exact orderly_iqCtrl h _ fn k ctrl
  case iqDisable fn k ctrl => exact orderly_iqDisable h fn k ctrl
  case resume fn k ctrl => exact orderly_iqCtrl h _ fn k ctrl
  case cqDoorbell fn j value => exact orderly_cqDoorbell h fn j value
  case cqEnable fn j ctrl => simpa [exec, execCqEnable] using h
  case cqDisable fn j ctrl => simpa [exec, execCqDisable] using h
  case coalTimeExpiry q => exact orderly_coalTimeExpiry h q
  case bar0RegisterWrite fn off size value => exact orderly_bar0RegisterWrite h fn off size value
  -- The Weir
  case admitOp q => exact orderly_admitOp h q
  case issue op => exact orderly_issue h op
  case place op => exact orderly_place h op
  case dispatch op => exact orderly_dispatch h op
  case wavefrontComplete c => exact orderly_wavefrontComplete h c
  case stallTimerExpiry c waves => exact orderly_stallTimerExpiry h c waves
  case preempt op => exact orderly_preempt h op
  case parkRunnable op => exact orderly_parkRunnable h op
  case resumeParked c => exact orderly_resumeParked h c
  case parkLimitExpiry op => exact orderly_parkLimitExpiry h op
  case release op m => exact orderly_release h op m
  case fence op => exact orderly_fence h op
  case fenceComplete op => exact orderly_fenceComplete h op
  -- Memory
  case readReturn op addr => exact orderly_readReturn h op addr
  case dramLineRead op line err => exact orderly_dramLineRead h op line err
  case eddyWrite op addr bytes => exact orderly_eddyWrite h op addr bytes
  case eddyAgeExpiry k line => simpa [exec, execEddyAgeExpiry] using h
  case eddyDrainDone k line err => exact orderly_eddyDrainDone h k line err
  case scrubPass k corrected => simpa [exec, execScrubPass] using h
  case refresh k => simpa [exec, execRefresh] using h
  case flagHoldExpiry ctx xseq => exact orderly_flagHoldExpiry h ctx xseq
  -- The data effects of operations
  case copy | attn | attnScore | attnSoftmax | attnMerge | attnNorm | recCell | recScan | scanCarry | branchNew | fork | forkRetire |
      prune | select | pageAlloc | pageDrop | s2d | d2s | pool | boxDecode | nms | sort =>
    exact orderly_next.mpr (ok_runOp h _ _ _ _ _)
  case matmul | matmulT | conv => exact orderly_next.mpr (ok_runStream h _ _)
  case kvAppend op => exact orderly_next.mpr (ok_runAppend h op)
  case gather | scatter => exact orderly_next.mpr (ok_runGather h _ _)
  case put | putFlag => exact orderly_next.mpr (ok_runPut h _ _)
  case allReduce | reduceScatter | allGather | barrier | ringPass => exact orderly_next.mpr (ok_runColl h _ _)
  -- The fabric
  case fabricTraining port => exact orderly_fabricTraining h port
  case dataFlitReceive port flit => exact orderly_dataFlitReceive h port flit
  case idleFlit port flit => exact orderly_idleFlit h port flit
  case holdFlit port flit => exact orderly_holdFlit h port flit
  case replayLimit port lane => exact orderly_replayLimit h port lane
  case laneRepairDone port received => exact orderly_laneRepairDone h port received
  case portDown port => exact orderly_portDown h port
  case portRetrain port => simpa [exec, execPortRetrain] using h
  case holdFlitSend port => exact orderly_holdFlitSend h port
  case idleFlitSend port => simpa [exec, execIdleFlitSend] using h
  case holdSeriesEnd capped => simpa [exec, execHoldSeriesEnd] using h
  case holdMessageSend port => simpa [exec, execHoldMessageSend] using h
  case writeMsg m => exact orderly_writeMsg h m
  case flagMsg m => exact orderly_flagMsg h m
  case readReq m => exact orderly_readReq h m
  case readResp m => exact orderly_receive h m (ok_actReadResp m)
  case ack m => exact orderly_ack h m
  case nack m => exact orderly_receive h m (ok_actNack m)
  case flagAck m => exact orderly_receive h m (ok_actFlagAck m)
  case ready m => exact orderly_receive h m (ok_actReady m)
  case segment m => exact orderly_receive h m (ok_actSegment m)
  case mismatch m => exact orderly_receive h m (ok_actMismatch m)
  case openMsg m => exact orderly_openMsg h m
  case closeMsg m => exact orderly_closeMsg h m
  case holdMsg m => simpa [exec, execHoldMsg] using h
  case pace m => exact orderly_receive h m (ok_actPace m)
  case depart m port vc => exact orderly_depart h m port vc
  case join m port vc => simpa [exec, execJoin] using h
  case xportTimeoutExpiry ctx xseq => exact orderly_xportTimeoutExpiry h ctx xseq
  case collTimeoutExpiry op => exact orderly_collTimeoutExpiry h op
  case paceSend group => exact orderly_paceSend h group
  case openResend ctx => simpa [exec, execOpenResend] using h
  -- Requests of a management session
  case warmReset | partReset | coreReset | linkReset | plevelReqWrite | powerEnvWrite | stackThresholdWrite | arrayStallLimitWrite |
      cancelOp | cancelFlow | parkLimitWrite | precLockWrite | eddyAgeWrite | flagHoldLimitWrite | ctxOpen | ctxClose |
      collGroupCfgWrite | chipIdWrite | partCtrlCreate | partCtrlDestroy | sessionKill | keyMaterialWrite | coreRetire | pcRetire |
      errLogClear | fwBlock | fwCommit | fwActivate | svcDepart =>
    exact orderly_next.mpr (ok_writeRow h _ _ _ _)
  case discover | sessionOpen | sessionProve | stestoClose | closeReply | stestoRead | stestoWrite | notifyAck =>
    exact orderly_next.mpr (ok_receiveFrame h _ _ _)
  case notifyRetransmit sid txid => exact orderly_notifyRetransmit h sid txid
  case sessionIdleExpiry sid => exact orderly_sessionIdleExpiry h sid
  case lockoutExpiry src => exact orderly_next.mpr h
  case neighbourSolicitation src target => simpa [exec, execNeighbourSolicitation] using h
  case icmpv6Echo src data => simpa [exec, execIcmpv6Echo] using h
  case duplicateAddressDetection conflict => simpa [exec, execDuplicateAddressDetection] using h
  case mbSubmit ep value frame => exact orderly_mbSubmit h ep value frame
  case mbRelease ep value => exact orderly_mbRelease h ep value
  case mbNotifyFree ep value => exact orderly_mbNotifyFree h ep value
  case persistCommit => exact orderly_persistCommit h
  case firmwareReady => simpa [exec, execFirmwareReady] using h
  case fwRevert => simpa [exec, execFwRevert] using h
  case mgmtWatchdog => exact orderly_mgmtWatchdog h
  -- Regrowth
  case coreCheck c => exact orderly_coreCheck h c
  case ceLimit part => exact orderly_ceLimit h part
  case plannedRetirementProceed c => exact orderly_plannedRetirementProceed h c
  case spareMappingDone c failed => exact orderly_spareMappingDone h c failed
  case poolBankCopyDone die bank => exact orderly_poolBankCopyDone h die bank
  case dramRowRepairDone line => simpa [exec, execDramRowRepairDone] using h
  case pseudoChannelMoveDone k channel unreadable retrained => exact orderly_pseudoChannelMoveDone h k channel unreadable retrained
  case pcRelayDone k => exact orderly_pcRelayDone h k
  case poolUe line => simpa [exec, execPoolUe] using h
  case spawnUe p => exact orderly_spawnUe h p
  case fatalStop cause => exact orderly_fatalStop h cause
  -- The test port
  case extest bits => simpa [exec, execExtest] using h
  case samplePreload bits => simpa [exec, execSamplePreload] using h
  case idcode => simpa [exec, execIdcode] using h
  case clamp => simpa [exec, execClamp] using h
  case highz => simpa [exec, execHighz] using h
  case bypass code => simpa [exec, execBypass] using h
  case testLogicReset clksel id => exact orderly_testLogicReset h clksel id

/-- A step either lets time pass or carries out a command. -/
theorem orderly_step {s : State} (h : s.rolls.Ok) : Orderly (step s) := by
  unfold step
  split
  · simpa using h
  · exact orderly_exec (by exact h) _

/-- Settles O5, by the frame of the rolls: each command either leaves them alone or keeps them in order. -/
theorem stepKeepsOrderAndCopies : Obligations.StepKeepsOrderAndCopies := by
  unfold Obligations.StepKeepsOrderAndCopies
  intro s t hops hiqs hspawn hcopies hstaged hstep
  exact (rollsOk_iff t).mp (orderly_step ((rollsOk_iff s).mpr ⟨hops, hiqs, hspawn, hcopies, hstaged⟩) t hstep)

end Sys2Proof.Machine

/-! PROOF. O13: step 13 of the start restores the persisted partitions (spec/05 R105, R107, R108; spec/16 R419, R422). -/

namespace Sys2Proof.Machine

open Sys2Proof

/-! ### What restoring partitions leaves alone -/

/-- All that the restoring of a partition leaves alone, whichever it is, and what it empties for good. -/
structure Restores (s t : State) : Prop where
  objs : ∀ o sub, o ≠ oPART_STATE → o ≠ oPART_CORES → o ≠ oRESTORE_STATUS → o ≠ oBOOT_FAULT → sub < 256 → rd t o sub = rd s o sub
  fault : (rd s oBOOT_FAULT 0).testBit 8 = true → (rd t oBOOT_FAULT 0).testBit 8 = true
  repair : t.nv.repair = s.nv.repair
  power : t.power = s.power
  weir : t.weir = s.weir
  fabric : t.fabric = s.fabric
  spawn : t.spawn = s.spawn
  host : t.mem.host = s.mem.host
  staged : t.staged = s.staged
  iqs : ∀ q, iqOf s q = {} → iqOf t q = {}
  cqs : ∀ q, cqOf s q = {} → cqOf t q = {}
  zero : ∀ a, space a ≠ 0 → readByte s a = 0 → readByte t a = 0

/-- What the restoring of other partitions leaves of partition `p`. -/
structure Spares (p : Nat) (s t : State) : Prop where
  state : rd t oPART_STATE (p + 1) = rd s oPART_STATE (p + 1)
  cores : rd t oPART_CORES (p + 1) = rd s oPART_CORES (p + 1)
  mark : (rd t oRESTORE_STATUS 0).testBit p = (rd s oRESTORE_STATUS 0).testBit p
  record : partOf t p = partOf s p

theorem Restores.refl (s : State) : Restores s s :=
  ⟨fun _ _ _ _ _ _ _ => rfl, id, rfl, rfl, rfl, rfl, rfl, rfl, rfl, fun _ => id, fun _ => id, fun _ _ => id⟩

theorem Restores.trans {s t u : State} (h : Restores s t) (h' : Restores t u) : Restores s u where
  objs o sub h1 h2 h3 h4 h5 := (h'.objs o sub h1 h2 h3 h4 h5).trans (h.objs o sub h1 h2 h3 h4 h5)
  fault := h'.fault ∘ h.fault
  repair := h'.repair.trans h.repair
  power := h'.power.trans h.power
  weir := h'.weir.trans h.weir
  fabric := h'.fabric.trans h.fabric
  spawn := h'.spawn.trans h.spawn
  host := h'.host.trans h.host
  staged := h'.staged.trans h.staged
  iqs q := h'.iqs q ∘ h.iqs q
  cqs q := h'.cqs q ∘ h.cqs q
  zero a ha := h'.zero a ha ∘ h.zero a ha

theorem Spares.refl (p : Nat) (s : State) : Spares p s s := ⟨rfl, rfl, rfl, rfl⟩

theorem Spares.trans {p : Nat} {s t u : State} (h : Spares p s t) (h' : Spares p t u) : Spares p s u :=
  ⟨h'.state.trans h.state, h'.cores.trans h.cores, h'.mark.trans h.mark, h'.record.trans h.record⟩

/-- A store of another object than the four, or of one of the four, leaves the rest alone. -/
theorem restores_dict {s : State} {d : Tab Nat} {b : Bool}
    (hobjs : ∀ o sub, o ≠ oPART_STATE → o ≠ oPART_CORES → o ≠ oRESTORE_STATUS → o ≠ oBOOT_FAULT → sub < 256 →
      tabGet? d (objKey o sub) = tabGet? s.dict (objKey o sub))
    (hfault : (rd s oBOOT_FAULT 0).testBit 8 = true → (rd { s with dict := d } oBOOT_FAULT 0).testBit 8 = true) :
    Restores s { s with dict := d, nv := { s.nv with dirty := b } } where
  objs o sub h1 h2 h3 h4 h5 := rd_congr (hobjs o sub h1 h2 h3 h4 h5)
  fault := hfault
  repair := rfl
  power := rfl
  weir := rfl
  fabric := rfl
  spawn := rfl
  host := rfl
  staged := rfl
  iqs _ := id
  cqs _ := id
  zero _ _ := id

/-- A store of one of the four objects, the fault bit kept. -/
theorem restores_put (s : State) {o sub : Nat} (ho : o = oPART_STATE ∨ o = oPART_CORES ∨ o = oRESTORE_STATUS) (hsub : sub < 256) (v : Nat)
    (b : Bool) : Restores s { s with dict := tabPut s.dict (objKey o sub) v, nv := { s.nv with dirty := b } } := by
  refine restores_dict (fun o' sub' h1 h2 h3 h4 h5 => tabGet?_tabPut_ne _ _ (objKey_ne ?_ h5 hsub)) (fun h => ?_)
  · rintro rfl
    rcases ho with ho | ho | ho
    · exact h1 ho
    · exact h2 ho
    · exact h3 ho
  · have hne : oBOOT_FAULT ≠ o := by rcases ho with rfl | rfl | rfl <;> decide
    rwa [show rd { s with dict := tabPut s.dict (objKey o sub) v } oBOOT_FAULT 0 = rd s oBOOT_FAULT 0 from
      rd_congr (tabGet?_tabPut_ne _ _ (objKey_ne hne (by decide) hsub))]

theorem restores_wr (s : State) {o sub : Nat} (ho : o = oPART_STATE ∨ o = oPART_CORES ∨ o = oRESTORE_STATUS) (hsub : sub < 256) (v : Nat) :
    Restores s (wr s o sub v) := restores_put s ho hsub v s.nv.dirty

theorem restores_wrP (s : State) {o sub : Nat} (ho : o = oPART_STATE ∨ o = oPART_CORES ∨ o = oRESTORE_STATUS) (hsub : sub < 256)
    (v : Nat) : Restores s (wrP s o sub v) := restores_put s ho hsub v true

/-- Another object stored, or another partition's, leaves a partition as it is. -/
theorem spares_dict {p : Nat} {s : State} {k v : Nat} {b : Bool} (hstate : objKey oPART_STATE (p + 1) ≠ k)
    (hcores : objKey oPART_CORES (p + 1) ≠ k) (hmark : objKey oRESTORE_STATUS 0 ≠ k) :
    Spares p s { s with dict := tabPut s.dict k v, nv := { s.nv with dirty := b } } :=
  ⟨rd_congr (tabGet?_tabPut_ne _ _ hstate), rd_congr (tabGet?_tabPut_ne _ _ hcores),
    congrArg (Nat.testBit · p) (rd_congr (tabGet?_tabPut_ne _ _ hmark)), rfl⟩

/-! ### The stores of the cores -/

theorem storedByte_fillRegion_ne (s : State) {lo hi a : Nat} (free : Option Nat) (h : ¬(lo ≤ a ∧ a < hi)) :
    storedByte (fillRegion s lo hi free).mem a = storedByte s.mem a := by
  have hcells : tabGet? (fillRegion s lo hi free).mem.cells a = tabGet? s.mem.cells a :=
    (tabGet?_filter s.mem.cells (fun k => !(decide (lo ≤ k ∧ k < hi))) a).trans (by simp [h])
  have hblank : blankByte (fillRegion s lo hi free).mem a = blankByte s.mem a := by
    simp only [blankByte, fillRegion, List.find?_cons, h, decide_false]
  rw [storedByte, storedByte, hcells, hblank]

theorem storedByte_zeroStore (s : State) (c a : Nat) :
    storedByte (zeroStore s c).mem a = storedByte (fillRegion s (coreBase c) (coreBase c + 0x600000) none).mem a := by
  rw [storedByte, storedByte, zeroStore_cells, blankByte_congr (zeroStore_fills s c) rfl]

/-- An address of a core's store is one of SPACE 2. -/
theorem space_of_store {c a : Nat} (hc : c < 128) (h : coreBase c ≤ a ∧ a < coreBase c + 0x600000) : space a = 2 := by
  simp only [space, coreBase] at h ⊢
  omega

/-- A core's store reads zero once it has been cleared. -/
theorem readByte_zeroStore_self (s : State) {c a : Nat} (hc : c < 128) (h : coreBase c ≤ a ∧ a < coreBase c + 0x600000) :
    readByte (zeroStore s c) a = 0 := by
  rw [readByte, if_neg (by rw [space_of_store hc h]; decide), storedByte_zeroStore]
  exact storedByte_fillRegion_zero s h

theorem restores_zeroStore (s : State) (c : Nat) : Restores s (zeroStore s c) where
  objs _ _ _ _ _ _ _ := rfl
  fault := id
  repair := rfl
  power := rfl
  weir := rfl
  fabric := rfl
  spawn := rfl
  host := rfl
  staged := rfl
  iqs _ := id
  cqs _ := id
  zero a ha h := by
    rw [readByte, if_neg ha] at h ⊢
    rw [storedByte_zeroStore]
    by_cases hin : coreBase c ≤ a ∧ a < coreBase c + 0x600000
    · exact storedByte_fillRegion_zero s hin
    · exact (storedByte_fillRegion_ne s none hin).trans h

theorem restores_zeroStores (l : List Nat) (s : State) : Restores s (l.foldl zeroStore s) := by
  induction l generalizing s with
  | nil => exact .refl s
  | cons c r ih => exact (restores_zeroStore s c).trans (ih _)

theorem spares_zeroStores (p : Nat) (l : List Nat) (s : State) : Spares p s (l.foldl zeroStore s) := by
  induction l generalizing s with
  | nil => exact .refl p s
  | cons c r ih => exact Spares.trans (t := zeroStore s c) ⟨rfl, rfl, rfl, rfl⟩ (ih _)

theorem readByte_zeroStores {l : List Nat} (hl : ∀ c ∈ l, c < 128) (s : State) {c a : Nat} (hc : c ∈ l)
    (h : coreBase c ≤ a ∧ a < coreBase c + 0x600000) : readByte (l.foldl zeroStore s) a = 0 := by
  induction l generalizing s with
  | nil => exact nomatch hc
  | cons d r ih =>
    have hd := hl c hc
    rcases List.mem_cons.mp hc with rfl | hc
    · exact (restores_zeroStores r _).zero a (by rw [space_of_store hd h]; decide) (readByte_zeroStore_self s hd h)
    · exact ih (fun x hx => hl x (List.mem_cons_of_mem _ hx)) _ hc

theorem iqOf_zeroStores (l : List Nat) (s : State) (q : Nat) : iqOf (l.foldl zeroStore s) q = iqOf s q := by
  induction l generalizing s with
  | nil => rfl
  | cons c r ih => exact ih _

theorem cqOf_zeroStores (l : List Nat) (s : State) (q : Nat) : cqOf (l.foldl zeroStore s) q = cqOf s q := by
  induction l generalizing s with
  | nil => rfl
  | cons c r ih => exact ih _

/-! ### The cores left, as a mask -/

theorem testBit_coreMask (cs : List Nat) (c : Nat) : (coreMask cs).testBit c = decide (c ∈ cs) := by
  have hfold : ∀ (l : List Nat) (w : Nat), (l.foldl (fun w c => setBit w c true) w).testBit c = (w.testBit c || decide (c ∈ l)) := by
    intro l
    induction l with
    | nil => simp
    | cons d r ih =>
      intro w
      rw [List.foldl_cons, ih]
      by_cases hcd : c = d
      · subst hcd
        simp
      · simp [testBit_setBit_ne w true hcd, hcd]
  simpa [coreMask] using hfold cs 0

theorem coreMask_ne_zero {cs : List Nat} : coreMask cs ≠ 0 ↔ cs ≠ [] := by
  refine ⟨fun h hnil => h (by rw [hnil]; rfl), fun h hzero => ?_⟩
  obtain ⟨c, hc⟩ := List.exists_mem_of_ne_nil cs h
  have hbit := testBit_coreMask cs c
  rw [hzero] at hbit
  simp [hc] at hbit

theorem mem_coresLeft {s : State} {p c : Nat} :
    c ∈ coresLeft s p ↔ c < 128 ∧ (rd s oPART_CORES (p + 1)).testBit c = true ∧ coreRetired s c = false := by
  simp [coresLeft, partCores, bitList, and_comm]

/-! ### What a start of a partition's queues does -/

/-- A queue of the range that an object of partition `p` names. -/
abbrev QueueOf (s : State) (o q p : Nat) : Prop :=
  rangeBase (rd s o (p + 1)) ≤ q ∧ q < rangeBase (rd s o (p + 1)) + rangeCount (rd s o (p + 1))

theorem iqOf_startPart (s : State) (p q : Nat) :
    (QueueOf s oIQ_RANGE q p → iqOf (startPart s p) q = {}) ∧ (¬QueueOf s oIQ_RANGE q p → iqOf (startPart s p) q = iqOf s q) := by
  have hget : tabGet? (startPart s p).iqs q = if !(decide (QueueOf s oIQ_RANGE q p)) then tabGet? s.iqs q else none :=
    tabGet?_filter s.iqs (fun k => !(decide (rangeBase (rd s oIQ_RANGE (p + 1)) ≤ k ∧
      k < rangeBase (rd s oIQ_RANGE (p + 1)) + rangeCount (rd s oIQ_RANGE (p + 1))))) q
  constructor
  · intro hq
    rw [iqOf, tabGet, hget, if_neg (by simp [hq])]
    rfl
  · intro hq
    rw [iqOf, tabGet, hget, if_pos (by simp [hq])]
    rfl

theorem cqOf_startPart (s : State) (p q : Nat) :
    (QueueOf s oCQ_RANGE q p → cqOf (startPart s p) q = {}) ∧ (¬QueueOf s oCQ_RANGE q p → cqOf (startPart s p) q = cqOf s q) := by
  have hget : tabGet? (startPart s p).cqs q = if !(decide (QueueOf s oCQ_RANGE q p)) then tabGet? s.cqs q else none :=
    tabGet?_filter s.cqs (fun k => !(decide (rangeBase (rd s oCQ_RANGE (p + 1)) ≤ k ∧
      k < rangeBase (rd s oCQ_RANGE (p + 1)) + rangeCount (rd s oCQ_RANGE (p + 1))))) q
  constructor
  · intro hq
    rw [cqOf, tabGet, hget, if_neg (by simp [hq])]
    rfl
  · intro hq
    rw [cqOf, tabGet, hget, if_pos (by simp [hq])]
    rfl

theorem restores_startPart (s : State) {p : Nat} (hp : p < 128) : Restores s (startPart s p) := by
  have hstate := restores_wr (zeroCqs (zeroIqs s (rd s oIQ_RANGE (p + 1))) (rd s oCQ_RANGE (p + 1))) (.inl rfl)
    (show p + 1 < 256 by omega) 1
  exact {
    objs := hstate.objs
    fault := hstate.fault
    repair := rfl
    power := rfl
    weir := rfl
    fabric := rfl
    spawn := rfl
    host := rfl
    staged := rfl
    iqs := fun q hq => (em (QueueOf s oIQ_RANGE q p)).elim (iqOf_startPart s p q).1 fun h => ((iqOf_startPart s p q).2 h).trans hq
    cqs := fun q hq => (em (QueueOf s oCQ_RANGE q p)).elim (cqOf_startPart s p q).1 fun h => ((cqOf_startPart s p q).2 h).trans hq
    zero := fun _ _ => id }

/-! ### The restoring of one partition -/

/-- A partition is restored: it has a core, its quota fits, and nobody owns what it names (R107, R419). -/
def Taken (s : State) (p : Nat) : Prop :=
  coreMask (coresLeft s p) ≠ 0 ∧ partDramMib s p * 2 ^ 20 ≤ dramBytes s ∧ ownsAlone s p = true

/-- The state with the cores that a partition has left, stored where they are fewer. -/
def withCores (s : State) (p : Nat) : State :=
  if coreMask (coresLeft s p) = rd s oPART_CORES (p + 1) then s else wrP s oPART_CORES (p + 1) (coreMask (coresLeft s p))

theorem restorePart_absent {s : State} {p : Nat} (h : (rd s oPART_FUNC (p + 1)).testBit 15 = false) : restorePart s p = s := by
  rw [restorePart, if_pos (by rw [h]; rfl)]

theorem restorePart_taken {s : State} {p : Nat} (h : (rd s oPART_FUNC (p + 1)).testBit 15 = true) (ht : Taken s p) :
    restorePart s p = (partCores (withCores s p) p).foldl zeroStore (startPart (withCores s p) p) := by
  rw [restorePart, if_neg (by rw [h]; decide)]
  exact if_pos ht

theorem restorePart_marked {s : State} {p : Nat} (h : (rd s oPART_FUNC (p + 1)).testBit 15 = true) (ht : ¬Taken s p) :
    restorePart s p = bootFault (wr s oRESTORE_STATUS 0 (setBit (rd s oRESTORE_STATUS 0) p true)) 8 := by
  rw [restorePart, if_neg (by rw [h]; decide)]
  exact if_neg ht

theorem restores_withCores (s : State) {p : Nat} (hp : p < 128) : Restores s (withCores s p) := by
  unfold withCores
  split
  · exact .refl s
  · exact restores_wrP s (.inr (.inl rfl)) (by omega) _

theorem rd_withCores (s : State) (p : Nat) : rd (withCores s p) oPART_CORES (p + 1) = coreMask (coresLeft s p) := by
  unfold withCores
  split
  · next h => exact h.symm
  · exact rd_wrP_self _ _ _ _

theorem restores_bootFault (s : State) : Restores s (bootFault s 8) :=
  restores_dict (b := s.nv.dirty) (fun _ _ _ _ _ h4 h5 => tabGet?_tabPut_ne _ _ (objKey_ne h4 h5 (by decide)))
    fun _ => (congrArg (Nat.testBit · 8) (rd_wr_self s oBOOT_FAULT 0 _)).trans (testBit_setBit_self _ _ _)

theorem restores_restorePart (s : State) {p : Nat} (hp : p < 128) : Restores s (restorePart s p) := by
  cases hv : (rd s oPART_FUNC (p + 1)).testBit 15 with
  | false => rw [restorePart_absent hv]; exact .refl s
  | true =>
    by_cases ht : Taken s p
    · rw [restorePart_taken hv ht]
      exact ((restores_withCores s hp).trans (restores_startPart _ hp)).trans (restores_zeroStores _ _)
    · rw [restorePart_marked hv ht]
      exact (restores_wr s (.inr (.inr rfl)) (by decide) _).trans (restores_bootFault _)

/-- Keys of the objects of a partition are not those of another, nor those of the whole package. -/
theorem partKey_ne {p r o o' : Nat} (hp : p < 128) (hr : r < 128) (h : p ≠ r ∨ o ≠ o') : objKey o (p + 1) ≠ objKey o' (r + 1) := by
  simp only [objKey]
  omega

theorem spares_withCores (s : State) {p r : Nat} (hp : p < 128) (hr : r < 128) (h : p ≠ r) : Spares p s (withCores s r) := by
  unfold withCores
  split
  · exact .refl p s
  · exact spares_dict (b := true) (partKey_ne hp hr (.inl h)) (partKey_ne hp hr (.inl h)) (objKey_ne (by decide) (by decide) (by omega))

theorem spares_startPart (s : State) {p r : Nat} (hp : p < 128) (hr : r < 128) (h : p ≠ r) : Spares p s (startPart s r) := by
  have hdict := spares_dict (s := zeroCqs (zeroIqs s (rd s oIQ_RANGE (r + 1))) (rd s oCQ_RANGE (r + 1))) (v := 1)
    (b := s.nv.dirty) (partKey_ne (o := oPART_STATE) (o' := oPART_STATE) hp hr (.inl h))
    (partKey_ne hp hr (.inl h)) (objKey_ne (by decide) (by decide) (by omega))
  exact ⟨hdict.state, hdict.cores, hdict.mark, tabGet_tabPut_ne _ _ _ h⟩

theorem spares_restorePart (s : State) {p r : Nat} (hp : p < 128) (hr : r < 128) (h : p ≠ r) : Spares p s (restorePart s r) := by
  cases hv : (rd s oPART_FUNC (r + 1)).testBit 15 with
  | false => rw [restorePart_absent hv]; exact .refl p s
  | true =>
    by_cases ht : Taken s r
    · rw [restorePart_taken hv ht]
      exact ((spares_withCores s hp hr h).trans (spares_startPart _ hp hr h)).trans (spares_zeroStores p _ _)
    · rw [restorePart_marked hv ht]
      have hmark : Spares p s (wr s oRESTORE_STATUS 0 (setBit (rd s oRESTORE_STATUS 0) r true)) :=
        ⟨rd_wr_ne _ _ (objKey_ne (by decide) (by omega) (by decide)), rd_wr_ne _ _ (objKey_ne (by decide) (by omega) (by decide)),
          (congrArg (Nat.testBit · p) (rd_wr_self _ _ _ _)).trans (testBit_setBit_ne _ _ h), rfl⟩
      exact hmark.trans (spares_dict (objKey_ne (by decide) (by omega) (by decide)) (objKey_ne (by decide) (by omega) (by decide))
        (objKey_ne (by decide) (by decide) (by decide)))

/-! ### All partitions in turn -/

/-- The first `n` partitions restored. -/
def restored (n : Nat) (u : State) : State := (List.range n).foldl restorePart u

theorem restored_succ (n : Nat) (u : State) : restored (n + 1) u = restorePart (restored n u) n := by
  simp [restored, List.range_succ]

theorem restores_restored {n m : Nat} (u : State) (hnm : n ≤ m) (hm : m ≤ 128) : Restores (restored n u) (restored m u) := by
  induction m, hnm using Nat.le_induction with
  | base => exact .refl _
  | succ m _ ih =>
    rw [restored_succ]
    exact (ih (by omega)).trans (restores_restorePart _ (by omega))

theorem spares_restored {n m p : Nat} (u : State) (hnm : n ≤ m) (hm : m ≤ 128) (hp : p < 128) (hout : p < n ∨ m ≤ p) :
    Spares p (restored n u) (restored m u) := by
  induction m, hnm using Nat.le_induction with
  | base => exact .refl _ _
  | succ m hnm ih =>
    rw [restored_succ]
    exact (ih (by omega) (by omega)).trans (spares_restorePart _ hp (by omega) (by omega))

/-! ### What a partition owns alone -/

theorem rangesMeet_iff {v w : Nat} : rangesMeet v w = true ↔
    ∃ q, (rangeBase v ≤ q ∧ q < rangeBase v + rangeCount v) ∧ rangeBase w ≤ q ∧ q < rangeBase w + rangeCount w := by
  rw [rangesMeet, decide_eq_true_eq]
  exact ⟨fun h => ⟨max (rangeBase v) (rangeBase w), by omega⟩, fun ⟨q, h⟩ => by omega⟩

/-- What partition `p` names by the values `u` meets what partition `r` has, its cores by `w`. -/
def Meets (u w : State) (p r : Nat) : Prop :=
  partFn u p = partFn u r ∨ rd u oPART_CORES (p + 1) &&& rd w oPART_CORES (r + 1) ≠ 0 ∨
    rd u oPART_DRAM_EXT (p + 1) &&& rd u oPART_DRAM_EXT (r + 1) ≠ 0 ∨ rd u oPART_POOL_EXT (p + 1) &&& rd u oPART_POOL_EXT (r + 1) ≠ 0 ∨
    (∃ q, QueueOf u oIQ_RANGE q p ∧ QueueOf u oIQ_RANGE q r) ∨ ∃ q, QueueOf u oCQ_RANGE q p ∧ QueueOf u oCQ_RANGE q r

/-- Partition `p` can be restored from the values `u`, those before it being as in `t` (R107, R419). -/
def Fits (u t : State) (p : Nat) : Prop :=
  coresLeft u p ≠ [] ∧ partDramMib u p * 2 ^ 20 ≤ dramBytes u ∧
    ∀ r, r < 128 → r ≠ p → partExists (if r < p then t else u) r = true → ¬Meets u (if r < p then t else u) p r

theorem configsMeet_iff {u v w : State} (h : Restores u v) {p r : Nat} (hp : p < 128) (hr : r < 128)
    (hcores : rd v oPART_CORES (p + 1) = rd u oPART_CORES (p + 1)) (hother : rd v oPART_CORES (r + 1) = rd w oPART_CORES (r + 1)) :
    configsMeet v p r = true ↔ Meets u w p r := by
  have hobj : ∀ o x, x < 128 → o ≠ oPART_STATE → o ≠ oPART_CORES → o ≠ oRESTORE_STATUS → o ≠ oBOOT_FAULT →
      rd v o (x + 1) = rd u o (x + 1) := fun o x hx h1 h2 h3 h4 => h.objs o _ h1 h2 h3 h4 (by omega)
  have hfn : ∀ x, x < 128 → partFn v x = partFn u x := fun x hx => by
    rw [partFn, partFn, hobj oPART_FUNC x hx (by decide) (by decide) (by decide) (by decide)]
  simp only [configsMeet, Bool.or_eq_true, beq_iff_eq, bne_iff_ne, rangesMeet_iff, Meets, QueueOf, hcores, hother, hfn p hp, hfn r hr,
    hobj oPART_DRAM_EXT p hp (by decide) (by decide) (by decide) (by decide),
    hobj oPART_DRAM_EXT r hr (by decide) (by decide) (by decide) (by decide),
    hobj oPART_POOL_EXT p hp (by decide) (by decide) (by decide) (by decide),
    hobj oPART_POOL_EXT r hr (by decide) (by decide) (by decide) (by decide),
    hobj oIQ_RANGE p hp (by decide) (by decide) (by decide) (by decide),
    hobj oIQ_RANGE r hr (by decide) (by decide) (by decide) (by decide),
    hobj oCQ_RANGE p hp (by decide) (by decide) (by decide) (by decide),
    hobj oCQ_RANGE r hr (by decide) (by decide) (by decide) (by decide), or_assoc]

theorem Restores.stackBytes {u v : State} (h : Restores u v) {k : Nat} (hk : k < 8) : stackBytes v k = stackBytes u k := by
  have hfit : stackFitted v k = stackFitted u k := by
    rw [stackFitted, stackFitted, variantOf, variantOf, h.objs oPKG_VARIANT 0 (by decide) (by decide) (by decide) (by decide) (by decide)]
  rw [Machine.stackBytes, Machine.stackBytes, pcActive, pcActive, hfit,
    h.objs oSTACK_PC_ACTIVE (k + 1) (by decide) (by decide) (by decide) (by decide) (by omega)]

theorem Restores.dramBytes {u v : State} (h : Restores u v) : dramBytes v = dramBytes u :=
  List.foldl_ext _ _ _ fun a _ hk => congrArg (a + ·) (h.stackBytes (List.mem_range.mp hk))

theorem Restores.coresLeft {u v : State} (h : Restores u v) {p : Nat} (hcores : rd v oPART_CORES (p + 1) = rd u oPART_CORES (p + 1)) :
    coresLeft v p = coresLeft u p := by
  have hret : coreRetired v = coreRetired u := funext fun c => by rw [coreRetired, coreRetired, h.repair]
  rw [Machine.coresLeft, Machine.coresLeft, partCores, partCores, hcores, hret]

/-- The partition whose turn it is can be restored just where it can by the values and by what the others are at the end. -/
theorem taken_restored_iff (u : State) {p : Nat} (hp : p < 128) : Taken (restored p u) p ↔ Fits u (restored 128 u) p := by
  have hfrom : Restores u (restored p u) := restores_restored u (Nat.zero_le p) (by omega)
  have hcores : rd (restored p u) oPART_CORES (p + 1) = rd u oPART_CORES (p + 1) :=
    (spares_restored u (Nat.zero_le p) (by omega) hp (.inr (Nat.le_refl p))).cores
  have hdram : partDramMib (restored p u) p = partDramMib u p := by
    rw [partDramMib, partDramMib, hfrom.objs oPART_DRAM_EXT (p + 1) (by decide) (by decide) (by decide) (by decide) (by omega)]
  have hothers : ∀ r, r < 128 → r ≠ p → Spares r (if r < p then restored 128 u else u) (restored p u) := fun r hr hrp => by
    split
    · have hlater := spares_restored u (Nat.le_of_lt hp) (Nat.le_refl _) hr (.inl ‹_›)
      exact ⟨hlater.state.symm, hlater.cores.symm, hlater.mark.symm, hlater.record.symm⟩
    · exact spares_restored u (Nat.zero_le p) (by omega) hr (.inr (by omega))
  have hexists : ∀ r, r < 128 → r ≠ p → partExists (restored p u) r = partExists (if r < p then restored 128 u else u) r :=
    fun r hr hrp => by rw [partExists, partExists, (hothers r hr hrp).state]
  have howns : ownsAlone (restored p u) p = true ↔ ∀ r, r < 128 → r ≠ p →
      partExists (if r < p then restored 128 u else u) r = true → ¬Meets u (if r < p then restored 128 u else u) p r := by
    simp only [ownsAlone, List.all_eq_true, List.mem_range, Bool.or_eq_true, beq_iff_eq, Bool.not_eq_true']
    refine forall₂_congr fun r hr => ?_
    by_cases hrp : r = p
    · simp [hrp]
    · rw [hexists r hr hrp, ← configsMeet_iff hfrom hp hr hcores (hothers r hr hrp).cores]
      cases partExists (if r < p then restored 128 u else u) r <;> simp [hrp]
  rw [Taken, Fits, coreMask_ne_zero, hdram, hfrom.dramBytes, hfrom.coresLeft hcores, howns]


/-! ### The whole step -/

/-- Every partition restored in turn, from the values accepted in limited mode. -/
def allRestored (s : State) : State := restored 128 (applyStaged s (fun i => !(trainingObj i)))

/-- The time the start took stored, and full mode begun. -/
def fullModeBegun (s : State) : State :=
  stage { wr s oBOOT_TIME_MS 0 ((s.nowUs - s.regr.resetAt) / 1000 % 65536) with power := { s.power with fullMode := true } } 13

theorem exec_partitionRestore {s : State} (h : atStage s 10 = true) : exec .partitionRestore s = .next (fullModeBegun (allRestored s)) :=
  congrArg Host.Outcome.next (if_pos h)

/-- The end of the step changes the time, the stage and full mode. -/
theorem told_fullModeBegun (s : State) : Told [objKey oBOOT_STAGE 0]
    { wr s oBOOT_TIME_MS 0 ((s.nowUs - s.regr.resetAt) / 1000 % 65536) with power := { s.power with fullMode := true } }
        (fullModeBegun s) :=
  told_stage _ 13

theorem rd_fullModeBegun (s : State) {o sub : Nat} (hsub : sub < 256) (htime : o ≠ oBOOT_TIME_MS) (hstage : o ≠ oBOOT_STAGE)
    (hlost : o ≠ oNOTIFY_LOST) : rd (fullModeBegun s) o sub = rd s o sub := by
  have hkeys : objKey o sub ∉ objKey oNOTIFY_LOST 0 :: [objKey oBOOT_STAGE 0] := by
    simp only [List.mem_cons, List.not_mem_nil, or_false, not_or]
    exact ⟨objKey_ne hlost hsub (by decide), objKey_ne hstage hsub (by decide)⟩
  exact ((told_fullModeBegun s).rd hkeys).trans (rd_wr_ne s _ (objKey_ne htime hsub (by decide)))

theorem partOf_fullModeBegun (s : State) (p : Nat) : partOf (fullModeBegun s) p = partOf s p := by
  rw [partOf, partOf, (told_fullModeBegun s).rest]
  rfl

theorem iqOf_fullModeBegun (s : State) (q : Nat) : iqOf (fullModeBegun s) q = iqOf s q := by
  rw [iqOf, iqOf, (told_fullModeBegun s).rest]
  rfl

theorem cqOf_fullModeBegun (s : State) (q : Nat) : cqOf (fullModeBegun s) q = cqOf s q := by
  rw [cqOf, cqOf, (told_fullModeBegun s).rest]
  rfl

theorem mem_fullModeBegun (s : State) : (fullModeBegun s).mem = s.mem := by
  rw [(told_fullModeBegun s).rest]
  rfl

/-! ### What becomes of each partition -/

/-- A restored partition, from the values `s` that it had when its turn came. -/
structure ActiveAgain (s t : State) (p : Nat) : Prop where
  state : rd t oPART_STATE (p + 1) = 1
  cores : rd t oPART_CORES (p + 1) = coreMask (coresLeft s p)
  record : partOf t p = { level := rd s oCREDIT_BURST (p + 1) * 1000000 }
  mark : (rd t oRESTORE_STATUS 0).testBit p = (rd s oRESTORE_STATUS 0).testBit p
  iqs : ∀ q, QueueOf s oIQ_RANGE q p → iqOf t q = {}
  cqs : ∀ q, QueueOf s oCQ_RANGE q p → cqOf t q = {}
  zero : ∀ c ∈ coresLeft s p, ∀ a, coreBase c ≤ a → a < coreBase c + 0x600000 → readByte t a = 0

theorem queueOf_congr {s t : State} {o p : Nat} (h : rd t o (p + 1) = rd s o (p + 1)) (q : Nat) : QueueOf t o q p ↔ QueueOf s o q p := by
  rw [QueueOf, QueueOf, h]

theorem restorePart_queues {s : State} {p : Nat} (hp : p < 128) (hv : (rd s oPART_FUNC (p + 1)).testBit 15 = true) (ht : Taken s p)
    (q : Nat) :
    (QueueOf s oIQ_RANGE q p → iqOf (restorePart s p) q = {}) ∧ (¬QueueOf s oIQ_RANGE q p → iqOf (restorePart s p) q = iqOf s q) ∧
    (QueueOf s oCQ_RANGE q p → cqOf (restorePart s p) q = {}) ∧ (¬QueueOf s oCQ_RANGE q p → cqOf (restorePart s p) q = cqOf s q) := by
  have hcores := restores_withCores s hp
  have hiq := queueOf_congr (hcores.objs oIQ_RANGE (p + 1) (by decide) (by decide) (by decide) (by decide) (by omega)) q
  have hcq := queueOf_congr (hcores.objs oCQ_RANGE (p + 1) (by decide) (by decide) (by decide) (by decide) (by omega)) q
  have hiqs : iqOf (withCores s p) q = iqOf s q := by
    unfold withCores
    split <;> rfl
  have hcqs : cqOf (withCores s p) q = cqOf s q := by
    unfold withCores
    split <;> rfl
  rw [restorePart_taken hv ht, iqOf_zeroStores, cqOf_zeroStores, ← hiq, ← hcq, ← hiqs, ← hcqs]
  exact ⟨(iqOf_startPart _ p q).1, (iqOf_startPart _ p q).2, (cqOf_startPart _ p q).1, (cqOf_startPart _ p q).2⟩

theorem mem_partCores_withCores {s : State} {p c : Nat} (hc : c ∈ coresLeft s p) : c ∈ partCores (withCores s p) p := by
  have hbit := testBit_coreMask (coresLeft s p) c
  simp only [partCores, bitList, rd_withCores, List.mem_filter, List.mem_range]
  exact ⟨(mem_coresLeft.mp hc).1, by simpa [hc] using hbit⟩

theorem active_restorePart {s : State} {p : Nat} (hp : p < 128) (hv : (rd s oPART_FUNC (p + 1)).testBit 15 = true) (ht : Taken s p) :
    ActiveAgain s (restorePart s p) p := by
  have hqueues := restorePart_queues hp hv ht
  have hcores := restores_withCores s hp
  have hmark : rd (withCores s p) oRESTORE_STATUS 0 = rd s oRESTORE_STATUS 0 := by
    unfold withCores
    split
    · rfl
    · exact rd_wrP_ne _ _ (objKey_ne (by decide) (by decide) (by omega))
  have hburst := hcores.objs oCREDIT_BURST (p + 1) (by decide) (by decide) (by decide) (by decide) (by omega)
  have hstore := spares_zeroStores p (partCores (withCores s p) p) (startPart (withCores s p) p)
  have heq := restorePart_taken hv ht
  refine ⟨?_, ?_, ?_, ?_, fun q => (hqueues q).1, fun q => (hqueues q).2.2.1, ?_⟩
  · rw [heq, hstore.state]
    exact rd_wr_self _ _ _ _
  · rw [heq, hstore.cores, ← rd_withCores]
    exact rd_wr_ne _ _ (objKey_ne (by decide) (by omega) (by omega))
  · rw [heq, hstore.record, ← hburst]
    exact tabGet_tabPut_self _ _ _ _
  · rw [heq, hstore.mark, ← hmark]
    exact congrArg (Nat.testBit · p) (rd_wr_ne _ _ (objKey_ne (by decide) (by decide) (by omega)))
  · intro c hc a hlo hhi
    rw [heq]
    exact readByte_zeroStores (fun x hx => (by simp [partCores, bitList] at hx; exact hx.1)) _ (mem_partCores_withCores hc) ⟨hlo, hhi⟩

section
variable (u : State) {p : Nat} (hp : p < 128)
include hp

theorem spares_before : Spares p u (restored p u) := spares_restored u (Nat.zero_le p) (by omega) hp (.inr (Nat.le_refl p))

theorem spares_after : Spares p (restorePart (restored p u) p) (restored 128 u) :=
  restored_succ p u ▸ spares_restored u (Nat.succ_le_of_lt hp) (Nat.le_refl _) hp (.inl (Nat.lt_succ_self p))

theorem restores_before : Restores u (restored p u) := restores_restored u (Nat.zero_le p) (by omega)

theorem restores_after : Restores (restorePart (restored p u) p) (restored 128 u) :=
  restored_succ p u ▸ restores_restored u (Nat.succ_le_of_lt hp) (Nat.le_refl _)

theorem rd_restored_func : rd (restored p u) oPART_FUNC (p + 1) = rd u oPART_FUNC (p + 1) :=
  (restores_before u hp).objs _ _ (by decide) (by decide) (by decide) (by decide) (by omega)

/-- A partition without VALID stays as it is. -/
theorem spares_absent (hv : (rd u oPART_FUNC (p + 1)).testBit 15 = false) : Spares p u (restored 128 u) := by
  have hafter := spares_after u hp
  rw [restorePart_absent (by rw [rd_restored_func u hp, hv])] at hafter
  exact (spares_before u hp).trans hafter

/-- A partition with VALID that cannot be restored keeps its state and is marked. -/
theorem marked_restored (hv : (rd u oPART_FUNC (p + 1)).testBit 15 = true) (hfits : ¬Fits u (restored 128 u) p) :
    rd (restored 128 u) oPART_STATE (p + 1) = rd u oPART_STATE (p + 1) ∧ (rd (restored 128 u) oRESTORE_STATUS 0).testBit p = true ∧
      (rd (restored 128 u) oBOOT_FAULT 0).testBit 8 = true := by
  have hafter := spares_after u hp
  have hlater := restores_after u hp
  rw [restorePart_marked (by rw [rd_restored_func u hp, hv]) (mt (taken_restored_iff u hp).mp hfits)] at hafter hlater
  refine ⟨(hafter.state.trans ?_).trans (spares_before u hp).state, hafter.mark.trans ?_, hlater.fault ?_⟩
  · exact (rd_wr_ne _ _ (objKey_ne (by decide) (by omega) (by decide))).trans (rd_wr_ne _ _ (objKey_ne (by decide) (by omega) (by decide)))
  · rw [bootFault, rd_wr_ne _ _ (objKey_ne (by decide) (by decide) (by decide)), rd_wr_self, testBit_setBit_self]
  · rw [bootFault, rd_wr_self, testBit_setBit_self]

/-- A partition with VALID that can be restored is active afterwards. -/
theorem active_restored (hv : (rd u oPART_FUNC (p + 1)).testBit 15 = true) (hfits : Fits u (restored 128 u) p) :
    ActiveAgain u (restored 128 u) p := by
  have hbefore := spares_before u hp
  have hfrom := restores_before u hp
  have hafter := spares_after u hp
  have hlater := restores_after u hp
  have hactive := active_restorePart hp (by rw [rd_restored_func u hp, hv]) ((taken_restored_iff u hp).mpr hfits)
  have hleft := hfrom.coresLeft hbefore.cores
  have hobj : ∀ o, o ≠ oPART_STATE → o ≠ oPART_CORES → o ≠ oRESTORE_STATUS → o ≠ oBOOT_FAULT →
      rd (restored p u) o (p + 1) = rd u o (p + 1) := fun o h1 h2 h3 h4 => hfrom.objs o _ h1 h2 h3 h4 (by omega)
  exact {
    state := hafter.state.trans hactive.state
    cores := by rw [hafter.cores, hactive.cores, hleft]
    record := by rw [hafter.record, hactive.record, hobj oCREDIT_BURST (by decide) (by decide) (by decide) (by decide)]
    mark := by rw [hafter.mark, hactive.mark, hbefore.mark]
    iqs := fun q hq => hlater.iqs q (hactive.iqs q
      ((queueOf_congr (hobj oIQ_RANGE (by decide) (by decide) (by decide) (by decide)) q).mpr hq))
    cqs := fun q hq => hlater.cqs q (hactive.cqs q
      ((queueOf_congr (hobj oCQ_RANGE (by decide) (by decide) (by decide) (by decide)) q).mpr hq))
    zero := fun c hc a hlo hhi => by
      have hc' := (mem_coresLeft.mp hc).1
      exact hlater.zero a (by rw [space_of_store hc' ⟨hlo, hhi⟩]; decide) (hactive.zero c (hleft ▸ hc) a hlo hhi) }

/-- The turn of a partition leaves the queues that it does not empty. -/
theorem queues_restorePart (q : Nat) :
    (((rd u oPART_FUNC (p + 1)).testBit 15 = true → Fits u (restored 128 u) p → ¬QueueOf u oIQ_RANGE q p) →
      iqOf (restored (p + 1) u) q = iqOf (restored p u) q) ∧
    (((rd u oPART_FUNC (p + 1)).testBit 15 = true → Fits u (restored 128 u) p → ¬QueueOf u oCQ_RANGE q p) →
      cqOf (restored (p + 1) u) q = cqOf (restored p u) q) := by
  rw [restored_succ p u]
  cases hv : (rd u oPART_FUNC (p + 1)).testBit 15 with
  | false =>
    rw [restorePart_absent (by rw [rd_restored_func u hp, hv])]
    exact ⟨fun _ => rfl, fun _ => rfl⟩
  | true =>
    have hv' : (rd (restored p u) oPART_FUNC (p + 1)).testBit 15 = true := by rw [rd_restored_func u hp, hv]
    by_cases hfits : Fits u (restored 128 u) p
    · have hqueues := restorePart_queues hp hv' ((taken_restored_iff u hp).mpr hfits) q
      have hobj : ∀ o, o ≠ oPART_STATE → o ≠ oPART_CORES → o ≠ oRESTORE_STATUS → o ≠ oBOOT_FAULT →
          rd (restored p u) o (p + 1) = rd u o (p + 1) :=
        fun o h1 h2 h3 h4 => (restores_before u hp).objs o _ h1 h2 h3 h4 (by omega)
      have hiq := queueOf_congr (hobj oIQ_RANGE (by decide) (by decide) (by decide) (by decide)) q
      have hcq := queueOf_congr (hobj oCQ_RANGE (by decide) (by decide) (by decide) (by decide)) q
      exact ⟨fun h => hqueues.2.1 (mt hiq.mp (h rfl hfits)), fun h => hqueues.2.2.2 (mt hcq.mp (h rfl hfits))⟩
    · rw [restorePart_marked hv' (mt (taken_restored_iff u hp).mp hfits)]
      exact ⟨fun _ => rfl, fun _ => rfl⟩

end

theorem iqOf_restored (u : State) (q : Nat) (h : ∀ p, p < 128 → (rd u oPART_FUNC (p + 1)).testBit 15 = true →
    Fits u (restored 128 u) p → ¬QueueOf u oIQ_RANGE q p) {n : Nat} (hn : n ≤ 128) : iqOf (restored n u) q = iqOf u q := by
  induction n with
  | zero => rfl
  | succ n ih => exact ((queues_restorePart u hn q).1 (h n hn)).trans (ih (by omega))

theorem cqOf_restored (u : State) (q : Nat) (h : ∀ p, p < 128 → (rd u oPART_FUNC (p + 1)).testBit 15 = true →
    Fits u (restored 128 u) p → ¬QueueOf u oCQ_RANGE q p) {n : Nat} (hn : n ≤ 128) : cqOf (restored n u) q = cqOf u q := by
  induction n with
  | zero => rfl
  | succ n ih => exact ((queues_restorePart u hn q).2 (h n hn)).trans (ih (by omega))

/-- What a partition reads as at the end of the step is what restoring left. -/
theorem spares_fullModeBegun (s : State) {p : Nat} (hp : p < 128) : Spares p s (fullModeBegun s) :=
  ⟨rd_fullModeBegun s (by omega) (by decide) (by decide) (by decide), rd_fullModeBegun s (by omega) (by decide) (by decide) (by decide),
    congrArg (Nat.testBit · p) (rd_fullModeBegun s (by decide) (by decide) (by decide) (by decide)), partOf_fullModeBegun s p⟩

theorem readByte_fullModeBegun (s : State) (a : Nat) : readByte (fullModeBegun s) a = readByte s a := by
  simp only [readByte, eddyByte, eddyEntry?, mem_fullModeBegun]

/-- Partitions fit by what their predecessors are once full mode has begun, as by what they were before. -/
theorem fits_fullModeBegun (u t : State) (p : Nat) : Fits u (fullModeBegun t) p ↔ Fits u t p := by
  have hsame : ∀ r, r < 128 → Spares r (if r < p then t else u) (if r < p then fullModeBegun t else u) := fun r hr => by
    split
    · exact spares_fullModeBegun t hr
    · exact .refl r u
  have hothers : ∀ r, r < 128 → ((partExists (if r < p then fullModeBegun t else u) r = true →
      ¬Meets u (if r < p then fullModeBegun t else u) p r) ↔
      (partExists (if r < p then t else u) r = true → ¬Meets u (if r < p then t else u) p r)) := fun r hr => by
    rw [partExists, partExists, Meets, Meets, (hsame r hr).state, (hsame r hr).cores]
  rw [Fits, Fits]
  exact and_congr_right fun _ => and_congr_right fun _ => forall₂_congr fun r hr => imp_congr_right fun _ => hothers r hr

/-- Settles O13: the partitions take their turns in order of number, and no turn touches what another partition is or empties. -/
theorem partitionsRestored : Obligations.PartitionsRestored := by
  unfold Obligations.PartitionsRestored
  intro s hstage u inside meets fits
  have hall : Restores u (restored 128 u) := restores_restored u (Nat.zero_le _) (Nat.le_refl _)
  have hend := told_fullModeBegun (restored 128 u)
  have hfits : ∀ p, p < 128 → (fits (fullModeBegun (restored 128 u)) p ↔ Fits u (restored 128 u) p) :=
    fun p _ => fits_fullModeBegun u (restored 128 u) p
  refine ⟨fullModeBegun (restored 128 u), exec_partitionRestore hstage, ?_, rd_stage _ 13, fun p hp => ?_, fun q hq => ?_, fun q hq => ?_,
    ?_, ?_, ?_, ?_, ?_⟩
  · rw [hend.rest]
    exact congrArg (fun w : Power => { w with fullMode := true }) hall.power
  · have hspares := spares_fullModeBegun (restored 128 u) hp
    rw [hfits p hp]
    split
    · next hv =>
      have habsent := (spares_absent u hp hv).trans hspares
      exact ⟨habsent.state, habsent.cores, habsent.mark⟩
    · next hv =>
      have hv : (rd u oPART_FUNC (p + 1)).testBit 15 = true := by simpa using hv
      constructor
      · intro hno
        obtain ⟨hstate, hmark, hfault⟩ := marked_restored u hp hv hno
        exact ⟨hspares.state.trans hstate, hspares.mark.trans hmark,
          (congrArg (Nat.testBit · 8) (rd_fullModeBegun _ (by decide) (by decide) (by decide) (by decide))).trans hfault⟩
      · intro hyes
        have hactive := active_restored u hp hv hyes
        exact ⟨hspares.state.trans hactive.state, hspares.cores.trans hactive.cores, hspares.record.trans hactive.record,
          hspares.mark.trans hactive.mark, fun q hq => (iqOf_fullModeBegun _ q).trans (hactive.iqs q hq),
          fun q hq => (cqOf_fullModeBegun _ q).trans (hactive.cqs q hq),
          fun c hc a hlo hhi => (readByte_fullModeBegun _ a).trans (hactive.zero c hc a hlo hhi)⟩
  · exact (iqOf_fullModeBegun _ q).trans (iqOf_restored u q (fun p hp hv hf => hq p hp hv ((hfits p hp).mpr hf)) (Nat.le_refl _))
  · exact (cqOf_fullModeBegun _ q).trans (cqOf_restored u q (fun p hp hv hf => hq p hp hv ((hfits p hp).mpr hf)) (Nat.le_refl _))
  · rw [hend.rest]
    exact hall.weir
  · rw [hend.rest]
    exact hall.fabric
  · rw [hend.rest]
    exact hall.spawn
  · rw [mem_fullModeBegun]
    exact hall.host
  · rw [hend.rest]
    exact hall.staged.trans (by simp [u, applyStaged])

end Sys2Proof.Machine

/-! PROOF. O33: the end of a tile, and a stalled wavefront abandoned (spec/06 R131 to R135; spec/11 R253, R254; spec/05 R114). -/

namespace Sys2Proof.Machine

open Sys2Proof

/-! ### Cores that an ended operation leaves -/

theorem exec_of_executingOn {s : State} {c : Nat} {o : Op} (h : executingOn s c = some o) : (coreOf s c).exec = some o.id := by
  obtain ⟨i, hi, hop⟩ := Option.bind_eq_some_iff.mp h
  rw [hi, id_of_opOf? hop]

/-- A core without its operation: nothing in progress, nothing pending, idle arrays. -/
def freedCore (x : Core) : Core := { x with exec := none, wave := false, load := none, stall := none, arrays := idleArrays x.arrays }

/-- A core cleared by a reset keeps only what Regrowth knows of it. -/
def clearedCore (x : Core) : Core := { retiring := x.retiring, mapping := x.mapping, logged := x.logged }

theorem coreOf_clearCore (s : State) (c : Nat) : coreOf (clearCore s c) c = clearedCore (coreOf s c) := by
  have hblank : coreOf (clearCore s c) c = { coreOf (setCore s c (clearedCore (coreOf s c))) c with tags := [] } :=
    coreOf_setCore_self _ _ _
  rw [hblank, coreOf_setCore_self]
  rfl

section
variable {s : State} {c id : Nat} (h : (coreOf s c).exec = some id)
include h

theorem freeCore_executing (hload : (coreOf s c).load ≠ some .coreReset) : freeCore s c id = setCore s c (freedCore (coreOf s c)) := by
  rw [freeCore, if_pos h, if_neg hload]
  rfl

theorem coreOf_freeCore_reset (hload : (coreOf s c).load = some .coreReset) :
    coreOf (freeCore s c id) c = clearedCore (coreOf s c) := by
  have hfree : freeCore s c id = clearCore (setCore s c (freedCore (coreOf s c))) c := by
    rw [freeCore, if_pos h, if_pos hload]
    rfl
  rw [hfree, coreOf_clearCore, coreOf_setCore_self]
  rfl

end

theorem coreOf_freeSlot (s : State) (c : Nat) (slot : Option Nat) :
    coreOf (freeSlot s c slot) c = { coreOf s c with slots := (coreOf (freeSlot s c slot) c).slots } ∧
      ((coreOf s c).slots = [] → (coreOf (freeSlot s c slot) c).slots = []) := by
  unfold freeSlot
  split
  · dsimp only
    rw [coreOf_setCore_self]
    exact ⟨rfl, fun h => by rw [h]; rfl⟩
  · exact ⟨rfl, id⟩

theorem cores_breakGroup (s : State) (o : Op) (st : Nat) : (breakGroup s o st).cores = s.cores := by
  unfold breakGroup breakOf
  split
  · split <;> rfl
  · rfl

/-- Ending an operation frees its core and its slot; nothing else of the cores changes. -/
theorem coreOf_endOp (s : State) {o : Op} {c : Nat} (hc : o.core = some c) (st : Nat) :
    coreOf (endOp s o st) c = coreOf (freeSlot (freeCore s c o.id) c o.slot) c := by
  have hfreed : (released s o st).cores = (freeSlot (freeCore s c o.id) c o.slot).cores := by
    unfold released
    rw [hc]
    extract_lets u
    split
    · rw [memOnly_freeRegions u o.part (outsLeft u o)]
    · rfl
  have hcores : (endOp s o st).cores = (freeSlot (freeCore s c o.id) c o.slot).cores := by
    rw [endOp_eq, ← hfreed]
    exact cores_breakGroup _ _ _
  rw [coreOf, coreOf, hcores]

theorem exec_endOp {s : State} {o : Op} {c : Nat} (hexec : (coreOf s c).exec = some o.id) (hc : o.core = some c)
    (hload : (coreOf s c).load ≠ some .coreReset) (st : Nat) : (coreOf (endOp s o st) c).exec = none := by
  rw [coreOf_endOp s hc, (coreOf_freeSlot _ c o.slot).1, freeCore_executing hexec hload, coreOf_setCore_self]
  rfl

/-! ### Rows that leave the arrays -/

/-- An operation some of whose rows have been written. -/
def RowsGone (o y : Op) : Prop := y = { o with landed := y.landed, nar := y.nar, wrote := y.wrote }

theorem RowsGone.trans {o y z : Op} (h : RowsGone o y) (h' : RowsGone y z) : RowsGone o z := by
  rw [RowsGone] at *
  rw [h', h]

/-- Rows of an operation have left the arrays of core `c`; of an operator whose rows do not leave tile by tile none has. -/
structure RowsLeft (c : Nat) (s : State) (o : Op) (y : State × Op) : Prop where
  weir : y.1.weir = s.weir
  core : coreOf y.1 c = { coreOf s c with arrays := (coreOf y.1 c).arrays }
  op : RowsGone o y.2
  kept : streamsRows o.desc.opc = false → y.1.mem = s.mem ∧ y.1.dict = s.dict ∧ y.2 = o

theorem RowsLeft.refl (c : Nat) (s : State) (o : Op) : RowsLeft c s o (s, o) := ⟨rfl, rfl, rfl, fun _ => ⟨rfl, rfl, rfl⟩⟩

theorem RowsLeft.trans {c : Nat} {s : State} {o : Op} {y z : State × Op} (h : RowsLeft c s o y) (h' : RowsLeft c y.1 y.2 z) :
    RowsLeft c s o z := by
  refine ⟨h'.weir.trans h.weir, by rw [h'.core, h.core], h.op.trans h'.op, fun hs => ?_⟩
  obtain ⟨hmem, hdict, hop⟩ := h.kept hs
  obtain ⟨hmem', hdict', hop'⟩ := h'.kept (by rw [hop, hs])
  exact ⟨hmem'.trans hmem, hdict'.trans hdict, hop'.trans hop⟩

/-- The arrays of the core change besides. -/
theorem RowsLeft.setArrays {c : Nat} {s : State} {o : Op} {y : State × Op} (h : RowsLeft c s o y) (a : Arrays) :
    RowsLeft c s o (setCore y.1 c { coreOf y.1 c with arrays := a }, y.2) := by
  refine ⟨h.weir, ?_, h.op, h.kept⟩
  rw [coreOf_setCore_self, h.core]

theorem writeEff_nothing (s : State) (o : Op) : writeEff s o {} = (s, o) := by
  simp [writeEff, storeAll, seeWrites]

/-- The rows of an operator that does not stream store nothing. -/
theorem drainRill_of_not_streams {o : Op} (h : streamsRows o.desc.opc = false) (l : List RillRow) (s : State) :
    drainRill l s o = (s, o) := by
  induction l with
  | nil => rfl
  | cons x r ih =>
    have hconv : o.desc.opc ≠ 0x50 := by
      intro heq
      rw [heq] at h
      exact absurd h (by decide)
    have hrow : rillOut (opByte s o) o x = {} := by rw [rillOut, if_neg hconv, h]; rfl
    rw [drainRill, hrow, writeEff_nothing]
    exact ih

theorem rowsGone_drainRill (l : List RillRow) (s : State) (o : Op) : RowsGone o (drainRill l s o).2 := by
  induction l generalizing s o with
  | nil => rfl
  | cons x r ih => exact RowsGone.trans (y := (writeEff s o (rillOut (opByte s o) o x)).2) rfl (ih _ _)

theorem rowsLeft_drainTo (keep c : Nat) (s : State) (o : Op) :
    RowsLeft c s o (drainTo keep c s o) ∧ (coreOf (drainTo keep c s o).1 c).arrays.position = (coreOf s c).arrays.position := by
  have hcore : coreOf (drainTo keep c s o).1 c = { coreOf s c with arrays := { (coreOf s c).arrays with
      rill := (coreOf s c).arrays.rill.drop ((coreOf s c).arrays.rill.length - keep) } } := coreOf_setCore_self _ _ _
  refine ⟨⟨(outcome_drainTo keep c s o).1, by rw [hcore], rowsGone_drainRill _ s o, fun h => ?_⟩, by rw [hcore]⟩
  rw [drainTo, drainRill_of_not_streams h]
  exact ⟨rfl, rfl, rfl⟩

/-- The rows of the tile before leave first where the operation reads what it writes. -/
theorem rowsLeft_drained (c : Nat) (s : State) (o : Op) :
    RowsLeft c s o (if readsAhead o then (s, o) else drainTo 0 c s o) ∧
      (coreOf (if readsAhead o then (s, o) else drainTo 0 c s o).1 c).arrays.position = (coreOf s c).arrays.position := by
  split
  · exact ⟨.refl c s o, rfl⟩
  · exact rowsLeft_drainTo 0 c s o

theorem rowsLeft_enterTile (c t : Nat) (s : State) (o : Op) :
    RowsLeft c s o (enterTile c t s o) ∧ (coreOf (enterTile c t s o).1 c).arrays.position = (coreOf s c).arrays.position := by
  have hdrained := rowsLeft_drained c s o
  unfold enterTile
  extract_lets y
  change RowsLeft c s o y ∧ (coreOf y.1 c).arrays.position = _ at hdrained
  clear_value y
  split
  · exact hdrained
  · exact ⟨hdrained.1.setArrays _, by rw [coreOf_setCore_self]; exact hdrained.2⟩

theorem rowsLeft_leaveTile (c t : Nat) (s : State) (o : Op) :
    RowsLeft c s o (leaveTile c t s o) ∧ (coreOf (leaveTile c t s o).1 c).arrays.position = t + 1 := by
  have hdrained := rowsLeft_drained c s o
  unfold leaveTile
  extract_lets y x ws z arrays
  change RowsLeft c s o y ∧ (coreOf y.1 c).arrays.position = _ at hdrained
  have hset := hdrained.1.setArrays { x.arrays with active := z.1, acc := z.2.1, rill := x.arrays.rill ++ z.2.2, position := t + 1 }
  obtain ⟨hrows, hpos⟩ := rowsLeft_drainTo rillRoom c (setCore y.1 c { x with
    arrays := { x.arrays with active := z.1, acc := z.2.1, rill := x.arrays.rill ++ z.2.2, position := t + 1 } }) y.2
  exact ⟨hset.trans hrows, hpos.trans (by rw [coreOf_setCore_self])⟩

/-! ### A tile passed -/

/-- The operation and its core once tile `o.tile` has passed, the core being `x` but for its arrays: the next tile begins, its
outputs begun. -/
structure TilePassed (c : Nat) (s : State) (x : Core) (o y : Op) (t : State) : Prop where
  ops : t.weir.ops = replaceOp y s.weir.ops
  core : coreOf t c = { x with arrays := (coreOf t c).arrays }
  position : (coreOf t c).arrays.position = o.tile + 1
  id : y.id = o.id
  tile : y.tile = o.tile + 1
  phase : y.phase = o.phase
  desc : y.desc = o.desc
  kept : streamsRows o.desc.opc = false → y = { o with tile := o.tile + 1, wrote := o.wrote || !o.outs.isEmpty } ∧
    t.mem = s.mem ∧ t.dict = s.dict

theorem coreOf_setOp (s : State) (o : Op) (c : Nat) : coreOf (setOp s o) c = coreOf s c := rfl

theorem coreOf_passTile (c t : Nat) (s : State) :
    coreOf (passTile c t s) c = { coreOf s c with arrays := { (coreOf s c).arrays with position := t + 1 } } := coreOf_setCore_self _ _ _

theorem tilePassed_runTile (c : Nat) (s : State) (o : Op) (hgather : o.desc.opc ≠ 0x58) (hscatter : o.desc.opc ≠ 0x59) :
    ∃ y, TilePassed c s (coreOf s c) o y (runTile c s o) := by
  obtain ⟨hrows, hpos⟩ := rowsLeft_leaveTile c o.tile s o
  have hop := hrows.op
  rw [RowsGone] at hop
  unfold runTile
  dsimp only
  generalize leaveTile c o.tile s o = y at hrows hpos hop ⊢
  split
  · next hs =>
    refine ⟨{ y.2 with tile := o.tile + 1 }, by rw [← hrows.weir]; rfl, hrows.core, hpos, ?_, rfl, ?_, ?_,
      fun hno => absurd hs (by rw [hno]; decide)⟩
    · rw [hop]
    · rw [hop]
    · rw [hop]
  · split
    · refine ⟨{ y.2 with tile := o.tile + 1, wrote := o.wrote || !o.outs.isEmpty }, by rw [← hrows.weir]; rfl, hrows.core, hpos, ?_, rfl,
        ?_, ?_, fun hno => ?_⟩
      · rw [hop]
      · rw [hop]
      · rw [hop]
      · obtain ⟨hmem, hdict, heq⟩ := hrows.kept hno
        exact ⟨by rw [heq], hmem, hdict⟩
    · rw [if_neg (by rintro (h | h); exacts [hgather h, hscatter h])]
      refine ⟨{ o with tile := o.tile + 1, wrote := o.wrote || !o.outs.isEmpty }, rfl, ?_, ?_, rfl, rfl, rfl, rfl, fun _ => ⟨rfl, rfl, rfl⟩⟩
      · rw [coreOf_setOp, coreOf_passTile]
      · rw [coreOf_setOp, coreOf_passTile]

theorem replaceOp_replaceOp {y z : Op} (h : z.id = y.id) (l : List Op) : replaceOp z (replaceOp y l) = replaceOp z l := by
  induction l with
  | nil => rfl
  | cons x r ih =>
    rw [replaceOp, replaceOp]
    by_cases hx : x.id = y.id
    · rw [if_pos hx, if_pos (hx.trans h.symm), replaceOp, if_pos h.symm]
    · rw [if_neg hx, if_neg (h ▸ hx), replaceOp, if_neg (h ▸ hx), ih]

theorem opOf?_of_ops {s t : State} {y : Op} (h : t.weir.ops = replaceOp y s.weir.ops) (hy : (opOf? s y.id).isSome) :
    opOf? t y.id = some y := by
  rw [opOf?, h]
  exact find_replaceOp_self y _ hy

theorem othersKept_of_ops {s t : State} {y : Op} (h : t.weir.ops = replaceOp y s.weir.ops) : OthersKept y.id s t := by
  have hset := othersKept_setOp s y
  unfold OthersKept opOf? at hset ⊢
  rw [h]
  exact hset

theorem executingOn_of {s : State} {c id : Nat} {y : Op} (h : (coreOf s c).exec = some id) (hy : opOf? s id = some y) :
    executingOn s c = some y := Option.bind_eq_some_iff.mpr ⟨id, h, hy⟩

section
variable {c : Nat} {s t : State} {x : Core} {o y : Op} (h : TilePassed c s x o y t)
include h

theorem TilePassed.opOf? (ho : opOf? s o.id = some o) : opOf? t o.id = some y :=
  h.id ▸ opOf?_of_ops h.ops (by rw [h.id, ho]; rfl)

/-- The core with its wavefront begun anew. -/
theorem TilePassed.setWave (wave : Bool) :
    TilePassed c s { x with wave := wave, stall := none } o y (setCore t c { coreOf t c with wave := wave, stall := none }) where
  ops := h.ops
  core := by rw [coreOf_setCore_self, h.core]
  position := by rw [coreOf_setCore_self]; exact h.position
  id := h.id
  tile := h.tile
  phase := h.phase
  desc := h.desc
  kept := h.kept

/-- The next tile enters the arrays, where it can. -/
theorem TilePassed.startTile (ho : Machine.opOf? s o.id = some o) (hexec : x.exec = some o.id) :
    ∃ z, TilePassed c s x o z (startTile c t) := by
  have hrun : executingOn t c = some y := executingOn_of (by rw [h.core]; exact hexec) (h.opOf? ho)
  obtain ⟨hrows, hpos⟩ := rowsLeft_enterTile c y.tile t y
  have hop := hrows.op
  rw [RowsGone] at hop
  unfold Machine.startTile
  dsimp only
  rw [show (coreOf t c).exec.bind (Machine.opOf? t) = some y from hrun]
  dsimp only
  generalize enterTile c y.tile t y = z at hrows hpos hop ⊢
  split
  · have hid : z.2.id = y.id := by rw [hop]
    refine ⟨z.2, ?_, ?_, hpos.trans h.position, hid.trans h.id, ?_, ?_, ?_, fun hno => ?_⟩
    · rw [← replaceOp_replaceOp hid, ← h.ops, ← hrows.weir]
      rfl
    · rw [coreOf_setOp, hrows.core, h.core]
    · rw [hop]
      exact h.tile
    · rw [hop]
      exact h.phase
    · rw [hop]
      exact h.desc
    · obtain ⟨heq, hmem, hdict⟩ := h.kept hno
      obtain ⟨hmem', hdict', heq'⟩ := hrows.kept (by rw [h.desc, hno])
      exact ⟨heq'.trans heq, hmem'.trans hmem, hdict'.trans hdict⟩
  · exact ⟨y, h⟩

end

/-- A tile that passes with no reset pending: the next one begins. -/
theorem tilePassed_nextTile {s : State} {c : Nat} {o : Op} (hrun : executingOn s c = some o)
    (hload : (coreOf s c).load = none ∨ ∃ u, (coreOf s c).load = some (.preempt u)) (hgather : o.desc.opc ≠ 0x58)
    (hscatter : o.desc.opc ≠ 0x59) :
    ∃ y, TilePassed c s { coreOf s c with wave := (coreOf s c).load.isNone, stall := none } o y (nextTile s o c) := by
  have hexec := exec_of_executingOn hrun
  have ho := opOf?_of_executingOn hrun
  obtain ⟨y, hpassed⟩ := tilePassed_runTile c s o hgather hscatter
  unfold nextTile
  generalize runTile c s o = t at hpassed ⊢
  have hcore := hpassed.core
  dsimp only
  have hload' : (coreOf t c).load = (coreOf s c).load := by rw [hcore]
  rw [if_pos (by rw [hcore]; exact hexec), hload']
  have hbegun := hpassed.setWave (coreOf s c).load.isNone
  obtain ⟨z, hstarted⟩ := hbegun.startTile ho hexec
  refine ⟨z, ?_⟩
  dsimp only at hstarted
  generalize hv : Machine.startTile c (setCore t c _) = v at hstarted
  have hrun' : executingOn v c = some z := executingOn_of (by rw [hstarted.core]; exact hexec) (hstarted.opOf? ho)
  have hvload : (coreOf v c).load = (coreOf s c).load := by rw [hstarted.core]
  have hacts : loadActs v c = v := by
    unfold loadActs
    rw [hrun', hvload]
    rcases hload with hload | ⟨u, hload⟩ <;> rw [hload]
  rw [hload'] at hv
  rw [hv, hacts]
  exact hstarted

/-! ### WAVEFRONT_COMPLETE, case by case -/

section
variable {s : State} {c : Nat} {o : Op} (h : executingOn s c = some o)
include h

/-- The step with a wavefront of `o` on the core. -/
theorem exec_wavefrontComplete_of_executingOn : exec (.wavefrontComplete c) s = .next
    (if !(inWave s c) then s
     else if (coreOf s c).load = some .coreReset then endOp s { o with tile := min o.tiles (o.tile + 1) } stABANDONED
     else if o.dataDone then (if mayFinish s o then execOp s o c else s)
     else if o.tiles ≤ o.tile + 1 then s
     else if o.cancel then endOp s o stCANCELLED_PARTIAL
     else if tileStalls s o c then s
     else nextTile s o c) := by
  change execWavefrontComplete c s = _
  rw [execWavefrontComplete, h]

/-- Without a wavefront in progress nothing completes. -/
theorem exec_wavefrontComplete_idle (hw : inWave s c = false) : exec (.wavefrontComplete c) s = .next s := by
  rw [exec_wavefrontComplete_of_executingOn h, hw]
  rfl

theorem exec_wavefrontComplete_reset (hw : inWave s c = true) (hload : (coreOf s c).load = some .coreReset) :
    exec (.wavefrontComplete c) s = .next (endOp s { o with tile := min o.tiles (o.tile + 1) } stABANDONED) := by
  rw [exec_wavefrontComplete_of_executingOn h, hw, if_neg (by decide), if_pos hload]

variable (hw : inWave s c = true) (hload : (coreOf s c).load ≠ some .coreReset)
include hw hload

theorem exec_wavefrontComplete_done (hdone : o.dataDone = true) (hfin : mayFinish s o = true) :
    exec (.wavefrontComplete c) s = .next (execOp s o c) := by
  rw [exec_wavefrontComplete_of_executingOn h, hw, if_neg (by decide), if_neg hload, if_pos hdone, if_pos hfin]

variable (hdata : o.dataDone = false)
include hdata

/-- In the last tile the operation goes on until its data effect has taken place. -/
theorem exec_wavefrontComplete_last (hlast : o.tiles ≤ o.tile + 1) : exec (.wavefrontComplete c) s = .next s := by
  rw [exec_wavefrontComplete_of_executingOn h, hw, if_neg (by decide), if_neg hload, if_neg (by rw [hdata]; decide), if_pos hlast]

variable (hmore : o.tile + 1 < o.tiles)
include hmore

/-- Before the last tile a cancel acts, a tile that cannot end goes on, and any other one is followed by the next. -/
theorem exec_wavefrontComplete_more : exec (.wavefrontComplete c) s = .next
    (if o.cancel then endOp s o stCANCELLED_PARTIAL else if tileStalls s o c then s else nextTile s o c) := by
  rw [exec_wavefrontComplete_of_executingOn h, hw, if_neg (by decide), if_neg hload, if_neg (by rw [hdata]; decide),
    if_neg (Nat.not_le.mpr hmore)]

end

/-! ### A program that loads -/

/-- A tile enters the arrays of a core whose Rill is empty. -/
theorem asking_startTile_of_empty {s : State} {c : Nat} (h : (coreOf s c).arrays.rill = []) : Asking s (startTile c s) := by
  rw [startTile]
  dsimp only
  split
  · next o ho =>
    split
    · obtain ⟨hop, hask⟩ := asking_enterTile (o := o) (.inr h) o.tile
      obtain ⟨u, hu, huo⟩ := Option.map_eq_some_iff.mp ((hask.opOf? o.id).trans (by rw [opOf?_of_executingOn ho]; rfl))
      rw [hop]
      exact hask.trans (asking_setOp hu huo.symm)
    · exact .refl s
  · exact .refl s

theorem asking_askMore_of_empty {s : State} {c : Nat} (h : (coreOf s c).arrays.rill = []) : Asking s (askMore s c) := by
  rw [askMore]
  split
  · next o ho =>
    split
    · exact .refl s
    · have hask := ((asking_askHost o.id o.due.length s).trans (asking_askLines o.id (lineCount o.ins) _)).trans (asking_retile _ c)
      exact hask.trans (asking_startTile_of_empty ((hask.cores c).2.trans h))
  · exact .refl s

/-- Of the state only the fabric and what is emitted change. -/
def FabricOnly (s t : State) : Prop := t = { s with fabric := t.fabric, out := t.out }

theorem FabricOnly.trans {s t u : State} (h : FabricOnly s t) (h' : FabricOnly t u) : FabricOnly s u := by
  rw [FabricOnly] at *
  rw [h', h]

theorem fabricOnly_of_ports {s t : State} (h : sameButPorts s t) : FabricOnly s t := by
  rw [sameButPorts] at h
  rw [FabricOnly, h]

theorem fabricOnly_xsend (s : State) (x : Nat) (m : Msg) (op part flow : Nat) : FabricOnly s (xsend s x m op part flow) := by
  rw [xsend]
  dsimp only
  split
  · exact FabricOnly.trans (by exact rfl) (fabricOnly_of_ports (sendMsg_spec _ _ _).2)
  · rfl

theorem fabricOnly_remoteRequests (o : Op) (l : List (Nat × Nat)) (s : State) : FabricOnly s (remoteRequests o l s).1 := by
  induction l generalizing s with
  | nil => rfl
  | cons x l ih => exact (fabricOnly_xsend s _ _ _ _ _).trans (ih _)

/-! ### What the next operation leaves of the abandoned one -/

/-- Another operation than `id` has gone on: `id` has come to the same, no operation is lost or added, and the counts of
abandoned wavefronts stay. -/
structure OtherWent (id : Nat) (s t : State) : Prop where
  ids : t.weir.ops.map (fun x => x.id) = s.weir.ops.map (fun x => x.id)
  outcome : (opOf? t id).map Op.outcome = (opOf? s id).map Op.outcome
  count : ∀ k, rd t oCORE_ABANDONS k = rd s oCORE_ABANDONS k

theorem OtherWent.refl (id : Nat) (s : State) : OtherWent id s s := ⟨rfl, rfl, fun _ => rfl⟩

theorem OtherWent.trans {id : Nat} {s t u : State} (h : OtherWent id s t) (h' : OtherWent id t u) : OtherWent id s u :=
  ⟨h'.ids.trans h.ids, h'.outcome.trans h.outcome, fun k => (h'.count k).trans (h.count k)⟩

theorem OtherWent.endedWith {id st : Nat} {s t : State} (h : OtherWent id s t) (hs : EndedWith s id st) : EndedWith t id st := by
  obtain ⟨o, ho, hphase, hst⟩ := hs
  have houtcome := h.outcome
  rw [ho] at houtcome
  obtain ⟨y, hy, hyo⟩ := Option.map_eq_some_iff.mp houtcome
  rw [Op.outcome, Op.outcome, Prod.mk.injEq, Prod.mk.injEq] at hyo
  obtain ⟨-, hyphase, hyst⟩ := hyo
  exact ⟨y, hy, hyphase.trans hphase, hyst.trans hst⟩

theorem otherWent_of_othersKept {id u : Nat} {s t : State} (hne : id ≠ u) (h : OthersKept u s t)
    (hcount : ∀ k, rd t oCORE_ABANDONS k = rd s oCORE_ABANDONS k) : OtherWent id s t :=
  ⟨h.1, by rw [h.2 id hne], hcount⟩

/-- An operation's end counts no abandoned wavefront. -/
theorem rd_abandons_endOp {o : Op} (h : ∀ r ∈ o.coll, r.group < 16) (s : State) (st k : Nat) :
    rd (endOp s o st) oCORE_ABANDONS k = rd s oCORE_ABANDONS k := by
  have hkey : objKey oCORE_ABANDONS k ∉ (o.coll.map fun r => objKey oCOLL_GROUP_STATE (r.group + 1)).toList := by
    intro hmem
    obtain ⟨r, hr, hk⟩ := Option.map_eq_some_iff.mp (Option.mem_toList.mp hmem)
    have := h r hr
    simp only [objKey, oCORE_ABANDONS, oCOLL_GROUP_STATE] at hk
    omega
  rw [rd, rd, sameObjs_endOp s o st _ hkey]

/-- State `t` has the operation `o` just begun on core `c`: it is dispatched, the core is its own, no row waits in the Rill. -/
def BegunOn (s : State) (o : Op) (c : Nat) (t : State) : Prop :=
  ∃ u x z, FabricOnly s u ∧ x.exec = some o.id ∧ x.arrays.rill = [] ∧ z.id = o.id ∧ z.phase = .dispatched ∧ t = setOp (setCore u c x) z

section
variable (s : State) (o : Op) (c : Nat)

theorem beginOp_of_no_refusal (hspawn : isSpawn o.desc.opc = true → reserveStatus s (resolved s o) = 0)
    (hremote : remoteNow s (resolved s o) = 0) : ∃ t, BegunOn s o c t ∧ beginOp s o c = askMore t c := by
  have hres : ¬(if isSpawn (resolved s o).desc.opc then reserveStatus s (resolved s o) else 0) ≠ 0 := by
    change ¬(if isSpawn o.desc.opc then reserveStatus s (resolved s o) else 0) ≠ 0
    split
    · next h => exact fun hne => hne (hspawn h)
    · exact fun hne => hne rfl
  rw [beginOp]
  dsimp only
  rw [if_neg hres, if_neg (not_not_intro hremote)]
  refine ⟨_, ⟨(remoteRequests (resolved s o) (remotePieces s (resolved s o)) s).1, _, _, fabricOnly_remoteRequests _ _ _, ?_, ?_, ?_, ?_,
    rfl⟩, rfl⟩
  · rfl
  · rfl
  · rfl
  · rfl

theorem beginOp_cases : (∃ st, beginOp s o c = endOp s (resolved s o) st) ∨ ∃ t, BegunOn s o c t ∧ beginOp s o c = askMore t c := by
  by_cases hspawn : isSpawn o.desc.opc = true ∧ reserveStatus s (resolved s o) ≠ 0
  · obtain ⟨hop, hst⟩ := hspawn
    refine .inl ⟨reserveStatus s (resolved s o), ?_⟩
    rw [beginOp]
    dsimp only
    rw [show (resolved s o).desc = o.desc from rfl, if_pos hop, if_pos hst]
  · by_cases hremote : remoteNow s (resolved s o) = 0
    · exact .inr (beginOp_of_no_refusal s o c (fun h => by_contra fun hne => hspawn ⟨h, hne⟩) hremote)
    · refine .inl ⟨remoteNow s (resolved s o), ?_⟩
      have hres : ¬(if isSpawn o.desc.opc then reserveStatus s (resolved s o) else 0) ≠ 0 := by
        split
        · next h => exact fun hne => hspawn ⟨h, hne⟩
        · exact fun hne => hne rfl
      rw [beginOp]
      dsimp only
      rw [show (resolved s o).desc = o.desc from rfl, if_neg hres, if_pos hremote]

end

section
variable {s t : State} {o : Op} {c : Nat} (h : BegunOn s o c t)
include h

theorem BegunOn.core : (coreOf t c).exec = some o.id ∧ (coreOf t c).arrays.rill = [] := by
  obtain ⟨u, x, z, -, hexec, hrill, -, -, rfl⟩ := h
  rw [coreOf_setOp, coreOf_setCore_self]
  exact ⟨hexec, hrill⟩

theorem BegunOn.othersKept : OthersKept o.id s t ∧ ∀ k, rd t oCORE_ABANDONS k = rd s oCORE_ABANDONS k := by
  obtain ⟨u, x, z, hu, -, -, hid, -, rfl⟩ := h
  rw [FabricOnly] at hu
  have hweir : u.weir = s.weir := by rw [hu]
  have hdict : u.dict = s.dict := by rw [hu]
  exact ⟨othersKept_trans (othersKept_of_weir hweir) (hid ▸ othersKept_setOp (setCore u c x) z),
    fun k => by rw [rd, rd, ← hdict]; rfl⟩

theorem BegunOn.dispatched (ho : (opOf? s o.id).isSome) : ∃ z, opOf? t o.id = some z ∧ z.phase = .dispatched := by
  obtain ⟨u, x, z, hu, -, -, hid, hphase, rfl⟩ := h
  rw [FabricOnly] at hu
  refine ⟨z, hid ▸ opOf?_setOp_self (setCore u c x) z ?_, hphase⟩
  rw [hid, hu]
  exact ho

end

theorem Asking.otherWent {s t : State} (h : Asking s t) (id : Nat) : OtherWent id s t := by
  refine ⟨?_, ?_, fun k => by rw [rd, rd, h.frame]⟩
  · have hids : ∀ l : List Op, l.map (fun x => x.id) = (l.map Op.asks).map (fun x => x.id) := fun l => by rw [List.map_map]; rfl
    rw [hids, h.ops, ← hids]
  · have hasks := congrArg (Option.map Op.outcome) (h.opOf? id)
    rw [Option.map_map, Option.map_map] at hasks
    exact hasks

/-- Whatever comes of an operation that is to begin, another one and the counts of abandoned wavefronts stay. -/
theorem otherWent_beginOp {id : Nat} {s : State} {y : Op} (hy : opOf? s y.id = some y) (hgroup : ∀ r ∈ y.coll, r.group < 16)
    (hne : id ≠ y.id) (c : Nat) : OtherWent id s (beginOp s y c) := by
  obtain ⟨st, hend⟩ | ⟨t, ht, hask⟩ := beginOp_cases s y c
  · rw [hend]
    exact otherWent_of_othersKept hne (endOp_spec s (resolved s y) st (by exact hy ▸ rfl)).2
      (rd_abandons_endOp (o := resolved s y) hgroup s st)
  · obtain ⟨hothers, hcount⟩ := ht.othersKept
    rw [hask]
    exact (otherWent_of_othersKept hne hothers hcount).trans ((asking_askMore_of_empty ht.core.2).otherWent id)

/-- An operation that nothing refuses executes on its core. -/
theorem beginOp_executes {s : State} {y : Op} (hy : opOf? s y.id = some y) (hspawn : isSpawn y.desc.opc = false)
    (hremote : ∀ r, remotePieces r y = []) (c : Nat) :
    (coreOf (beginOp s y c) c).exec = some y.id ∧ ∃ z, opOf? (beginOp s y c) y.id = some z ∧ z.phase = .dispatched := by
  have hnone : remoteNow s (resolved s y) = 0 := by
    rw [remoteNow, show remotePieces s (resolved s y) = [] from hremote s]
    rfl
  obtain ⟨t, ht, hask⟩ := beginOp_of_no_refusal s y c (fun h => absurd h (by rw [hspawn]; decide)) hnone
  rw [hask]
  have hmore := asking_askMore_of_empty ht.core.2
  refine ⟨(hmore.cores c).1.trans ht.core.1, ?_⟩
  obtain ⟨z, hz, hphase⟩ := ht.dispatched (hy ▸ rfl)
  have hasks := hmore.opOf? y.id
  rw [hz] at hasks
  obtain ⟨v, hv, hvz⟩ := Option.map_eq_some_iff.mp hasks
  exact ⟨v, hv, (congrArg Op.phase hvz).trans hphase⟩

/-! ### STALL_TIMER_EXPIRY -/

/-- The operation's end leaves every partition in service that was. -/
theorem calms_released (s : State) (o : Op) (st : Nat) : Calms s (released s o st) := by
  have hfreed : Calms s (match o.core with
      | some c => freeSlot (freeCore s c o.id) c o.slot
      | none => s) := by
    split
    · exact (calms_freeCore _ _ _).trans (calms_freeSlot _ _ _)
    · exact .refl s
  unfold released
  extract_lets u
  split
  · exact hfreed.trans (calms_of_memOnly (memOnly_freeRegions _ _ _))
  · exact hfreed

theorem partRuns_of {s t : State} {p : Nat} (hparts : t.parts = s.parts) (hmap : ∀ c, (coreOf t c).mapping = (coreOf s c).mapping)
    (hcores : rd t oPART_CORES (p + 1) = rd s oPART_CORES (p + 1)) : partRuns t p = partRuns s p := by
  rw [partRuns, partRuns, paused, paused, partCores, partCores, hcores, partOf, partOf, hparts]
  simp only [hmap]

theorem partRuns_endOp (s : State) (o : Op) (st : Nat) {p : Nat} (hp : p < 128) : partRuns (endOp s o st) p = partRuns s p := by
  have hfreed := calms_released s o st
  have hbroken : (breakGroup (released s o st) o st).parts = (released s o st).parts := by
    unfold breakGroup breakOf
    split
    · split <;> rfl
    · rfl
  have hparts : (endOp s o st).parts = s.parts := by
    rw [endOp_eq]
    exact hbroken.trans (by rw [hfreed.rest])
  refine partRuns_of hparts (fun c => ?_) ?_
  · rw [endOp_eq, coreOf_setOp, coreOf, cores_breakGroup]
    exact hfreed.mapping c
  · have hkey : objKey oPART_CORES (p + 1) < objKey 0x6200 0 := by
      simp only [objKey, oPART_CORES]
      omega
    rw [rd, rd, (serves_endOp s o st).objs _ hkey]

theorem exec_stallTimerExpiry_preempt {s : State} {c u limit : Nat} {o : Op} (h : executingOn s c = some o)
    (hwave : (coreOf s c).wave = true)
    (hload : (coreOf s c).load = some (.preempt u)) (hstall : (coreOf s c).stall = some limit) (waves : Nat) :
    exec (.stallTimerExpiry c waves) s =
      .next (loadNext (endOp (count32 s oCORE_ABANDONS (c + 1) (max 1 waves)) o stABANDONED) (.preempt u) c) := by
  change execStallTimerExpiry c s waves = _
  rw [execStallTimerExpiry, h, hstall, hload]
  dsimp only
  rw [if_pos hwave, if_neg nofun]

theorem opsOk_group {w : Weir} (h : opsOk w = true) {o : Op} (ho : o ∈ w.ops) : o.part < 128 ∧ ∀ r ∈ o.coll, r.group < 16 := by
  have hall := (Bool.and_eq_true_iff.mp h).2
  have hone := List.all_eq_true.mp hall o ho
  simp only [Bool.and_eq_true, decide_eq_true_eq, Option.all_eq_true] at hone
  exact ⟨hone.1.2, hone.2⟩

section
variable {s : State} {c u limit : Nat} {o y : Op} (hok : opsOk s.weir = true) (h : executingOn s c = some o) (hcore : o.core = some c)
  (hne : u ≠ o.id) (hy : opOf? s u = some y)
include hok h hne hy

/-- The stalled wavefronts are abandoned and counted; what loads next changes neither. -/
theorem otherWent_loadNext (waves : Nat) :
    OtherWent o.id (endOp (count32 s oCORE_ABANDONS (c + 1) (max 1 waves)) o stABANDONED)
      (loadNext (endOp (count32 s oCORE_ABANDONS (c + 1) (max 1 waves)) o stABANDONED) (.preempt u) c) := by
  have hid := id_of_opOf? hy
  have hfound := opOf?_of_executingOn h
  have hends := endOp_spec (count32 s oCORE_ABANDONS (c + 1) (max 1 waves)) o stABANDONED (by exact hfound ▸ rfl)
  have hkept : opOf? (endOp (count32 s oCORE_ABANDONS (c + 1) (max 1 waves)) o stABANDONED) u = some y := (hends.2.2 u hne).trans hy
  rw [loadNext, hkept]
  dsimp only
  split
  · exact otherWent_beginOp (by rw [hid, hkept]) (opsOk_group hok (List.mem_of_find?_eq_some hy)).2 (by rw [hid]; exact hne.symm) c
  · exact .refl _ _

/-- A placed operation that nothing stops executes once the wavefront before it is abandoned. -/
theorem loadNext_executes (waves : Nat) (hplaced : y.phase = .placed) (hruns : weirRuns s = true) (hpart : partRuns s y.part = true)
    (hspawn : isSpawn y.desc.opc = false) (hremote : ∀ r, remotePieces r y = []) :
    let t := loadNext (endOp (count32 s oCORE_ABANDONS (c + 1) (max 1 waves)) o stABANDONED) (.preempt u) c
    (coreOf t c).exec = some u ∧ ∃ z, opOf? t u = some z ∧ z.phase = .dispatched := by
  have hid := id_of_opOf? hy
  have hfound := opOf?_of_executingOn h
  have hends := endOp_spec (count32 s oCORE_ABANDONS (c + 1) (max 1 waves)) o stABANDONED (by exact hfound ▸ rfl)
  have hkept : opOf? (endOp (count32 s oCORE_ABANDONS (c + 1) (max 1 waves)) o stABANDONED) u = some y := (hends.2.2 u hne).trans hy
  have hp := (opsOk_group hok (List.mem_of_find?_eq_some hy)).1
  have hweir : weirRuns (endOp (count32 s oCORE_ABANDONS (c + 1) (max 1 waves)) o stABANDONED) = true := by
    rw [weirRuns, (serves_endOp (count32 s oCORE_ABANDONS (c + 1) (max 1 waves)) o stABANDONED).power]
    exact hruns
  have hcount : partRuns (count32 s oCORE_ABANDONS (c + 1) (max 1 waves)) y.part = partRuns s y.part :=
    partRuns_of rfl (fun _ => rfl) (rd_wr_ne s _ (by simp only [objKey, oPART_CORES, oCORE_ABANDONS]; omega))
  have hmay : mayLoad (endOp (count32 s oCORE_ABANDONS (c + 1) (max 1 waves)) o stABANDONED) y = true := by
    rw [mayLoad, hweir, partRuns_endOp _ _ _ hp, hcount, hpart, hplaced]
    rfl
  rw [loadNext, hkept]
  dsimp only
  rw [if_pos hmay]
  have hexecutes := beginOp_executes (y := y) (by rw [hid]; exact hkept) hspawn hremote c
  rw [hid] at hexecutes
  exact hexecutes

end

/-- The operation that has passed a tile, as the statement of O33 has it. -/
theorem exec_wavefrontComplete_next {s : State} {c : Nat} {o : Op} (h : executingOn s c = some o) (hw : inWave s c = true)
    (hdata : o.dataDone = false) (hmore : o.tile + 1 < o.tiles) (hcancel : o.cancel = false) (hstalls : tileStalls s o c = false)
    (hload : (coreOf s c).load = none ∨ ∃ u, (coreOf s c).load = some (.preempt u)) (hgather : o.desc.opc ≠ 0x58)
    (hscatter : o.desc.opc ≠ 0x59) : ∃ t y, exec (.wavefrontComplete c) s = .next t ∧ (opOf? t o.id = some y ∧ OthersKept o.id s t) ∧
      TilePassed c s { coreOf s c with wave := (coreOf s c).load.isNone, stall := none } o y t := by
  have hno : (coreOf s c).load ≠ some .coreReset := by
    obtain hl | ⟨u, hl⟩ := hload <;> rw [hl] <;> nofun
  obtain ⟨y, hy⟩ := tilePassed_nextTile h hload hgather hscatter
  refine ⟨nextTile s o c, y, ?_, ⟨hy.opOf? (opOf?_of_executingOn h), hy.id ▸ othersKept_of_ops hy.ops⟩, hy⟩
  rw [exec_wavefrontComplete_more h hw hno hdata hmore, hcancel, hstalls]
  rfl

/-- Settles O33, case by case: each branch of WAVEFRONT_COMPLETE by what it makes of the operation and of its core (an operation ended,
executed, or passed to its next tile), STALL_TIMER_EXPIRY by what the operation that loads next leaves of the abandoned one. -/
theorem tileBoundaries : Obligations.TileBoundaries := by
  intro s c o hok h hcore
  have hfound := opOf?_of_executingOn h
  have hexec := exec_of_executingOn h
  refine ⟨fun hw hload => ?_, fun hw hdone hfin hload => ?_, fun hw hdata hlast hload => exec_wavefrontComplete_last h hw hload hdata hlast,
    fun hw hdata hmore hcancel hload => ?_, fun hw hdata hmore hcancel hstalls hload hgather hscatter => ?_,
    fun hw hdata hmore hcancel hstalls hload => ?_, exec_wavefrontComplete_idle h, fun u y limit waves hwave hload hstall hne hy => ?_⟩
  · have hends := endOp_spec s { o with tile := min o.tiles (o.tile + 1) } stABANDONED (by exact hfound ▸ rfl)
    refine ⟨_, exec_wavefrontComplete_reset h hw hload, hends.1, hends.2, ?_⟩
    obtain ⟨hslot, hslots⟩ := coreOf_freeSlot (freeCore s c o.id) c o.slot
    have hcleared := coreOf_freeCore_reset hexec hload
    rw [coreOf_endOp s (o := { o with tile := min o.tiles (o.tile + 1) }) hcore, hslot, hslots (by rw [hcleared]; rfl), hcleared]
    rfl
  · have hfreed := freeCore_executing hexec hload
    refine ⟨_, exec_wavefrontComplete_done h hw hload hdone hfin, ?_, ?_, ?_, ?_, ?_⟩
    · exact opOf?_setOp_self (freeCore s c o.id) { o with phase := .executed, tile := o.tiles } (by rw [hfreed]; exact hfound ▸ rfl)
    · rw [execOp, coreOf_setOp, hfreed, coreOf_setCore_self]
      rfl
    · rw [execOp, coreOf_setOp, hfreed, coreOf_setCore_self]
      rfl
    · rw [execOp, hfreed]
      exact othersKept_setOp (setCore s c (freedCore (coreOf s c))) { o with phase := .executed, tile := o.tiles }
    · rw [execOp, hfreed]
      exact ⟨rfl, rfl⟩
  · have hends := endOp_spec s o stCANCELLED_PARTIAL (hfound ▸ rfl)
    refine ⟨_, ?_, hends.1, exec_endOp hexec hcore hload _, hends.2⟩
    rw [exec_wavefrontComplete_more h hw hload hdata hmore, if_pos hcancel]
  · obtain ⟨t, y, ht, ⟨hy, hothers⟩, hpassed⟩ := exec_wavefrontComplete_next h hw hdata hmore hcancel hstalls hload hgather hscatter
    refine ⟨t, y, ht, hy, hpassed.tile, hpassed.phase, hpassed.desc, ?_, hpassed.position, ?_, ?_, hothers, hpassed.kept⟩
    · rw [hpassed.core]
      exact hexec
    · rw [hpassed.core]
    · rw [hpassed.core]
  · rw [exec_wavefrontComplete_more h hw hload hdata hmore, hcancel, hstalls]
    rfl
  · have hends := endOp_spec (count32 s oCORE_ABANDONS (c + 1) (max 1 waves)) o stABANDONED (by exact hfound ▸ rfl)
    have hwent := otherWent_loadNext hok h hne hy waves
    have hgroup := (opsOk_group hok (List.mem_of_find?_eq_some hfound)).2
    refine ⟨_, exec_stallTimerExpiry_preempt h hwave hload hstall waves, hwent.endedWith hends.1, ?_, hwent.ids.trans hends.2.1,
      fun hplaced hruns hpart hspawn hremote => loadNext_executes hok h hne hy waves hplaced hruns hpart hspawn hremote⟩
    rw [hwent.count, rd_abandons_endOp hgroup, count32, rd_wr_self]

end Sys2Proof.Machine

/-! PROOF. O59: the mailbox, the commit of the dictionary, the network address, and the boundary-scan instructions (spec/18 R427,
R444, R448; spec/20 R481 to R484; spec/05 R106). -/

namespace Sys2Proof.Machine

open Sys2Proof

/-! ### The slots of a mailbox -/

theorem running_of_boxUsable {s : State} {e : Nat} (h : boxUsable s e = true) : s.clock.rootGated = false := by
  simp only [boxUsable, busUp, Bool.and_eq_true, Bool.not_eq_true'] at h
  exact h.1.2

section
variable {s : State} {e : Nat} (h : boxUsable s e = true) (v : Nat)
include h

theorem exec_mbSubmit_of_usable (b : List Byte) : exec (.mbSubmit e v b) s = .next (submitAt e v b s) :=
  congrArg Host.Outcome.next (fromHost_running (running_of_boxUsable h) _ _ _)

theorem exec_mbRelease_of_usable :
    exec (.mbRelease e v) s = .next (setBox s e { boxOf s e with
      owned := clearMask (boxOf s e).owned (v % 16), done := clearMask (boxOf s e).done (v % 16) }) := by
  refine congrArg Host.Outcome.next ((fromHost_running (running_of_boxUsable h) _ _ _).trans ?_)
  rw [releaseAt, if_pos h]

theorem exec_mbNotifyFree_of_usable (hv : v.testBit 0 = true) :
    exec (.mbNotifyFree e v) s = .next (nextItem e (boxOf s e).queue s) := by
  refine congrArg Host.Outcome.next ((fromHost_running (running_of_boxUsable h) _ _ _).trans ?_)
  rw [notifyFreeAt, h, hv]
  rfl

/-- A slot that the device owns takes no frame. -/
theorem exec_mbSubmit_owned (b : List Byte) (hslot : (boxOf s e).owned.testBit (v % 4) = true) : exec (.mbSubmit e v b) s = .next s := by
  rw [exec_mbSubmit_of_usable h, submitAt]
  dsimp only
  rw [hslot, Bool.or_true, if_pos rfl]

end

/-- The mailbox with a frame submitted in a slot. -/
def submitted (s : State) (e slot : Nat) (b : List Byte) : State :=
  setBox s e { boxOf s e with
    owned := setBit (boxOf s e).owned slot true, done := setBit (boxOf s e).done slot false
    frames := tabPut (boxOf s e).frames slot b }

section
variable {s : State} {e : Nat} {v : Nat} {b : List Byte} (h : boxUsable s e = true) (hb : b ≠ []) (hsilent : s.mgmt.silent = false)
  (hlocked : s.mgmt.locked.contains (.mailbox e 0) = false) (hslot : (boxOf s e).owned.testBit (v % 4) = false)
include h

theorem submitAt_free (hb : b ≠ []) (hslot : (boxOf s e).owned.testBit (v % 4) = false) :
    submitAt e v b s = receiveFrame (submitted s e (v % 4) b) (.mailbox e (v % 4)) (parseFrame b).ftype b := by
  have hempty : b.isEmpty = false := List.isEmpty_eq_false_iff.mpr hb
  rw [submitAt]
  dsimp only
  rw [h, hslot, hempty]
  rfl

theorem heard_submitted (hsilent : s.mgmt.silent = false) (hlocked : s.mgmt.locked.contains (.mailbox e 0) = false) :
    heard (submitted s e (v % 4) b) (.mailbox e (v % 4)) = true := by
  have hbox : boxUsable (submitted s e (v % 4) b) e = true := h
  have hsil : (submitted s e (v % 4) b).mgmt.silent = false := hsilent
  have hloc : (submitted s e (v % 4) b).mgmt.locked.contains (.mailbox e 0) = false := hlocked
  rw [heard]
  dsimp only [lockSource]
  rw [hbox, hsil, hloc]
  rfl

include hb hsilent hlocked hslot

theorem exec_mbSubmit_malformed (hform : frameWellFormed b = false) :
    exec (.mbSubmit e v b) s = .next (dropFrame (submitted s e (v % 4) b)) := by
  rw [exec_mbSubmit_of_usable h, submitAt_free h hb hslot, receiveFrame,
    heard_submitted h hsilent hlocked, hform]
  rfl

theorem exec_mbSubmit_discover (hform : frameWellFormed b = true) (htype : (parseFrame b).ftype = 0x01) (hsid : (parseFrame b).sid = 0)
    (hlen : (parseFrame b).len = 0) : exec (.mbSubmit e v b) s = .next (reply (submitted s e (v % 4) b) (.mailbox e (v % 4))
      (frameBytes 0x02 0 0 (parseFrame b).txid (discoverPayload s))) := by
  have hpayload : (parseFrame b).payload.length = 0 := by
    rw [← hlen, parseFrame, slice, List.length_map, List.length_range]
  rw [exec_mbSubmit_of_usable h, submitAt_free h hb hslot, receiveFrame,
    heard_submitted h hsilent hlocked, hform, hpayload, htype, if_neg (by decide), if_neg (by decide), if_neg (by decide), serve,
        htype, if_pos hsid]
  rfl

end

/-- What an MSI-X leaves: boxes and objects. -/
theorem boxIrq_boxes (s : State) (e d : Nat) : boxOf (boxIrq s e) d = boxOf s d := by rw [boxOf, boxOf, boxIrq_mgmt]

theorem boxIrq_dict (s : State) (e : Nat) : (boxIrq s e).dict = s.dict := by rw [boxIrq_rest]

/-- A reply stands in its slot, which the host owns again. -/
theorem boxOf_reply_mailbox (s : State) (e slot : Nat) (b : List Byte) : boxOf (reply s (.mailbox e slot) b) e = { boxOf s e with
    frames := tabPut (boxOf s e).frames slot b, owned := setBit (boxOf s e).owned slot false, done := setBit (boxOf s e).done slot true } :=
  (boxIrq_boxes _ e e).trans (boxOf_setBox_self s e _)

/-! ### Slots released -/

theorem testBit_clearMask (w m i : Nat) : (clearMask w m).testBit i = (w.testBit i && !(m.testBit i)) := by
  have hle : w &&& m ≤ w := Nat.and_le_left
  have hlow : decide ((w &&& m) % 2 = 1) = (decide (w % 2 = 1) && decide (m % 2 = 1)) := by
    simpa only [Nat.testBit_zero] using Nat.testBit_and w m 0
  rw [← Bool.decide_and, decide_eq_decide] at hlow
  induction i generalizing w m with
  | zero =>
    rw [Nat.testBit_zero, Nat.testBit_zero, Nat.testBit_zero, ← decide_not, ← Bool.decide_and, decide_eq_decide, clearMask]
    omega
  | succ i ih =>
    have hhalf : clearMask w m / 2 = clearMask (w / 2) (m / 2) := by
      rw [clearMask, clearMask, ← Nat.and_div_two]
      omega
    rw [Nat.testBit_add_one, Nat.testBit_add_one, Nat.testBit_add_one, hhalf]
    refine ih (w / 2) (m / 2) Nat.and_le_left ?_
    simpa only [Nat.testBit_zero, ← Bool.decide_and, decide_eq_decide] using Nat.testBit_and (w / 2) (m / 2) 0

theorem testBit_clearMask_slots (w v i : Nat) : (clearMask w (v % 16)).testBit i = (w.testBit i && !(decide (i < 4) && v.testBit i)) := by
  rw [testBit_clearMask, show (16 : Nat) = 2 ^ 4 from rfl, Nat.testBit_mod_two_pow]

/-! ### The notification slot -/

theorem placeNote_rest (s : State) (e : Nat) (b : List Byte) :
    placeNote s e b = { s with mgmt := { s.mgmt with boxes := (placeNote s e b).mgmt.boxes }, fns := (placeNote s e b).fns
                               out := (placeNote s e b).out } := by
  have hrest := boxIrq_rest (setBox s e { boxOf s e with notifyPending := true, notifyFrame := b }) e
  have hmgmt := boxIrq_mgmt (setBox s e { boxOf s e with notifyPending := true, notifyFrame := b }) e
  rw [placeNote]
  generalize boxIrq (setBox s e { boxOf s e with notifyPending := true, notifyFrame := b }) e = t at hrest hmgmt ⊢
  rw [hrest]
  rfl

theorem boxOf_placeNote (s : State) (e : Nat) (b : List Byte) :
    boxOf (placeNote s e b) e = { boxOf s e with notifyPending := true, notifyFrame := b } :=
  (boxIrq_boxes _ e e).trans (boxOf_setBox_self s e _)

theorem formNote_spec {x : Session} {n : Note} {txid : Nat} (h : x.notes.find? (fun k => k.txid == txid) = some n) :
    ∃ m, m ∈ (formNote x n).1.notes ∧ m.txid = txid ∧ m.sent = true ∧ (formNote x n).2 = noteFrame (formNote x n).1 m := by
  have hid : n.txid = txid := beq_iff_eq.mp (List.find?_some (p := fun k : Note => k.txid == txid) h)
  refine ⟨if n.sent then n else { n with lost := x.lost, sent := true }, ?_, ?_, ?_, rfl⟩
  · exact List.mem_map.mpr ⟨n, List.mem_of_find?_eq_some h, if_pos rfl⟩
  · split
    · exact hid
    · exact hid
  · split
    · next hs => exact hs
    · rfl

/-! ### The commit -/

/-- The copy that a commit writes. -/
def commitCopy (s : State) : NvCopy :=
  { valid := true, gen := max s.nv.copyA.gen s.nv.copyB.gen + 1
    nums := (persistedView s).dict.filter (fun e => keyPersists e.1)
    blobs := (persistedView s).blobs.filter (fun e => keyPersists e.1) }

/-- The state once the commit has counted itself. -/
def commitCounted (s : State) : State := wr s oPERSIST_COMMITS 0 (satAdd max32 (rd s oPERSIST_COMMITS 0) 1)

/-- A commit replaces the copy that is not the newer valid one, and its copy is then the newer. -/
theorem commit_cases (s : State) :
    (commit s = { commitCounted s with nv := { s.nv with copyA := commitCopy (commitCounted s), dirty := false } } ∨
      commit s = { commitCounted s with nv := { s.nv with copyB := commitCopy (commitCounted s), dirty := false } }) ∧
    newerCopy (commit s).nv = some (commitCopy (commitCounted s)) := by
  unfold commit
  extract_lets u c overA
  change (_ ∨ _) ∧ newerCopy (if overA = true then _ else _ : State).nv = some c
  by_cases hover : overA = true
  · rw [if_pos hover]
    refine ⟨.inl rfl, ?_⟩
    rw [newerCopy]
    dsimp only
    by_cases hB : u.nv.copyB.valid = true
    · have hgen : u.nv.copyB.gen < c.gen := Nat.lt_succ_of_le (Nat.le_max_right _ _)
      rw [hB, if_pos hgen]
      rfl
    · rw [Bool.eq_false_iff.mpr hB]
      rfl
  · rw [if_neg hover]
    refine ⟨.inr rfl, ?_⟩
    have hA : u.nv.copyA.valid = true := by
      by_contra hno
      exact hover (Bool.or_eq_true_iff.mpr (.inr (by rw [Bool.eq_false_iff.mpr hno]; rfl)))
    have hgen : ¬c.gen < u.nv.copyA.gen := Nat.not_lt.mpr (Nat.le_succ_of_le (Nat.le_max_left _ _))
    rw [newerCopy]
    dsimp only
    rw [hA, if_neg hgen]
    rfl

theorem copiesOk_commit {s : State} (h : copiesOk s.nv = true) : copiesOk (commit s).nv = true := by
  simp only [copiesOk, Bool.and_eq_true, List.all_eq_true] at h ⊢
  obtain ⟨⟨⟨hA, hB⟩, hblobA⟩, hblobB⟩ := h
  have hnums : ∀ e ∈ (commitCopy (commitCounted s)).nums, keyPersists e.1 = true := fun e he => (List.mem_filter.mp he).2
  have hblobs : ∀ e ∈ (commitCopy (commitCounted s)).blobs, keyPersists e.1 = true := fun e he => (List.mem_filter.mp he).2
  obtain hcommit | hcommit := (commit_cases s).1
  · rw [hcommit]
    exact ⟨⟨⟨hnums, hB⟩, hblobs⟩, hblobB⟩
  · rw [hcommit]
    exact ⟨⟨⟨hA, hnums⟩, hblobA⟩, hblobs⟩

/-! ### The boundary-scan register -/

/-- One bit shifted in. -/
theorem getLsbD_shift (w : BitVec 10) (b : Bool) (i : Nat) :
    (w >>> 1 ||| (if b then 0x200#10 else 0)).getLsbD i = (w.getLsbD (i + 1) || (b && decide (i = 9))) := by
  have hbit : (0x200#10).getLsbD i = decide (i = 9) := by
    rw [show (0x200#10) = BitVec.twoPow 10 9 from rfl, BitVec.getLsbD_twoPow]
    simp [eq_comm]
  rw [BitVec.getLsbD_or, BitVec.getLsbD_ushiftRight, Nat.add_comm 1 i]
  cases b with
  | false => simp
  | true => rw [if_pos rfl, hbit, Bool.true_and]

/-- The cells once bits have been shifted in: those bits at the far end from TDO, what was there moved towards it. -/
theorem getLsbD_shiftIn_le (bits : List Bool) (w : BitVec 10) {i : Nat} (hi : i < 10) (h : bits.length ≤ 10) :
    (shiftIn w bits).getLsbD i = if i + bits.length < 10 then w.getLsbD (i + bits.length) else bits.getD (i + bits.length - 10) false := by
  induction bits generalizing w with
  | nil => exact (if_pos hi).symm
  | cons b r ih =>
    rw [List.length_cons] at h ⊢
    rw [shiftIn, List.foldl_cons, ← shiftIn, ih _ (by omega), getLsbD_shift]
    by_cases hlast : i + r.length = 9
    · rw [if_pos (by omega), if_neg (by omega), hlast, BitVec.getLsbD_of_ge w (9 + 1) (by decide),
        show i + (r.length + 1) - 10 = 0 by omega]
      simp
    · by_cases hin : i + r.length < 10
      · rw [if_pos hin, if_pos (by omega), decide_eq_false hlast, Bool.and_false, Bool.or_false, Nat.add_assoc]
      · rw [if_neg hin, if_neg (by omega), show i + (r.length + 1) - 10 = i + r.length - 10 + 1 by omega, List.getD_cons_succ]

/-- A cell holds, once ten bits have been shifted in, the bit of its own place. -/
theorem getLsbD_shiftIn (w : BitVec 10) {bits : List Bool} (h : bits.length = 10) {i : Nat} (hi : i < 10) :
    (shiftIn w bits).getLsbD i = bits.getD i false := by
  rw [getLsbD_shiftIn_le bits w hi h.le, h, if_neg (by omega), Nat.add_sub_cancel]

/-! ### The instructions of the test port -/

/-- An instruction has been loaded that controls no pin, and `d` shifted out. -/
def LoadedIr (s t : State) (code d : Nat) : Prop :=
  t.jtag = { s.jtag with ir := code, hold := none } ∧ t.out = .tdo d :: s.out ∧ t = { s with jtag := t.jtag, out := t.out }

/-- The boundary-scan register has been scanned, the levels at the pins shifted out. -/
def ScannedCells (s t : State) (bits : List Bool) : Prop :=
  t.out = .tdo (pinLevels { t with jtag := { t.jtag with scan := s.jtag.scan } }) :: s.out ∧ (bits = [] → t.jtag.scan = s.jtag.scan) ∧
  (bits ≠ [] → t.jtag.scan = shiftIn (BitVec.ofNat 10 (pinLevels { t with jtag := { t.jtag with scan := s.jtag.scan } })) bits) ∧
  (bits.length = 10 → ∀ i, i < 10 → t.jtag.scan.getLsbD i = bits.getD i false) ∧ t = { s with jtag := t.jtag, out := t.out }

/-- An instruction has taken control of the pins, the sequence held. -/
def TookPins (s t : State) (code : Nat) : Prop :=
  t.jtag.ir = code ∧ t.jtag.control = true ∧
  t.jtag.hold = (match s.jtag.hold with
    | some h => some h
    | none => holdAt s) ∧ t = { s with jtag := t.jtag, out := t.out }

/-- Nothing but the instruction register and what it controls has changed, the cells aside. -/
def IrOnly (s u : State) : Prop := u = { s with jtag := u.jtag } ∧ u.jtag.scan = s.jtag.scan

theorem scanCells_jtag (s : State) (bits : List Bool) :
    scanCells s bits = { s with jtag := { s.jtag with scan := (scanCells s bits).jtag.scan }, out := .tdo (pinLevels s) :: s.out } := by
  rw [scanCells]
  split <;> rfl

theorem scannedCells_of_irOnly {s u : State} (h : IrOnly s u) (bits : List Bool) : ScannedCells s (scanCells u bits) bits := by
  obtain ⟨hrest, hscan⟩ := h
  have hlevels : pinLevels { scanCells u bits with jtag := { (scanCells u bits).jtag with scan := s.jtag.scan } } = pinLevels u := by
    rw [scanCells_jtag u bits, ← hscan]
    rfl
  rw [ScannedCells, hlevels]
  have hout : (scanCells u bits).out = .tdo (pinLevels u) :: u.out := by rw [scanCells_jtag]
  have hload : bits ≠ [] → (scanCells u bits).jtag.scan = shiftIn (BitVec.ofNat 10 (pinLevels u)) bits := fun hb => by
    rw [scanCells, if_neg (by rw [List.isEmpty_eq_false_iff.mpr hb]; decide)]
  refine ⟨by rw [hout, hrest], fun hb => by rw [hb]; exact hscan, hload, fun hlen i hi => ?_, ?_⟩
  · rw [hload (by rintro rfl; cases hlen), getLsbD_shiftIn _ hlen hi]
  · rw [scanCells_jtag, hrest]

theorem irOnly_takePins (s : State) (code : Nat) : IrOnly s (takePins s code) := ⟨rfl, rfl⟩

theorem irOnly_loadIr (s : State) (code : Nat) : IrOnly s (loadIr s code) := ⟨rfl, rfl⟩

theorem loadedIr (s : State) (code d : Nat) : LoadedIr s (emit (loadIr s code) (.tdo d)) code d := ⟨rfl, rfl, rfl⟩

section
variable {s : State} (hrail : mgmtRail s = true)
include hrail

theorem exec_idcode_of_rail : exec .idcode s = .next (emit (loadIr s 2) (.tdo (idCode s))) :=
  congrArg Host.Outcome.next (if_pos hrail)

theorem exec_bypass_of_rail {code : Nat} (h : 5 ≤ code) : exec (.bypass code) s = .next (emit (loadIr s code) (.tdo 0)) :=
  congrArg Host.Outcome.next (if_pos ⟨hrail, h⟩)

theorem exec_samplePreload_of_rail (bits : List Bool) : exec (.samplePreload bits) s = .next (scanCells (loadIr s 1) bits) :=
  congrArg Host.Outcome.next (if_pos hrail)

theorem exec_extest_of_rail (bits : List Bool) : exec (.extest bits) s =
    .next (if rd s oBOOT_STAGE 0 < 13 then scanCells (takePins s 0) bits else emit (loadIr s 0) (.tdo 0)) := by
  change execExtest s bits = _
  rw [execExtest, show tapUp s = true from hrail]
  rfl

theorem exec_clamp_of_rail : exec .clamp s =
    .next (emit (if rd s oBOOT_STAGE 0 < 13 then takePins s 3 else loadIr s 3) (.tdo 0)) :=
  congrArg Host.Outcome.next (if_pos hrail)

theorem exec_highz_of_rail : exec .highz s =
    .next (emit (if rd s oBOOT_STAGE 0 < 13 then takePins s 4 else loadIr s 4) (.tdo 0)) :=
  congrArg Host.Outcome.next (if_pos hrail)

/-- The pin that a pin-control instruction drives, or leaves at high impedance. -/
theorem alertN_taken {t : State} (ht : t = { s with jtag := t.jtag, out := t.out }) (hstage : rd s oBOOT_STAGE 0 < 13)
    (hcode : pinCode t.jtag.ir = true) : alertN t = if t.jtag.ir = 4 then false else !(t.jtag.scan.getLsbD 9) := by
  have hrail' : mgmtRail t = true := by
    rw [ht]
    exact hrail
  have hstage' : rd t oBOOT_STAGE 0 < 13 := by
    rw [ht]
    exact hstage
  have htaken : pinsTaken t = true := by rw [pinsTaken, hrail', hcode, decide_eq_true hstage']; rfl
  rw [alertN, hrail', htaken, if_pos rfl, Bool.true_and]

end

/-- The fixed fields of the code (Table ELEC-6). -/
theorem field_idCode (s : State) : field (idCode s) 0 0 = 1 ∧ field (idCode s) 11 1 = 0x2E5 ∧ field (idCode s) 27 12 = 0x4E0D := by
  simp only [field, idCode, Nat.shiftRight_eq_div_pow]
  omega

/-! ### TEST_LOGIC_RESET -/

/-- IDCODE loaded, the pins given back. -/
def tapReset (s : State) : State := { s with jtag := { s.jtag with ir := 2, control := false, hold := none } }

theorem exec_testLogicReset_free {s : State} (hrail : mgmtRail s = true) (hcontrol : s.jtag.control = false) (clk : Bool) (id : Nat) :
    exec (.testLogicReset clk id) s = .next (tapReset s) := by
  change execTestLogicReset clk id s = _
  rw [execTestLogicReset, show tapUp s = true from hrail, hcontrol]
  rfl

theorem exec_testLogicReset_taken {s : State} (hrail : mgmtRail s = true) (hcontrol : s.jtag.control = true) (hgood : s.power.good = true)
    (hshut : s.power.shutdown = false) (hpin : s.pins.resetLow = false) (clk : Bool) (id : Nat) :
    exec (.testLogicReset clk id) s = .next (bootStart (sampleStraps (warmBody (tapReset s) 3) clk id) 3) := by
  change execTestLogicReset clk id s = _
  rw [execTestLogicReset, show tapUp s = true from hrail, hcontrol]
  dsimp only
  rw [hgood, hshut, hpin, if_neg (by decide), if_pos (by decide)]
  rfl

/-- The rails going off leave the test port and the persisted copies in order. -/
theorem railsOff_jtag (s : State) : (railsOff s).jtag = s.jtag ∧ (copiesOk s.nv = true → copiesOk (railsOff s).nv = true) := by
  have hcommit : (committed s).jtag = s.jtag ∧ (copiesOk s.nv = true → copiesOk (committed s).nv = true) := by
    rw [committed]
    split
    · refine ⟨?_, copiesOk_commit⟩
      obtain h | h := (commit_cases s).1 <;> rw [h] <;> rfl
    · exact ⟨rfl, id⟩
  have hports := sameButPorts_departAll (committed s)
  rw [sameButPorts] at hports
  have hdepart : (departAll (committed s)).jtag = (committed s).jtag ∧ (departAll (committed s)).nv = (committed s).nv := by
    rw [hports]
    exact ⟨rfl, rfl⟩
  have hnv := (loseCompute_keeps (endSessions (departAll (committed s)))).2.1
  have hjtag : (loseCompute (endSessions (departAll (committed s)))).jtag = (departAll (committed s)).jtag := by
    have hoff := (told_portsOff (endSessions (departAll (committed s)))).rest
    unfold loseCompute
    generalize portsOff (endSessions (departAll (committed s))) = v at hoff ⊢
    exact (congrArg State.jtag hoff :)
  refine ⟨hjtag.trans (hdepart.1.trans hcommit.1), fun h => ?_⟩
  rw [railsOff, hnv]
  exact (congrArg copiesOk hdepart.2).trans (hcommit.2 h)

theorem warmBody_jtag (s : State) (cause : Nat) : (warmBody s cause).jtag = { s.jtag with
      control := s.jtag.control || pinCode s.jtag.ir, hold := if pinCode s.jtag.ir then some 4 else none } ∧
    (copiesOk s.nv = true → copiesOk (warmBody s cause).nv = true) := by
  obtain ⟨hjtag, hcopies⟩ := railsOff_jtag s
  rw [warmBody_eq, ← hjtag]
  generalize railsOff s = u at hcopies ⊢
  exact ⟨rfl, hcopies⟩

theorem jtag_bootStart (s : State) (cause : Nat) : (bootStart s cause).jtag = s.jtag := by
  have hrest := bootStart_rest s cause
  generalize bootStart s cause = t at hrest ⊢
  rw [hrest]

theorem sessions_bootStart {s : State} (h : s.mgmt.sessions = []) (cause : Nat) : (bootStart s cause).mgmt.sessions = [] := by
  have hloaded : (bootLoaded s cause).mgmt.sessions = [] := by
    rw [bootLoaded_eq]
    exact h
  have hstill := (told_bootStart s cause).sessions
  rw [hloaded] at hstill
  exact List.map_eq_nil_iff.mp hstill

/-- The restart that follows a warm reset, the straps sampled at its start. -/
theorem restarted_of_warmed {s u : State} {cause : Nat} (hwarm : Warmed cause s u) (hok : copiesOk u.nv = true) (clk : Bool) {id : Nat}
    (hid : id < 32) : let t := bootStart (sampleStraps u clk id) cause
    t.jtag = u.jtag ∧ rd t oBOOT_STAGE 0 = 4 ∧ rd t oRESET_CAUSE 0 = cause ∧ rd t oPLCA_NODE_ID 0 = id ∧ t.power.compute = false ∧
      t.mgmt.sessions = [] := by
  have hbegun := begun_bootStart (sampleStraps u clk id) cause
  have hstraps := (straps_sampleStraps u clk hid).bootStart hok cause
  refine ⟨jtag_bootStart (sampleStraps u clk id) cause, hbegun.stage, hbegun.cause, hstraps.2.2, ?_, sessions_bootStart (s := sampleStraps u clk id) hwarm.sessions cause⟩
  rw [hbegun.power]
  exact hwarm.gone.rails.1

/-! ### The obligation, part by part -/

theorem boxes_submitted (s : State) (e slot : Nat) (b : List Byte) : (∀ d, d ≠ e → boxOf (submitted s e slot b) d = boxOf s d) ∧
    (boxOf (submitted s e slot b) e).owned.testBit slot = true ∧ (boxOf (submitted s e slot b) e).done.testBit slot = false := by
  refine ⟨fun d hd => boxOf_setBox_ne s _ hd, ?_, ?_⟩
  · rw [submitted, boxOf_setBox_self]
    exact testBit_setBit_self _ _ _
  · rw [submitted, boxOf_setBox_self]
    exact testBit_setBit_self _ _ _

/-- A malformed frame counts and leaves its slot with the device. -/
theorem submitted_malformed (s : State) (e slot : Nat) (b : List Byte) : let t := dropFrame (submitted s e slot b)
    (boxOf t e).owned.testBit slot = true ∧ (boxOf t e).done.testBit slot = false ∧
      rd t oFRAME_DROPS 0 = satAdd max32 (rd s oFRAME_DROPS 0) 1 ∧ (∀ d, d ≠ e → boxOf t d = boxOf s d) ∧
      SameObjs [objKey oFRAME_DROPS 0] s t := by
  obtain ⟨hothers, howned, hdone⟩ := boxes_submitted s e slot b
  exact ⟨howned, hdone, rd_wr_self _ _ _ _, hothers, sameObjs_wr _ _ _ _⟩

/-- A reply in the slot of a mailbox: the slot is the host's. -/
theorem replied_mailbox (s : State) (e slot : Nat) (b : List Byte) : let t := reply s (.mailbox e slot) b
    (boxOf t e).owned.testBit slot = false ∧ (boxOf t e).done.testBit slot = true ∧ tabGet? (boxOf t e).frames slot = some b ∧
      t.dict = s.dict := by
  refine ⟨?_, ?_, ?_, by rw [(sent_reply s (.mailbox e slot) b).rest]⟩
  · rw [boxOf_reply_mailbox]
    exact testBit_setBit_self _ _ _
  · rw [boxOf_reply_mailbox]
    exact testBit_setBit_self _ _ _
  · rw [boxOf_reply_mailbox]
    exact tabGet?_tabPut_self _ _ _

/-- Slots released: those named, of the four, and no other. -/
theorem released_slots (s : State) (e v : Nat) :
    let t := setBox s e { boxOf s e with owned := clearMask (boxOf s e).owned (v % 16), done := clearMask (boxOf s e).done (v % 16) }
    (∀ i, i < 4 → v.testBit i = true → (boxOf t e).owned.testBit i = false ∧ (boxOf t e).done.testBit i = false) ∧
      (∀ i, (4 ≤ i ∨ v.testBit i = false) → (boxOf t e).owned.testBit i = (boxOf s e).owned.testBit i ∧
        (boxOf t e).done.testBit i = (boxOf s e).done.testBit i) := by
  dsimp only
  rw [boxOf_setBox_self]
  refine ⟨fun i hi hv => ?_, fun i hi => ?_⟩
  · have hmask : (decide (i < 4) && v.testBit i) = true := by rw [decide_eq_true hi, hv]; rfl
    simp only [testBit_clearMask_slots, hmask, Bool.not_true, Bool.and_false, and_self]
  · have hmask : (decide (i < 4) && v.testBit i) = false := by
      obtain hi | hv := hi
      · rw [decide_eq_false (Nat.not_lt.mpr hi), Bool.false_and]
      · rw [hv, Bool.and_false]
    simp only [testBit_clearMask_slots, hmask, Bool.not_false, Bool.and_true, and_self]

section
variable {s : State} {e : Nat}

theorem nextItem_empty (h : (boxOf s e).queue = []) :
    nextItem e (boxOf s e).queue s = setBox s e { boxOf s e with notifyPending := false } := by
  rw [h, nextItem, ← h]

theorem nextItem_frame {b : List Byte} {r : List BoxItem} (h : (boxOf s e).queue = .frame b :: r) :
    nextItem e (boxOf s e).queue s = placeNote (setBox s e { boxOf s e with queue := r }) e b := by
  rw [h, nextItem]

theorem nextItem_note {sid txid : Nat} {r : List BoxItem} {x : Session} {n : Note} (h : (boxOf s e).queue = .note sid txid :: r)
    (hx : sessionOf s sid = some x) (hn : x.notes.find? (fun n => n.txid == txid) = some n) : nextItem e (boxOf s e).queue s =
      placeNote (setSession (setBox s e { boxOf s e with queue := r }) (formNote x n).1) e (formNote x n).2 := by
  rw [h, nextItem, hx]
  dsimp only
  rw [hn]

end

/-- A frame that has waited takes the notification slot. -/
theorem placed_frame (s : State) (e : Nat) (b : List Byte) (r : List BoxItem) :
    let t := placeNote (setBox s e { boxOf s e with queue := r }) e b
    boxOf t e = { boxOf s e with notifyPending := true, notifyFrame := b, queue := r } ∧
      FnsKept s t ∧ t = { s with mgmt := { s.mgmt with boxes := t.mgmt.boxes }, fns := t.fns, out := t.out } := by
  have hrest := placeNote_rest (setBox s e { boxOf s e with queue := r }) e b
  have htold := told_placeNote (setBox s e { boxOf s e with queue := r }) e b
  refine ⟨?_, htold.fns, hrest⟩
  rw [boxOf_placeNote, boxOf_setBox_self]

/-- A notification that has waited is formed under the next FSEQ of its session and takes the slot. -/
theorem placed_note {s : State} {e sid txid : Nat} {x : Session} {n : Note} (r : List BoxItem) (hx : sessionOf s sid = some x)
    (hn : x.notes.find? (fun n => n.txid == txid) = some n) :
    let t := placeNote (setSession (setBox s e { boxOf s e with queue := r }) (formNote x n).1) e (formNote x n).2
    ∃ y m, sessionOf t sid = some y ∧ y.txSeq = x.txSeq + 1 ∧ m ∈ y.notes ∧ m.txid = txid ∧ m.sent = true ∧
      boxOf t e = { boxOf s e with notifyPending := true, notifyFrame := noteFrame y m, queue := r } ∧ t.dict = s.dict := by
  obtain ⟨m, hm, hid, hsent, hframe⟩ := formNote_spec hn
  obtain ⟨hsid, hacc⟩ := sid_of_sessionOf hx
  have hrest := placeNote_rest (setSession (setBox s e { boxOf s e with queue := r }) (formNote x n).1) e (formNote x n).2
  have hstored : sessionOf (setSession (setBox s e { boxOf s e with queue := r }) (formNote x n).1) sid = some (formNote x n).1 :=
    sessionOf_setSession (s := setBox s e { boxOf s e with queue := r }) hx hsid hacc
  refine ⟨(formNote x n).1, m, ?_, rfl, hm, hid, hsent, ?_, ?_⟩
  · rw [sessionOf, placeNote_sessions]
    exact hstored
  · rw [boxOf_placeNote, ← hframe]
    have hbox : boxOf (setSession (setBox s e { boxOf s e with queue := r }) (formNote x n).1) e = { boxOf s e with queue := r } :=
      boxOf_setBox_self s e _
    rw [hbox]
  · rw [hrest]
    rfl

/-- A commit. -/
theorem committed_spec (s : State) : newerCopy (commit s).nv = some (commitCopy (commitCounted s)) ∧
    (commitCopy (commitCounted s)).nums = (persistedView (commit s)).dict.filter (fun e => keyPersists e.1) ∧
    (commitCopy (commitCounted s)).blobs = (persistedView s).blobs.filter (fun e => keyPersists e.1) ∧ (commit s).nv.dirty = false ∧
    (commit s).nv.repair = s.nv.repair ∧ rd (commit s) oPERSIST_COMMITS 0 = satAdd max32 (rd s oPERSIST_COMMITS 0) 1 ∧
    SameObjs [objKey oPERSIST_COMMITS 0] s (commit s) ∧ ((commit s).nv.copyA = s.nv.copyA ∨ (commit s).nv.copyB = s.nv.copyB) ∧
    commit s = { s with dict := (commit s).dict, nv := (commit s).nv } := by
  obtain ⟨hcases, hnewer⟩ := commit_cases s
  have hcount : rd (commitCounted s) oPERSIST_COMMITS 0 = satAdd max32 (rd s oPERSIST_COMMITS 0) 1 := rd_wr_self _ _ _ _
  have hsame : SameObjs [objKey oPERSIST_COMMITS 0] s (commitCounted s) := sameObjs_wr _ _ _ _
  refine ⟨hnewer, ?_⟩
  clear hnewer
  generalize commit s = t at hcases ⊢
  obtain rfl | rfl := hcases
  · exact ⟨rfl, rfl, rfl, rfl, hcount, hsame, .inr rfl, rfl⟩
  · exact ⟨rfl, rfl, rfl, rfl, hcount, hsame, .inl rfl, rfl⟩

theorem exec_duplicateAddressDetection_up {s : State} (hgood : s.power.good = true) (hphy : s.clock.phyOn = true)
    (hpin : s.pins.resetLow = false) (hsilent : s.mgmt.silent = false) (c : Bool) : ∃ t, exec (.duplicateAddressDetection c) s = .next t ∧
      t.mgmt.addressOk = !c ∧ (rd t oMGMT_LINK 0).testBit 1 = c ∧
      (∀ i, i ≠ 1 → (rd t oMGMT_LINK 0).testBit i = (rd s oMGMT_LINK 0).testBit i) ∧ SameObjs [objKey oMGMT_LINK 0] s t ∧
      t.out = .probe :: s.out := by
  have hbit : rd (wr (emit s .probe) oMGMT_LINK 0 (setBit (rd s oMGMT_LINK 0) 1 c)) oMGMT_LINK 0 = setBit (rd s oMGMT_LINK 0) 1 c :=
    rd_wr_self _ _ _ _
  refine ⟨_, congrArg Host.Outcome.next (if_pos (by rw [hgood, hphy, hpin, hsilent]; rfl)), rfl, ?_, fun i hi => ?_,
    sameObjs_wr (emit s .probe) _ _ _, rfl⟩
  · exact (congrArg (fun w => w.testBit 1) hbit :).trans (testBit_setBit_self _ _ _)
  · exact (congrArg (fun w => w.testBit i) hbit :).trans (testBit_setBit_ne _ _ hi)

theorem ScannedCells.rest {s t : State} {bits : List Bool} (h : ScannedCells s t bits) : t = { s with jtag := t.jtag, out := t.out } :=
  h.2.2.2.2

/-- EXTEST scans the cells it has taken control of. -/
theorem tookPins_scanCells (s : State) (bits : List Bool) : TookPins s (scanCells (takePins s 0) bits) 0 := by
  refine ⟨?_, ?_, ?_, (scannedCells_of_irOnly (irOnly_takePins s 0) bits).rest⟩
  · rw [scanCells_jtag]
    rfl
  · rw [scanCells_jtag]
    rfl
  · rw [scanCells_jtag]
    rfl

/-- Settles O59, part by part: what each mailbox command makes of the slots, what a commit stores, what the network address answers, and
what each instruction of the test port loads, scans or takes. -/
theorem mailboxCommitAndTestPort : Obligations.MailboxCommitAndTestPort := by
  refine ⟨fun s e v h => ⟨fun b hb hsilent hlocked hslot => ⟨fun hform => ?_, fun hform htype hsid hlen => ?_⟩,
      fun hslot b => exec_mbSubmit_owned h v b hslot, ?_, fun hv hq => ?_, fun b r hv hq => ?_, fun sid txid r x n hv hq hx hn => ?_⟩,
    fun s hgood hdirty => ?_, fun s src d =>
        ⟨fun hup => ?_, fun hd => ?_, fun hup => ?_, fun hup => ?_, fun c hgood hphy hpin hsilent => ?_⟩,
    fun s hrail => ?_⟩
  · exact ⟨_, exec_mbSubmit_malformed h hb hsilent hlocked hslot hform, submitted_malformed s e (v % 4) b⟩
  · exact ⟨_, exec_mbSubmit_discover h hb hsilent hlocked hslot hform htype hsid hlen, replied_mailbox (submitted s e (v % 4) b) e (v % 4) _⟩
  · exact ⟨_, exec_mbRelease_of_usable h v, rfl, released_slots s e v⟩
  · refine ⟨_, (exec_mbNotifyFree_of_usable h v hv).trans (congrArg Host.Outcome.next (nextItem_empty hq)), ?_, rfl⟩
    exact boxOf_setBox_self s e _
  · exact ⟨_, (exec_mbNotifyFree_of_usable h v hv).trans (congrArg Host.Outcome.next (nextItem_frame hq)), placed_frame s e b r⟩
  · obtain ⟨y, m, hplaced⟩ := placed_note (e := e) r hx hn
    exact ⟨_, y, m, (exec_mbNotifyFree_of_usable h v hv).trans (congrArg Host.Outcome.next (nextItem_note hq hx hn)), hplaced⟩
  · exact ⟨commit s, _, congrArg Host.Outcome.next (if_pos (by rw [hgood, hdirty]; rfl)), committed_spec s⟩
  · exact congrArg Host.Outcome.next (if_pos ⟨hup, rfl⟩)
  · exact congrArg Host.Outcome.next (if_neg fun h => hd h.2)
  · exact congrArg Host.Outcome.next (if_pos hup)
  · exact congrArg Host.Outcome.next (if_neg (by rw [hup]; decide))
  · exact exec_duplicateAddressDetection_up hgood hphy hpin hsilent c
  · refine ⟨⟨_, _, exec_idcode_of_rail hrail, loadedIr s 2 _, field_idCode s⟩, fun code hcode => ⟨_, exec_bypass_of_rail hrail hcode, loadedIr s code 0⟩,
      fun bits => ⟨_, exec_samplePreload_of_rail hrail bits, scannedCells_of_irOnly (irOnly_loadIr s 1) bits, ?_⟩,
          fun hstage => ⟨fun bits => ?_, ?_, ?_⟩,
      fun hstage => ⟨fun bits => ?_, ?_, ?_⟩, fun clk id hcontrol => ?_, fun clk id hcontrol hgood hshut hpin hid hok => ?_⟩
    · rw [scanCells_jtag]
      exact ⟨rfl, rfl, rfl⟩
    · have hscan := scannedCells_of_irOnly (irOnly_takePins s 0) bits
      have hir : (scanCells (takePins s 0) bits).jtag.ir = 0 := by rw [scanCells_jtag]; rfl
      refine ⟨_, (exec_extest_of_rail hrail bits).trans (congrArg Host.Outcome.next (if_pos hstage)), tookPins_scanCells s bits, hscan, ?_⟩
      rw [alertN_taken hrail hscan.rest hstage (by rw [hir]; rfl), hir]
      rfl
    · refine ⟨emit (takePins s 3) (.tdo 0), (exec_clamp_of_rail hrail).trans (by rw [if_pos hstage]), ⟨rfl, rfl, rfl, rfl⟩, rfl, rfl, ?_⟩
      exact alertN_taken (t := emit (takePins s 3) (.tdo 0)) hrail rfl hstage rfl
    · refine ⟨emit (takePins s 4) (.tdo 0), (exec_highz_of_rail hrail).trans (by rw [if_pos hstage]), ⟨rfl, rfl, rfl, rfl⟩, rfl, rfl, ?_⟩
      exact alertN_taken (t := emit (takePins s 4) (.tdo 0)) hrail rfl hstage rfl
    · exact ⟨_, (exec_extest_of_rail hrail bits).trans (congrArg Host.Outcome.next (if_neg (Nat.not_lt.mpr hstage))), loadedIr s 0 0⟩
    · exact ⟨emit (loadIr s 3) (.tdo 0), (exec_clamp_of_rail hrail).trans (by rw [if_neg (Nat.not_lt.mpr hstage)]), loadedIr s 3 0⟩
    · exact ⟨emit (loadIr s 4) (.tdo 0), (exec_highz_of_rail hrail).trans (by rw [if_neg (Nat.not_lt.mpr hstage)]), loadedIr s 4 0⟩
    · refine ⟨_, exec_testLogicReset_free hrail hcontrol clk id, rfl, rfl, ?_⟩
      rfl
    · obtain ⟨hjtag, hcopies⟩ := warmBody_jtag (tapReset s) 3
      obtain ⟨hport, hrestarted⟩ := restarted_of_warmed (warmed_warmBody (tapReset s) 3) (hcopies hok) clk hid
      refine ⟨_, exec_testLogicReset_taken hrail hcontrol hgood hshut hpin clk id, ?_, ?_, ?_, hrestarted⟩
      · rw [hport, hjtag]
        rfl
      · rw [hport, hjtag]
        rfl
      · rw [hport, hjtag]
        rfl

end Sys2Proof.Machine

/-! PROOF. O54: the commands that reset and retire (spec/05 R111 to R115; spec/17 R417; spec/18 R433; spec/19 R454, R460). -/

namespace Sys2Proof.Machine

open Sys2Proof

/-! ### A command object written -/

/-- The row of a command object that is one number. -/
structure Command (index : Nat) (r : ObjRow) : Prop where
  rows : rowsOfIndex index = [r]
  access : r.access = .cmd
  typed : ∀ n, typeOk r index n = (n == r.size)

def rowWARM_RESET : ObjRow := ⟨oWARM_RESET, 0x7003, 0, 0, 2, 2, .cmd, 3, false, false, false, 0⟩
def rowPART_RESET : ObjRow := ⟨oPART_RESET, 0x7010, 1, 128, 1, 1, .cmd, 2, false, true, false, 0⟩
def rowCORE_RESET : ObjRow := ⟨oCORE_RESET, 0x7011, 1, 128, 1, 1, .cmd, 3, false, false, false, 0⟩
def rowLINK_RESET : ObjRow := ⟨oLINK_RESET, 0x7012, 1, 16, 1, 1, .cmd, 3, false, false, false, 0⟩
def rowPART_CTRL : ObjRow := ⟨oPART_CTRL, 0x300A, 1, 128, 1, 1, .cmd, 3, false, true, false, 0⟩
def rowCORE_RETIRE : ObjRow := ⟨oCORE_RETIRE, 0x7101, 1, 128, 1, 1, .cmd, 3, false, false, false, 0⟩
def rowPC_RETIRE : ObjRow := ⟨oPC_RETIRE, 0x7106, 1, 8, 1, 1, .cmd, 3, false, false, false, 0⟩

theorem command_WARM_RESET : Command oWARM_RESET rowWARM_RESET := ⟨by decide, rfl, fun _ => rfl⟩
theorem command_PART_RESET : Command oPART_RESET rowPART_RESET := ⟨by decide, rfl, fun _ => rfl⟩
theorem command_CORE_RESET : Command oCORE_RESET rowCORE_RESET := ⟨by decide, rfl, fun _ => rfl⟩
theorem command_LINK_RESET : Command oLINK_RESET rowLINK_RESET := ⟨by decide, rfl, fun _ => rfl⟩
theorem command_PART_CTRL : Command oPART_CTRL rowPART_CTRL := ⟨by decide, rfl, fun _ => rfl⟩
theorem command_CORE_RETIRE : Command oCORE_RETIRE rowCORE_RETIRE := ⟨by decide, rfl, fun _ => rfl⟩
theorem command_PC_RETIRE : Command oPC_RETIRE rowPC_RETIRE := ⟨by decide, rfl, fun _ => rfl⟩

/-- Objects at 0x7000 are written in limited mode too (R104). -/
theorem writeMode_of_regrowth (s : State) (r : ObjRow) {index : Nat} (h : 0x7000 ≤ index ∧ index < 0x8000) :
    writeMode s r index = true := by
  rw [writeMode, decide_eq_true h, Bool.or_true, Bool.true_or, Bool.true_or]

theorem writeMode_of_full {s : State} (h : s.power.fullMode = true) (r : ObjRow) (index : Nat) : writeMode s r index = true := by
  rw [writeMode, limited, h]
  rfl

theorem writeScope_of_unscoped {x : Session} (h : isScoped x = false) (s : State) (r : ObjRow) (index sub v : Nat) :
    writeScope s x r index sub v = true := by
  rw [writeScope, h]
  rfl

section
variable {index sub : Nat} {r : ObjRow} (h : Command index r) {s : State} {x : Session}
  (hpresent : presentObj s index sub = some r) (hrole : r.role ≤ x.role) (hmode : writeMode s r index = true)
include h hpresent hrole hmode

/-- A command that the session may give is run. -/
theorem Command.runs {b : List Byte} (hscope : writeScope s x r index sub (leNat b) = true) (req : Req) (dst : Src) :
    writeObject s x index sub b req dst = runCommand s x r index sub b req dst := by
  rw [writeObject, hpresent]
  dsimp only
  rw [writeRole, h.access, if_neg (Nat.not_lt.mpr hrole), hscope, hmode]
  rfl

end

theorem numBytes_fit {n v : Nat} (h : v < 256 ^ n) : leNat (numBytes n v) = v ∧ (numBytes n v).length = n := by
  rw [numBytes, if_pos h]
  exact ⟨(leNat_leBytes n v).trans (Nat.mod_eq_of_lt h), leBytes_length n v⟩

theorem Command.typed_numBytes {index : Nat} {r : ObjRow} (h : Command index r) {v : Nat} (hv : v < 256 ^ r.size) :
    typeOk r index (numBytes r.size v).length = true := by
  rw [h.typed, (numBytes_fit hv).2, beq_self_eq_true]

section
variable (s : State) (x : Session) (r : ObjRow) (sub : Nat) (b : List Byte) (req : Req) (dst : Src)

theorem runCommand_warmReset (h : typeOk r oWARM_RESET b.length = true) :
    runCommand s x r oWARM_RESET sub b req dst = cmdWarmReset s (leNat b) := by
  rw [runCommand, h]; rfl

theorem runCommand_partReset (h : typeOk r oPART_RESET b.length = true) :
    runCommand s x r oPART_RESET sub b req dst = cmdPartReset s (sub - 1) (leNat b) req dst := by
  rw [runCommand, h]; rfl

theorem runCommand_coreReset (h : typeOk r oCORE_RESET b.length = true) :
    runCommand s x r oCORE_RESET sub b req dst = cmdCoreReset s (sub - 1) (leNat b) := by
  rw [runCommand, h]; rfl

theorem runCommand_linkReset (h : typeOk r oLINK_RESET b.length = true) :
    runCommand s x r oLINK_RESET sub b req dst = cmdLinkReset s (sub - 1) (leNat b) := by
  rw [runCommand, h]; rfl

theorem runCommand_partCtrl (h : typeOk r oPART_CTRL b.length = true) :
    runCommand s x r oPART_CTRL sub b req dst = cmdPartCtrl s (sub - 1) (leNat b) req dst := by
  rw [runCommand, h]; rfl

theorem runCommand_coreRetire (h : typeOk r oCORE_RETIRE b.length = true) :
    runCommand s x r oCORE_RETIRE sub b req dst = cmdCoreRetire s (sub - 1) (leNat b) req dst := by
  rw [runCommand, h]; rfl

theorem runCommand_pcRetire (h : typeOk r oPC_RETIRE b.length = true) :
    runCommand s x r oPC_RETIRE sub b req dst = cmdPcRetire s (sub - 1) (leNat b) req dst := by
  rw [runCommand, h]; rfl

end

/-! ### What comes of a command -/

/-- Notifications leave every session what it was, but for them. -/
theorem sessionOf_of_still {s t : State} (h : t.mgmt.sessions.map Session.still = s.mgmt.sessions.map Session.still) (sid : Nat) :
    (sessionOf t sid).map Session.still = (sessionOf s sid).map Session.still := by
  have hfind : ∀ l : List Session, (l.find? (fun x => x.accepted && x.sid == sid)).map Session.still =
      (l.map Session.still).find? (fun x => x.accepted && x.sid == sid) := fun l => by
    rw [List.find?_map]
    rfl
  rw [sessionOf, sessionOf, hfind, hfind, h]

theorem still_takenState {s : State} {req : Req} {x : Session} (h : Authentic s req x) {u : State}
    (hu : u.mgmt.sessions.map Session.still = (takenState s x req).mgmt.sessions.map Session.still) :
    (sessionOf u req.sid).map Session.still = some (takenSession x req).still := by
  rw [sessionOf_of_still hu, sessionOf_takenState h.session]
  rfl

section
variable {s : State} {req : Req} {x : Session} (h : Authentic s req x) {c : Instr} {index sub : Nat} {b : List Byte}
  (hexec : exec c s = .next (writeRow s req index sub b))
include h hexec

/-- A command whose reply waits: the reply is owed, and of what the command has made only sessions change. -/
theorem exec_later {u : State} (hwrite : writeObject (takenState s x req) (takenSession x req) index sub b req x.src =
    { st := u, out := .later }) : ∃ l, exec c s = .next { u with mgmt := { u.mgmt with sessions := l } } := by
  rw [hexec, writeRow_taken h, performWrite, hwrite]
  change ∃ l, Host.Outcome.next (match sessionOf u req.sid with
    | some x => setSession u { x with waiting := req.fseq :: x.waiting }
    | none => u) = _
  split
  · exact ⟨_, rfl⟩
  · exact ⟨_, rfl⟩

/-- A command done at once, its session changed by notifications at most: its reply is sent, and nothing else changes. -/
theorem exec_done {u : State} {result : Nat} (hwrite : writeObject (takenState s x req) (takenSession x req) index sub b req x.src =
    { st := u, out := .done result }) (hstill : (sessionOf u req.sid).map Session.still = some (takenSession x req).still) :
    ∃ t, exec c s = .next t ∧ SaysDone t req x.key index sub result ∧
      t = { u with mgmt := { u.mgmt with sessions := t.mgmt.sessions, boxes := t.mgmt.boxes }, fns := t.fns, out := t.out } := by
  have hanswer : writeRow s req index sub b = answerReq u x.src req 0x13 (writeReplyPayload index sub result) := by
    rw [writeRow_taken h, performWrite, hwrite]
    rfl
  obtain ⟨y, hy, hyx⟩ := Option.map_eq_some_iff.mp hstill
  obtain ⟨hrest, hsession, -⟩ := answered_answerReq hy x.src 0x13 (writeReplyPayload index sub result)
  refine ⟨_, hexec.trans (congrArg Host.Outcome.next hanswer), ⟨_, y.txSeq + 1, hsession, ?_⟩, hrest⟩
  have hkept : y.kept = (takenSession x req).kept := (congrArg Session.kept hyx :)
  have hkey : y.key = x.key := (congrArg Session.key hyx :)
  refine List.mem_map.mpr ⟨(req.fseq, []), by rw [hkept]; exact List.mem_cons_self, ?_⟩
  rw [if_pos rfl, hkey, (sid_of_sessionOf hy).1]

end

/-! ### WARM_RESET -/

/-- The command as a maintainer's session gives it. -/
theorem Command.runs_maintainer {index sub v : Nat} {r : ObjRow} (h : Command index r) {s : State} {x : Session} {req : Req}
    (hpresent : presentObj (takenState s x req) index sub = some r) (hlevel : r.role ≤ 3) (hrole : 3 ≤ x.role)
    (hmode : writeMode (takenState s x req) r index = true) (dst : Src) :
    writeObject (takenState s x req) (takenSession x req) index sub (numBytes r.size v) req dst =
      runCommand (takenState s x req) (takenSession x req) r index sub (numBytes r.size v) req dst :=
  h.runs hpresent (Nat.le_trans hlevel hrole) hmode (writeScope_of_unscoped (unscoped_of_maintainer hrole) _ _ _ _ _) req dst

theorem follow_warmReset {u : State} (h : u.power.shutdown = false) (sid : Nat) :
    follow u sid .warmReset = bootStart (warmBody u 2) 2 :=
  if_neg (by rw [h]; exact Bool.false_ne_true)

/-- What follows a reply follows it in a state that keeps what is not the reply's. -/
theorem performWrite_after {s : State} {req : Req} {x : Session} (h : Authentic s req x) {index sub result : Nat} {b : List Byte}
    {a : After}
    (hwrite : writeObject (takenState s x req) (takenSession x req) index sub b req x.src =
      { st := takenState s x req, out := .done result, after := a }) :
    ∃ u, performWrite (takenState s x req) (takenSession x req) index sub b req x.src = follow u req.sid a ∧ u.nv = s.nv ∧
      u.power = s.power := by
  have hbase : takenState s x req = { s with dict := (takenState s x req).dict, mgmt := (takenState s x req).mgmt } := rfl
  have hrest := (replied_answerReq h hbase rfl (SameObjs.refl [] s) 0x13 (writeReplyPayload index sub result)).1.rest
  rw [performWrite, hwrite]
  change ∃ u, follow (answerReq (takenState s x req) x.src req 0x13 (writeReplyPayload index sub result)) req.sid a = _ ∧ _
  generalize answerReq (takenState s x req) x.src req 0x13 (writeReplyPayload index sub result) = u at hrest ⊢
  exact ⟨u, rfl, by rw [hrest], by rw [hrest]⟩

section
variable {s : State} {req : Req} {x : Session} (h : Authentic s req x) (hrole : 3 ≤ x.role)
include hrole

theorem writeObject_warmReset {v : Nat} (hv : v < 256 ^ rowWARM_RESET.size) :
    writeObject (takenState s x req) (takenSession x req) oWARM_RESET 0 (numBytes 2 v) req x.src = cmdWarmReset (takenState s x req) v := by
  have hruns := command_WARM_RESET.runs_maintainer (s := s) (req := req) (v := v) (sub := 0)
    (presentObj_of_rows _ rfl command_WARM_RESET.rows ⟨by decide, by decide⟩) (by decide) hrole
        (writeMode_of_regrowth _ _ ⟨by decide, by decide⟩) x.src
  refine hruns.trans ((runCommand_warmReset _ _ _ _ _ _ _ (command_WARM_RESET.typed_numBytes hv)).trans ?_)
  rw [(numBytes_fit (n := rowWARM_RESET.size) hv).1]

include h

/-- The code that resets: the reply, then the restart. -/
theorem exec_warmReset_code (hshut : s.power.shutdown = false) : ∃ u, exec (.warmReset req 0xA5A5) s = .next (bootStart (warmBody u 2) 2) ∧
    u.nv = s.nv := by
  have hwrite : writeObject (takenState s x req) (takenSession x req) oWARM_RESET 0 (numBytes 2 0xA5A5) req x.src =
      { st := takenState s x req, out := .done 0, after := .warmReset } :=
    (writeObject_warmReset (s := s) (req := req) hrole (v := 0xA5A5) (by decide)).trans (if_pos rfl)
  obtain ⟨u, hu, hnv, hpower⟩ := performWrite_after h hwrite
  refine ⟨u, congrArg Host.Outcome.next ((writeRow_taken h oWARM_RESET 0 (numBytes 2 0xA5A5)).trans (hu.trans ?_)), hnv⟩
  exact follow_warmReset (by rw [hpower]; exact hshut) _

theorem exec_warmReset_refused {v : Nat} (hv : v < 2 ^ 16) (hcode : v ≠ 0xA5A5) :
    Refuses s req x (.warmReset req v) oWARM_RESET 0 errOUT_OF_RANGE 0 := by
  refine refuses_of_refuse h rfl ((writeObject_warmReset hrole (lt_of_lt_of_eq hv (by norm_num [rowWARM_RESET]))).trans ?_)
  rw [cmdWarmReset, if_neg hcode]

end

/-- A restart after the rails went off. -/
theorem restarted_warm (u : State) (cause : Nat) : let t := bootStart (warmBody u cause) cause
    t.power.compute = false ∧ t.mgmt.sessions = [] ∧ t.weir.ops = [] ∧ rd t oBOOT_STAGE 0 = 4 ∧ rd t oRESET_CAUSE 0 = cause ∧
      t.nv.bootNo = (u.nv.bootNo + 1) % 2 ^ 32 := by
  have hwarm := warmed_warmBody u cause
  have hbegun := begun_bootStart (warmBody u cause) cause
  have hgone := hwarm.gone.bootStart hwarm.sessions cause
  refine ⟨hgone.rails.1, sessions_bootStart hwarm.sessions cause, ?_, hbegun.stage, hbegun.cause, ?_⟩
  · rw [hgone.work.1]
  · rw [hbegun.bootNo, hwarm.bootNo]

/-! ### PART_RESET and PART_CTRL -/

theorem partExists_of_active {s : State} {p : Nat} (h : rd s oPART_STATE (p + 1) = 1) : partExists s p = true := by
  rw [partExists, h]
  rfl

section
variable {s : State} {req : Req} {x : Session} {p : Nat} (hp : p < 128)
include hp

theorem writeObject_partReset (hrole : 2 ≤ x.role) (hscope : inScope x p = true) :
    writeObject (takenState s x req) (takenSession x req) oPART_RESET (p + 1) (numBytes 1 1) req x.src =
      cmdPartReset (takenState s x req) p 1 req x.src := by
  have hopen : writeScope (takenState s x req) (takenSession x req) rowPART_RESET oPART_RESET (p + 1) (leNat (numBytes 1 1)) = true := by
    rw [writeScope]
    split
    · rfl
    · exact hscope
  have hruns := command_PART_RESET.runs (s := takenState s x req) (x := takenSession x req) (sub := p + 1)
    (presentObj_of_rows _ rfl command_PART_RESET.rows ⟨by simp [rowPART_RESET], by simp [rowPART_RESET]; omega⟩) hrole
    (writeMode_of_regrowth _ _ ⟨by decide, by decide⟩) hopen req x.src
  exact hruns.trans (runCommand_partReset _ _ _ _ _ _ _ (command_PART_RESET.typed_numBytes (v := 1) (by decide)))

theorem writeObject_partCtrl (hrole : 3 ≤ x.role) (hfull : s.power.fullMode = true) {v : Nat} (hv : v < 256) :
    writeObject (takenState s x req) (takenSession x req) oPART_CTRL (p + 1) (numBytes 1 v) req x.src =
      cmdPartCtrl (takenState s x req) p v req x.src := by
  have hruns := command_PART_CTRL.runs_maintainer (s := s) (req := req) (v := v) (sub := p + 1)
    (presentObj_of_rows _ rfl command_PART_CTRL.rows ⟨by simp [rowPART_CTRL], by simp [rowPART_CTRL]; omega⟩) (by decide) hrole
    (writeMode_of_full hfull _ _) x.src
  refine hruns.trans ((runCommand_partCtrl _ _ _ _ _ _ _ (command_PART_CTRL.typed_numBytes hv)).trans ?_)
  rw [(numBytes_fit (n := rowPART_CTRL.size) hv).1]
  rfl

end

/-- Other partitions than `p` stand as they stood. -/
def OthersAlone (p : Nat) (s t : State) : Prop := ∀ r, r < 128 → r ≠ p → rd t oPART_STATE (r + 1) = rd s oPART_STATE (r + 1) ∧
  partOf t r = partOf s r ∧ t.weir.ops.filter (fun o => o.part == r) = s.weir.ops.filter (fun o => o.part == r)

/-- The reset of partition `p` has begun, as O54 has it. -/
def ResetBegins (p : Nat) (s t : State) : Prop := rd t oPART_STATE (p + 1) = 2 ∧ (partOf t p).resetting = true ∧
  (paused s p = false → ∀ o ∈ t.weir.ops, o.part = p → o.phase = .dispatched ∧
    ∃ c, o.core = some c ∧ ((coreOf s c).wave = true ∨ (coreOf s c).load ≠ none)) ∧ OthersAlone p s t

theorem resetBegins_beginReset {s : State} (hok : opsOk s.weir = true) {p : Nat} (hp : p < 128) (h1 : rd s oPART_STATE (p + 1) = 1) :
    ResetBegins p s (beginReset s p) := by
  have hresets := (resets_beginReset (nodup_ids_of_opsOk hok) hp).1
  obtain ⟨hstate, hresetting, hlinger⟩ := hresets.begun p hp h1 rfl
  exact ⟨hstate, hresetting, hlinger, fun r hr hrp => hresets.others r hr fun hyes => hrp hyes.2⟩

/-- The partition is to go once it has been reset. -/
theorem ResetBegins.destroying {s u : State} {p : Nat} (h : ResetBegins p s u) :
    ResetBegins p s (setPart u p { partOf u p with destroying := true }) := by
  obtain ⟨hstate, hresetting, hlinger, hothers⟩ := h
  refine ⟨hstate, ?_, hlinger, fun r hr hrp => ?_⟩
  · rw [partOf_setPart_self]
    exact hresetting
  · obtain ⟨hst, hpart, hops⟩ := hothers r hr hrp
    exact ⟨hst, (partOf_setPart_ne u _ hrp).trans hpart, hops⟩

theorem ResetBegins.of_mgmt {s u : State} {p : Nat} (h : ResetBegins p s u) (m : Mgmt) : ResetBegins p s { u with mgmt := m } := h

section
variable {s : State} {req : Req} {x : Session} (h : Authentic s req x) {p : Nat} (hp : p < 128)
include h hp

theorem exec_partReset_active (hok : opsOk s.weir = true) (hrole : 2 ≤ x.role) (hscope : inScope x p = true)
    (h1 : rd s oPART_STATE (p + 1) = 1) : ∃ t, exec (.partReset req p 1) s = .next t ∧ ResetBegins p s t ∧
      (Delayed.partReset p, req, x.src) ∈ t.mgmt.waiting := by
  have hbegins := resetBegins_beginReset (s := takenState s x req) hok hp h1
  have hwrite := (writeObject_partReset (s := s) (req := req) hp hrole hscope).trans
    (if_neg (by rw [partExists_of_active (s := takenState s x req) h1]; decide))
  generalize beginReset (takenState s x req) p = u at hbegins hwrite
  obtain ⟨l, hl⟩ := exec_later (c := .partReset req p 1) h rfl hwrite
  exact ⟨_, hl, hbegins.of_mgmt _, List.mem_append_right _ List.mem_cons_self⟩

theorem exec_partReset_absent (hrole : 2 ≤ x.role) (hscope : inScope x p = true) (hno : partExists s p = false) :
    Refuses s req x (.partReset req p 1) oPART_RESET (p + 1) errOUT_OF_RANGE 0 :=
  refuses_of_refuse h rfl ((writeObject_partReset hp hrole hscope).trans
    (if_pos (.inr (by rw [show partExists (takenState s x req) p = false from hno]; rfl))))

variable (hrole : 3 ≤ x.role) (hfull : s.power.fullMode = true)
include hrole hfull

theorem exec_partCtrlDestroy_active (hok : opsOk s.weir = true) (h1 : rd s oPART_STATE (p + 1) = 1) :
    ∃ t, exec (.partCtrlDestroy req p) s = .next t ∧ ResetBegins p s t ∧ (partOf t p).destroying = true ∧
      (Delayed.destroy p, req, x.src) ∈ t.mgmt.waiting := by
  have hbegins := resetBegins_beginReset (s := takenState s x req) hok hp h1
  have hwrite : writeObject (takenState s x req) (takenSession x req) oPART_CTRL (p + 1) [2] req x.src = _ :=
    (writeObject_partCtrl (s := s) (req := req) hp hrole hfull (v := 2) (by decide)).trans
      ((if_neg (by decide)).trans ((if_pos rfl).trans (if_pos (partExists_of_active (s := takenState s x req) h1))))
  generalize beginReset (takenState s x req) p = u at hbegins hwrite
  obtain ⟨l, hl⟩ := exec_later (c := .partCtrlDestroy req p) h rfl hwrite
  exact ⟨_, hl, hbegins.destroying.of_mgmt _, congrArg PartRec.destroying (partOf_setPart_self u p _), List.mem_append_right _ List.mem_cons_self⟩

end

/-! ### Operations of a list, one after the other -/

theorem opOf?_of_mem {s : State} (hs : OnceEach s) {o : Op} (ho : o ∈ s.weir.ops) : opOf? s o.id = some o := by
  obtain ⟨y, hy⟩ : ∃ y, opOf? s o.id = some y := Option.isSome_iff_exists.mp (List.find?_isSome.mpr ⟨o, ho, beq_self_eq_true _⟩)
  rw [hy, hs.eq_of_id ho (List.mem_of_find?_eq_some hy) (id_of_opOf? hy)]

theorem forOps_cons (i : Nat) (l : List Nat) (f : State → Op → State) (s : State) :
    forOps (i :: l) f s = forOps l f (match opOf? s i with
      | some o => f s o
      | none => s) := rfl

/-- What holds before a list of operations is gone through, and after each of them, holds at the end. -/
theorem forOps_keeps {P : State → Prop} {f : State → Op → State} {l : List Nat}
    (hf : ∀ t o, P t → o.id ∈ l → opOf? t o.id = some o → P (f t o)) {s : State} (hs : P s) : P (forOps l f s) := by
  induction l generalizing s with
  | nil => exact hs
  | cons i l ih =>
    rw [forOps_cons]
    refine ih (fun t o ht ho => hf t o ht (List.mem_cons_of_mem i ho)) ?_
    split
    · next o ho =>
      have hid := id_of_opOf? ho
      exact hf s o hs (by rw [hid]; exact List.mem_cons_self) (by rw [hid]; exact ho)
    · exact hs

/-- A step `f` makes `g` of the operation it is about, of no other anything. -/
def MakesOf (f : State → Op → State) (g : Op → Op) : Prop :=
  ∀ s o, (f s o).weir.ops = replaceOp (g o) s.weir.ops ∧ (g o).id = o.id

theorem makesOf_endOp (st : Nat) : MakesOf (fun t o => endOp t o st) (fun o => endedOp o st) := fun s o => ⟨ops_endOp s o st, rfl⟩

/-- An operation taken back, to be placed again. -/
def takenBack (o : Op) : Op :=
  { o with phase := .issued, core := none, wsCore := 0, wsPool := 0, wsDram := 0, wsSpill := 0, scratch := [], spilled := false
           coreWait := false }

theorem takeBack_eq (s : State) (o : Op) : takeBack s o = setOp (match o.core with
    | some c => freeCore s c o.id
    | none => s) (takenBack o) := rfl

theorem makesOf_takeBack : MakesOf takeBack takenBack := by
  refine fun s o => ⟨?_, rfl⟩
  rw [takeBack_eq, setOp]
  split
  · rw [freeCore_weir]
  · rfl

section
variable {f : State → Op → State} {g : Op → Op} (h : MakesOf f g)
include h

theorem MakesOf.ids (s : State) (o : Op) : (f s o).weir.ops.map (fun x => x.id) = s.weir.ops.map (fun x => x.id) := by
  rw [(h s o).1]
  exact (othersKept_setOp s (g o)).1

theorem MakesOf.opOf? {s : State} {o : Op} (ho : opOf? s o.id = some o) (i : Nat) :
    opOf? (f s o) i = if i = o.id then some (g o) else opOf? s i := by
  obtain ⟨hops, hid⟩ := h s o
  split
  · next hi => rw [hi, ← hid, opOf?_of_ops hops (by rw [hid, ho]; rfl)]
  · next hi => exact (othersKept_of_ops hops).2 i (by rw [hid]; exact hi)

theorem MakesOf.opOf?_forOps {l : List Nat} (hl : l.Nodup) (s : State) (i : Nat) :
    Machine.opOf? (forOps l f s) i = if i ∈ l then (Machine.opOf? s i).map g else Machine.opOf? s i := by
  induction l generalizing s with
  | nil => exact (if_neg List.not_mem_nil).symm
  | cons j l ih =>
    obtain ⟨hj, hl⟩ := List.nodup_cons.mp hl
    rw [forOps_cons, ih hl]
    cases hop : Machine.opOf? s j with
    | none =>
      by_cases hi : i = j
      · rw [hi, if_neg hj, if_pos List.mem_cons_self, hop]
        rfl
      · simp only [List.mem_cons, hi, false_or]
    | some o =>
      have hid := id_of_opOf? hop
      subst hid
      dsimp only
      rw [h.opOf? hop]
      by_cases hi : i = o.id
      · rw [hi, if_neg hj, if_pos rfl, if_pos List.mem_cons_self, hop]
        rfl
      · simp only [List.mem_cons, hi, false_or, if_false]

theorem MakesOf.ids_forOps (l : List Nat) (s : State) : (forOps l f s).weir.ops.map (fun x => x.id) = s.weir.ops.map (fun x => x.id) :=
  forOps_keeps (P := fun t => t.weir.ops.map (fun x => x.id) = s.weir.ops.map (fun x => x.id)) (fun t o ht _ _ => (h.ids t o).trans ht) rfl

end

theorem nodup_opIds {s : State} (hs : OnceEach s) (f : Op → Bool) : (opIds s f).Nodup :=
  hs.sublist (List.filter_sublist.map _)

theorem mem_opIds_iff {s : State} (hs : OnceEach s) {f : Op → Bool} {o : Op} (ho : o ∈ s.weir.ops) : o.id ∈ opIds s f ↔ f o = true := by
  refine ⟨fun hid => ?_, mem_opIds ho⟩
  obtain ⟨x, hx, hxo⟩ := List.mem_map.mp hid
  obtain ⟨hmem, hf⟩ := List.mem_filter.mp hx
  rwa [hs.eq_of_id ho hmem hxo] at hf

/-- An operation of the state once those that satisfy a test have been gone through. -/
theorem MakesOf.opOf?_opIds {f : State → Op → State} {g : Op → Op} (h : MakesOf f g) {s : State} (hs : OnceEach s) (p : Op → Bool) {o : Op}
    (ho : o ∈ s.weir.ops) : Machine.opOf? (forOps (opIds s p) f s) o.id = some (if p o then g o else o) := by
  rw [h.opOf?_forOps (nodup_opIds hs p), opOf?_of_mem hs ho]
  by_cases hp : p o = true
  · rw [if_pos ((mem_opIds_iff hs ho).mpr hp), if_pos hp]
    rfl
  · rw [if_neg (fun hmem => hp ((mem_opIds_iff hs ho).mp hmem)), if_neg hp]

/-! ### What a core keeps -/

/-- What Regrowth knows of every core stays, from `s` to `t`. -/
def KnowsCores (s t : State) : Prop := ∀ k, clearedCore (coreOf t k) = clearedCore (coreOf s k)

theorem KnowsCores.refl (s : State) : KnowsCores s s := fun _ => rfl

theorem KnowsCores.trans {s t u : State} (h : KnowsCores s t) (h' : KnowsCores t u) : KnowsCores s u := fun k => (h' k).trans (h k)

theorem knowsCores_setCore {s : State} {c : Nat} {x : Core} (h : clearedCore x = clearedCore (coreOf s c)) :
    KnowsCores s (setCore s c x) := by
  intro k
  by_cases hk : k = c
  · rw [hk, coreOf_setCore_self, h]
  · rw [coreOf_setCore_ne s x hk]

theorem knowsCores_of_cores {s t : State} (h : t.cores = s.cores) : KnowsCores s t := fun k => by rw [coreOf, coreOf, h]

theorem coreOf_clearCore_ne (s : State) {c k : Nat} (h : k ≠ c) : coreOf (clearCore s c) k = coreOf s k := by
  have hblank : coreOf (clearCore s c) k = coreOf (setCore s c (clearedCore (coreOf s c))) k := coreOf_setCore_ne _ _ h
  rw [hblank, coreOf_setCore_ne s _ h]

theorem knowsCores_clearCore (s : State) (c : Nat) : KnowsCores s (clearCore s c) := by
  intro k
  by_cases hk : k = c
  · rw [hk, coreOf_clearCore]
    rfl
  · rw [coreOf_clearCore_ne s hk]

theorem knowsCores_freeCore (s : State) (c id : Nat) : KnowsCores s (freeCore s c id) := by
  rw [freeCore]
  dsimp only
  split
  · split
    · refine KnowsCores.trans ?_ (knowsCores_clearCore _ c)
      exact knowsCores_setCore rfl
    · exact knowsCores_setCore rfl
  · split
    · exact knowsCores_setCore rfl
    · exact .refl s

theorem knowsCores_freeSlot (s : State) (c : Nat) (slot : Option Nat) : KnowsCores s (freeSlot s c slot) := by
  rw [freeSlot.eq_def]
  split
  · exact knowsCores_setCore rfl
  · exact .refl s

theorem cores_memOnly {s t : State} (h : MemOnly s t) : t.cores = s.cores := by
  rw [MemOnly] at h
  rw [h]

/-- Core and slot of an operation free. -/
def coreFreed (s : State) (o : Op) : State :=
  match o.core with
  | some c => freeSlot (freeCore s c o.id) c o.slot
  | none => s

theorem knowsCores_coreFreed (s : State) (o : Op) : KnowsCores s (coreFreed s o) := by
  rw [coreFreed]
  split
  · exact (knowsCores_freeCore _ _ _).trans (knowsCores_freeSlot _ _ _)
  · exact .refl s

theorem cores_endOp (s : State) (o : Op) (st : Nat) : (endOp s o st).cores = (coreFreed s o).cores := by
  have hfreed : (released s o st).cores = (coreFreed s o).cores := by
    change (if outputsUnspecified st && o.phase != .waiting then freeRegions (coreFreed s o) o.part (outsLeft (coreFreed s o) o)
      else coreFreed s o).cores = _
    split
    · exact cores_memOnly (memOnly_freeRegions _ _ _)
    · rfl
  rw [endOp_eq, ← hfreed]
  exact cores_breakGroup _ _ _

theorem knowsCores_endOp (s : State) (o : Op) (st : Nat) : KnowsCores s (endOp s o st) :=
  (knowsCores_coreFreed s o).trans (knowsCores_of_cores (cores_endOp s o st))

theorem knowsCores_takeBack (s : State) (o : Op) : KnowsCores s (takeBack s o) := by
  rw [takeBack_eq]
  split
  · exact (knowsCores_freeCore _ _ _).trans (knowsCores_of_cores rfl)
  · exact knowsCores_of_cores rfl

/-- A core that neither executes an operation nor is to load it for a pre-emption. -/
def Strange (x : Core) (id : Nat) : Prop := x.exec ≠ some id ∧ x.load ≠ some (.preempt id)

theorem coreOf_freeCore_of_strange {s : State} {k id : Nat} (h : Strange (coreOf s k) id) (c : Nat) :
    coreOf (freeCore s c id) k = coreOf s k := by
  obtain ⟨hexec, hload⟩ := h
  by_cases hk : k = c
  · subst hk
    rw [freeCore, if_neg hexec, if_neg hload]
  · rw [freeCore]
    dsimp only
    split
    · split
      · rw [coreOf_clearCore_ne _ hk, coreOf_setCore_ne s _ hk]
      · exact coreOf_setCore_ne s _ hk
    · split
      · exact coreOf_setCore_ne s _ hk
      · rfl

/-- Two cores alike but for their save slots. -/
def ButSlots (x y : Core) : Prop := y = { x with slots := y.slots }

theorem butSlots_coreFreed {s : State} {k : Nat} {o : Op} (h : Strange (coreOf s k) o.id) :
    ButSlots (coreOf s k) (coreOf (coreFreed s o) k) := by
  rw [coreFreed]
  split
  · next c _ =>
    rw [← coreOf_freeCore_of_strange h c, freeSlot.eq_def]
    split
    · by_cases hk : k = c
      · subst hk
        rw [coreOf_setCore_self]
        rfl
      · rw [coreOf_setCore_ne _ _ hk]
        rfl
    · rfl
  · rfl

theorem butSlots_endOp {s : State} {k : Nat} {o : Op} (h : Strange (coreOf s k) o.id) (st : Nat) :
    ButSlots (coreOf s k) (coreOf (endOp s o st) k) := by
  rw [coreOf, coreOf, cores_endOp]
  exact butSlots_coreFreed h

theorem coreOf_takeBack_of_strange {s : State} {k : Nat} {o : Op} (h : Strange (coreOf s k) o.id) :
    coreOf (takeBack s o) k = coreOf s k := by
  rw [takeBack_eq]
  split
  · exact coreOf_freeCore_of_strange h _
  · rfl

/-! ### PART_CTRL create -/

section
variable (l : List Nat) {sub : Nat} (hsub : sub < 256)
include hsub

theorem rd_foldl_wr (s : State) (o : Nat) : rd (l.foldl (fun t o => wr t o sub 0) s) o sub = if o ∈ l then 0 else rd s o sub := by
  induction l generalizing s with
  | nil => exact (if_neg List.not_mem_nil).symm
  | cons i l ih =>
    rw [List.foldl_cons, ih]
    by_cases hi : o = i
    · rw [hi, rd_wr_self, if_pos List.mem_cons_self, ite_self]
    · rw [rd_wr_ne s 0 (objKey_ne hi hsub hsub)]
      simp only [List.mem_cons, hi, false_or]

theorem rd_foldl_wr_ne (s : State) (o : Nat) {sub' : Nat} (hsub' : sub' < 256) (hne : sub' ≠ sub) :
    rd (l.foldl (fun t o => wr t o sub 0) s) o sub' = rd s o sub' := by
  induction l generalizing s with
  | nil => rfl
  | cons i l ih => rw [List.foldl_cons, ih, rd_wr_ne s 0 fun hkey => hne ((objKey_inj hsub' hsub).mp hkey).2]

omit hsub in
theorem foldl_wr_rest (s : State) : l.foldl (fun t o => wr t o sub 0) s =
    { s with dict := (l.foldl (fun t o => wr t o sub 0) s).dict } := by
  induction l generalizing s with
  | nil => rfl
  | cons i l ih =>
    rw [List.foldl_cons]
    exact ih _

end

theorem startPart_rest (s : State) (p : Nat) : startPart s p = { s with
    iqs := (startPart s p).iqs, cqs := (startPart s p).cqs, dict := (startPart s p).dict, parts := (startPart s p).parts } := rfl

theorem rd_startPart_state (s : State) (p : Nat) : rd (startPart s p) oPART_STATE (p + 1) = 1 := rd_wr_self _ _ _ _

theorem rd_startPart_ne (s : State) {p o sub : Nat} (h : objKey o sub ≠ objKey oPART_STATE (p + 1)) :
    rd (startPart s p) o sub = rd s o sub :=
  rd_wr_ne (zeroCqs (zeroIqs s (rd s oIQ_RANGE (p + 1))) (rd s oCQ_RANGE (p + 1))) 1 h

theorem partOf_startPart_self (s : State) (p : Nat) : partOf (startPart s p) p = { level := rd s oCREDIT_BURST (p + 1) * 1000000 } :=
  partOf_setPart_self _ _ _

theorem partOf_startPart_ne (s : State) {p r : Nat} (h : r ≠ p) : partOf (startPart s p) r = partOf s r := partOf_setPart_ne _ _ h

/-- A partition created: active, its counters at 0, its credit at the burst. -/
theorem createPart_spec (s : State) {p : Nat} (hp : p < 128) : rd (createPart s p) oPART_STATE (p + 1) = 1 ∧
    (partOf (createPart s p) p).level = rd s oCREDIT_BURST (p + 1) * 1000000 ∧ rd (createPart s p) oPART_ENERGY_UJ (p + 1) = 0 ∧
    OthersAlone p s (createPart s p) := by
  have hsub : p + 1 < 256 := by omega
  have hburst := rd_foldl_wr sinceCreation hsub s oCREDIT_BURST
  have henergy := rd_foldl_wr sinceCreation hsub s oPART_ENERGY_UJ
  rw [if_neg (by decide)] at hburst
  rw [if_pos (by decide)] at henergy
  have hstate := fun r (hr : r < 128) (hrp : r ≠ p) => rd_foldl_wr_ne sinceCreation hsub s oPART_STATE (sub' := r + 1) (by omega) (by omega)
  have hrest := foldl_wr_rest sinceCreation (sub := p + 1) s
  unfold createPart
  generalize sinceCreation.foldl (fun t o => wr t o (p + 1) 0) s = u at hburst henergy hstate hrest ⊢
  refine ⟨rd_startPart_state u p, ?_, ?_, fun r hr hrp => ⟨?_, ?_, ?_⟩⟩
  · rw [partOf_startPart_self, hburst]
  · rw [rd_startPart_ne u (objKey_ne (by decide) hsub hsub), henergy]
  · rw [rd_startPart_ne u (partStateKey hrp), hstate r hr hrp]
  · rw [partOf_startPart_ne u hrp, hrest]
    rfl
  · rw [startPart_rest, hrest]

section
variable {s : State} {req : Req} {x : Session} (h : Authentic s req x) {p : Nat} (hp : p < 128) (hrole : 3 ≤ x.role)
  (hfull : s.power.fullMode = true) (habsent : partExists s p = false)
include h hp hrole hfull habsent

theorem exec_partCtrlCreate_good (hgood : ((rd s oPART_FUNC (p + 1)).testBit 15 && configValid s p (rd s oPART_CORES (p + 1)) &&
    (partCores s p).all (fun c => !(coreRetired s c))) = true) : ∃ t, exec (.partCtrlCreate req p) s = .next t ∧
      rd t oPART_STATE (p + 1) = 1 ∧ (partOf t p).level = rd s oCREDIT_BURST (p + 1) * 1000000 ∧ rd t oPART_ENERGY_UJ (p + 1) = 0 ∧
      OthersAlone p s t ∧ SaysDone t req x.key oPART_CTRL (p + 1) 0 := by
  have hspec := createPart_spec (takenState s x req) hp
  have hcond : (!(partExists (takenState s x req) p) && (rd (takenState s x req) oPART_FUNC (p + 1)).testBit 15 &&
      configValid (takenState s x req) p (rd (takenState s x req) oPART_CORES (p + 1)) &&
        (partCores (takenState s x req) p).all (fun c => !(coreRetired (takenState s x req) c))) = true := by
    rw [show partExists (takenState s x req) p = false from habsent]
    exact hgood
  have hwrite : writeObject (takenState s x req) (takenSession x req) oPART_CTRL (p + 1) [1] req x.src = _ :=
    (writeObject_partCtrl (s := s) (req := req) hp hrole hfull (v := 1) (by decide)).trans ((if_pos rfl).trans (if_pos hcond))
  have hmgmt : (createPart (takenState s x req) p).mgmt = (takenState s x req).mgmt := by
    rw [createPart, startPart_rest, foldl_wr_rest]
  generalize createPart (takenState s x req) p = u at hspec hwrite hmgmt
  obtain ⟨t, ht, hsays, hrest⟩ := exec_done (c := .partCtrlCreate req p) h rfl hwrite (still_takenState h (by rw [hmgmt]))
  obtain ⟨hstate, hlevel, henergy, hothers⟩ := hspec
  refine ⟨t, ht, ?_, ?_, ?_, ?_, hsays⟩ <;> rw [hrest]
  · exact hstate
  · exact hlevel
  · exact henergy
  · exact hothers

theorem exec_partCtrlCreate_refused (hgood : ((rd s oPART_FUNC (p + 1)).testBit 15 && configValid s p (rd s oPART_CORES (p + 1)) &&
    (partCores s p).all (fun c => !(coreRetired s c))) = false) :
    Refuses s req x (.partCtrlCreate req p) oPART_CTRL (p + 1) errOUT_OF_RANGE 0 := by
  have hcond : (!(partExists (takenState s x req) p) && (rd (takenState s x req) oPART_FUNC (p + 1)).testBit 15 &&
      configValid (takenState s x req) p (rd (takenState s x req) oPART_CORES (p + 1)) &&
        (partCores (takenState s x req) p).all (fun c => !(coreRetired (takenState s x req) c))) = false := by
    rw [show partExists (takenState s x req) p = false from habsent]
    exact hgood
  refine refuses_of_refuse h rfl ((writeObject_partCtrl (s := s) (req := req) hp hrole hfull (v := 1) (by decide)).trans ?_)
  exact (if_pos rfl).trans (if_neg (by rw [hcond]; decide))

end

/-! ### CORE_RESET -/

/-- What a core reset makes of an operation: one placed on the core is given back, one there in a phase to be abandoned ends. -/
def coreAbandons (c : Nat) (f : OpPhase → Bool) (o : Op) : Op :=
  if o.core = some c ∧ o.phase = .placed then takenBack o
  else if o.core = some c ∧ f o.phase = true then endedOp o stABANDONED else o

theorem onceEach_of_ids {s t : State} (h : t.weir.ops.map (fun x => x.id) = s.weir.ops.map (fun x => x.id)) (hs : OnceEach s) :
    OnceEach t := by
  rw [OnceEach, h]
  exact hs

theorem opOf?_abandonOps {s : State} (hs : OnceEach s) (c : Nat) {f : OpPhase → Bool} {o : Op} (ho : o ∈ s.weir.ops) :
    opOf? (abandonOps (takeBackPlaced s c) c f) o.id = some (coreAbandons c f o) := by
  have hback := makesOf_takeBack.opOf?_opIds hs (fun o => decide (o.core = some c) && o.phase == .placed) ho
  have hids := makesOf_takeBack.ids_forOps (opIds s (fun o => decide (o.core = some c) && o.phase == .placed)) s
  change opOf? (takeBackPlaced s c) o.id = _ at hback
  change (takeBackPlaced s c).weir.ops.map _ = _ at hids
  rw [coreAbandons]
  by_cases hplaced : o.core = some c ∧ o.phase = .placed
  · rw [if_pos (by rw [hplaced.1, hplaced.2]; simp)] at hback
    have hend := (makesOf_endOp stABANDONED).opOf?_opIds (onceEach_of_ids hids hs) (fun o => decide (o.core = some c) && f o.phase)
      (List.mem_of_find?_eq_some hback)
    rw [if_pos hplaced]
    exact hend
  · rw [if_neg (by rw [Bool.and_eq_true, decide_eq_true_eq, beq_iff_eq]; exact hplaced)] at hback
    have hend := (makesOf_endOp stABANDONED).opOf?_opIds (onceEach_of_ids hids hs) (fun o => decide (o.core = some c) && f o.phase)
      (List.mem_of_find?_eq_some hback)
    rw [if_neg hplaced]
    refine hend.trans (congrArg some ?_)
    by_cases hends : o.core = some c ∧ f o.phase = true
    · rw [if_pos hends, if_pos (by rw [Bool.and_eq_true, decide_eq_true_eq]; exact hends)]
    · rw [if_neg hends, if_neg (by rw [Bool.and_eq_true, decide_eq_true_eq]; exact hends)]

/-- What O54 says of the operations of a core that is reset. -/
structure CoreCleared (c : Nat) (s t : State) : Prop where
  parked : ∀ o ∈ s.weir.ops, o.core = some c → o.phase = .parked → EndedWith t o.id stABANDONED
  placed : ∀ o ∈ s.weir.ops, o.core = some c → o.phase = .placed → ∃ y, opOf? t o.id = some y ∧ y.phase = .issued ∧ y.core = none
  others : ∀ o ∈ s.weir.ops, o.core ≠ some c → opOf? t o.id = some o

section
variable {s t : State} (hs : OnceEach s) {c : Nat} {f : OpPhase → Bool} (ht : t.weir = (abandonOps (takeBackPlaced s c) c f).weir)
include hs ht

theorem opOf?_of_abandonOps {o : Op} (ho : o ∈ s.weir.ops) : opOf? t o.id = some (coreAbandons c f o) := by
  rw [opOf?, ht]
  exact opOf?_abandonOps hs c ho

theorem endedWith_of_abandonOps (hf : f .placed = false) {o : Op} (ho : o ∈ s.weir.ops) (hc : o.core = some c) (hphase : f o.phase = true) :
    EndedWith t o.id stABANDONED := by
  refine ⟨_, opOf?_of_abandonOps hs ht ho, ?_⟩
  have hno : o.phase ≠ .placed := fun hpl => by
    rw [hpl, hf] at hphase
    cases hphase
  rw [coreAbandons, if_neg fun h => hno h.2, if_pos ⟨hc, hphase⟩]
  exact ⟨rfl, rfl⟩

theorem coreCleared_of_abandonOps (hf : f .placed = false) (hparked : f .parked = true) : CoreCleared c s t where
  parked o ho hc hphase := endedWith_of_abandonOps hs ht hf ho hc (by rw [hphase, hparked])
  placed o ho hc hphase := ⟨_, opOf?_of_abandonOps hs ht ho, by rw [coreAbandons, if_pos ⟨hc, hphase⟩]; exact ⟨rfl, rfl⟩⟩
  others o ho hc := by
    rw [opOf?_of_abandonOps hs ht ho, coreAbandons, if_neg fun h => hc h.1, if_neg fun h => hc h.1]

end

theorem mgmt_endOp (s : State) (o : Op) (st : Nat) : (endOp s o st).mgmt = s.mgmt := by
  have hbroken : (breakGroup (released s o st) o st).mgmt = (released s o st).mgmt := by
    unfold breakGroup breakOf
    split
    · split <;> rfl
    · rfl
  rw [endOp_eq]
  exact hbroken.trans (by rw [(calms_released s o st).rest])

theorem mgmt_takeBack (s : State) (o : Op) : (takeBack s o).mgmt = s.mgmt := by
  rw [takeBack_eq, setOp]
  split
  · rw [(calms_freeCore _ _ _).rest]
  · rfl

theorem mgmt_abandonOps (s : State) (c : Nat) (f : OpPhase → Bool) : (abandonOps (takeBackPlaced s c) c f).mgmt = s.mgmt := by
  have hback : (takeBackPlaced s c).mgmt = s.mgmt :=
    forOps_keeps (P := fun t => t.mgmt = s.mgmt) (fun t o ht _ _ => (mgmt_takeBack t o).trans ht) rfl
  exact forOps_keeps (P := fun t => t.mgmt = s.mgmt) (fun t o ht _ _ => (mgmt_endOp t o _).trans ht) hback

theorem knowsCores_abandonOps (s : State) (c : Nat) (f : OpPhase → Bool) : KnowsCores s (abandonOps (takeBackPlaced s c) c f) := by
  have hback : KnowsCores s (takeBackPlaced s c) :=
    forOps_keeps (P := KnowsCores s) (fun t o ht _ _ => ht.trans (knowsCores_takeBack t o)) (.refl s)
  exact forOps_keeps (P := KnowsCores s) (fun t o ht _ _ => ht.trans (knowsCores_endOp t o _)) hback

/-- The operations of a core but the one that executes there leave the core itself alone, its save slots aside. -/
theorem butSlots_abandonOps {s : State} (hs : OnceEach s) {c : Nat} {v : Op} (hexec : (coreOf s c).exec = some v.id) (hv : v ∈ s.weir.ops)
    {f : OpPhase → Bool} (hphase : f v.phase = false ∧ v.phase ≠ .placed) (hload : ∀ u, (coreOf s c).load ≠ some (.preempt u)) :
    ButSlots (coreOf s c) (coreOf (abandonOps (takeBackPlaced s c) c f) c) := by
  have hstrange : ∀ y, ButSlots (coreOf s c) y → ∀ i, i ≠ v.id → Strange y i := fun y hy i hi => by
    rw [ButSlots] at hy
    rw [hy]
    exact ⟨by rw [hexec]; exact fun he => hi (Option.some.inj he).symm, hload i⟩
  have hout : ∀ (t : State), OnceEach t → opOf? t v.id = some v → ∀ g : Op → Bool, g v = false → v.id ∉ opIds t g :=
    fun t ht hfound g hg hmem => by
      rw [(mem_opIds_iff ht (List.mem_of_find?_eq_some hfound)).mp hmem] at hg
      cases hg
  have hfound := opOf?_of_mem hs hv
  have hnotback : (decide (v.core = some c) && v.phase == .placed) = false := by
    rw [beq_eq_false_iff_ne.mpr hphase.2, Bool.and_false]
  have hids := makesOf_takeBack.ids_forOps (opIds s (fun o => decide (o.core = some c) && o.phase == .placed)) s
  have hfound' := makesOf_takeBack.opOf?_opIds hs (fun o => decide (o.core = some c) && o.phase == .placed) hv
  rw [if_neg (by rw [hnotback]; decide)] at hfound'
  have hback : ButSlots (coreOf s c) (coreOf (takeBackPlaced s c) c) := by
    refine forOps_keeps (P := fun t => ButSlots (coreOf s c) (coreOf t c)) (fun t o ht ho _ => ?_) rfl
    have hne : o.id ≠ v.id := fun heq => hout s hs hfound _ hnotback (by rw [← heq]; exact ho)
    rw [coreOf_takeBack_of_strange (hstrange _ ht _ hne)]
    exact ht
  refine forOps_keeps (P := fun t => ButSlots (coreOf s c) (coreOf t c)) (fun t o ht ho _ => ?_) hback
  have hno : (decide (v.core = some c) && f v.phase) = false := by rw [hphase.1, Bool.and_false]
  have hne : o.id ≠ v.id := fun heq => hout _ (onceEach_of_ids hids hs) hfound' _ hno (by rw [← heq]; exact ho)
  have hended := butSlots_endOp (hstrange _ ht _ hne) stABANDONED
  rw [ButSlots] at ht hended ⊢
  rw [hended, ht]

/-- The state with the reset of core `c` pending, unless its operation is to be discarded anyway. -/
def pendedReset (s : State) (c : Nat) : State := if (coreOf s c).load = some .partReset then s else pendLoad s .coreReset c

theorem pendedReset_rest (s : State) (c : Nat) : pendedReset s c = { s with cores := (pendedReset s c).cores } := by
  rw [pendedReset]
  split <;> rfl

theorem coreOf_pendedReset {s : State} {c : Nat} (hw : inWave s c = true) :
    (coreOf (pendedReset s c) c).exec = (coreOf s c).exec ∧ (coreOf (pendedReset s c) c).wave = true ∧
      (∀ u, (coreOf (pendedReset s c) c).load ≠ some (.preempt u)) ∧
      ((coreOf s c).load = some .partReset → (coreOf (pendedReset s c) c).load = some .partReset) ∧
      ((coreOf s c).load ≠ some .partReset → (coreOf (pendedReset s c) c).load = some .coreReset ∧
        (coreOf (pendedReset s c) c).stall = some ((coreOf s c).stall.getD (rd s oARRAY_STALL_LIMIT_US 0))) := by
  rw [pendedReset]
  by_cases hload : (coreOf s c).load = some .partReset
  · rw [if_pos hload, hload]
    exact ⟨rfl, (Bool.and_eq_true _ _ ▸ hw).1, nofun, id, fun hno => absurd rfl hno⟩
  · rw [if_neg hload, pendLoad, coreOf_setCore_self]
    refine ⟨rfl, hw, nofun, fun hyes => absurd hyes hload, fun _ => ⟨rfl, ?_⟩⟩
    dsimp only
    cases (coreOf s c).stall with
    | some l => rfl
    | none => rw [hw]; rfl

/-- A core reset under a wavefront: it is pending, and only what does not execute leaves. -/
theorem coreReset_wave {s : State} {c : Nat} (hexec : (coreOf s c).exec.isSome = true) (hw : inWave s c = true) :
    coreReset s c = abandonOps (takeBackPlaced (pendedReset s c) c) c (fun f => f == .parked) :=
  if_pos (by rw [hexec, hw]; rfl)

section
variable {s : State} {req : Req} {x : Session} (h : Authentic s req x) {c : Nat} (hc : c < 128) (hrole : 3 ≤ x.role)
include hc hrole

theorem writeObject_coreReset : writeObject (takenState s x req) (takenSession x req) oCORE_RESET (c + 1) (numBytes 1 1) req x.src =
    cmdCoreReset (takenState s x req) c 1 := by
  have hruns := command_CORE_RESET.runs_maintainer (s := s) (req := req) (v := 1) (sub := c + 1)
    (presentObj_of_rows _ rfl command_CORE_RESET.rows ⟨by simp [rowCORE_RESET], by simp [rowCORE_RESET]; omega⟩) (by decide) hrole
    (writeMode_of_regrowth _ _ ⟨by decide, by decide⟩) x.src
  exact hruns.trans (runCommand_coreReset _ _ _ _ _ _ _ (command_CORE_RESET.typed_numBytes (by decide)))

theorem writeObject_coreRetire : writeObject (takenState s x req) (takenSession x req) oCORE_RETIRE (c + 1) (numBytes 1 1) req x.src =
    cmdCoreRetire (takenState s x req) c 1 req x.src := by
  have hruns := command_CORE_RETIRE.runs_maintainer (s := s) (req := req) (v := 1) (sub := c + 1)
    (presentObj_of_rows _ rfl command_CORE_RETIRE.rows ⟨by simp [rowCORE_RETIRE], by simp [rowCORE_RETIRE]; omega⟩) (by decide) hrole
    (writeMode_of_regrowth _ _ ⟨by decide, by decide⟩) x.src
  exact hruns.trans (runCommand_coreRetire _ _ _ _ _ _ _ (command_CORE_RETIRE.typed_numBytes (by decide)))

include h

/-- CORE_RESET of a core in service: the reset, then the reply. -/
theorem exec_coreReset_powered (hpower : s.power.compute = true) {u : State} (hu : coreReset (takenState s x req) c = u)
    (hmgmt : u.mgmt = (takenState s x req).mgmt) : ∃ t, exec (.coreReset req c 1) s = .next t ∧ SaysDone t req x.key oCORE_RESET (c + 1) 0 ∧
      t = { u with mgmt := { u.mgmt with sessions := t.mgmt.sessions, boxes := t.mgmt.boxes }, fns := t.fns, out := t.out } := by
  refine exec_done h rfl ((writeObject_coreReset hc hrole).trans ?_) (still_takenState h (by rw [hmgmt]))
  rw [cmdCoreReset, if_neg (by decide), if_pos (show (takenState s x req).power.compute = true from hpower), hu]

theorem exec_coreReset_idle (hok : opsOk s.weir = true) (hpower : s.power.compute = true)
    (hidle : ¬((coreOf s c).exec.isSome = true ∧ inWave s c = true)) : ∃ t, exec (.coreReset req c 1) s = .next t ∧
      (CoreCleared c s t ∧ SaysDone t req x.key oCORE_RESET (c + 1) 0) ∧
      (∀ o ∈ s.weir.ops, o.core = some c → o.phase = .dispatched → EndedWith t o.id stABANDONED) ∧
      coreOf t c = clearedCore (coreOf s c) ∧ ∀ a, a < 0x600000 → readByte t (coreBase c + a) = 0 := by
  have hs : OnceEach (takenState s x req) := nodup_ids_of_opsOk hok
  have hcalms := calms_clearCore (abandonCore (takenState s x req) c) c
  have hcond : ¬((coreOf (takenState s x req) c).exec.isSome && inWave (takenState s x req) c) = true := by
    rw [Bool.and_eq_true]
    exact hidle
  have hknows := (knowsCores_abandonOps (takenState s x req) c (fun f => f == .dispatched || f == .parked)) c
  have hmgmt : (clearCore (abandonCore (takenState s x req) c) c).mgmt = (takenState s x req).mgmt := by
    rw [hcalms.rest]
    exact mgmt_abandonOps _ _ _
  obtain ⟨t, ht, hsays, hrest⟩ := exec_coreReset_powered h hc hrole hpower (if_neg hcond) hmgmt
  have hweir : t.weir = (abandonOps (takeBackPlaced (takenState s x req) c) c (fun f => f == .dispatched || f == .parked)).weir := by
    rw [hrest]
    exact hcalms.weir
  have hcleared := coreCleared_of_abandonOps hs hweir rfl rfl
  refine ⟨t, ht, ⟨⟨hcleared.parked, hcleared.placed, hcleared.others⟩, hsays⟩, fun o ho hcore hphase =>
    endedWith_of_abandonOps hs hweir rfl ho hcore (by rw [hphase]; rfl), ?_, fun a ha => ?_⟩
  · have hcores : t.cores = (clearCore (abandonCore (takenState s x req) c) c).cores := by rw [hrest]
    rw [coreOf, hcores]
    exact (coreOf_clearCore _ c).trans hknows
  · have hzero : readByte (clearCore (abandonCore (takenState s x req) c) c) (coreBase c + a) = 0 :=
      readByte_zeroStore_self _ hc ⟨Nat.le_add_right _ _, Nat.add_lt_add_left ha _⟩
    rw [hrest]
    exact hzero

theorem exec_coreReset_wave (hok : opsOk s.weir = true) (hpower : s.power.compute = true) {v : Op} (hv : executingOn s c = some v)
    (hphase : v.phase = .dispatched) (hw : inWave s c = true) : ∃ t, exec (.coreReset req c 1) s = .next t ∧
      (CoreCleared c s t ∧ SaysDone t req x.key oCORE_RESET (c + 1) 0) ∧ opOf? t v.id = some v ∧ (coreOf t c).wave = true ∧
      ((coreOf s c).load = some .partReset → (coreOf t c).load = some .partReset) ∧
      ((coreOf s c).load ≠ some .partReset → (coreOf t c).load = some .coreReset ∧
        (coreOf t c).stall = some ((coreOf s c).stall.getD (rd s oARRAY_STALL_LIMIT_US 0))) := by
  have hexec := exec_of_executingOn hv
  have hmem : v ∈ s.weir.ops := List.mem_of_find?_eq_some (opOf?_of_executingOn hv)
  obtain ⟨hyexec, hywave, hynot, hyload⟩ := coreOf_pendedReset (s := takenState s x req) hw
  have hreset := coreReset_wave (s := takenState s x req) (c := c)
      (by rw [show (coreOf (takenState s x req) c).exec = some v.id from hexec]; rfl) hw
  have hpended := pendedReset_rest (takenState s x req) c
  generalize pendedReset (takenState s x req) c = u at hyexec hywave hynot hyload hreset hpended
  have hops : u.weir = s.weir := by rw [hpended]; rfl
  have hmgmt : u.mgmt = (takenState s x req).mgmt := by rw [hpended]
  have hs : OnceEach u := by
    rw [OnceEach, hops]
    exact nodup_ids_of_opsOk hok
  have hmem' : v ∈ u.weir.ops := by rw [hops]; exact hmem
  have hno : v.phase ≠ .placed ∧ v.phase ≠ .parked := by rw [hphase]; exact ⟨nofun, nofun⟩
  have hslots := butSlots_abandonOps hs (hyexec.trans hexec) hmem' (f := fun f => f == .parked) ⟨beq_eq_false_iff_ne.mpr hno.2, hno.1⟩ hynot
  obtain ⟨t, ht, hsays, hrest⟩ := exec_coreReset_powered h hc hrole hpower hreset ((mgmt_abandonOps u c _).trans hmgmt)
  have htweir : t.weir = (abandonOps (takeBackPlaced u c) c (fun f => f == .parked)).weir := by rw [hrest]
  have htcores : coreOf t c = coreOf (abandonOps (takeBackPlaced u c) c (fun f => f == .parked)) c := by rw [coreOf, coreOf, hrest]
  obtain ⟨hparked, hplaced, hothers⟩ := coreCleared_of_abandonOps hs htweir rfl rfl
  rw [hops] at hparked hplaced hothers
  have hstays : opOf? t v.id = some v := by
    rw [opOf?_of_abandonOps hs htweir hmem', coreAbandons, if_neg fun hand => hno.1 hand.2, if_neg fun hand => hno.2 (beq_iff_eq.mp hand.2)]
  have hcore := htcores.trans hslots
  refine ⟨t, ht, ⟨⟨hparked, hplaced, hothers⟩, hsays⟩, hstays, ?_⟩
  rw [hcore]
  exact ⟨hywave, hyload⟩

end

/-! ### CORE_RETIRE -/

/-- A core to be retired: nothing is placed on it any more. -/
theorem planRetire_spec {s : State} (hs : OnceEach s) (c : Nat) : (coreOf (planRetire s c) c).retiring = true ∧
    (∀ o ∈ (planRetire s c).weir.ops, o.core = some c → o.phase ≠ .placed) := by
  refine ⟨?_, fun o ho hcore hphase => ?_⟩
  · have hknows : KnowsCores (setCore s c { coreOf s c with retiring := true }) (planRetire s c) :=
      forOps_keeps (P := KnowsCores (setCore s c { coreOf s c with retiring := true }))
        (fun t o ht _ _ => ht.trans (knowsCores_takeBack t o)) (.refl _)
    have hkeep := congrArg Core.retiring (hknows c)
    rw [coreOf_setCore_self] at hkeep
    exact hkeep
  · have hback := fun {y : Op} (hy : y ∈ s.weir.ops) => makesOf_takeBack.opOf?_opIds
      (s := setCore s c { coreOf s c with retiring := true }) hs (fun o => decide (o.core = some c) && o.phase == .placed) (o := y) hy
    have hids := makesOf_takeBack.ids_forOps (opIds (setCore s c { coreOf s c with retiring := true })
      (fun o => decide (o.core = some c) && o.phase == .placed)) (setCore s c { coreOf s c with retiring := true })
    change (planRetire s c).weir.ops.map _ = s.weir.ops.map _ at hids
    obtain ⟨y, hy, hyo⟩ := List.mem_map.mp (hids ▸ List.mem_map_of_mem (f := fun x : Op => x.id) ho)
    have hfound := opOf?_of_mem (onceEach_of_ids hids hs) ho
    have hmade : opOf? (planRetire s c) y.id = _ := hback hy
    rw [hyo, hfound] at hmade
    have heq := Option.some.inj hmade
    by_cases hcond : (decide (y.core = some c) && y.phase == .placed) = true
    · rw [if_pos hcond] at heq
      rw [heq] at hcore
      cases hcore
    · rw [if_neg hcond] at heq
      rw [← heq, hcore, hphase] at hcond
      exact hcond (by simp)

section
variable {s : State} {req : Req} {x : Session} (h : Authentic s req x) (hrole : 3 ≤ x.role)
include h hrole

theorem exec_coreRetire_begins {c : Nat} (hc : c < 128) (hok : opsOk s.weir = true) (hin : coreRetired s c = false)
    (hmap : (coreOf s c).mapping = false) (hret : (coreOf s c).retiring = false) : ∃ t, exec (.coreRetire req c 1) s = .next t ∧
      (coreOf t c).retiring = true ∧ (∀ o ∈ t.weir.ops, o.core = some c → o.phase ≠ .placed) ∧
      (Delayed.coreRetire c, req, x.src) ∈ t.mgmt.waiting := by
  have hbusy : ((coreOf (takenState s x req) c).mapping || (coreOf (takenState s x req) c).retiring) = false := by
    rw [show (coreOf (takenState s x req) c).mapping = false from hmap, show (coreOf (takenState s x req) c).retiring = false from hret]
    rfl
  have hwrite := (writeObject_coreRetire (s := s) (req := req) hc hrole).trans
    ((if_neg (by rw [show coreRetired (takenState s x req) c = false from hin]; decide)).trans (if_neg (by rw [hbusy]; decide)))
  have hspec := planRetire_spec (s := takenState s x req) (nodup_ids_of_opsOk hok) c
  generalize planRetire (takenState s x req) c = u at hwrite hspec
  obtain ⟨l, hl⟩ := exec_later (c := .coreRetire req c 1) h rfl hwrite
  exact ⟨_, hl, hspec.1, hspec.2, List.mem_append_right _ List.mem_cons_self⟩

end

/-! ### A port trained afresh -/

/-- A port whose training starts afresh. -/
def trainedAfresh (x : Port) : Port := { swapped := x.swapped, swappedRx := x.swappedRx, fifo := dropBegun x.fifo, before := 1 }

theorem linkReset_eq (u : State) (n : Nat) :
    linkReset u n = setPortCode (setPort u n (trainedAfresh (portOf u n))) n (if portCode u n = 4 then 4 else 1) := rfl

theorem linkReset_spec (u : State) {n : Nat} (hn : n < 16) : portCode (linkReset u n) n = (if portCode u n = 4 then 4 else 1) ∧
    portOf (linkReset u n) n = trainedAfresh (portOf u n) ∧ (linkReset u n).weir = u.weir ∧ (linkReset u n).mem = u.mem ∧
    (linkReset u n).mgmt.sessions.map Session.still = u.mgmt.sessions.map Session.still := by
  have hself := portOf_setPort_self u n (trainedAfresh (portOf u n))
  have hcode := portCode_setPortCode_self (setPort u n (trainedAfresh (portOf u n))) n (if portCode u n = 4 then 4 else 1) hn
  have htold := told_setPortCode (setPort u n (trainedAfresh (portOf u n))) n (if portCode u n = 4 then 4 else 1)
  rw [← linkReset_eq] at hcode htold
  have hrest := htold.rest
  generalize linkReset u n = t at hcode htold hrest ⊢
  refine ⟨hcode.trans (by split <;> rfl), ?_, by rw [hrest]; rfl, by rw [hrest]; rfl, htold.sessions⟩
  rw [portOf, hrest]
  exact hself

/-! ### PC_RETIRE -/

theorem hasJob_startJob (s : State) (j : RegrJob) : hasJob (startJob s j) j = true := by
  rw [startJob]
  split
  · simp [hasJob]
  · simp [hasJob]

theorem startJob_rest (s : State) (j : RegrJob) : startJob s j = { s with regr := (startJob s j).regr } := by
  rw [startJob]
  split <;> rfl

theorem lt_of_retiresChannels {s : State} {k : Nat} (h : retiresChannels s k = true) : k < 8 := by
  rw [retiresChannels, stackFitted, Bool.and_eq_true, Bool.and_eq_true] at h
  exact of_decide_eq_true h.1.2

section
variable {s : State} {req : Req} {x : Session} (h : Authentic s req x) (hrole : 3 ≤ x.role)
include hrole

theorem writeObject_pcRetire {k v : Nat} (hk : k < 8) (hv : v < 32) :
    writeObject (takenState s x req) (takenSession x req) oPC_RETIRE (k + 1) (numBytes 1 v) req x.src =
      cmdPcRetire (takenState s x req) k v req x.src := by
  have hfit : v < 256 ^ rowPC_RETIRE.size := Nat.lt_of_lt_of_le hv (by decide)
  have hruns := command_PC_RETIRE.runs_maintainer (s := s) (req := req) (v := v) (sub := k + 1)
    (presentObj_of_rows _ rfl command_PC_RETIRE.rows ⟨by simp [rowPC_RETIRE], by simp [rowPC_RETIRE]; omega⟩) (by decide) hrole
    (writeMode_of_regrowth _ _ ⟨by decide, by decide⟩) x.src
  refine hruns.trans ((runCommand_pcRetire _ _ _ _ _ _ _ (command_PC_RETIRE.typed_numBytes hfit)).trans ?_)
  rw [(numBytes_fit (n := rowPC_RETIRE.size) hfit).1]
  rfl

include h

theorem exec_pcRetire_begins {k v : Nat} (hv : v < 32) (hin : s.nv.repair.contains (.channelRetired k (channelIn s.nv.repair k v)) = false)
    (hret : retiresChannels s k = true) (htop : topOwned s k = false) (hlay : relaying s k = false) :
    ∃ t, exec (.pcRetire req k v) s = .next t ∧ hasJob t (.relay k (channelIn s.nv.repair k v)) = true ∧
      (Delayed.pcRetire k, req, x.src) ∈ t.mgmt.waiting ∧ t.nv.repair = s.nv.repair := by
  have hfree : ¬(32 ≤ v ∨ (takenState s x req).nv.repair.contains (.channelRetired k (channelIn (takenState s x req).nv.repair k v)) = true ∨
      (!(retiresChannels (takenState s x req) k)) = true) := by
    rw [show (takenState s x req).nv.repair = s.nv.repair from rfl, hin, show retiresChannels (takenState s x req) k = true from hret]
    rintro (hbig | hyes | hno)
    · omega
    · cases hyes
    · cases hno
  have hidle : ¬(topOwned (takenState s x req) k || relaying (takenState s x req) k) = true := by
    rw [show topOwned (takenState s x req) k = false from htop, show relaying (takenState s x req) k = false from hlay]
    decide
  have hwrite := (writeObject_pcRetire (s := s) (req := req) hrole (lt_of_retiresChannels hret) hv).trans
      ((if_neg hfree).trans (if_neg hidle))
  have hjob := hasJob_startJob (takenState s x req) (.relay k (channelIn s.nv.repair k v))
  have hrest := startJob_rest (takenState s x req) (.relay k (channelIn s.nv.repair k v))
  rw [show (takenState s x req).nv.repair = s.nv.repair from rfl] at hwrite
  generalize startJob (takenState s x req) (.relay k (channelIn s.nv.repair k v)) = u at hwrite hjob hrest
  obtain ⟨l, hl⟩ := exec_later (c := .pcRetire req k v) h rfl hwrite
  refine ⟨_, hl, hjob, List.mem_append_right _ List.mem_cons_self, ?_⟩
  exact congrArg (fun t => t.nv.repair) hrest

/-! ### LINK_RESET -/

omit h in
theorem writeObject_linkReset {n : Nat} (htrains : trainsPort s n = true) :
    writeObject (takenState s x req) (takenSession x req) oLINK_RESET (n + 1) (numBytes 1 1) req x.src =
      { st := linkReset (takenState s x req) n, out := .done 0 } := by
  have hn : n < portCount s := by
    rw [trainsPort, Bool.and_eq_true, Bool.and_eq_true, Bool.and_eq_true] at htrains
    exact of_decide_eq_true htrains.1.1.1
  have hcount : portCount s = 16 ∧ twoX s = true ∨ portCount s = 8 := by
    rw [portCount]
    split
    · next htwo => exact .inl ⟨rfl, htwo⟩
    · exact .inr rfl
  have habsent : absentObj (takenState s x req) oLINK_RESET (n + 1) = false := by
    obtain ⟨-, htwo⟩ | hone := hcount
    · rw [absentObj, show twoX (takenState s x req) = true from htwo]
      rfl
    · rw [absentObj, decide_eq_false (by omega), Bool.and_false]
  have hpresent : presentObj (takenState s x req) oLINK_RESET (n + 1) = some rowLINK_RESET := by
    rw [presentObj, habsent]
    exact objRow?_of_rows command_LINK_RESET.rows ⟨by simp [rowLINK_RESET], by simp [rowLINK_RESET]; omega⟩
  have hruns := command_LINK_RESET.runs_maintainer (s := s) (req := req) (v := 1) (sub := n + 1) hpresent (by decide) hrole
    (writeMode_of_regrowth _ _ ⟨by decide, by decide⟩) x.src
  refine (hruns.trans (runCommand_linkReset _ _ _ _ _ _ _ (command_LINK_RESET.typed_numBytes (by decide)))).trans ?_
  exact (if_neg (by decide)).trans (by rw [show n + 1 - 1 = n from rfl, if_pos (show trainsPort (takenState s x req) n = true from htrains)])

theorem exec_linkReset_trains {n : Nat} (htrains : trainsPort s n = true) : ∃ t, exec (.linkReset req n 1) s = .next t ∧
    portCode t n = (if portCode s n = 4 then 4 else 1) ∧
    portOf t n = trainedAfresh (portOf s n) ∧
    t.weir = s.weir ∧ t.mem = s.mem ∧ SaysDone t req x.key oLINK_RESET (n + 1) 0 := by
  have hn : n < 16 := by
    rw [trainsPort, Bool.and_eq_true, Bool.and_eq_true, Bool.and_eq_true] at htrains
    have hcount := of_decide_eq_true htrains.1.1.1
    rw [portCount] at hcount
    split at hcount <;> omega
  have hwrite := writeObject_linkReset (s := s) (req := req) hrole htrains
  obtain ⟨hcode, hport, hweir, hmem, hstill⟩ := linkReset_spec (takenState s x req) hn
  generalize linkReset (takenState s x req) n = u at hwrite hcode hport hweir hmem hstill
  obtain ⟨t, ht, hsays, hrest⟩ := exec_done (c := .linkReset req n 1) h rfl hwrite (still_takenState h hstill)
  refine ⟨t, ht, ?_, ?_, ?_, ?_, hsays⟩
  · rw [hrest]
    exact hcode
  · rw [hrest]
    exact hport
  · rw [hrest]
    exact hweir
  · rw [hrest]
    exact hmem

end

/-! ### PART_RESET_COMPLETE -/

theorem fabricOnly_ctxShut (s : State) (x : Nat) : FabricOnly s (ctxShut s x) := by
  have hsent : FabricOnly s (sendPair s x mtCLOSE) := fabricOnly_of_ports (sendMsg_spec _ _ _).2
  exact hsent.trans rfl

theorem fabricOnly_ctxShuts (l : List Nat) (s : State) : FabricOnly s (l.foldl ctxShut s) := by
  induction l generalizing s with
  | nil => rfl
  | cons x l ih => exact (fabricOnly_ctxShut s x).trans (ih _)

/-- Operations of partition `p` have been discarded and counted. -/
structure Discards (p : Nat) (l : List Nat) (s t : State) : Prop where
  stopped : Stopped p s t
  ops : t.weir.ops = s.weir.ops.filter (fun o => decide (o.id ∉ l))
  part : partOf t p = { partOf s p with discarded := (partOf s p).discarded + l.length }
  knows : KnowsCores s t

theorem knowsCores_letGo (s : State) (o : Op) : KnowsCores s (letGo s o) := by
  change KnowsCores s (if !(o.phase == .waiting || o.phase == .issued || o.phase == .placed || o.phase == .ended)
    then freeRegions (coreFreed s o) o.part (o.outs.filter (fun r => space r.1 == 0)) else coreFreed s o)
  split
  · exact (knowsCores_coreFreed s o).trans (knowsCores_of_cores (cores_memOnly (memOnly_freeRegions _ _ _)))
  · exact knowsCores_coreFreed s o

theorem discards_discardOp {s : State} (hs : OnceEach s) {o : Op} (ho : o ∈ s.weir.ops) : Discards o.part [o.id] s (discardOp s o) where
  stopped := stopped_discardOp hs ho
  ops := by
    rw [ops_discardOp]
    exact List.filter_congr fun x _ => by rw [Bool.eq_iff_iff]; simp
  part := by
    have hparts : (letGo s o).parts = s.parts := by rw [(calms_letGo s o).rest]
    have hsame : partOf (removeOp (letGo s o) o) o.part = partOf s o.part := congrArg (fun t => tabGet (α := PartRec) {} t o.part) hparts
    rw [discardOp_eq, partOf_setPart_self, hsame]
    rfl
  knows := fun k => knowsCores_letGo s o k

theorem discards_forOps {p : Nat} {l : List Nat} (hl : l.Nodup) {s : State} (hs : OnceEach s)
    (hin : ∀ i ∈ l, ∃ o ∈ s.weir.ops, o.id = i ∧ o.part = p) : Discards p l s (forOps l discardOp s) := by
  induction l generalizing s with
  | nil =>
    refine ⟨.refl p s, ?_, rfl, .refl s⟩
    rw [List.filter_eq_self.mpr fun _ _ => by simp]
    rfl
  | cons i l ih =>
    obtain ⟨hi, hnodup⟩ := List.nodup_cons.mp hl
    obtain ⟨o, ho, hid, hpart⟩ := hin i List.mem_cons_self
    subst hid hpart
    have hone := discards_discardOp hs ho
    have hrest := ih hnodup (s := discardOp s o) (hs.stopped hone.stopped) fun j hj => by
      obtain ⟨y, hy, hyid, hypart⟩ := hin j (List.mem_cons_of_mem _ hj)
      refine ⟨y, ?_, hyid, hypart⟩
      rw [hone.ops, List.mem_filter]
      refine ⟨hy, decide_eq_true ?_⟩
      rw [List.mem_singleton, hyid]
      rintro rfl
      exact hi hj
    rw [forOps_cons, opOf?_of_mem hs ho]
    refine ⟨hone.stopped.trans hrest.stopped, ?_, ?_, hone.knows.trans hrest.knows⟩
    · rw [hrest.ops, hone.ops, List.filter_filter]
      refine List.filter_congr fun y _ => ?_
      rw [← Bool.decide_and, decide_eq_decide, List.mem_singleton, List.mem_cons]
      tauto
    · rw [hrest.part, hone.part]
      exact congrArg (fun n => { partOf s o.part with discarded := n }) (Nat.add_right_comm _ 1 l.length)

/-! Cores cleared. -/

theorem readByte_clearCore_zero {s : State} {c a : Nat} (hspace : space a ≠ 0) (h : readByte s a = 0) : readByte (clearCore s c) a = 0 :=
  (restores_zeroStore (setCore s c (clearedCore (coreOf s c))) c).zero a hspace h

/-- Of the state cores and memory alone change; the cores listed are cleared and their stores read zero. -/
structure CoresCleared (l : List Nat) (s t : State) : Prop where
  rest : t = { s with cores := t.cores, mem := t.mem }
  cores : ∀ c ∈ l, coreOf t c = clearedCore (coreOf s c)
  zero : ∀ a, space a ≠ 0 → (readByte s a = 0 ∨ ∃ c ∈ l, coreBase c ≤ a ∧ a < coreBase c + 0x600000) → readByte t a = 0

theorem coresCleared_foldl {l : List Nat} (hl : ∀ c ∈ l, c < 128) (s : State) : CoresCleared l s (l.foldl clearCore s) := by
  induction l generalizing s with
  | nil =>
    refine ⟨rfl, fun _ hc => (nomatch hc), fun a _ h => ?_⟩
    obtain h | ⟨_, hc, -⟩ := h
    · exact h
    · cases hc
  | cons d l ih =>
    obtain ⟨hrest, hcores, hzero⟩ := ih (fun c hc => hl c (List.mem_cons_of_mem _ hc)) (clearCore s d)
    have hknows : ∀ m : List Nat, ∀ u : State, KnowsCores u (m.foldl clearCore u) := fun m => by
      induction m with
      | nil => exact fun u => .refl u
      | cons e m ihm => exact fun u => (knowsCores_clearCore u e).trans (ihm _)
    rw [List.foldl_cons]
    refine ⟨?_, fun c hc => ?_, fun a hspace h => ?_⟩
    · have hone := (calms_clearCore s d).rest
      generalize l.foldl clearCore (clearCore s d) = t at hrest ⊢
      rw [hrest, hone]
    · by_cases hin : c ∈ l
      · rw [hcores c hin]
        exact knowsCores_clearCore s d c
      · obtain rfl : c = d := (List.mem_cons.mp hc).resolve_right hin
        have hkeep : ∀ m : List Nat, c ∉ m → ∀ u : State, coreOf (m.foldl clearCore u) c = coreOf u c := fun m => by
          induction m with
          | nil => exact fun _ _ => rfl
          | cons e m ihm =>
            intro hm u
            rw [List.mem_cons, not_or] at hm
            exact (ihm hm.2 _).trans (coreOf_clearCore_ne u hm.1)
        rw [hkeep l hin, coreOf_clearCore]
    · refine hzero a hspace ?_
      obtain h | ⟨c, hc, ha⟩ := h
      · exact .inl (readByte_clearCore_zero hspace h)
      · obtain rfl | hin := List.mem_cons.mp hc
        · exact .inl (readByte_zeroStore_self (setCore s c (clearedCore (coreOf s c))) (hl c List.mem_cons_self) ha)
        · exact .inr ⟨c, hin, ha⟩

theorem lt_of_mem_partCores {s : State} {p c : Nat} (h : c ∈ partCores s p) : c < 128 := by
  rw [partCores, bitList] at h
  exact List.mem_range.mp (List.mem_filter.mp h).1

/-- What a partition leaves once it is cleared. -/
structure PartCleared (p : Nat) (s t : State) : Prop where
  ops : ∀ o ∈ t.weir.ops, o.part ≠ p
  part : partOf t p = { partOf s p with discarded := (partOf s p).discarded + (s.weir.ops.filter (fun o => o.part == p)).length }
  dict : t.dict = s.dict
  mgmt : t.mgmt = s.mgmt
  lost : ∀ l ∈ t.fabric.lost, l.part ≠ p
  owed : ∀ r ∈ t.outRecords, r.1.part ≠ p
  cores : ∀ c ∈ partCores s p, coreOf t c = clearedCore (coreOf s c) ∧ ∀ a, a < 0x600000 → readByte t (coreBase c + a) = 0

/-- What the device holds for a partition forgotten: records and lost writes, queues, tokens, branches. -/
def partForgotten (s : State) (p : Nat) : State :=
  let s := { s with fabric := { s.fabric with lost := s.fabric.lost.filter (fun l => l.part != p) }
                    outRecords := s.outRecords.filter (fun x => x.1.part != p) }
  let s := zeroCqs (zeroIqs s (rd s oIQ_RANGE (p + 1))) (rd s oCQ_RANGE (p + 1))
  freeSpawn (freeTokens s p) p

theorem clearPart_eq (s : State) (p : Nat) {u v : State} (hu : u = forOps (opIds s (fun o => o.part == p)) discardOp s)
    (hv : v = (ctxsOf u p).foldl ctxShut u) : clearPart s p = (partCores (partForgotten v p) p).foldl clearCore (partForgotten v p) := by
  subst hu hv
  rfl

theorem partForgotten_keeps (s : State) (p : Nat) : (partForgotten s p).weir.ops = s.weir.ops ∧ (partForgotten s p).dict = s.dict ∧
    (partForgotten s p).mgmt = s.mgmt ∧ (partForgotten s p).parts = s.parts ∧ (partForgotten s p).cores = s.cores ∧
    (partForgotten s p).fabric.lost = s.fabric.lost.filter (fun l => l.part != p) ∧
    (partForgotten s p).outRecords = s.outRecords.filter (fun x => x.1.part != p) := by
  unfold partForgotten freeSpawn freeTokens zeroCqs zeroIqs
  exact ⟨rfl, rfl, rfl, rfl, rfl, rfl, rfl⟩

theorem partCleared_clearPart {s : State} (hs : OnceEach s) (p : Nat) : PartCleared p s (clearPart s p) := by
  have hdiscards : Discards p (opIds s (fun o => o.part == p)) s (forOps (opIds s (fun o => o.part == p)) discardOp s) := by
    refine discards_forOps (nodup_opIds hs _) hs fun i hi => ?_
    obtain ⟨o, ho, hoi⟩ := List.mem_map.mp hi
    obtain ⟨hmem, hpart⟩ := List.mem_filter.mp ho
    exact ⟨o, hmem, hoi, beq_iff_eq.mp hpart⟩
  obtain ⟨u, hu⟩ : ∃ u, u = forOps (opIds s (fun o => o.part == p)) discardOp s := ⟨_, rfl⟩
  obtain ⟨v, hv⟩ : ∃ v, v = (ctxsOf u p).foldl ctxShut u := ⟨_, rfl⟩
  have hshut : FabricOnly u v := hv ▸ fabricOnly_ctxShuts _ _
  rw [clearPart_eq s p hu hv]
  rw [← hu] at hdiscards
  clear hu hv
  obtain ⟨hstopped, hops, hpart, hknows⟩ := hdiscards
  rw [opIds, List.length_map] at hpart
  rw [FabricOnly] at hshut
  obtain ⟨hfops, hfdict, hfmgmt, hfparts, hfcores, hflost, howed⟩ := partForgotten_keeps v p
  generalize partForgotten v p = w at hfops hfdict hfmgmt hfparts hfcores hflost howed ⊢
  have hwops : w.weir.ops = u.weir.ops := by rw [hfops, hshut]
  have hdict : w.dict = s.dict := by rw [hfdict, hshut, ← hstopped.dict]
  have hmgmt : w.mgmt = s.mgmt := by rw [hfmgmt, hshut, ← hstopped.mgmt]
  have hparts : w.parts = u.parts := by rw [hfparts, hshut]
  have hwcores : w.cores = u.cores := by rw [hfcores, hshut]
  have hcores : partCores w p = partCores s p := by rw [partCores, partCores, rd, rd, hdict]
  obtain ⟨hrest, hclear, hzero⟩ := coresCleared_foldl (l := partCores w p) (fun c hc => lt_of_mem_partCores hc) w
  generalize (partCores w p).foldl clearCore w = t at hrest hclear hzero ⊢
  have htops : t.weir = w.weir := by rw [hrest]
  have htparts : t.parts = w.parts := by rw [hrest]
  have htfabric : t.fabric = w.fabric := by rw [hrest]
  have htowed : t.outRecords = w.outRecords := by rw [hrest]
  refine ⟨fun o ho hop => ?_, ?_, ?_, ?_, fun l hl => ?_, fun r hr => ?_, fun c hc => ⟨?_, fun a ha => ?_⟩⟩
  · rw [htops, hwops, hops, List.mem_filter] at ho
    obtain ⟨hmem, hout⟩ := ho
    exact of_decide_eq_true hout (mem_opIds hmem (beq_iff_eq.mpr hop))
  · rw [partOf, htparts, hparts]
    exact hpart
  · rw [← hdict, hrest]
  · rw [← hmgmt, hrest]
  · rw [htfabric, hflost] at hl
    exact bne_iff_ne.mp (List.mem_filter.mp hl).2
  · rw [htowed, howed] at hr
    exact bne_iff_ne.mp (List.mem_filter.mp hr).2
  · rw [hclear c (hcores ▸ hc)]
    exact (knowsCores_of_cores hwcores c).trans (hknows c)
  · have hin : coreBase c ≤ coreBase c + a ∧ coreBase c + a < coreBase c + 0x600000 := ⟨Nat.le_add_right _ _, Nat.add_lt_add_left ha _⟩
    exact hzero _ (by rw [space_of_store (lt_of_mem_partCores hc) hin]; decide) (.inr ⟨c, hcores ▸ hc, hin⟩)

theorem finishDelayed_of_none {s : State} (h : s.mgmt.waiting = []) (d : Delayed) (result : Nat) : finishDelayed s d result = s := by
  rw [finishDelayed, h]
  change { s with mgmt := { s.mgmt with waiting := [] } } = s
  rw [← h]

/-- A partition whose reset is over: in service again, or gone. -/
def partOver (s : State) (p : Nat) : State :=
  let u := wr (clearPart s p) oPART_DISCARD (p + 1) (min max32 (partOf (clearPart s p) p).discarded)
  if (partOf (clearPart s p) p).destroying then endPart u p else startPart u p

theorem partOver_rest (s : State) (p : Nat) : partOver s p = { clearPart s p with
    dict := (partOver s p).dict, nv := (partOver s p).nv, parts := (partOver s p).parts, iqs := (partOver s p).iqs
    cqs := (partOver s p).cqs } := by
  rw [partOver]
  generalize clearPart s p = u
  dsimp only
  split <;> rfl

theorem exec_partResetComplete_over {s : State} (hs : OnceEach s) {p : Nat} (hreset : (partOf s p).resetting = true)
    (hpause : paused s p = false) (hstill : stillRuns s p = false) (hwait : s.mgmt.waiting = []) :
    exec (.partResetComplete p) s = .next (partOver s p) := by
  have hnone : (partOver s p).mgmt.waiting = [] := by
    have hmgmt : (partOver s p).mgmt = s.mgmt := by rw [partOver_rest, ← (partCleared_clearPart hs p).mgmt]
    rw [hmgmt, hwait]
  have hexec : exec (.partResetComplete p) s = .next (finishDelayed (finishDelayed (partOver s p) (.partReset p)
      (partOf (clearPart s p) p).discarded) (.destroy p) 0) := by
    refine congrArg Host.Outcome.next (if_pos ?_)
    rw [hreset, hpause, hstill]
    rfl
  rw [hexec, finishDelayed_of_none (s := partOver s p) hnone, finishDelayed_of_none hnone]

/-- What O54 says of a partition whose reset is over. -/
theorem partOver_spec {s : State} (hs : OnceEach s) {p : Nat} (hp : p < 128) (hpause : paused s p = false) :
    (∀ o ∈ (partOver s p).weir.ops, o.part ≠ p) ∧
    rd (partOver s p) oPART_DISCARD (p + 1) =
      min max32 ((partOf s p).discarded + (s.weir.ops.filter (fun o => o.part == p)).length) ∧
    ((partOf s p).destroying = false → rd (partOver s p) oPART_STATE (p + 1) = 1 ∧ (partOf (partOver s p) p).resetting = false ∧
      (partOf (partOver s p) p).level = rd s oCREDIT_BURST (p + 1) * 1000000) ∧
    ((partOf s p).destroying = true → rd (partOver s p) oPART_STATE (p + 1) = 0 ∧ (rd (partOver s p) oPART_FUNC (p + 1)).testBit 15 = false) ∧
    (∀ l ∈ (partOver s p).fabric.lost, l.part ≠ p) ∧ (∀ r ∈ (partOver s p).outRecords, r.1.part ≠ p) ∧
    (∀ c ∈ partCores s p, coreOf (partOver s p) c = { retiring := (coreOf s c).retiring, logged := (coreOf s c).logged } ∧
      ∀ a, a < 0x600000 → readByte (partOver s p) (coreBase c + a) = 0) := by
  have hrest := partOver_rest s p
  obtain ⟨hops, hpart, hdict, -, hlost, howed, hcores⟩ := partCleared_clearPart hs p
  have hover : partOver s p = if (partOf (clearPart s p) p).destroying
      then endPart (wr (clearPart s p) oPART_DISCARD (p + 1) (min max32 (partOf (clearPart s p) p).discarded)) p
      else startPart (wr (clearPart s p) oPART_DISCARD (p + 1) (min max32 (partOf (clearPart s p) p).discarded)) p := rfl
  generalize partOver s p = t at hrest hover ⊢
  generalize clearPart s p = u at hops hpart hdict hlost howed hcores hrest hover
  have hdestroying : (partOf u p).destroying = (partOf s p).destroying := by rw [hpart]
  have hdiscarded : (partOf u p).discarded = (partOf s p).discarded + (s.weir.ops.filter (fun o => o.part == p)).length := by rw [hpart]
  rw [hdestroying, hdiscarded] at hover
  have hsub : p + 1 < 256 := by omega
  have hcount := rd_wr_self u oPART_DISCARD (p + 1) (min max32 ((partOf s p).discarded + (s.weir.ops.filter (fun o => o.part == p)).length))
  have hburst : rd (wr u oPART_DISCARD (p + 1) (min max32 ((partOf s p).discarded + (s.weir.ops.filter (fun o => o.part == p)).length)))
      oCREDIT_BURST (p + 1) = rd s oCREDIT_BURST (p + 1) := by
    rw [rd_wr_ne u _ (objKey_ne (by decide) hsub hsub), rd, rd, hdict]
  generalize wr u oPART_DISCARD (p + 1) (min max32 ((partOf s p).discarded + (s.weir.ops.filter (fun o => o.part == p)).length)) = w
    at hover hcount hburst
  have hmap : ∀ c ∈ partCores s p, (coreOf s c).mapping = false := fun c hc => by
    rw [paused, List.any_eq_false] at hpause
    exact Bool.eq_false_iff.mpr (hpause c hc)
  refine ⟨?_, ?_, fun hstays => ?_, fun hgoes => ?_, ?_, ?_, fun c hc => ⟨?_, fun a ha => ?_⟩⟩
  · rw [hrest]
    exact hops
  · rw [hover]
    split
    · refine (rd_wr_ne _ _ (objKey_ne (by decide) hsub hsub)).trans ((rd_wrP_ne w _ (objKey_ne (by decide) hsub hsub)).trans hcount)
    · exact (rd_startPart_ne w (objKey_ne (by decide) hsub hsub)).trans hcount
  · rw [hover, hstays, if_neg Bool.false_ne_true, partOf_startPart_self, hburst]
    exact ⟨rd_startPart_state w p, rfl, rfl⟩
  · rw [hover, hgoes, if_pos rfl]
    refine ⟨rd_wr_self _ _ _ _, ?_⟩
    have hfunc : rd (endPart w p) oPART_FUNC (p + 1) = setBit (rd w oPART_FUNC (p + 1)) 15 false :=
      (rd_wr_ne _ _ (objKey_ne (by decide) hsub hsub)).trans (rd_wrP_self _ _ _ _)
    rw [hfunc, testBit_setBit_self]
  · rw [hrest]
    exact hlost
  · rw [hrest]
    exact howed
  · have hsame : coreOf t c = coreOf u c := by rw [coreOf, coreOf, hrest]
    rw [hsame, (hcores c hc).1, clearedCore, hmap c hc]
  · rw [hrest]
    exact (hcores c hc).2 a ha

/-- Settles O54, command by command: what each makes of the state before its reply, and what the reply then leaves. -/
theorem resetAndPartitionCommands : Obligations.ResetAndPartitionCommands := by
  refine ⟨fun s req x h hok => ⟨fun hrole hshut => ?_, fun hrole v hv hcode => exec_warmReset_refused h hrole hv hcode,
    fun p hp hrole hscope h1 => exec_partReset_active h hp hok hrole hscope h1,
    fun p hp hrole hscope hno => exec_partReset_absent h hp hrole hscope hno,
    fun p hp hrole hfull h1 => exec_partCtrlDestroy_active h hp hrole hfull hok h1,
    fun p hp hrole hfull hno => ⟨exec_partCtrlCreate_good h hp hrole hfull hno, exec_partCtrlCreate_refused h hp hrole hfull hno⟩,
    fun c hc hrole hpower => ⟨fun hidle => ?_, fun v hv hphase hw => ?_⟩, fun n hrole htrains => exec_linkReset_trains h hrole htrains,
    fun c hc hrole hin hmap hret => exec_coreRetire_begins h hrole hc hok hin hmap hret,
    fun k v hrole hv hin hret htop hlay => exec_pcRetire_begins h hrole hv hin hret htop hlay⟩,
    fun s p hp hok hreset hpause hstill hwait => ?_⟩
  · obtain ⟨u, hu, hnv⟩ := exec_warmReset_code h hrole hshut
    obtain ⟨hpower, hsessions, hops, hstage, hcause, hno⟩ := restarted_warm u 2
    exact ⟨_, hu, hpower, hsessions, hops, hstage, hcause, by rw [hno, hnv]⟩
  · obtain ⟨t, ht, ⟨hcleared, hsays⟩, hrest⟩ := exec_coreReset_idle h hc hrole hok hpower hidle
    exact ⟨t, ht, ⟨hcleared.parked, hcleared.placed, hcleared.others, hsays⟩, hrest⟩
  · obtain ⟨t, ht, ⟨hcleared, hsays⟩, hrest⟩ := exec_coreReset_wave h hc hrole hok hpower hv hphase hw
    exact ⟨t, ht, ⟨hcleared.parked, hcleared.placed, hcleared.others, hsays⟩, hrest⟩
  · have hs : OnceEach s := nodup_ids_of_opsOk hok
    exact ⟨partOver s p, exec_partResetComplete_over hs hreset hpause hstill hwait, partOver_spec hs hp hpause⟩

end Sys2Proof.Machine

/-! PROOF. O46 refuted: it speaks of every state, so of one whose collective names a group far above the sixteen there are. -/

namespace Sys2Proof.Machine

open Sys2Proof

/-- A collective run of group 0x3E01FF: 0x3E0200 (= 256 · 0x3E02) above COLL_GROUP_STATE 0 lies CONTAINED_COUNT. -/
def farGroup : CollRun :=
  { group := 0x3E01FF, collId := 0, redop := 0, dir := 0, readySent := false, readyGot := false, sent := 0, done := 0, segs := [],
    chunks := [] }

/-- A PUT that executes on core 0 and waits for a credit of context 0, which is not open, with that run beside it. -/
def farPut : Op :=
  { id := 0, part := 0, queue := 0, desc := plainDesc 0x03 1, phase := .dispatched, core := some 0, entries := [[]], putting := true,
    coll := some farGroup }

/-- The package with port 0 UP. -/
def farPutState : State := wr (fullWith farPut { exec := some 0, wave := true } []) oPORT_STATE 1 2

/-- The port goes DOWN, and the PUT with it, whose broken group leaves 2 in CONTAINED_COUNT, not the 1 of the error counted. -/
theorem portDown_farPutState : ∃ t, exec (.portDown 0) farPutState = .next t ∧ rd t oCONTAINED_COUNT 0 = 2 :=
  ⟨_, rfl, by decide +kernel⟩

/-- Refutes O46: PORT_DOWN lets the PUTs that wait go on, and one whose context is not open ends CTX_DOWN and breaks the group of
its collective run. Of a group number past the sixteen that there are, the state of the group is the object CONTAINED_COUNT, which
the statement says is one more than before. It lacks the premise that the groups of operations are below 16 (`opsOk`). -/
theorem not_portsRepairRetrainAndHold : ¬ Obligations.PortsRepairRetrainAndHold := by
  intro h
  obtain ⟨t, ht, hcount⟩ := portDown_farPutState
  obtain ⟨-, -, -, -, hdown, -⟩ := h farPutState 0
  obtain ⟨t', ht', -, -, hone, -⟩ := hdown (by decide +kernel)
  obtain rfl : t = t' := by simpa [ht] using ht'
  have hbefore : rd farPutState oCONTAINED_COUNT 0 = 0 := by decide +kernel
  rw [hcount, hbefore] at hone
  exact absurd hone (by decide)

end Sys2Proof.Machine
